-- ==== Sys2Proof/Word.lean ====
section
/-! DEFINITION. The words of the Krehorn 4 module and the plainest operations on them: 32-bit lanes, bytes,
bit ranges of a number, and finite tables from number to value with a default (the sparse form in which the
state holds the 49,152 hearths and everything else that comes in large numbers). -/

namespace Sys2Proof

/-- One 32-bit lane of a payload (R19). -/
abbrev Word := BitVec 32

/-- One byte of a bank or tier (R19). -/
abbrev Byte := BitVec 8

/-- `x[hi:lo]` of R5: bits hi down to lo of a number, both inclusive. -/
def bits (x hi lo : Nat) : Nat := (x >>> lo) % 2 ^ (hi + 1 - lo)

/-- One bit of a number. -/
def bit (x i : Nat) : Bool := x.testBit i

/-- A bit as a number. -/
def b2n (b : Bool) : Nat := if b then 1 else 0

/-- Ceiling division. -/
def cdiv (a b : Nat) : Nat := (a + b - 1) / b

/-- The least multiple of `m` that is at least `a`. -/
def roundUp (a m : Nat) : Nat := cdiv a m * m

/-- A table from number to value, held as a list of pairs in rising order of the key. -/
abbrev Tab (α : Type) := List (Nat × α)

/-- The value of a key, or the default the caller names. -/
def Tab.get {α : Type} (d : α) : Tab α → Nat → α
  | [], _ => d
  | (k, v) :: t, i => if k = i then v else Tab.get d t i

/-- The value of a key, if it is listed. -/
def Tab.find {α : Type} : Tab α → Nat → Option α
  | [], _ => none
  | (k, v) :: t, i => if k = i then some v else Tab.find t i

/-- Write one key. -/
def Tab.set {α : Type} : Tab α → Nat → α → Tab α
  | [], i, x => [(i, x)]
  | (k, v) :: t, i, x =>
    if k = i then (i, x) :: t
    else if i < k then (i, x) :: (k, v) :: t
    else (k, v) :: Tab.set t i x

/-- Remove one key. -/
def Tab.drop {α : Type} (t : Tab α) (i : Nat) : Tab α := t.filter (fun e => e.1 != i)

/-- Change one key's value. -/
def Tab.modify {α : Type} (d : α) (t : Tab α) (i : Nat) (f : α → α) : Tab α :=
  Tab.set t i (f (Tab.get d t i))

end Sys2Proof
end

