-- ==== Sys2Proof/Syntax.lean ====
section
/-! DEFINITION. The syntax of the Krehorn 4 module: the node record (R39), the engine command entry with the
body of each KIND (R272, R280, R298, R330, R356), the Viroft submission (R364), and the one inductive `Instr`
with a constructor for every row of the opcode table. A node instruction carries its record, an engine command
its entry header and body, a Viroft command its fields, a host write the value written, and an event the place
where it comes about. -/

namespace Sys2Proof

/-- A destination field (R49, Table 3-3). -/
structure Dest where
  /-- 1: the destination is valid. -/
  v : BitVec 1
  /-- Output port of Table 3-4. -/
  oport : BitVec 4
  /-- Node at the far end, or mesh route entry for port 13. -/
  node : BitVec 4
  /-- Operand port at the far end: 0 A, 1 B, 2 C, 3 P. -/
  opnd : BitVec 2
  deriving DecidableEq, Repr

/-- The fields of a node record other than its opcode (R39, Table 3-1). The opcode is the constructor. -/
structure Rec where
  fmt : BitVec 4
  ary : BitVec 2
  tag : BitVec 3
  lit : BitVec 2
  rnd : BitVec 3
  sat : BitVec 1
  scl : BitVec 2
  pm : BitVec 2
  wgt : BitVec 3
  jdq : BitVec 6
  d1 : Dest
  d0 : Dest
  rsv : BitVec 4
  lit32 : BitVec 32
  deriving DecidableEq, Repr

/-- The header and the sequence word of an engine command entry, without its KIND (R272, Table 15-2). -/
structure EntryHeader where
  status : BitVec 8
  nv : BitVec 1
  irq : BitVec 1
  cmp : BitVec 1
  rsvA : BitVec 13
  rtag : BitVec 32
  rsvB : BitVec 9
  next : BitVec 49
  rsvC : BitVec 6
  cseq : BitVec 64
  deriving DecidableEq, Repr

/-- Body of COPY and FILL (Table 15-6). `stray` holds when a body byte that the table does not name is not zero. -/
structure XferBody where
  src : BitVec 64
  dst : BitVec 64
  len : BitVec 64
  wpc : BitVec 8
  pat : BitVec 32
  stray : Bool
  deriving DecidableEq, Repr

/-- Body of COPYT and PERM (Table 15-6). -/
structure TensorBody where
  stid : BitVec 16
  dtid : BitVec 16
  pcode : BitVec 8
  stray : Bool
  deriving DecidableEq, Repr

/-- Body of GATH and SCAT (Table 15-6). -/
structure RowsBody where
  src : BitVec 64
  dst : BitVec 64
  idx : BitVec 64
  rsz : BitVec 32
  nidx : BitVec 16
  nrows : BitVec 32
  rstr : BitVec 32
  stray : Bool
  deriving DecidableEq, Repr

/-- Body of COPYR (Table 16-3). -/
structure CopyrBody where
  sd : BitVec 64
  src : BitVec 64
  srcv : BitVec 64
  dpos : BitVec 32
  spos : BitVec 32
  nrow : BitVec 16
  stray : Bool
  deriving DecidableEq, Repr

/-- Body of KVPATCH (Table 16-3); MOVED and STALE are results. -/
structure PatchBody where
  sd : BitVec 64
  first : BitVec 32
  last : BitVec 32
  delta : BitVec 16
  rot : BitVec 8
  moved : BitVec 32
  stale : BitVec 32
  stray : Bool
  deriving DecidableEq, Repr

/-- Body of COMPACT (Table 16-3); COUNT is a result. -/
structure CompactBody where
  sd : BitVec 64
  outk : BitVec 64
  outv : BitVec 64
  outp : BitVec 64
  top : BitVec 32
  count : BitVec 24
  thr : BitVec 8
  deriving DecidableEq, Repr

/-- Body of PROMO and DEMO (Table 18-3); PREV is a result. -/
structure PageBody where
  va : BitVec 64
  dpa : BitVec 64
  krtag : BitVec 32
  flags : BitVec 8
  prev : BitVec 64
  stray : Bool
  deriving DecidableEq, Repr

/-- Body of REDSC, ALLGA and ALLRD (Table 20-2); MAP is a result. -/
structure CollBody where
  tid : BitVec 16
  op : BitVec 8
  nm : BitVec 8
  rank : BitVec 8
  topo : BitVec 8
  grp : BitVec 64
  ctag : BitVec 32
  map : BitVec 16
  stray : Bool
  deriving DecidableEq, Repr

/-- Body of SEND and RECV (Table 20-2); MAP is a result. -/
structure PeerBody where
  buf : BitVec 64
  len : BitVec 64
  peer : BitVec 16
  link : BitVec 8
  wpc : BitVec 8
  mtag : BitVec 32
  map : BitVec 16
  stray : Bool
  deriving DecidableEq, Repr

/-- Body of QFENCE (Table 15-7). -/
structure FenceBody where
  name0 : BitVec 64
  name1 : BitVec 64
  name2 : BitVec 64
  name3 : BitVec 64
  stray : Bool
  deriving DecidableEq, Repr

/-- Body of WDRAW (Table 15-7). -/
structure WithdrawBody where
  tag : BitVec 32
  mask : BitVec 32
  stray : Bool
  deriving DecidableEq, Repr

/-- Body of SIGNAL (Table 15-7). -/
structure SignalBody where
  va : BitVec 64
  val : BitVec 64
  op : BitVec 8
  stray : Bool
  deriving DecidableEq, Repr

/-- Body of WAITV (Table 15-7). -/
structure WaitBody where
  va : BitVec 64
  val : BitVec 64
  cmp : BitVec 8
  tmo : BitVec 32
  stray : Bool
  deriving DecidableEq, Repr

/-- The withheld access that RESUME and ABORT name (R364, Table 20-3): a QID, or 0xFFFF and a fabric node. -/
structure Withheld where
  qid : BitVec 16
  die : BitVec 8
  x : BitVec 8
  y : BitVec 8
  node : BitVec 8
  slot : BitVec 2
  deriving DecidableEq, Repr

/-- A kernel handed to the module (R250): by the host through queue pair `pair`, or by a committed SPAWN of the
kernel in dependence-table entry `parent` (R260). -/
structure Submission where
  /-- Launch record address, in the submitting context. -/
  lra : Nat
  /-- The submitting module context. -/
  ctx : Nat
  /-- Command identifier of the LAUNCH, 0 for SPAWN. -/
  cid : Nat
  /-- The queue pair of a LAUNCH. -/
  pair : Option Nat
  /-- The dependence-table entry of the spawning kernel. -/
  parent : Option Nat
  /-- SPAWN's AFTER. -/
  after : Bool
  /-- SPAWN's AT. -/
  at' : Bool
  /-- The tensor whose registered producer it is: context and identifier (R132). -/
  recompute : Option (Nat × Nat)
  /-- Region and colour of the activation whose SPAWN it is (R260). -/
  spawner : Option (Nat × Nat) := none
  deriving DecidableEq, Repr

/-- Where an uncorrectable error is found (R346, Table 19-3). -/
inductive ErrorSite where
  /-- A token in an input queue, a JDQ entry or a frame slot of a node: the colour it carries. -/
  | token (h k c : Nat)
  /-- A damper entry of a hearth. -/
  | damper (h id : Nat)
  /-- One accumulator of a hearth. -/
  | accumulator (h i : Nat)
  /-- An ember plane of a hearth and slot. -/
  | plane (h k : Nat)
  /-- A colour-table entry of a region. -/
  | colour (g c : Nat)
  /-- The node store of a hearth and slot. -/
  | nodeStore (h k n : Nat)
  /-- The switch or predicate tables of a hearth and slot. -/
  | switchTable (h k : Nat)
  /-- The bindings or descriptors of a hearth and slot. -/
  | bindings (h k : Nat)
  /-- A granule of a bank, T1 or T2. -/
  | granule (a : Nat)
  /-- The reply of a request on its way to its node: bits of lane 0 that the error turns. -/
  | reply (h k id bits : Nat)
  /-- An access of a queue's engine. -/
  | engine (q : Nat)
  /-- A distributor or Stoker mirror of a die. -/
  | distributor (d : Nat)
  deriving DecidableEq, Repr

/-- What a data flit of a flue link delivers to the collective engine (R356 to R360). -/
inductive FlueItem where
  /-- The peer of a given rank has started its matching collective entry on a piece of `elems` elements. -/
  | started (ctag : BitVec 32) (rank elems fmt : Nat)
  /-- A partial result of one chunk on its way, or its final value: the sending rank, the elements in order as bit
  patterns (a partial sum of floats in FP32), whether they are poisoned, and the ranks whose contributions are in it. -/
  | piece (ctag : BitVec 32) (rank chunk : Nat) (final : Bool) (elems : List Nat) (tnt : Bool) (ranks : Nat)
  /-- A survivor's end of the collective: its contribution bitmap for every chunk. -/
  | ended (ctag : BitVec 32) (rank : Nat) (maps : List Nat)
  /-- A member has become lost. -/
  | lost (ctag : BitVec 32) (rank : Nat)
  /-- Two members have found pieces that do not agree. -/
  | disagree (ctag : BitVec 32)
  /-- A RECV of the peer waits for a SEND: its tag, its length, and the number that names the transfer. -/
  | posted (mtag : BitVec 32) (len id : Nat)
  /-- The next bytes of the peer's SEND for a transfer, with the SEND's length and the bytes' poison. -/
  | sent (id len : Nat) (bytes : List Byte) (tnt : Bool)
  /-- The peer's RECV has performed every byte of a transfer. -/
  | performed (id : Nat)
  /-- Part i of the messages of a longer item, which the flits that follow complete. -/
  | more (x : FlueItem) (i : Nat)
  deriving DecidableEq, Repr

/-- A flue flit after forward error correction (R353, R354): its header, payload bytes 4 to 243, its CRC-32, and what the
messages in its payload say. -/
structure Flit where
  header : BitVec 32
  bytes : List Byte
  crc : BitVec 32
  payload : List FlueItem
  deriving DecidableEq, Repr

def Flit.seq (f : Flit) : BitVec 12 := f.header.extractLsb' 20 12
def Flit.ack (f : Flit) : BitVec 12 := f.header.extractLsb' 8 12
def Flit.typ (f : Flit) : BitVec 4 := f.header.extractLsb' 4 4

/-- What one side of a link signs in the Config exchange (R355): its module ID, its lane map, its flit format and the nonce that its
partner has chosen. -/
structure ConfigSide where
  moduleId : BitVec 16
  lanes : Nat
  format : Nat
  nonce : BitVec 256
  deriving DecidableEq, Repr

/-- What comes from the partner in the Config exchange (R355): what it has signed, the key under which its signature verifies, if it
verifies under one, and the nonce that it has chosen for this side to sign. -/
structure ConfigOffer where
  side : ConfigSide
  key : Option Nat
  asks : BitVec 256
  deriving DecidableEq, Repr

/-- Where a step comes about: what the module is at when it runs an instruction. A node instruction finds its
hearth, slot and node here, an engine command its queue, a Viroft command its queue pair, and each event of the
module what it happens to. -/
inductive Locus where
  /-- The module as a whole. -/
  | module
  /-- Hearth, context slot and node. -/
  | node (h k n : Nat)
  /-- One operand port of a node: 0 A, 1 B, 2 C, 3 P. -/
  | port (h k n p : Nat)
  /-- A context slot of a hearth. -/
  | slot (h k : Nat)
  /-- A numbered thing of a hearth and slot: a request of its ordering buffer. -/
  | request (h k id : Nat)
  /-- A damper entry of a hearth. -/
  | entry (h id : Nat)
  /-- A foreign touch of a hearth's accumulators, or of its stay register, by a module context. -/
  | touch (h m : Nat) (stay : Bool)
  /-- A strike at a hearth in a cycle. -/
  | strike (h c : Nat)
  /-- A region. -/
  | region (g : Nat)
  /-- A colour of a region. -/
  | colour (g c : Nat)
  /-- A purge of colour `c` in region `src`, noticed by region `g`. -/
  | notice (g src c : Nat)
  /-- A region that leaves and one that returns. -/
  | swap (out g : Nat)
  /-- A token, message, request or reply in flight. -/
  | flight (id : Nat)
  /-- A die. -/
  | die (d : Nat)
  /-- A module context. -/
  | context (m : Nat)
  /-- A dependence-table entry. -/
  | kernel (e : Nat)
  /-- A command queue, by its QID. -/
  | queue (q : Nat)
  /-- A member of a queue's collective. -/
  | member (q rank : Nat)
  /-- A flue link. -/
  | link (l : Nat)
  /-- A Viroft queue pair. -/
  | pair (p : Nat)
  deriving DecidableEq, Repr

/-- Every row of the opcode table: the 180 node instructions, the 20 engine commands, and the steps of the module
that are not instructions. A step's place is its locus; what the constructor carries is what the place does not
say: the node record, the entry, the command's fields, the value written. -/
inductive Instr where
  /-- `PASS`, R81: Firing that sends the port A token unchanged to its destinations, lanes qualified by the predicate. -/
  | pass (r : Rec)
  /-- `CONST`, R84: Firing that emits the literal in every lane, once on the start token or on each A token. -/
  | const (r : Rec)
  /-- `STEER`, R81: Firing that sends A to D0 or D1 according to bit 0 of the predicate. -/
  | steer (r : Rec)
  /-- `MERGE`, R82: Firing that passes the token of the arm the predicate names, keeping tag order. -/
  | merge (r : Rec)
  /-- `MERGEU`, R81: Firing that passes whichever arm's token arrived, in arrival order. -/
  | mergeu (r : Rec)
  /-- `GATE`, R81: Firing that emits A once a B token of the same tag is present, discarding B's payload. -/
  | gate (r : Rec)
  /-- `SYNC`, R83: Firing that emits A to D0 and B to D1 once all operands of one tag are present. -/
  | sync (r : Rec)
  /-- `SEL`, R83: Firing that selects each lane from A or B by bit 0 of C's lane. -/
  | sel (r : Rec)
  /-- `WAVE`, R85: Firing that emits A at wave + 1 within the loop window and counts the firing. -/
  | wave (r : Rec)
  /-- `WEXIT`, R85: Firing that emits A at the loop's entry wave LWAVE and counts the firing. -/
  | wexit (r : Rec)
  /-- `CALLOC`, R86: Firing that allocates a child colour and frame run and sends A into it. -/
  | calloc (r : Rec)
  /-- `CFREE`, R87: Firing that ends A's colour, checking for surplus tokens and requesting commit. -/
  | cfree (r : Rec)
  /-- `CBIND`, R88: Firing that emits A under the colour named in C at wave 0. -/
  | cbind (r : Rec)
  /-- `CRET`, R88: Firing that holds A for release into the parent colour at the commit of its own colour. -/
  | cret (r : Rec)
  /-- `PACK`, R89: Firing that packs the low halves of A and B lanes into one token. -/
  | pack (r : Rec)
  /-- `UNPACK`, R89: Firing that sends low half-lanes to D0 and high half-lanes to D1. -/
  | unpack (r : Rec)
  /-- `INJECT`, R88: Firing that admits a mesh token into the region and records its sender for rollback tracking. -/
  | inject (r : Rec)
  /-- `SINK`, R90: Firing that consumes its operands and stages their flags. -/
  | sink (r : Rec)
  /-- `CNTF`, R91: Firing that counts tokens of a colour and passes every N-th with accumulated flags. -/
  | cntf (r : Rec)
  /-- `SPAWN`, R260: Firing that stages submission of a kernel from the fabric, accepted at commit. -/
  | spawn (r : Rec)
  /-- `TRAP`, R92: Firing that faults with a trap code when a qualifying lane of A is non-zero, else emits A. -/
  | trap (r : Rec)
  /-- `MARK`, R318: Firing that emits A and then, in a second firing, a barrier or snapshot marker. -/
  | mark (r : Rec)
  /-- `PRED`, R93: Firing that makes a predicate bit per lane from whether any element is non-zero. -/
  | pred (r : Rec)
  /-- `PAND`, R93: Firing that ANDs two predicates lane by lane. -/
  | pand (r : Rec)
  /-- `POR`, R93: Firing that ORs two predicates lane by lane. -/
  | por (r : Rec)
  /-- `PXOR`, R93: Firing that XORs two predicates lane by lane. -/
  | pxor (r : Rec)
  /-- `PNOT`, R93: Firing that inverts a predicate lane by lane. -/
  | pnot (r : Rec)
  /-- `VOTE`, R93: Firing that broadcasts any, all or parity of the predicate bits to every lane. -/
  | vote (r : Rec)
  /-- `FLAGS`, R94: Firing that stages A's flags and emits them as data or emits A with cleared flags. -/
  | flags (r : Rec)
  /-- `DELAY`, R81: Firing that holds A in a delay-matching entry for n cycles. -/
  | delay (r : Rec)
  /-- `TSGET`, R95: Firing that emits the colour's timestamp, tag or parent information. -/
  | tsget (r : Rec)
  /-- `ADD`, R100: Firing that adds elements of A and B, wrapping or saturating. -/
  | add (r : Rec)
  /-- `SUB`, R100: Firing that subtracts elements of B from A. -/
  | sub (r : Rec)
  /-- `MUL`, R100: Firing that multiplies elements, keeping the low part or saturating. -/
  | mul (r : Rec)
  /-- `MULH`, R100: Firing that returns the high half of the signed product. -/
  | mulh (r : Rec)
  /-- `MULHU`, R100: Firing that returns the high half of the unsigned product. -/
  | mulhu (r : Rec)
  /-- `MAD`, R100: Firing that computes a × b + c per element. -/
  | mad (r : Rec)
  /-- `DIV`, R101: Firing that divides signed elements, truncating toward zero. -/
  | div (r : Rec)
  /-- `DIVU`, R101: Firing that divides unsigned elements. -/
  | divu (r : Rec)
  /-- `REM`, R101: Firing that returns the signed remainder. -/
  | rem (r : Rec)
  /-- `REMU`, R101: Firing that returns the unsigned remainder. -/
  | remu (r : Rec)
  /-- `NEG`, R100: Firing that negates each element. -/
  | neg (r : Rec)
  /-- `ABS`, R100: Firing that takes the absolute value of each element. -/
  | abs (r : Rec)
  /-- `MIN`, R100: Firing that takes the signed minimum per element. -/
  | min (r : Rec)
  /-- `MAX`, R100: Firing that takes the signed maximum per element. -/
  | max (r : Rec)
  /-- `MINU`, R100: Firing that takes the unsigned minimum per element. -/
  | minu (r : Rec)
  /-- `MAXU`, R100: Firing that takes the unsigned maximum per element. -/
  | maxu (r : Rec)
  /-- `AND`, R102: Firing that ANDs lanes bitwise. -/
  | and (r : Rec)
  /-- `OR`, R102: Firing that ORs lanes bitwise. -/
  | or (r : Rec)
  /-- `XOR`, R102: Firing that XORs lanes bitwise. -/
  | xor (r : Rec)
  /-- `NOT`, R102: Firing that inverts lanes bitwise. -/
  | not (r : Rec)
  /-- `ANDN`, R102: Firing that computes a AND NOT b. -/
  | andn (r : Rec)
  /-- `SHL`, R102: Firing that shifts elements left, wrapping or saturating. -/
  | shl (r : Rec)
  /-- `SHR`, R102: Firing that shifts elements right logically. -/
  | shr (r : Rec)
  /-- `SRA`, R102: Firing that shifts elements right arithmetically. -/
  | sra (r : Rec)
  /-- `ROL`, R102: Firing that rotates elements left. -/
  | rol (r : Rec)
  /-- `CLZ`, R102: Firing that counts leading zeros per element. -/
  | clz (r : Rec)
  /-- `POPC`, R102: Firing that counts set bits per element. -/
  | popc (r : Rec)
  /-- `BREV`, R102: Firing that reverses the bits of each element. -/
  | brev (r : Rec)
  /-- `BFX`, R102: Firing that extracts a bit field, sign- or zero-extended. -/
  | bfx (r : Rec)
  /-- `BFI`, R102: Firing that inserts B's low bits into a field of A. -/
  | bfi (r : Rec)
  /-- `ADDS`, R100: Firing that adds elements with saturation always. -/
  | adds (r : Rec)
  /-- `SUBS`, R100: Firing that subtracts elements with saturation always. -/
  | subs (r : Rec)
  /-- `CMPEQ`, R104: Firing that emits a predicate of lane equality. -/
  | cmpeq (r : Rec)
  /-- `CMPNE`, R104: Firing that emits a predicate of lane inequality. -/
  | cmpne (r : Rec)
  /-- `CMPLT`, R104: Firing that emits a predicate of signed less-than. -/
  | cmplt (r : Rec)
  /-- `CMPLE`, R104: Firing that emits a predicate of signed less-or-equal. -/
  | cmple (r : Rec)
  /-- `CMPLTU`, R104: Firing that emits a predicate of unsigned less-than. -/
  | cmpltu (r : Rec)
  /-- `CMPLEU`, R104: Firing that emits a predicate of unsigned less-or-equal. -/
  | cmpleu (r : Rec)
  /-- `IDX`, R106: Firing that forms a strided linear index per lane. -/
  | idx (r : Rec)
  /-- `IDX2`, R106: Firing that forms a two-term linear index per lane. -/
  | idx2 (r : Rec)
  /-- `WRAP`, R107: Firing that maps a sequence position to a ring slot and wrap generation. -/
  | wrap (r : Rec)
  /-- `RANGE`, R108: Firing that makes the first of COUNT emissions of an arithmetic range from one A token. -/
  | range (r : Rec)
  /-- `SHUF`, R109: Firing that permutes A's lanes by indices in B. -/
  | shuf (r : Rec)
  /-- `LANEX`, R109: Firing that extracts lane K of A as a one-lane token. -/
  | lanex (r : Rec)
  /-- `LANEI`, R109: Firing that inserts B's lane 0 into lane K of A. -/
  | lanei (r : Rec)
  /-- `BCAST`, R109: Firing that broadcasts A's lane 0 to a chosen width. -/
  | bcast (r : Rec)
  /-- `RSUM`, R110: Firing that sums all elements exactly into one lane. -/
  | rsum (r : Rec)
  /-- `RMIN`, R110: Firing that reduces all elements to their minimum. -/
  | rmin (r : Rec)
  /-- `RMAX`, R110: Firing that reduces all elements to their maximum. -/
  | rmax (r : Rec)
  /-- `FADD`, R113: Firing that adds floating elements with one rounding. -/
  | fadd (r : Rec)
  /-- `FSUB`, R113: Firing that subtracts floating elements. -/
  | fsub (r : Rec)
  /-- `FMUL`, R113: Firing that multiplies floating elements. -/
  | fmul (r : Rec)
  /-- `FMA`, R113: Firing that computes a × b + c with one rounding. -/
  | fma (r : Rec)
  /-- `FNMA`, R113: Firing that computes c − a × b with one rounding. -/
  | fnma (r : Rec)
  /-- `FMIN`, R113: Firing that takes minimumNumber per element. -/
  | fmin (r : Rec)
  /-- `FMAX`, R113: Firing that takes maximumNumber per element. -/
  | fmax (r : Rec)
  /-- `FABS`, R113: Firing that clears the sign of each element. -/
  | fabs (r : Rec)
  /-- `FNEG`, R113: Firing that inverts the sign of each element. -/
  | fneg (r : Rec)
  /-- `FCMPEQ`, R114: Firing that emits a predicate of FP32 equality. -/
  | fcmpeq (r : Rec)
  /-- `FCMPLT`, R114: Firing that emits a predicate of FP32 less-than. -/
  | fcmplt (r : Rec)
  /-- `FCMPLE`, R114: Firing that emits a predicate of FP32 less-or-equal. -/
  | fcmple (r : Rec)
  /-- `FCMPUN`, R114: Firing that emits a predicate of unordered comparison. -/
  | fcmpun (r : Rec)
  /-- `FCLASS`, R114: Firing that classifies each element into a one-hot code. -/
  | fclass (r : Rec)
  /-- `FDIV`, R113: Firing that divides floating elements. -/
  | fdiv (r : Rec)
  /-- `FSQRT`, R113: Firing that takes the square root of each element. -/
  | fsqrt (r : Rec)
  /-- `FRCP`, R115: Firing that computes a faithful reciprocal. -/
  | frcp (r : Rec)
  /-- `FRSQ`, R115: Firing that computes a faithful reciprocal square root. -/
  | frsq (r : Rec)
  /-- `FEXP2`, R115: Firing that computes a faithful 2^x. -/
  | fexp2 (r : Rec)
  /-- `FLOG2`, R115: Firing that computes a faithful log2. -/
  | flog2 (r : Rec)
  /-- `FSIN`, R115: Firing that computes a faithful sine. -/
  | fsin (r : Rec)
  /-- `FCOS`, R115: Firing that computes a faithful cosine. -/
  | fcos (r : Rec)
  /-- `FTANH`, R115: Firing that computes a faithful tanh. -/
  | ftanh (r : Rec)
  /-- `FSIGM`, R115: Firing that computes a faithful logistic sigmoid. -/
  | fsigm (r : Rec)
  /-- `FSILU`, R115: Firing that computes a faithful x × sigmoid(x). -/
  | fsilu (r : Rec)
  /-- `CVTF`, R117: Firing that converts between floating formats. -/
  | cvtf (r : Rec)
  /-- `CVTFI`, R117: Firing that converts floating elements to saturated integers. -/
  | cvtfi (r : Rec)
  /-- `CVTIF`, R117: Firing that converts integer elements to a floating format. -/
  | cvtif (r : Rec)
  /-- `QNTB`, R119: Firing that encodes A's elements into a block format against B's scale word. -/
  | qntb (r : Rec)
  /-- `DQNTB`, R120: Firing that decodes one part of a block-format token into a floating format. -/
  | dqntb (r : Rec)
  /-- `EXPSEL`, R118: Firing that chooses a block scale word from A's maximum magnitude. -/
  | expsel (r : Rec)
  /-- `SCL`, R121: Firing that multiplies by B and marks the output scaled. -/
  | scl (r : Rec)
  /-- `USCL`, R121: Firing that multiplies by B and clears the scaled mark. -/
  | uscl (r : Rec)
  /-- `FRSUM`, R122: Firing that sums elements in fixed order in FP32. -/
  | frsum (r : Rec)
  /-- `FRMAX`, R122: Firing that reduces elements with FMAX. -/
  | frmax (r : Rec)
  /-- `FRMIN`, R122: Firing that reduces elements with FMIN. -/
  | frmin (r : Rec)
  /-- `SMRG`, R123: Firing that merges two base-2 softmax partials. -/
  | smrg (r : Rec)
  /-- `ROPE`, R124: Firing that rotates element pairs by angles from B. -/
  | rope (r : Rec)
  /-- `TDLD`, R137: Firing that stages a whole identifier-table entry image. -/
  | tdld (r : Rec)
  /-- `TDSET`, R137: Firing that stages one field of an identifier entry. -/
  | tdset (r : Rec)
  /-- `TDDROP`, R137: Firing that stages D := 1 for a tensor. -/
  | tddrop (r : Rec)
  /-- `TDKEEP`, R137: Firing that stages D := 0 and RP := 0 for a tensor. -/
  | tdkeep (r : Rec)
  /-- `TDREG`, R137: Firing that stages the registered producer launch record of a tensor. -/
  | tdreg (r : Rec)
  /-- `TDQ`, R138: Firing that reads a field of a committed identifier entry. -/
  | tdq (r : Rec)
  /-- `TRIC`, R157: Beginning of a three-operand contraction by a descriptor, after its checks. -/
  | tric (r : Rec)
  /-- `MMA`, R157: Beginning of a two-operand contraction with c = 1. -/
  | mma (r : Rec)
  /-- `TRIS`, R157: Beginning of a structured-sparse three-operand contraction. -/
  | tris (r : Rec)
  /-- `MMAS`, R157: Beginning of a structured-sparse two-operand contraction. -/
  | mmas (r : Rec)
  /-- `HAD`, R158: Firing that applies a scaled Hadamard transform to runs of elements. -/
  | had (r : Rec)
  /-- `LUTP`, R159: Firing that fills lookup tables in the stay register. -/
  | lutp (r : Rec)
  /-- `LUTM`, R159: Firing that accumulates table lookups driven by I4 weights. -/
  | lutm (r : Rec)
  /-- `ACCRD`, R160: Firing that converts accumulators into output lanes, optionally clearing them. -/
  | accrd (r : Rec)
  /-- `ACCZ`, R161: Firing that zeroes a range of accumulators. -/
  | accz (r : Rec)
  /-- `ACCLD`, R161: Firing that loads accumulators from A's lanes. -/
  | accld (r : Rec)
  /-- `TSTAY`, R162: Firing that writes elements into the stay register. -/
  | tstay (r : Rec)
  /-- `TXPR`, R163: Firing that takes a token of a 32 × 32 block into the transposition buffer. -/
  | txpr (r : Rec)
  /-- `CDXSET`, R164: Firing that checks and stages a contraction descriptor. -/
  | cdxset (r : Rec)
  /-- `ACCX`, R161: Firing that adds A's lanes into accumulators. -/
  | accx (r : Rec)
  /-- `AGEN`, R169: Firing that makes the first offset emission of an address stream. -/
  | agen (r : Rec)
  /-- `LD`, R173: Firing that issues a load of WM1 + 1 lanes at an offset. -/
  | ld (r : Rec)
  /-- `ST`, R174: Firing that stages B's lanes into the damper at an offset. -/
  | st (r : Rec)
  /-- `LDX`, R173: Firing that loads one word per lane at per-lane offsets. -/
  | ldx (r : Rec)
  /-- `LDS`, R173: Firing that loads from the hearth's own bank at fixed latency. -/
  | lds (r : Rec)
  /-- `STS`, R174: Firing that stores into the own bank, optionally advancing a write pointer. -/
  | sts (r : Rec)
  /-- `LDT`, R173: Firing that loads a run of a tensor with its scale word. -/
  | ldt (r : Rec)
  /-- `STT`, R174: Firing that stores a run of a tensor and its scale word. -/
  | stt (r : Rec)
  /-- `LDN`, R173: Firing that loads outside timestamp order, entering no read set. -/
  | ldn (r : Rec)
  /-- `PREF`, R175: Firing that hints a prefetch, or only sends chain links with NOP = 1. -/
  | pref (r : Rec)
  /-- `AADD`, R176: Firing that reads old words and stages an integer add at commit. -/
  | aadd (r : Rec)
  /-- `AFADD`, R176: Firing that reads old words and stages an FP32 add at commit. -/
  | afadd (r : Rec)
  /-- `AMIN`, R176: Firing that reads old words and stages a minimum at commit. -/
  | amin (r : Rec)
  /-- `AMAX`, R176: Firing that reads old words and stages a maximum at commit. -/
  | amax (r : Rec)
  /-- `AAND`, R176: Firing that reads old words and stages an AND at commit. -/
  | aand (r : Rec)
  /-- `AOR`, R176: Firing that reads old words and stages an OR at commit. -/
  | aor (r : Rec)
  /-- `AXOR`, R176: Firing that reads old words and stages an XOR at commit. -/
  | axor (r : Rec)
  /-- `AXCHG`, R176: Firing that reads old words and stages an exchange at commit. -/
  | axchg (r : Rec)
  /-- `ACAS`, R177: Firing that compares old words with B and stages swaps checked again at commit. -/
  | acas (r : Rec)
  /-- `AINC`, R176: Firing that reads old words and stages a wrapping increment at commit. -/
  | ainc (r : Rec)
  /-- `OPTST`, R178: Firing that stages an optimiser update of a row of FP32 weights. -/
  | optst (r : Rec)
  /-- `RETW`, R304: Firing that stages byte-maximum updates of retention bytes. -/
  | retw (r : Rec)
  /-- `FENCE`, R179: Firing that holds A until prior commits have performed within its scope. -/
  | fence (r : Rec)
  /-- `MCAST`, R180: Firing that stores B and sends B to consumers in the same firing. -/
  | mcast (r : Rec)
  /-- `WPTR`, R182: Firing that emits the value of a write pointer. -/
  | wptr (r : Rec)
  /-- `WPWAIT`, R182: Firing that emits A once a write pointer reaches a threshold. -/
  | wpwait (r : Rec)
  /-- `ENQ`, R278: Firing that stages an entry image store and an append to a queue. -/
  | enq (r : Rec)
  /-- `TAIL`, R278: Firing that stages a tail advance of a queue. -/
  | tail (r : Rec)
  /-- `SEQRD`, R278: Firing that reads DONE, TAILN or APPN of a queue. -/
  | seqrd (r : Rec)
  /-- `SEQWAIT`, R278: Firing that emits A once a queue's entry n has completed. -/
  | seqwait (r : Rec)
  /-- `CFGLD`, R222: Firing that checks an image header and starts loading it into another region. -/
  | cfgld (r : Rec)
  /-- `CALLG`, R223: Firing that allocates a call colour and marks a grid call pending. -/
  | callg (r : Rec)
  /-- `RETG`, R228: Firing that ends the call colour and holds the result for return. -/
  | retg (r : Rec)
  /-- `TAILG`, R229: Firing that checks a new configuration for a tail swap at the next boundary. -/
  | tailg (r : Rec)
  /-- `DRAIN`, R308: Firing that makes every source of the slot emit a barrier marker. -/
  | drain (r : Rec)
  /-- `PRIO`, R244: Firing that stages a change of context priority. -/
  | prio (r : Rec)
  /-- `YIELD`, R244: Firing that ranks its slot last at the priority stage for N cycles. -/
  | yield (r : Rec)
  /-- `SNAP`, R313: Firing that latches snapshot registers and optionally starts a marker snapshot. -/
  | snap (r : Rec)
  /-- `RDSR`, R242: Firing that reads a status register. -/
  | rdsr (r : Rec)
  /-- `WRSR`, R243: Firing that stages a status register write applied at commit. -/
  | wrsr (r : Rec)
  /-- `HALT`, R245: Firing that stages halting of a context at commit. -/
  | halt (r : Rec)
  /-- `WDOG`, R316: Firing that sets WDOG_LIM and resets the quiescence count. -/
  | wdog (r : Rec)
  /-- `RANGE_EMISSION`, R108: A later emission of a RANGE node, competing as its own firing. -/
  | rangeEmission (r : Rec)
  /-- `AGEN_EMISSION`, R169: A later offset emission of an AGEN stream, as its own firing. -/
  | agenEmission (r : Rec)
  /-- `MARK_MARKER_EMISSION`, R318: Second firing of MARK that emits the marker. -/
  | markMarkerEmission (r : Rec)
  /-- `UNCORRECTABLE_ERROR`, R346: An uncorrectable error is found and handled by where it lies. -/
  | uncorrectableError (w : ErrorSite)
  /-- `KERNEL_ACCEPT`, R250: A kernel is journalled, checked and entered in the dependence table. -/
  | kernelAccept (a : Submission)
  /-- `COPY`, R281: Engine entry that copies LEN bytes from SRC to DST. -/
  | copy (e : EntryHeader) (b : XferBody)
  /-- `COPYT`, R282: Engine entry that copies a tensor between layouts. -/
  | copyt (e : EntryHeader) (b : TensorBody)
  /-- `PERM`, R284: Engine entry that permutes tensor dimensions. -/
  | perm (e : EntryHeader) (b : TensorBody)
  /-- `FILL`, R281: Engine entry that fills LEN bytes with a pattern. -/
  | fill (e : EntryHeader) (b : XferBody)
  /-- `GATH`, R286: Engine entry that gathers rows by an index list. -/
  | gath (e : EntryHeader) (b : RowsBody)
  /-- `SCAT`, R286: Engine entry that scatters rows by an index list. -/
  | scat (e : EntryHeader) (b : RowsBody)
  /-- `COPYR`, R300: Engine entry that writes rows at sequence positions, re-rotating keys. -/
  | copyr (e : EntryHeader) (b : CopyrBody)
  /-- `KVPATCH`, R301: Engine entry that shifts a run of sequence positions. -/
  | kvpatch (e : EntryHeader) (b : PatchBody)
  /-- `COMPACT`, R302: Engine entry that gathers the sequence rows worth keeping. -/
  | compact (e : EntryHeader) (b : CompactBody)
  /-- `PROMO`, R331: Engine entry that moves a page to a lower tier and leaves a forward. -/
  | promo (e : EntryHeader) (b : PageBody)
  /-- `DEMO`, R331: Engine entry that moves a page to a higher tier and leaves a forward. -/
  | demo (e : EntryHeader) (b : PageBody)
  /-- `REDSC`, R358: Collective entry that reduce-scatters a tensor across members. -/
  | redsc (e : EntryHeader) (b : CollBody)
  /-- `ALLGA`, R358: Collective entry that all-gathers chunks across members. -/
  | allga (e : EntryHeader) (b : CollBody)
  /-- `ALLRD`, R358: Collective entry that all-reduces a tensor across members. -/
  | allrd (e : EntryHeader) (b : CollBody)
  /-- `SEND`, R360: Collective entry that sends bytes to a matching peer RECV. -/
  | send (e : EntryHeader) (b : PeerBody)
  /-- `RECV`, R360: Collective entry that receives bytes from a matching peer SEND. -/
  | recv (e : EntryHeader) (b : PeerBody)
  /-- `QFENCE`, R287: Engine entry that completes once the named entries of other queues have completed. -/
  | qfence (e : EntryHeader) (b : FenceBody)
  /-- `WDRAW`, R289: Engine entry that withdraws unstarted kernels and entries whose RTAG matches. -/
  | wdraw (e : EntryHeader) (b : WithdrawBody)
  /-- `SIGNAL`, R290: Engine entry that sets or adds a 64-bit word indivisibly. -/
  | signal (e : EntryHeader) (b : SignalBody)
  /-- `WAITV`, R291: Engine entry that waits until a word meets a comparison. -/
  | waitv (e : EntryHeader) (b : WaitBody)
  /-- `BADKIND`, R59: An entry of unknown or unsupported KIND completes BADKIND and stops the queue. -/
  | badkind (e : EntryHeader) (kind : BitVec 8) (body : BitVec 320)
  /-- `FLUE_ENABLE`, R352: Host write of ENABLE moves a Disabled link to Down, or a Fenced link to Disabled when cleared. -/
  | flueEnable (on : Bool)
  /-- `CONFIG_EXCHANGE`, R355: The signed Config exchange is verified and the link goes Active or Fenced. -/
  | configExchange (side : ConfigSide) (key : Option Nat) (asks : BitVec 256)
  /-- `FLIT_RECEIVE`, R354: A flue flit is corrected and CRC-checked, delivered in order or a retry requested. -/
  | flitReceive (f : Flit)
  /-- `RETRY_REQUEST`, R354: A retry request replays flits go-back-N, moving to Recovery after eight. -/
  | retryRequest (seq : Nat)
  /-- `RECOVERY_RETRAIN`, R352: A retraining attempt in Recovery succeeds or, after three failures, fences the link. -/
  | recoveryRetrain (o : Option ConfigOffer)
  /-- `SQ_TAIL_DOORBELL`, R363: Host write of a submission tail submits entries of a queue pair. -/
  | sqTailDoorbell (v : Nat)
  /-- `CQ_HEAD_DOORBELL`, R363: Host write of a completion head frees completion ring entries. -/
  | cqHeadDoorbell (v : Nat)
  /-- `VIROFT_PAIR_ENABLE`, R363: Host write of EN enables a queue pair when its fields are valid. -/
  | viroftPairEnable (v : Nat)
  /-- `LAUNCH`, R364: Viroft command that submits a launch record. -/
  | launch (cid : BitVec 32) (lra : BitVec 64)
  /-- `RESUME`, R364: Viroft command that restarts a withheld access. -/
  | resume (cid : BitVec 32) (w : Withheld)
  /-- `ABORT`, R364: Viroft command that faults a withheld access's kernel or aborts the entry. -/
  | abort (cid : BitVec 32) (w : Withheld)
  /-- `RELEASE`, R364: Viroft command that moves a Held kernel to Ready. -/
  | release (cid rtag : BitVec 32) (m : BitVec 8)
  /-- `WITHDRAW`, R364: Viroft command that withdraws a kernel. -/
  | withdraw (cid rtag : BitVec 32) (m : BitVec 8)
  /-- `RETIRE`, R364: Viroft command that frees a Visible kernel's table entry. -/
  | retire (cid rtag : BitVec 32) (m : BitVec 8)
  /-- `CTXRES`, R364: Viroft command that returns a Halted context to Idle. -/
  | ctxres (cid : BitVec 32) (m : BitVec 8)
  /-- `UNKNOWN_COMMAND`, R364: A submission entry of unknown OPC is answered with status 1. -/
  | unknownCommand (cid : BitVec 32) (opc : BitVec 8)
  /-- `SNAP_TRIG`, R312: Host write of 1 latches every snapshot register copy. -/
  | snapTrig (v : BitVec 32)
  /-- `XLINV`, R325: Host write that drops matching translation and walk cache entries. -/
  | xlinv (v : BitVec 64)
  /-- `ATT_NONCE`, R368: Host write of a nonce starts a signed attestation report. -/
  | attNonce (nonce : BitVec 256)
  /-- `JRNL_BASE`, R371: Host write of the journal base, stored only when aligned and before phase 5. -/
  | jrnlBase (v : BitVec 64)
  /-- `JRNL_SIZE`, R371: Host write of the journal size, stored only when valid and before phase 5. -/
  | jrnlSize (v : BitVec 32)
  /-- `PWR_LIM`, R374: Host write of the power limit, clamped to 600 to 2,400 W. -/
  | pwrLim (v : BitVec 32)
  /-- `QUEUE_EN_WRITE`, R271: Host write of a queue's EN enables or disables the queue. -/
  | queueEnWrite (on : Bool)
  /-- `COUNTER_CLEAR`, R373: Host write to a clear-by-write counter sets it to zero. -/
  | counterClear (a : Nat)
  /-- `REGISTER_WRITE`, R373: Host write to another module register, honoured or discarded by its access rules. -/
  | registerWrite (a : Nat) (bytes : List Byte)
  /-- `THERMAL_THROTTLE`, R374: Power or temperature above limit makes hearths skip firing cycles. -/
  | thermalThrottle (on : Bool)
  /-- `CXL_MEM_REQUEST`, R362: A host read or write of T1 or T2 arrives over CXL.mem and is served at its physical offset; it waits on a prepared granule, and a write is held or forwarded during a page move. -/
  | cxlMemRequest (a : Nat) (write : Option (List Byte)) (len : Nat)
  /-- `TXPR_OUTPUT`, R163: Sending of a transposed block token, one per cycle after the block is complete. -/
  | txprOutput
  /-- `TOKEN_ARRIVAL`, R33: A token enters an input queue or frame slot and its residue and route are checked. -/
  | tokenArrival
  /-- `MESH_MESSAGE_RECEIVE`, R54: A network interface takes a whole mesh message, discarding and logging malformed ones. -/
  | meshMessageReceive
  /-- `FRAME_SLOT_ENTRY`, R68: A queued token moves into its dynamic-join frame slot once the slot is free. -/
  | frameSlotEntry
  /-- `REQUEST_ISSUE`, R170: A buffered memory request issues once its chain predecessor has issued. -/
  | requestIssue
  /-- `LOAD_REPLY`, R171: A load or atomic reply returns data, residue and taint to its node. -/
  | loadReply
  /-- `DEFERRED_TOKEN_SEND`, R418: A deferred token leaves its node once every destination has a free entry. -/
  | deferredTokenSend
  /-- `DELAY_EXPIRY`, R81: A DELAY hold's count runs out and its token is emitted. -/
  | delayExpiry
  /-- `YIELD_EXPIRY`, R244: The N cycles of a YIELD run out and the slot's ranking is restored. -/
  | yieldExpiry
  /-- `WAVE_RETIRE`, R71: VCNT reaches V and the oldest wave of a colour retires. -/
  | waveRetire
  /-- `REWEIGHT`, R73: Every 1,024 cycles each node's effective weight is recomputed. -/
  | reweight
  /-- `STARVING`, R72: A slot's STARVE counter reaches 65,536 and starving cycles begin. -/
  | starving
  /-- `CONTRACTION_STEP`, R144: The trine unit consumes one head token of each streamed port in lockstep. -/
  | contractionStep
  /-- `CONTRACTION_END`, R145: The last group sum reaches its accumulator and the result token is formed. -/
  | contractionEnd
  /-- `ACCUMULATOR_SPILL`, R151: A foreign touch spills the owner's accumulators or stay and refills the toucher's. -/
  | accumulatorSpill
  /-- `ACTIVATION_COMMIT`, R190: An Ended activation meeting its commit conditions prepares, takes its commit point and applies. -/
  | activationCommit
  /-- `REISSUE`, R77: A purged activation is re-emitted from its reissue copy under a fresh colour. -/
  | reissue
  /-- `PURGE_COMPLETE`, R76: A Purging colour becomes Free once its region's earlier mesh messages are delivered. -/
  | purgeComplete
  /-- `DAMPER_ENTRY_ELIGIBLE`, R338: A damper entry's age reaches 128 and it becomes Eligible. -/
  | damperEntryEligible
  /-- `COMMIT_WRITE_REFUSED`, R346: An endpoint refuses a commit write on a residue or route error and the damper resends it. -/
  | commitWriteRefused
  /-- `COMMIT_WRITE_TIMEOUT`, R346: A commit write goes unacknowledged for 2,097,152 cycles and is resent or faults UNCORR. -/
  | commitWriteTimeout
  /-- `STRIKE_REPORT`, R341: A strike report purges every uncommitted activation that fired in the square. -/
  | strikeReport
  /-- `PURGE_NOTICE`, R342: A region receives a purge notice and purges recorded receivers of the purged colour. -/
  | purgeNotice
  /-- `REQUEST_TIMEOUT`, R329: A request unanswered for 2,097,152 cycles is withheld as a TMO page fault. -/
  | requestTimeout
  /-- `LINK_FAULT_TIMEOUT`, R361: A T3 request unanswered for 2,097,152 cycles is withheld as a link fault. -/
  | linkFaultTimeout
  /-- `FAULT_MESSAGE_SEND`, R198: A withheld access's fault message leaves once Tstrike has passed without a purge. -/
  | faultMessageSend
  /-- `QUIESCE`, R315: The quiescence count reaches WDOG_LIM and the kernel faults. -/
  | quiesce
  /-- `BARRIER_ALIGN`, R307: Barrier markers on every connected port are consumed and forwarded. -/
  | barrierAlign
  /-- `SNAPSHOT_FIRST_MARKER`, R309: A node receiving its first snapshot marker stops firing and records channel state. -/
  | snapshotFirstMarker
  /-- `SNAPSHOT_ALIGN`, R309: The last snapshot marker arrives; the node forwards it and writes its record. -/
  | snapshotAlign
  /-- `SNAPSHOT_ABANDON`, R311: A snapshot not complete in 1,048,576 cycles is abandoned. -/
  | snapshotAbandon
  /-- `DRAIN_SOURCE_MARKER`, R308: A source node emits the drain's barrier marker once its credits allow. -/
  | drainSourceMarker
  /-- `DRAIN_COMPLETE`, R308: Every terminal has absorbed the barrier and DRAIN emits its status. -/
  | drainComplete
  /-- `HEARTBEAT`, R266: A distributor sends its heartbeat every 1,024 cycles. -/
  | heartbeat
  /-- `DIE_FENCE`, R266: A die missing four heartbeats or failing is fenced and its groups lost. -/
  | dieFence
  /-- `ELECTION_END`, R266: A new master is elected and runs the Stoker from its mirror. -/
  | electionEnd
  /-- `BIND_REGION`, R255: The Stoker binds one region to a ready kernel. -/
  | bindRegion
  /-- `GROUP_HANDOUT`, R264: A distributor hands a region its next group and sends the start token. -/
  | groupHandout
  /-- `KERNEL_COMPLETE`, R254: A draining or faulting kernel completes and its record is written. -/
  | kernelComplete
  /-- `KERNEL_VISIBLE`, R254: A completed kernel's T3 writes are acknowledged and its completion message leaves. -/
  | kernelVisible
  /-- `CONFIG_LOAD`, R219: The loader reads and checks an image and makes it resident or reports a status. -/
  | configLoad
  /-- `COVER`, R224: At a frame boundary the slot freezes and each hearth copies its state into a plane. -/
  | cover
  /-- `CALLEE_START`, R227: At the next boundary the callee's sources fire and the argument enters the entry node. -/
  | calleeStart
  /-- `REKINDLE`, R228: At a boundary after the call colour commits, the top plane is copied back. -/
  | rekindle
  /-- `CALLER_RESUME`, R228: The caller resumes and CALLG emits the returned token. -/
  | callerResume
  /-- `TAILG_SWAP`, R229: At the next boundary the slot's state is discarded and the new configuration starts. -/
  | tailgSwap
  /-- `PLANE_MOVE_DOWN`, R226: An older plane finishes moving to the state die or T1. -/
  | planeMoveDown
  /-- `PLANE_MOVE_UP`, R226: A plane finishes moving back onto the die after a rekindle. -/
  | planeMoveUp
  /-- `CONTEXT_EVICT`, R236: At a boundary a victim region freezes and its image moves out. -/
  | contextEvict
  /-- `CONTEXT_RESTORE`, R235: An evicted context's image moves in and firing resumes. -/
  | contextRestore
  /-- `CONTEXT_SWAP`, R237: Incoming and outgoing images move together in 832 cycles. -/
  | contextSwap
  /-- `CONTEXT_HALT`, R245: At a boundary the halted context's nodes stop and its activations are purged. -/
  | contextHalt
  /-- `WAITV_RECHECK`, R291: A waiting WAITV reads its word again after a write or 1,024 cycles. -/
  | waitvRecheck
  /-- `WAITV_TIMEOUT`, R292: A WAITV finds no matching read within TMO cycles and completes TIMEOUT. -/
  | waitvTimeout
  /-- `COLLECTIVE_MEMBER_LOST`, R359: A member silent for 2,097,152 cycles is lost to the collective. -/
  | collectiveMemberLost
  /-- `FORWARD_RETIRE`, R332: An old frame's forward retires and the page command completes. -/
  | forwardRetire
  /-- `FLUE_FENCE`, R352: Host write of FENCE fences a link. -/
  | flueFence
  /-- `ELECTRICAL_IDLE_EXIT`, R352: The partner's idle exit on all lanes moves the link to Detect. -/
  | electricalIdleExit
  /-- `LANE_LOCK`, R352: Lane lock moves the link to Train. -/
  | laneLock
  /-- `DETECT_TIMEOUT`, R352: No lane lock within 1,048,576 cycles returns the link to Down. -/
  | detectTimeout
  /-- `EQUALISATION_CONVERGE`, R352: Equalisation converges on all lanes and the link enters Config. -/
  | equalisationConverge
  /-- `CXL_LINK_UP`, R362: The CXL link trains and host access becomes possible. -/
  | cxlLinkUp
  /-- `CXL_LINK_LOSS`, R372: A CXL link loss or host restart leaves kernels running and messages waiting. -/
  | cxlLinkLoss
  /-- `COMPLETION_ENTRY`, R365: A completion entry is written to a pair's ring once quarantine and ring room allow. -/
  | completionEntry
  /-- `XLINV_COMPLETE`, R325: An invalidation finishes and BUSY clears. -/
  | xlinvComplete
  /-- `ATT_REPORT`, R368: The attestation report is written and ATT_ST bit 0 set. -/
  | attReport
  /-- `POWER_ON_RESET`, R366: Reset runs the boot ROM and the power-up phases. -/
  | powerOnReset
  /-- `BOOT_READY`, R371: Valid journal registers let the module enter phase 5 and start the Stoker. -/
  | bootReady
  /-- `THERMAL_SHUTDOWN`, R374: At the shutdown temperature every die is fenced and T1 dropped. -/
  | thermalShutdown
  deriving DecidableEq, Repr

end Sys2Proof
end

