-- ==== Sys2Proof/Decode.lean ====
section
/-! DEFINITION. From bits to instructions and back: the node record (R39, R40), the engine command entry (R272
and the body tables of the command chapters) and the Viroft submission (R364). Every function is total. A record
whose opcode is unallocated (R55) decodes to nothing; an entry of unknown KIND decodes to BADKIND (R59), and a
submission of unknown OPC to UNKNOWN_COMMAND (R364). After the decoder stand the encoder of the same tables and
the loader's conditions on a record (R58, Table 3-15). -/

namespace Sys2Proof

/-- Opcodes of R55, from 0x001. -/
def controlOps : List (Nat × (Rec → Instr)) := [
  (0x001, .pass),
  (0x002, .const),
  (0x003, .steer),
  (0x004, .merge),
  (0x005, .mergeu),
  (0x006, .gate),
  (0x007, .sync),
  (0x008, .sel),
  (0x009, .wave),
  (0x00A, .wexit),
  (0x00B, .calloc),
  (0x00C, .cfree),
  (0x00D, .cbind),
  (0x00E, .cret),
  (0x00F, .pack),
  (0x010, .unpack),
  (0x011, .inject),
  (0x012, .sink),
  (0x013, .cntf),
  (0x014, .spawn),
  (0x015, .trap),
  (0x016, .mark),
  (0x017, .pred),
  (0x018, .pand),
  (0x019, .por),
  (0x01A, .pxor),
  (0x01B, .pnot),
  (0x01C, .vote),
  (0x01D, .flags),
  (0x01E, .delay),
  (0x01F, .tsget)]

/-- Opcodes of R55, from 0x040. -/
def arithOps : List (Nat × (Rec → Instr)) := [
  (0x040, .add),
  (0x041, .sub),
  (0x042, .mul),
  (0x043, .mulh),
  (0x044, .mulhu),
  (0x045, .mad),
  (0x046, .div),
  (0x047, .divu),
  (0x048, .rem),
  (0x049, .remu),
  (0x04A, .neg),
  (0x04B, .abs),
  (0x04C, .min),
  (0x04D, .max),
  (0x04E, .minu),
  (0x04F, .maxu)]

/-- Opcodes of R55, from 0x050. -/
def logicOps : List (Nat × (Rec → Instr)) := [
  (0x050, .and),
  (0x051, .or),
  (0x052, .xor),
  (0x053, .not),
  (0x054, .andn),
  (0x055, .shl),
  (0x056, .shr),
  (0x057, .sra),
  (0x058, .rol),
  (0x059, .clz),
  (0x05A, .popc),
  (0x05B, .brev),
  (0x05C, .bfx),
  (0x05D, .bfi),
  (0x05E, .adds),
  (0x05F, .subs)]

/-- Opcodes of R55, from 0x060. -/
def compareOps : List (Nat × (Rec → Instr)) := [
  (0x060, .cmpeq),
  (0x061, .cmpne),
  (0x062, .cmplt),
  (0x063, .cmple),
  (0x064, .cmpltu),
  (0x065, .cmpleu)]

/-- Opcodes of R55, from 0x068. -/
def indexOps : List (Nat × (Rec → Instr)) := [
  (0x068, .idx),
  (0x069, .idx2),
  (0x06A, .wrap),
  (0x06B, .range),
  (0x06C, .shuf),
  (0x06D, .lanex),
  (0x06E, .lanei),
  (0x06F, .bcast)]

/-- Opcodes of R55, from 0x070. -/
def reduceOps : List (Nat × (Rec → Instr)) := [
  (0x070, .rsum),
  (0x071, .rmin),
  (0x072, .rmax)]

/-- Opcodes of R55, from 0x0C0. -/
def floatOps : List (Nat × (Rec → Instr)) := [
  (0x0C0, .fadd),
  (0x0C1, .fsub),
  (0x0C2, .fmul),
  (0x0C3, .fma),
  (0x0C4, .fnma),
  (0x0C5, .fmin),
  (0x0C6, .fmax),
  (0x0C7, .fabs),
  (0x0C8, .fneg),
  (0x0C9, .fcmpeq),
  (0x0CA, .fcmplt),
  (0x0CB, .fcmple),
  (0x0CC, .fcmpun),
  (0x0CD, .fclass),
  (0x0CE, .fdiv),
  (0x0CF, .fsqrt)]

/-- Opcodes of R55, from 0x0D0. -/
def specialOps : List (Nat × (Rec → Instr)) := [
  (0x0D0, .frcp),
  (0x0D1, .frsq),
  (0x0D2, .fexp2),
  (0x0D3, .flog2),
  (0x0D4, .fsin),
  (0x0D5, .fcos),
  (0x0D6, .ftanh),
  (0x0D7, .fsigm),
  (0x0D8, .fsilu)]

/-- Opcodes of R55, from 0x0E0. -/
def convertOps : List (Nat × (Rec → Instr)) := [
  (0x0E0, .cvtf),
  (0x0E1, .cvtfi),
  (0x0E2, .cvtif),
  (0x0E3, .qntb),
  (0x0E4, .dqntb),
  (0x0E5, .expsel)]

/-- Opcodes of R55, from 0x0E8. -/
def scalingOps : List (Nat × (Rec → Instr)) := [
  (0x0E8, .scl),
  (0x0E9, .uscl)]

/-- Opcodes of R55, from 0x0F0. -/
def floatReduceOps : List (Nat × (Rec → Instr)) := [
  (0x0F0, .frsum),
  (0x0F1, .frmax),
  (0x0F2, .frmin),
  (0x0F3, .smrg),
  (0x0F4, .rope)]

/-- Opcodes of R55, from 0x140. -/
def tensorOps : List (Nat × (Rec → Instr)) := [
  (0x140, .tdld),
  (0x141, .tdset),
  (0x142, .tddrop),
  (0x143, .tdkeep),
  (0x144, .tdreg),
  (0x145, .tdq)]

/-- Opcodes of R55, from 0x150. -/
def contractOps : List (Nat × (Rec → Instr)) := [
  (0x150, .tric),
  (0x151, .mma),
  (0x152, .tris),
  (0x153, .mmas),
  (0x154, .had),
  (0x155, .lutp),
  (0x156, .lutm),
  (0x157, .accrd),
  (0x158, .accz),
  (0x159, .accld),
  (0x15A, .tstay),
  (0x15B, .txpr),
  (0x15C, .cdxset),
  (0x15D, .accx)]

/-- Opcodes of R55, from 0x1C0. -/
def loadOps : List (Nat × (Rec → Instr)) := [
  (0x1C0, .agen),
  (0x1C1, .ld),
  (0x1C2, .st),
  (0x1C3, .ldx),
  (0x1C4, .lds),
  (0x1C5, .sts),
  (0x1C6, .ldt),
  (0x1C7, .stt),
  (0x1C8, .ldn),
  (0x1C9, .pref)]

/-- Opcodes of R55, from 0x1D0. -/
def atomicOps : List (Nat × (Rec → Instr)) := [
  (0x1D0, .aadd),
  (0x1D1, .afadd),
  (0x1D2, .amin),
  (0x1D3, .amax),
  (0x1D4, .aand),
  (0x1D5, .aor),
  (0x1D6, .axor),
  (0x1D7, .axchg),
  (0x1D8, .acas),
  (0x1D9, .ainc)]

/-- Opcodes of R55, from 0x1DA. -/
def updateOps : List (Nat × (Rec → Instr)) := [
  (0x1DA, .optst),
  (0x1DB, .retw)]

/-- Opcodes of R55, from 0x1E0. -/
def fenceOps : List (Nat × (Rec → Instr)) := [
  (0x1E0, .fence),
  (0x1E1, .mcast),
  (0x1E2, .wptr),
  (0x1E3, .wpwait)]

/-- Opcodes of R55, from 0x240. -/
def queueOps : List (Nat × (Rec → Instr)) := [
  (0x240, .enq),
  (0x241, .tail),
  (0x242, .seqrd),
  (0x243, .seqwait)]

/-- Opcodes of R55, from 0x280. -/
def regionOps : List (Nat × (Rec → Instr)) := [
  (0x280, .cfgld),
  (0x281, .callg),
  (0x282, .retg),
  (0x283, .tailg),
  (0x284, .drain),
  (0x285, .prio),
  (0x286, .yield),
  (0x287, .snap),
  (0x288, .rdsr),
  (0x289, .wrsr),
  (0x28A, .halt),
  (0x28B, .wdog)]

/-- The 180 node opcodes of R55 (Tables 3-8 to 3-13) with their constructors. -/
def opTable : List (Nat × (Rec → Instr)) :=
  controlOps ++ arithOps ++ logicOps ++ compareOps ++ indexOps ++ reduceOps ++ floatOps ++ specialOps ++ convertOps ++ scalingOps ++ floatReduceOps ++ tensorOps ++ contractOps ++ loadOps ++ atomicOps ++ updateOps ++ fenceOps ++ queueOps ++ regionOps


/-- Opcode and fields of a node instruction (R55); `none` for the rows that are no node instruction. The later
emissions of RANGE, AGEN and MARK run the record of their node. -/
def Instr.record : Instr → Option (Nat × Rec)
  | .pass r => some (0x001, r)
  | .const r => some (0x002, r)
  | .steer r => some (0x003, r)
  | .merge r => some (0x004, r)
  | .mergeu r => some (0x005, r)
  | .gate r => some (0x006, r)
  | .sync r => some (0x007, r)
  | .sel r => some (0x008, r)
  | .wave r => some (0x009, r)
  | .wexit r => some (0x00A, r)
  | .calloc r => some (0x00B, r)
  | .cfree r => some (0x00C, r)
  | .cbind r => some (0x00D, r)
  | .cret r => some (0x00E, r)
  | .pack r => some (0x00F, r)
  | .unpack r => some (0x010, r)
  | .inject r => some (0x011, r)
  | .sink r => some (0x012, r)
  | .cntf r => some (0x013, r)
  | .spawn r => some (0x014, r)
  | .trap r => some (0x015, r)
  | .mark r => some (0x016, r)
  | .pred r => some (0x017, r)
  | .pand r => some (0x018, r)
  | .por r => some (0x019, r)
  | .pxor r => some (0x01A, r)
  | .pnot r => some (0x01B, r)
  | .vote r => some (0x01C, r)
  | .flags r => some (0x01D, r)
  | .delay r => some (0x01E, r)
  | .tsget r => some (0x01F, r)
  | .add r => some (0x040, r)
  | .sub r => some (0x041, r)
  | .mul r => some (0x042, r)
  | .mulh r => some (0x043, r)
  | .mulhu r => some (0x044, r)
  | .mad r => some (0x045, r)
  | .div r => some (0x046, r)
  | .divu r => some (0x047, r)
  | .rem r => some (0x048, r)
  | .remu r => some (0x049, r)
  | .neg r => some (0x04A, r)
  | .abs r => some (0x04B, r)
  | .min r => some (0x04C, r)
  | .max r => some (0x04D, r)
  | .minu r => some (0x04E, r)
  | .maxu r => some (0x04F, r)
  | .and r => some (0x050, r)
  | .or r => some (0x051, r)
  | .xor r => some (0x052, r)
  | .not r => some (0x053, r)
  | .andn r => some (0x054, r)
  | .shl r => some (0x055, r)
  | .shr r => some (0x056, r)
  | .sra r => some (0x057, r)
  | .rol r => some (0x058, r)
  | .clz r => some (0x059, r)
  | .popc r => some (0x05A, r)
  | .brev r => some (0x05B, r)
  | .bfx r => some (0x05C, r)
  | .bfi r => some (0x05D, r)
  | .adds r => some (0x05E, r)
  | .subs r => some (0x05F, r)
  | .cmpeq r => some (0x060, r)
  | .cmpne r => some (0x061, r)
  | .cmplt r => some (0x062, r)
  | .cmple r => some (0x063, r)
  | .cmpltu r => some (0x064, r)
  | .cmpleu r => some (0x065, r)
  | .idx r => some (0x068, r)
  | .idx2 r => some (0x069, r)
  | .wrap r => some (0x06A, r)
  | .range r => some (0x06B, r)
  | .shuf r => some (0x06C, r)
  | .lanex r => some (0x06D, r)
  | .lanei r => some (0x06E, r)
  | .bcast r => some (0x06F, r)
  | .rsum r => some (0x070, r)
  | .rmin r => some (0x071, r)
  | .rmax r => some (0x072, r)
  | .fadd r => some (0x0C0, r)
  | .fsub r => some (0x0C1, r)
  | .fmul r => some (0x0C2, r)
  | .fma r => some (0x0C3, r)
  | .fnma r => some (0x0C4, r)
  | .fmin r => some (0x0C5, r)
  | .fmax r => some (0x0C6, r)
  | .fabs r => some (0x0C7, r)
  | .fneg r => some (0x0C8, r)
  | .fcmpeq r => some (0x0C9, r)
  | .fcmplt r => some (0x0CA, r)
  | .fcmple r => some (0x0CB, r)
  | .fcmpun r => some (0x0CC, r)
  | .fclass r => some (0x0CD, r)
  | .fdiv r => some (0x0CE, r)
  | .fsqrt r => some (0x0CF, r)
  | .frcp r => some (0x0D0, r)
  | .frsq r => some (0x0D1, r)
  | .fexp2 r => some (0x0D2, r)
  | .flog2 r => some (0x0D3, r)
  | .fsin r => some (0x0D4, r)
  | .fcos r => some (0x0D5, r)
  | .ftanh r => some (0x0D6, r)
  | .fsigm r => some (0x0D7, r)
  | .fsilu r => some (0x0D8, r)
  | .cvtf r => some (0x0E0, r)
  | .cvtfi r => some (0x0E1, r)
  | .cvtif r => some (0x0E2, r)
  | .qntb r => some (0x0E3, r)
  | .dqntb r => some (0x0E4, r)
  | .expsel r => some (0x0E5, r)
  | .scl r => some (0x0E8, r)
  | .uscl r => some (0x0E9, r)
  | .frsum r => some (0x0F0, r)
  | .frmax r => some (0x0F1, r)
  | .frmin r => some (0x0F2, r)
  | .smrg r => some (0x0F3, r)
  | .rope r => some (0x0F4, r)
  | .tdld r => some (0x140, r)
  | .tdset r => some (0x141, r)
  | .tddrop r => some (0x142, r)
  | .tdkeep r => some (0x143, r)
  | .tdreg r => some (0x144, r)
  | .tdq r => some (0x145, r)
  | .tric r => some (0x150, r)
  | .mma r => some (0x151, r)
  | .tris r => some (0x152, r)
  | .mmas r => some (0x153, r)
  | .had r => some (0x154, r)
  | .lutp r => some (0x155, r)
  | .lutm r => some (0x156, r)
  | .accrd r => some (0x157, r)
  | .accz r => some (0x158, r)
  | .accld r => some (0x159, r)
  | .tstay r => some (0x15A, r)
  | .txpr r => some (0x15B, r)
  | .cdxset r => some (0x15C, r)
  | .accx r => some (0x15D, r)
  | .agen r => some (0x1C0, r)
  | .ld r => some (0x1C1, r)
  | .st r => some (0x1C2, r)
  | .ldx r => some (0x1C3, r)
  | .lds r => some (0x1C4, r)
  | .sts r => some (0x1C5, r)
  | .ldt r => some (0x1C6, r)
  | .stt r => some (0x1C7, r)
  | .ldn r => some (0x1C8, r)
  | .pref r => some (0x1C9, r)
  | .aadd r => some (0x1D0, r)
  | .afadd r => some (0x1D1, r)
  | .amin r => some (0x1D2, r)
  | .amax r => some (0x1D3, r)
  | .aand r => some (0x1D4, r)
  | .aor r => some (0x1D5, r)
  | .axor r => some (0x1D6, r)
  | .axchg r => some (0x1D7, r)
  | .acas r => some (0x1D8, r)
  | .ainc r => some (0x1D9, r)
  | .optst r => some (0x1DA, r)
  | .retw r => some (0x1DB, r)
  | .fence r => some (0x1E0, r)
  | .mcast r => some (0x1E1, r)
  | .wptr r => some (0x1E2, r)
  | .wpwait r => some (0x1E3, r)
  | .enq r => some (0x240, r)
  | .tail r => some (0x241, r)
  | .seqrd r => some (0x242, r)
  | .seqwait r => some (0x243, r)
  | .cfgld r => some (0x280, r)
  | .callg r => some (0x281, r)
  | .retg r => some (0x282, r)
  | .tailg r => some (0x283, r)
  | .drain r => some (0x284, r)
  | .prio r => some (0x285, r)
  | .yield r => some (0x286, r)
  | .snap r => some (0x287, r)
  | .rdsr r => some (0x288, r)
  | .wrsr r => some (0x289, r)
  | .halt r => some (0x28A, r)
  | .wdog r => some (0x28B, r)
  | .rangeEmission r => some (0x06B, r)
  | .agenEmission r => some (0x1C0, r)
  | .markMarkerEmission r => some (0x016, r)
  | .txprOutput => none
  | .tokenArrival => none
  | .meshMessageReceive => none
  | .frameSlotEntry => none
  | .requestIssue => none
  | .loadReply => none
  | .deferredTokenSend => none
  | .delayExpiry => none
  | .yieldExpiry => none
  | .waveRetire => none
  | .reweight => none
  | .starving => none
  | .contractionStep => none
  | .contractionEnd => none
  | .accumulatorSpill => none
  | .activationCommit => none
  | .reissue => none
  | .purgeComplete => none
  | .damperEntryEligible => none
  | .commitWriteRefused => none
  | .commitWriteTimeout => none
  | .strikeReport => none
  | .purgeNotice => none
  | .uncorrectableError _ => none
  | .requestTimeout => none
  | .linkFaultTimeout => none
  | .faultMessageSend => none
  | .quiesce => none
  | .barrierAlign => none
  | .snapshotFirstMarker => none
  | .snapshotAlign => none
  | .snapshotAbandon => none
  | .drainSourceMarker => none
  | .drainComplete => none
  | .heartbeat => none
  | .dieFence => none
  | .electionEnd => none
  | .kernelAccept _ => none
  | .bindRegion => none
  | .groupHandout => none
  | .kernelComplete => none
  | .kernelVisible => none
  | .configLoad => none
  | .cover => none
  | .calleeStart => none
  | .rekindle => none
  | .callerResume => none
  | .tailgSwap => none
  | .planeMoveDown => none
  | .planeMoveUp => none
  | .contextEvict => none
  | .contextRestore => none
  | .contextSwap => none
  | .contextHalt => none
  | .copy _ _ => none
  | .copyt _ _ => none
  | .perm _ _ => none
  | .fill _ _ => none
  | .gath _ _ => none
  | .scat _ _ => none
  | .copyr _ _ => none
  | .kvpatch _ _ => none
  | .compact _ _ => none
  | .promo _ _ => none
  | .demo _ _ => none
  | .redsc _ _ => none
  | .allga _ _ => none
  | .allrd _ _ => none
  | .send _ _ => none
  | .recv _ _ => none
  | .qfence _ _ => none
  | .wdraw _ _ => none
  | .signal _ _ => none
  | .waitv _ _ => none
  | .waitvRecheck => none
  | .waitvTimeout => none
  | .badkind _ _ _ => none
  | .collectiveMemberLost => none
  | .forwardRetire => none
  | .flueEnable _ => none
  | .flueFence => none
  | .electricalIdleExit => none
  | .laneLock => none
  | .detectTimeout => none
  | .equalisationConverge => none
  | .configExchange _ _ _ => none
  | .flitReceive _ => none
  | .retryRequest _ => none
  | .recoveryRetrain _ => none
  | .cxlLinkUp => none
  | .cxlLinkLoss => none
  | .sqTailDoorbell _ => none
  | .cqHeadDoorbell _ => none
  | .viroftPairEnable _ => none
  | .launch _ _ => none
  | .resume _ _ => none
  | .abort _ _ => none
  | .release _ _ _ => none
  | .withdraw _ _ _ => none
  | .retire _ _ _ => none
  | .ctxres _ _ => none
  | .unknownCommand _ _ => none
  | .completionEntry => none
  | .snapTrig _ => none
  | .xlinv _ => none
  | .xlinvComplete => none
  | .attNonce _ => none
  | .attReport => none
  | .jrnlBase _ => none
  | .jrnlSize _ => none
  | .pwrLim _ => none
  | .queueEnWrite _ => none
  | .counterClear _ => none
  | .registerWrite _ _ => none
  | .powerOnReset => none
  | .bootReady => none
  | .thermalThrottle _ => none
  | .thermalShutdown => none
  | .cxlMemRequest _ _ _ => none

/-- Look a key up in a list of pairs. -/
def lookupOp {α : Type} : List (Nat × α) → Nat → Option α
  | [], _ => none
  | (k, v) :: t, i => if k = i then some v else lookupOp t i

/-! ### The node record -/

/-- A destination from its 11 bits (R49). -/
def decodeDest (w : BitVec 11) : Dest :=
  { v := w.extractLsb' 10 1, oport := w.extractLsb' 6 4, node := w.extractLsb' 2 4, opnd := w.extractLsb' 0 2 }

/-- The 11 bits of a destination. -/
def encodeDest (d : Dest) : BitVec 11 := d.v ++ d.oport ++ d.node ++ d.opnd

/-- The opcode of a record. -/
def recordOpc (w : BitVec 96) : Nat := (w.extractLsb' 86 10).toNat

/-- The fields of a record other than its opcode (R39, Table 3-1). -/
def decodeFields (w : BitVec 96) : Rec :=
  { fmt := w.extractLsb' 82 4, ary := w.extractLsb' 80 2, tag := w.extractLsb' 77 3, lit := w.extractLsb' 75 2,
    rnd := w.extractLsb' 72 3, sat := w.extractLsb' 71 1, scl := w.extractLsb' 69 2, pm := w.extractLsb' 67 2,
    wgt := w.extractLsb' 64 3, jdq := w.extractLsb' 58 6, d1 := decodeDest (w.extractLsb' 47 11),
    d0 := decodeDest (w.extractLsb' 36 11), rsv := w.extractLsb' 32 4, lit32 := w.extractLsb' 0 32 }

/-- The instruction of a node record, or nothing where the opcode is unallocated (R55). -/
def decodeRecord (w : BitVec 96) : Option Instr :=
  (lookupOp opTable (recordOpc w)).map (fun f => f (decodeFields w))

/-- The 96 bits of an opcode and its fields (R39). -/
def encodeRecord (opc : Nat) (r : Rec) : BitVec 96 :=
  BitVec.ofNat 10 opc ++ r.fmt ++ r.ary ++ r.tag ++ r.lit ++ r.rnd ++ r.sat ++ r.scl ++ r.pm ++ r.wgt ++ r.jdq ++
    encodeDest r.d1 ++ encodeDest r.d0 ++ r.rsv ++ r.lit32

/-! ### The engine command entry -/

/-- The header fields of an entry (R272, Table 15-2). -/
def decodeHeader (w : BitVec 512) : EntryHeader :=
  { status := w.extractLsb' 112 8, nv := w.extractLsb' 111 1, irq := w.extractLsb' 110 1, cmp := w.extractLsb' 109 1,
    rsvA := w.extractLsb' 96 13, rtag := w.extractLsb' 64 32, rsvB := w.extractLsb' 55 9,
    next := w.extractLsb' 6 49, rsvC := w.extractLsb' 0 6, cseq := w.extractLsb' 448 64 }

/-- Body of COPY (Table 15-6). -/
def packCopy (b : XferBody) : BitVec 320 :=
  (0 : BitVec 64) ++ (0 : BitVec 32) ++ (0 : BitVec 24) ++ b.wpc ++ b.len ++ b.dst ++ b.src

/-- Body of FILL (Table 15-6). -/
def packFill (b : XferBody) : BitVec 320 :=
  (0 : BitVec 64) ++ b.pat ++ (0 : BitVec 24) ++ b.wpc ++ b.len ++ b.dst ++ (0 : BitVec 64)

/-- Body of COPYT (Table 15-6). -/
def packCopyt (b : TensorBody) : BitVec 320 := (0 : BitVec 288) ++ b.dtid ++ b.stid

/-- Body of PERM (Table 15-6). -/
def packPerm (b : TensorBody) : BitVec 320 := (0 : BitVec 280) ++ b.pcode ++ b.dtid ++ b.stid

/-- Body of GATH and SCAT (Table 15-6). -/
def packRows (b : RowsBody) : BitVec 320 :=
  b.rstr ++ b.nrows ++ (0 : BitVec 16) ++ b.nidx ++ b.rsz ++ b.idx ++ b.dst ++ b.src

/-- Body of COPYR (Table 16-3). -/
def packCopyr (b : CopyrBody) : BitVec 320 :=
  (0 : BitVec 48) ++ b.nrow ++ b.spos ++ b.dpos ++ b.srcv ++ b.src ++ b.sd

/-- Body of KVPATCH (Table 16-3). -/
def packPatch (b : PatchBody) : BitVec 320 :=
  b.stale ++ b.moved ++ (0 : BitVec 104) ++ b.rot ++ b.delta ++ b.last ++ b.first ++ b.sd

/-- Body of COMPACT (Table 16-3). -/
def packCompact (b : CompactBody) : BitVec 320 :=
  b.thr ++ b.count ++ b.top ++ b.outp ++ b.outv ++ b.outk ++ b.sd

/-- Body of PROMO and DEMO (Table 18-3). -/
def packPage (b : PageBody) : BitVec 320 :=
  (0 : BitVec 64) ++ b.prev ++ (0 : BitVec 24) ++ b.flags ++ b.krtag ++ b.dpa ++ b.va

/-- Body of REDSC, ALLGA and ALLRD (Table 20-2). -/
def packColl (b : CollBody) : BitVec 320 :=
  (0 : BitVec 112) ++ b.map ++ (0 : BitVec 32) ++ b.ctag ++ b.grp ++ (0 : BitVec 16) ++ b.topo ++ b.rank ++ b.nm ++
    b.op ++ b.tid

/-- Body of SEND and RECV (Table 20-2). -/
def packPeer (b : PeerBody) : BitVec 320 :=
  (0 : BitVec 112) ++ b.map ++ b.mtag ++ b.wpc ++ b.link ++ b.peer ++ b.len ++ b.buf

/-- Body of QFENCE (Table 15-7). -/
def packFence (b : FenceBody) : BitVec 320 := (0 : BitVec 64) ++ b.name3 ++ b.name2 ++ b.name1 ++ b.name0

/-- Body of WDRAW (Table 15-7). -/
def packWithdraw (b : WithdrawBody) : BitVec 320 := (0 : BitVec 256) ++ b.mask ++ b.tag

/-- Body of SIGNAL (Table 15-7). -/
def packSignal (b : SignalBody) : BitVec 320 := (0 : BitVec 184) ++ b.op ++ b.val ++ b.va

/-- Body of WAITV (Table 15-7). -/
def packWait (b : WaitBody) : BitVec 320 :=
  (0 : BitVec 128) ++ b.tmo ++ (0 : BitVec 24) ++ b.cmp ++ b.val ++ b.va

/-- `packCopy` read back; every byte the table does not name is tested. -/
def unpackCopy (w : BitVec 320) : XferBody :=
  let b : XferBody :=
    { src := w.extractLsb' 0 64, dst := w.extractLsb' 64 64, len := w.extractLsb' 128 64,
      wpc := w.extractLsb' 192 8, pat := 0, stray := false };
  { b with stray := packCopy b != w }

/-- `packFill` read back. -/
def unpackFill (w : BitVec 320) : XferBody :=
  let b : XferBody :=
    { src := 0, dst := w.extractLsb' 64 64, len := w.extractLsb' 128 64,
      wpc := w.extractLsb' 192 8, pat := w.extractLsb' 224 32, stray := false };
  { b with stray := packFill b != w }

/-- `packCopyt` read back. -/
def unpackCopyt (w : BitVec 320) : TensorBody :=
  let b : TensorBody := { stid := w.extractLsb' 0 16, dtid := w.extractLsb' 16 16, pcode := 0, stray := false };
  { b with stray := packCopyt b != w }

/-- `packPerm` read back. -/
def unpackPerm (w : BitVec 320) : TensorBody :=
  let b : TensorBody :=
    { stid := w.extractLsb' 0 16, dtid := w.extractLsb' 16 16, pcode := w.extractLsb' 32 8,
      stray := false };
  { b with stray := packPerm b != w }

/-- `packRows` read back. -/
def unpackRows (w : BitVec 320) : RowsBody :=
  let b : RowsBody :=
    { src := w.extractLsb' 0 64, dst := w.extractLsb' 64 64, idx := w.extractLsb' 128 64,
      rsz := w.extractLsb' 192 32, nidx := w.extractLsb' 224 16, nrows := w.extractLsb' 256 32,
      rstr := w.extractLsb' 288 32, stray := false };
  { b with stray := packRows b != w }

/-- `packCopyr` read back. -/
def unpackCopyr (w : BitVec 320) : CopyrBody :=
  let b : CopyrBody :=
    { sd := w.extractLsb' 0 64, src := w.extractLsb' 64 64, srcv := w.extractLsb' 128 64,
      dpos := w.extractLsb' 192 32, spos := w.extractLsb' 224 32, nrow := w.extractLsb' 256 16, stray := false };
  { b with stray := packCopyr b != w }

/-- `packPatch` read back. -/
def unpackPatch (w : BitVec 320) : PatchBody :=
  let b : PatchBody :=
    { sd := w.extractLsb' 0 64, first := w.extractLsb' 64 32, last := w.extractLsb' 96 32,
      delta := w.extractLsb' 128 16, rot := w.extractLsb' 144 8, moved := w.extractLsb' 256 32,
      stale := w.extractLsb' 288 32, stray := false };
  { b with stray := packPatch b != w }

/-- `packCompact` read back; the table names every byte. -/
def unpackCompact (w : BitVec 320) : CompactBody :=
  { sd := w.extractLsb' 0 64, outk := w.extractLsb' 64 64, outv := w.extractLsb' 128 64, outp := w.extractLsb' 192 64,
    top := w.extractLsb' 256 32, count := w.extractLsb' 288 24, thr := w.extractLsb' 312 8 }

/-- `packPage` read back. -/
def unpackPage (w : BitVec 320) : PageBody :=
  let b : PageBody :=
    { va := w.extractLsb' 0 64, dpa := w.extractLsb' 64 64, krtag := w.extractLsb' 128 32,
      flags := w.extractLsb' 160 8, prev := w.extractLsb' 192 64, stray := false };
  { b with stray := packPage b != w }

/-- `packColl` read back. -/
def unpackColl (w : BitVec 320) : CollBody :=
  let b : CollBody :=
    { tid := w.extractLsb' 0 16, op := w.extractLsb' 16 8, nm := w.extractLsb' 24 8,
      rank := w.extractLsb' 32 8, topo := w.extractLsb' 40 8, grp := w.extractLsb' 64 64, ctag := w.extractLsb' 128 32,
      map := w.extractLsb' 192 16, stray := false };
  { b with stray := packColl b != w }

/-- `packPeer` read back. -/
def unpackPeer (w : BitVec 320) : PeerBody :=
  let b : PeerBody :=
    { buf := w.extractLsb' 0 64, len := w.extractLsb' 64 64, peer := w.extractLsb' 128 16,
      link := w.extractLsb' 144 8, wpc := w.extractLsb' 152 8, mtag := w.extractLsb' 160 32, map := w.extractLsb' 192 16,
      stray := false };
  { b with stray := packPeer b != w }

/-- `packFence` read back. -/
def unpackFence (w : BitVec 320) : FenceBody :=
  let b : FenceBody :=
    { name0 := w.extractLsb' 0 64, name1 := w.extractLsb' 64 64, name2 := w.extractLsb' 128 64,
      name3 := w.extractLsb' 192 64, stray := false };
  { b with stray := packFence b != w }

/-- `packWithdraw` read back. -/
def unpackWithdraw (w : BitVec 320) : WithdrawBody :=
  let b : WithdrawBody := { tag := w.extractLsb' 0 32, mask := w.extractLsb' 32 32, stray := false };
  { b with stray := packWithdraw b != w }

/-- `packSignal` read back. -/
def unpackSignal (w : BitVec 320) : SignalBody :=
  let b : SignalBody :=
    { va := w.extractLsb' 0 64, val := w.extractLsb' 64 64, op := w.extractLsb' 128 8,
      stray := false };
  { b with stray := packSignal b != w }

/-- `packWait` read back. -/
def unpackWait (w : BitVec 320) : WaitBody :=
  let b : WaitBody :=
    { va := w.extractLsb' 0 64, val := w.extractLsb' 64 64, cmp := w.extractLsb' 128 8,
      tmo := w.extractLsb' 160 32, stray := false };
  { b with stray := packWait b != w }

/-- The KIND byte of an entry. -/
def entryKind (w : BitVec 512) : BitVec 8 := w.extractLsb' 120 8

/-- The KIND codes that Table 3-14 lists. -/
def entryKinds : List Nat :=
  [0x01, 0x02, 0x03, 0x04, 0x05, 0x06, 0x08, 0x09, 0x0A, 0x0C, 0x0D, 0x10, 0x11, 0x12, 0x13, 0x14, 0x20, 0x21, 0x22, 0x23]

/-- The instruction of a 64-byte command entry (R56, Table 3-14); a KIND that the table does not list is BADKIND
(R59). -/
def decodeEntry (w : BitVec 512) : Instr :=
  let e := decodeHeader w
  let b := w.extractLsb' 128 320
  match (entryKind w).toNat with
  | 0x01 => .copy e (unpackCopy b)
  | 0x02 => .copyt e (unpackCopyt b)
  | 0x03 => .perm e (unpackPerm b)
  | 0x04 => .fill e (unpackFill b)
  | 0x05 => .gath e (unpackRows b)
  | 0x06 => .scat e (unpackRows b)
  | 0x08 => .copyr e (unpackCopyr b)
  | 0x09 => .kvpatch e (unpackPatch b)
  | 0x0A => .compact e (unpackCompact b)
  | 0x0C => .promo e (unpackPage b)
  | 0x0D => .demo e (unpackPage b)
  | 0x10 => .redsc e (unpackColl b)
  | 0x11 => .allga e (unpackColl b)
  | 0x12 => .allrd e (unpackColl b)
  | 0x13 => .send e (unpackPeer b)
  | 0x14 => .recv e (unpackPeer b)
  | 0x20 => .qfence e (unpackFence b)
  | 0x21 => .wdraw e (unpackWithdraw b)
  | 0x22 => .signal e (unpackSignal b)
  | 0x23 => .waitv e (unpackWait b)
  | _ => .badkind e (entryKind w) b

/-- The 512 bits of an entry from its KIND, header and body. -/
def encodeEntry (kind : BitVec 8) (e : EntryHeader) (b : BitVec 320) : BitVec 512 :=
  e.cseq ++ b ++ kind ++ e.status ++ e.nv ++ e.irq ++ e.cmp ++ e.rsvA ++ e.rtag ++ e.rsvB ++ e.next ++ e.rsvC

/-- The entry of an engine command; `none` for every other instruction. -/
def entryOf : Instr → Option (BitVec 8 × EntryHeader × BitVec 320)
  | .copy e b => some (0x01, e, packCopy b)
  | .copyt e b => some (0x02, e, packCopyt b)
  | .perm e b => some (0x03, e, packPerm b)
  | .fill e b => some (0x04, e, packFill b)
  | .gath e b => some (0x05, e, packRows b)
  | .scat e b => some (0x06, e, packRows b)
  | .copyr e b => some (0x08, e, packCopyr b)
  | .kvpatch e b => some (0x09, e, packPatch b)
  | .compact e b => some (0x0A, e, packCompact b)
  | .promo e b => some (0x0C, e, packPage b)
  | .demo e b => some (0x0D, e, packPage b)
  | .redsc e b => some (0x10, e, packColl b)
  | .allga e b => some (0x11, e, packColl b)
  | .allrd e b => some (0x12, e, packColl b)
  | .send e b => some (0x13, e, packPeer b)
  | .recv e b => some (0x14, e, packPeer b)
  | .qfence e b => some (0x20, e, packFence b)
  | .wdraw e b => some (0x21, e, packWithdraw b)
  | .signal e b => some (0x22, e, packSignal b)
  | .waitv e b => some (0x23, e, packWait b)
  | .badkind e k b => some (k, e, b)
  | _ => none

/-! ### The Viroft submission -/

/-- The OPC codes that Table 20-3 lists. -/
def commandCodes : List Nat := [1, 2, 3, 4, 5, 6, 7]

/-- The instruction of a 64-byte submission entry (R364, Table 20-3). -/
def decodeSubmission (w : BitVec 512) : Instr :=
  let cid := w.extractLsb' 32 32
  let held : Withheld :=
    { qid := w.extractLsb' 64 16, die := w.extractLsb' 80 8, x := w.extractLsb' 88 8,
      y := w.extractLsb' 96 8, node := w.extractLsb' 104 8, slot := w.extractLsb' 112 2 }
  let rtag := w.extractLsb' 64 32
  let m := w.extractLsb' 96 8
  match (w.extractLsb' 0 8).toNat with
  | 0x01 => .launch cid (w.extractLsb' 64 64)
  | 0x02 => .resume cid held
  | 0x03 => .abort cid held
  | 0x04 => .release cid rtag m
  | 0x05 => .withdraw cid rtag m
  | 0x06 => .retire cid rtag m
  | 0x07 => .ctxres cid m
  | _ => .unknownCommand cid (w.extractLsb' 0 8)

/-- The named bytes of a submission: OPC, command identifier and bytes 8 to 23. -/
def encodeSubmissionWords (opc : BitVec 8) (cid : BitVec 32) (arg : BitVec 128) : BitVec 512 :=
  (0 : BitVec 320) ++ arg ++ cid ++ (0 : BitVec 24) ++ opc

/-- The submission of a Viroft command; `none` for every other instruction. Bytes a command does not name are zero. -/
def submissionOf : Instr → Option (BitVec 512)
  | .launch cid lra => some (encodeSubmissionWords 1 cid ((0 : BitVec 64) ++ lra))
  | .resume cid h => some (encodeSubmissionWords 2 cid
      ((0 : BitVec 78) ++ h.slot ++ h.node ++ h.y ++ h.x ++ h.die ++ h.qid))
  | .abort cid h => some (encodeSubmissionWords 3 cid
      ((0 : BitVec 78) ++ h.slot ++ h.node ++ h.y ++ h.x ++ h.die ++ h.qid))
  | .release cid t m => some (encodeSubmissionWords 4 cid ((0 : BitVec 88) ++ m ++ t))
  | .withdraw cid t m => some (encodeSubmissionWords 5 cid ((0 : BitVec 88) ++ m ++ t))
  | .retire cid t m => some (encodeSubmissionWords 6 cid ((0 : BitVec 88) ++ m ++ t))
  | .ctxres cid m => some (encodeSubmissionWords 7 cid ((0 : BitVec 88) ++ m ++ (0 : BitVec 32)))
  | .unknownCommand cid opc => some (encodeSubmissionWords opc cid 0)
  | _ => none

/-! ### The encoder -/

/-- The words of an instruction: its width in bits and its value. The steps of the module that no encoding stands
for have none. -/
def encode (i : Instr) : Option (Nat × Nat) :=
  match i.record with
  | some (opc, r) => some (96, (encodeRecord opc r).toNat)
  | none =>
    match entryOf i with
    | some (k, e, b) => some (512, (encodeEntry k e b).toNat)
    | none => (submissionOf i).map (fun w => (512, w.toNat))

/-- The instruction that this decoder reads from the bits of an opcode-table row: a node record of at most 96 bits
(the 16 bytes of R40 with zero padding), or else a 64-byte engine entry. -/
def decodeTableWord (nbits w : Nat) : Option Instr :=
  if nbits ≤ 128 then
    if w < 2 ^ 96 then decodeRecord (BitVec.ofNat 96 w) else none
  else some (decodeEntry (BitVec.ofNat 512 w))

/-! ### The loader's conditions on a record (R58, Table 3-15) -/

/-- Where a node's destinations may lie (R50). -/
inductive Emits where
  /-- One token to every valid destination; both may be invalid. -/
  | token
  /-- The node emits no token: both destinations are invalid. -/
  | nothing
  /-- Two different tokens: both destinations are valid (R89). -/
  | both
  deriving DecidableEq, Repr

/-- What the encoding tables allow an instruction. -/
structure Shape where
  fmts : List Nat
  arys : List Nat
  tag : Nat
  lits : List Nat
  pms : List Nat
  emits : Emits
  /-- JDQ must be zero (R58, reason 9). -/
  noJdq : Bool
  /-- SAT, SCL and WGT must be zero (R58, reason 10). -/
  noSatSclWgt : Bool
  /-- SAT, SCL and RND must be zero (R135, reason 10). -/
  noSatSclRnd : Bool
  /-- The SCL codes allowed (R121). -/
  scls : List Nat
  deriving DecidableEq, Repr

/-- FMT 0 to 0xB. -/
def fmtAny : List Nat := [0, 1, 2, 3, 4, 5, 6, 7, 8, 9, 10, 11]
/-- FMT 0 to 0xA. -/
def fmtValue : List Nat := [0, 1, 2, 3, 4, 5, 6, 7, 8, 9, 10]
/-- The integer formats of R100. -/
def fmtInt : List Nat := [0, 1, 5, 6, 7]
/-- The floating formats of R112. -/
def fmtFloat : List Nat := [2, 3, 4]
/-- The block formats. -/
def fmtBlock : List Nat := [8, 9]
/-- The formats of loads and stores (Table 9-5). -/
def fmtLoad : List Nat := [0, 1, 2, 3, 4, 5, 6, 7, 10]
/-- No predicate, true lanes, false lanes. -/
def pmLanes : List Nat := [0, 1, 2]

/-- A shape with the fields most instructions share. -/
def shape (fmts arys lits pms : List Nat) : Shape :=
  { fmts := fmts, arys := arys, tag := 0, lits := lits, pms := pms, emits := .token, noJdq := false,
    noSatSclWgt := false, noSatSclRnd := false, scls := [0, 1, 2, 3] }

/-- A shape of a system instruction: JDQ, SAT, SCL and WGT zero, PM 00. -/
def shapeSys (fmts arys lits : List Nat) : Shape :=
  { shape fmts arys lits [0] with noJdq := true, noSatSclWgt := true }

/-- A shape with JDQ zero. -/
def shapeMem (fmts arys lits pms : List Nat) : Shape := { shape fmts arys lits pms with noJdq := true }

/-- A shape of a tensor instruction (R135). -/
def shapeTensor (fmts arys lits : List Nat) : Shape :=
  { shape fmts arys lits [0] with noJdq := true, noSatSclRnd := true }

/-- Table 4-4, R260 and Table 17-1: the control and tag group. -/
def controlShape (o : Nat) : Shape :=
  match o with
  | 0x001 => shape fmtAny [1] [0] pmLanes
  | 0x002 => shape fmtValue [0, 1] [2] [0]
  | 0x003 => shape fmtAny [1] [0] [3]
  | 0x004 => shape fmtAny [2] [0] [3]
  | 0x005 => shape fmtAny [2] [0] [0]
  | 0x006 => shape fmtAny [2] [0, 1] pmLanes
  | 0x007 => shape fmtAny [2, 3] [0] [0]
  | 0x008 => shape fmtAny [3] [0, 1] pmLanes
  | 0x009 => { shape fmtAny [1] [0] [0] with tag := 1 }
  | 0x00A => { shape fmtAny [1] [0] [0] with tag := 2 }
  | 0x00B => { shape fmtAny [1, 2] [2] [0] with tag := 4 }
  | 0x00C => { shape fmtAny [1] [0] [0] with emits := .nothing }
  | 0x00D => { shape fmtAny [3] [1, 3] [0] with tag := 3 }
  | 0x00E => { shape fmtAny [1] [0] [0] with tag := 5 }
  | 0x00F => shape [3, 4, 5, 6, 7, 10] [2] [0, 1] [0]
  | 0x010 => { shape [3, 4, 5, 6, 7, 10] [1] [0] [0] with emits := .both }
  | 0x011 => shape fmtAny [1] [0] [0]
  | 0x012 => { shape fmtAny [1, 2, 3] [0, 1, 3] pmLanes with emits := .nothing }
  | 0x013 => shape fmtAny [1] [2] [0]
  | 0x014 => shapeSys [1] [1] [2]
  | 0x015 => shape [0, 1] [1] [2] pmLanes
  | 0x016 => shapeSys fmtAny [1] [2]
  | 0x017 => shape fmtValue [1] [0] [0]
  | 0x01B => shape [11] [1] [0] [0]
  | 0x01C => shape [11] [1] [2] [0]
  | 0x01D => shape fmtAny [1] [2] [0]
  | 0x01E => shape fmtAny [1] [2] [0]
  | 0x01F => shape [0] [1] [2] [0]
  | _ => shape [11] [2] [0, 1] [0]

/-- Tables 5-1, 5-2, 5-4, 5-5 and R109, R110: the integer and address group. -/
def integerShape (o : Nat) : Shape :=
  match o with
  | 0x045 => shape fmtInt [3] [0, 3] pmLanes
  | 0x04A | 0x04B | 0x053 | 0x059 | 0x05A | 0x05B => shape fmtInt [1] [0] pmLanes
  | 0x05C => shape fmtInt [1] [2] pmLanes
  | 0x05D => shape fmtInt [2] [2] pmLanes
  | 0x060 | 0x061 | 0x062 | 0x063 | 0x064 | 0x065 => shape [0, 1] [2] [0, 1] [0]
  | 0x068 | 0x06A => shape [0, 1] [1] [2] pmLanes
  | 0x069 => shape [0, 1] [2] [2] pmLanes
  | 0x06B => shape [0, 1] [1] [2] [0]
  | 0x06C => shape fmtAny [2] [0, 1] [0]
  | 0x06D | 0x06F => shape fmtAny [1] [2] [0]
  | 0x06E => shape fmtAny [2] [2] [0]
  | 0x070 | 0x071 | 0x072 => shape fmtInt [1] [0] [0]
  | _ => shape fmtInt [2] [0, 1] pmLanes

/-- Tables 6-1 and 6-3, R115: the floating group. -/
def floatShape (o : Nat) : Shape :=
  match o with
  | 0x0C3 | 0x0C4 => shape fmtFloat [3] [0, 1, 3] pmLanes
  | 0x0C7 | 0x0C8 | 0x0CF => shape fmtFloat [1] [0] pmLanes
  | 0x0C9 | 0x0CA | 0x0CB | 0x0CC => shape [2] [2] [0, 1] [0]
  | 0x0CD => shape fmtFloat [1] [0] [0]
  | 0x0D0 | 0x0D1 | 0x0D2 | 0x0D3 | 0x0D4 | 0x0D5 | 0x0D6 | 0x0D7 | 0x0D8 => shape fmtFloat [1] [0] pmLanes
  | 0x0E0 | 0x0E1 => shape fmtFloat [1] [2] [0]
  | 0x0E2 => shape fmtInt [1] [2] [0]
  | 0x0E3 => shape fmtBlock [2] [2] [0]
  | 0x0E4 => shape fmtBlock [1] [2] [0]
  | 0x0E5 => shape fmtFloat [1] [2] [0]
  | 0x0E8 => { shape fmtFloat [2] [0, 1] pmLanes with scls := [0, 1, 3] }
  | 0x0E9 => { shape fmtFloat [2] [0, 1] pmLanes with scls := [0, 2] }
  | 0x0F0 | 0x0F1 | 0x0F2 => shape fmtFloat [1] [0] [0]
  | 0x0F3 => shape [2] [2] [0] [0]
  | 0x0F4 => shape fmtFloat [2] [2] [0]
  | _ => shape fmtFloat [2] [0, 1] pmLanes

/-- Table 7-4: the tensor group. Codes of FMT are field codes for TDSET and TDQ (R136). -/
def tensorShape (o : Nat) : Shape :=
  match o with
  | 0x140 => shapeTensor [1] [2] [0, 1]
  | 0x141 => shapeTensor [0, 1, 2, 3, 4, 5, 6, 7] [2] [0, 1]
  | 0x142 | 0x143 => shapeTensor [1] [1] [0, 2]
  | 0x144 => shapeTensor [1] [2] [0, 1]
  | _ => shapeTensor [0, 1, 2, 3, 4, 5, 6, 7, 8, 9] [1] [0, 2]

/-- Table 8-6: the contraction group. ACCRD's arity depends on its format. -/
def contractShape (o fmt : Nat) : Shape :=
  match o with
  | 0x150 => shapeMem (fmtFloat ++ fmtBlock) [2, 3] [2] [0]
  | 0x151 => shapeMem (fmtFloat ++ fmtBlock) [2] [2] [0]
  | 0x152 | 0x153 => shapeMem (fmtFloat ++ fmtBlock) [3] [2] [0]
  | 0x154 | 0x155 => shapeMem fmtFloat [1] [2] [0]
  | 0x156 => shapeMem [10] [1] [2] [0]
  | 0x157 => shapeMem (fmtFloat ++ fmtBlock) (if fmt = 8 ∨ fmt = 9 then [2] else [1]) [2] [0]
  | 0x158 => shapeMem fmtAny [1] [2] [0]
  | 0x159 | 0x15D => shapeMem [2] [1] [2] [0]
  | 0x15A => shapeMem (fmtFloat ++ fmtBlock) [1] [2] [0]
  | 0x15B => shapeMem fmtBlock [1] [0] [0]
  | _ => shapeMem [1] [2] [0, 1] [0]

/-- Tables 9-5 and 9-6, R304: the memory group. AGEN's arity depends on its mode (R169). -/
def memoryShape (o fmt : Nat) : Shape :=
  match o with
  | 0x1C0 => shapeMem [0, 1, 2, 3, 4] (if fmt = 3 then [1] else if fmt = 4 then [2] else [0, 1]) [2] [0]
  | 0x1C1 | 0x1C3 | 0x1C4 | 0x1C8 => shapeMem fmtLoad [1] [2] pmLanes
  | 0x1C2 | 0x1C5 => shapeMem fmtLoad [2] [2] pmLanes
  | 0x1C6 => shapeMem fmtValue [1] [2] [0]
  | 0x1C7 => shapeMem fmtValue [2] [2] [0]
  | 0x1C9 => shapeMem fmtAny [1] [2] [0]
  | 0x1D1 => shapeMem [2] [2] [2] pmLanes
  | 0x1D7 => shapeMem [0, 1, 2] [2] [2] pmLanes
  | 0x1D8 => shapeMem [0, 1, 2] [3] [2] pmLanes
  | 0x1DA => shapeMem [2] [3] [2] [0]
  | 0x1DB => shapeMem [7] [2] [2] pmLanes
  | 0x1E0 => shapeMem fmtAny [1] [2] [0]
  | 0x1E1 => shapeMem fmtAny [2] [2] [0]
  | 0x1E2 => shapeMem [1] [1] [2] [0]
  | 0x1E3 => shapeMem fmtAny [1] [2] [0]
  | _ => shapeMem [0, 1] [2] [2] pmLanes

/-- Tables 15-5, 11-4, 12-5 and 17-1: the queue and the region, context and system groups. -/
def systemShape (o : Nat) : Shape :=
  match o with
  | 0x240 => shapeSys [1] [2] [2]
  | 0x242 => shapeSys [1] [1] [2]
  | 0x280 => shapeSys [1] [2] [0, 1]
  | 0x282 => { shapeSys fmtAny [1] [0] with emits := .nothing }
  | 0x283 => { shapeSys fmtAny [1] [2] with emits := .nothing }
  | 0x284 => shapeSys [1] [1] [0]
  | 0x287 | 0x288 | 0x289 => shapeSys [1] [1] [2]
  | 0x28A => { shapeSys fmtAny [1] [2] with emits := .nothing }
  | 0x28B => shapeSys fmtAny [1] [0, 2]
  | _ => shapeSys fmtAny [1] [2]

/-- The shape of an opcode under a format code. -/
def shapeOf (o fmt : Nat) : Shape :=
  if o < 0x040 then controlShape o
  else if o < 0x0C0 then integerShape o
  else if o < 0x140 then floatShape o
  else if o < 0x150 then tensorShape o
  else if o < 0x1C0 then contractShape o fmt
  else if o < 0x240 then memoryShape o fmt
  else systemShape o

/-- Elements per lane of a format (Table 2-1). -/
def elemsPerLane (fmt : Nat) : Nat :=
  match fmt with
  | 3 | 4 | 5 => 2
  | 6 | 7 | 8 => 4
  | 9 | 10 => 8
  | _ => 1

/-- Element width in bits of a format (Table 2-1). -/
def elemWidth (fmt : Nat) : Nat := 32 / elemsPerLane fmt

/-- A status register that RDSR may name (Table 12-1). -/
def regReadable (n : Nat) : Bool :=
  n ≤ 0x0F || (0x11 ≤ n && n ≤ 0x18) || (0x40 ≤ n && n ≤ 0x7F)

/-- A status register that WRSR may name (Table 12-1). -/
def regWritable (n : Nat) : Bool :=
  n == 0x03 || n == 0x04 || n == 0x0C || n == 0x10 || n == 0x12 || n == 0x16 || n == 0x17 || (0x40 ≤ n && n ≤ 0x7F)

/-- A register whose write is privileged (Table 12-1). -/
def regPrivileged (n : Nat) : Bool := n == 0x10 || n == 0x16 || n == 0x17 || (0x40 ≤ n && n ≤ 0x7F)

/-- The parameter of a memory node lies in its ranges (Table 9-4). -/
def memParamOk (o p : Nat) : Bool :=
  let seq := bits p 31 26
  let isLoad := o == 0x1C1 || o == 0x1C4 || o == 0x1C6 || o == 0x1C8
  seq != 62 && (seq != 63 || (bits p 25 20 == 0 && bits p 19 14 == 0)) &&
  (isLoad || bits p 13 9 == 0) &&
  (if o == 0x1E0 then bits p 8 6 ≤ 4 && bits p 3 0 == 0 else bits p 8 6 == 0) &&
  bits p 5 5 == 0 && (o == 0x1C9 || bits p 4 4 == 0)

/-- The fields of a parameter (LIT = 10) lie in their ranges and its reserved bits are zero. -/
def paramOk (o fmt p : Nat) : Bool :=
  match o with
  | 0x00B => bits p 31 16 == 0
  | 0x013 => p != 0
  | 0x014 => bits p 31 2 == 0
  | 0x016 => bits p 31 17 == 0
  | 0x01C => bits p 31 2 == 0 && p != 3
  | 0x01D => bits p 31 1 == 0
  | 0x01E => bits p 31 8 == 0 && p != 0
  | 0x01F => bits p 31 2 == 0 && p != 3
  | 0x05C | 0x05D =>
    bits p 31 11 == 0 && 1 ≤ bits p 10 5 && bits p 10 5 ≤ 32 && bits p 4 0 + bits p 10 5 ≤ elemWidth fmt
  | 0x06A => bits p 15 0 != 0 && bits p 31 16 + bits p 15 0 ≤ 65536
  | 0x06B => bits p 15 0 != 0
  | 0x06D | 0x06E => bits p 31 5 == 0
  | 0x06F => bits p 31 6 == 0 && p ≤ 32
  | 0x0E0 | 0x0E2 | 0x0E1 =>
    let ofmt := bits p 3 0
    let ni := elemsPerLane fmt
    let no := elemsPerLane ofmt
    bits p 31 6 == 0 && (if o == 0x0E1 then fmtInt.contains ofmt else fmtFloat.contains ofmt) &&
    bits p 5 4 < Nat.max ni no / Nat.min ni no
  | 0x0E3 => bits p 31 4 == 0 && fmtFloat.contains (bits p 3 0)
  | 0x0E4 => bits p 31 6 == 0 && fmtFloat.contains (bits p 3 0)
  | 0x0E5 => bits p 31 9 == 0 && fmtBlock.contains (bits p 3 0)
  | 0x0F4 => bits p 31 1 == 0
  | 0x142 | 0x143 | 0x145 => bits p 31 12 == 0
  | 0x150 | 0x151 | 0x152 | 0x153 => bits p 31 21 == 0 && bits p 12 8 ≤ 23 && bits p 16 13 ≤ bits p 20 17
  | 0x154 => bits p 31 6 == 0 && bits p 5 2 ≤ 8 && bits p 1 0 != 3
  | 0x155 => bits p 31 5 == 0
  | 0x156 => bits p 31 20 == 0 && bits p 19 15 + bits p 14 10 ≤ 31
  | 0x157 =>
    bits p 31 17 == 0 && 1 ≤ bits p 15 10 && bits p 15 10 ≤ 32 && bits p 9 0 + bits p 15 10 * elemsPerLane fmt ≤ 1024
  | 0x158 => bits p 31 20 == 0 && bits p 9 0 + bits p 19 10 ≤ 1023
  | 0x159 | 0x15D => bits p 31 10 == 0
  | 0x15A => bits p 31 14 == 0 && bits p 12 0 ≤ 4095
  | 0x1C0 => bits p 31 9 == 0 && (fmt == 4 || bits p 8 4 == 0)
  | 0x1E2 => bits p 31 6 == 0
  | 0x1E3 => bits p 15 6 == 0
  | 0x240 | 0x243 => bits p 31 9 == 0
  | 0x241 => bits p 15 9 == 0
  | 0x242 => bits p 31 11 == 0 && bits p 10 9 != 3
  | 0x281 | 0x283 => bits p 5 0 == 0
  | 0x285 => bits p 31 8 == 0 && bits p 3 3 == 0
  | 0x286 => bits p 31 16 == 0 && p != 0
  | 0x287 => bits p 31 1 == 0
  | 0x288 => bits p 31 8 == 0 && regReadable p
  | 0x289 => bits p 31 8 == 0 && regWritable p
  | 0x28A => bits p 31 4 == 0
  | _ => if 0x1C1 ≤ o && o ≤ 0x1E1 then memParamOk o p else true

/-- LIT keeps R44 and the instruction's table, and a parameter is in range (reason 5). -/
def litOk (o : Nat) (r : Rec) : Bool :=
  let sh := shapeOf o r.fmt.toNat
  let tb := r.fmt == 8 || r.fmt == 9
  sh.lits.contains r.lit.toNat &&
  (match r.lit.toNat with
   | 0 => r.lit32 == 0
   | 1 => 2 ≤ r.ary.toNat && !tb
   | 2 => paramOk o r.fmt.toNat r.lit32.toNat
   | _ => r.ary == 3 && !tb) &&
  (!(r.lit == 1 && (o == 0x140 || o == 0x141 || o == 0x144)) || bits r.lit32.toNat 31 12 == 0)

/-- A destination keeps R49. -/
def destOk (d : Dest) : Bool :=
  if d.v == 0 then d.oport == 0 && d.node == 0 && d.opnd == 0
  else if d.oport == 13 then d.opnd == 0
  else if d.oport == 14 then d.opnd == 3
  else if d.oport == 15 then d.node == 0 && d.opnd == 0
  else true

/-- Both destinations keep R49 and R50 (reason 8). -/
def destsOk (o : Nat) (r : Rec) : Bool :=
  destOk r.d0 && destOk r.d1 &&
  (match (shapeOf o r.fmt.toNat).emits with
   | .token => !(r.d1.v == 1 && r.d0.v == 0) || r.pm == 3
   | .nothing => r.d0.v == 0 && r.d1.v == 0
   | .both => r.d0.v == 1 && r.d1.v == 1)

/-- The reason code of the first condition of Table 3-15 that a record breaks, in table order; `none` where it
breaks none. `pad` is the padding word of R40. -/
def recordReason (o : Nat) (r : Rec) (pad : Nat) : Option Nat :=
  let sh := shapeOf o r.fmt.toNat
  if (lookupOp opTable o).isNone then some 1
  else if !sh.fmts.contains r.fmt.toNat then some 2
  else if !(sh.arys.contains r.ary.toNat && sh.pms.contains r.pm.toNat && sh.scls.contains r.scl.toNat) then some 3
  else if r.tag.toNat != sh.tag then some 4
  else if !litOk o r then some 5
  else if r.rnd == 6 || r.rnd == 7 then some 6
  else if r.rsv != 0 || pad != 0 then some 7
  else if !destsOk o r then some 8
  else if r.jdq != 0 && (sh.noJdq || r.ary == 0 || r.ary == 1) then some 9
  else if (sh.noSatSclWgt && (r.sat != 0 || r.scl != 0 || r.wgt != 0)) ||
      (sh.noSatSclRnd && (r.sat != 0 || r.scl != 0 || r.rnd != 0)) then some 10
  else none

end Sys2Proof
end

