-- ==== Sys2Proof/Config.lean ====
section
/-! DEFINITION. What one implementation fixes, and the free values: what the spec leaves open on this module. -/

namespace Sys2Proof

/-- What a byte of memory that nothing has written reads as.
DESIGN CHOICE (log 1): the spec gives no contents of T0, T1, T2 or T3 after power-up. -/
def Config.blankByte : Byte := 0

/-- Which of the two neighbours a faithfully rounded result takes (R115): true for the one farther from zero. A free
value: a fixed function of the function code, the format and the input, of which nothing is known (log 2). -/
opaque Config.outerNeighbour (fn fmt x : Nat) : Bool

/-- Byte `i` of the attestation report (R368) over the digest of the running image, BOOT_ST, the words of the topology table that
are not zero, and the nonce, signed under a device key. The spec gives neither its layout nor the digest and signature functions'
values. A free value (log 3). -/
opaque Config.reportByte (image bootSt : Nat) (topology : List (Nat × Nat × Nat)) (nonce : BitVec 256) (key i : Nat) : Byte

/-- The CRC-32 over bytes 0 to 243 of a flue flit (R353). The spec names no polynomial. A free value (log 118). -/
opaque Config.crc32 (bytes : List Byte) : BitVec 32

/-- Byte `i` of the messages that carry an item over a flue link (R353, R356 to R360). The spec gives no layout for what the
collective engines of two modules send each other. A free value (log 118). -/
opaque Config.itemByte (x : FlueItem) (i : Nat) : Byte

/-- The cycles beyond the first that the n-th variable latency takes. A free value (log 4). -/
opaque Config.freeDelay (n : Nat) : Nat

/-- The n-th value that the spec leaves open. A free value (log 5). -/
opaque Config.freeWord (n : Nat) : Nat

/-- The strike window Tstrike in cycles (R17, R350). -/
def Config.tstrike : Nat := 128

/-- Cycles after which an unanswered request is reported (R329, R361). -/
def Config.requestTimeout : Nat := 2097152

/-- Cycles after which a marker snapshot is abandoned (R311). -/
def Config.snapshotLimit : Nat := 1048576

/-- Cycles within which a flue link must find lane lock (R352). -/
def Config.lockLimit : Nat := 1048576

/-- Hearths of one die (R7). -/
def Config.hearthsPerDie : Nat := 12288

/-- Hearths of the module (R7). -/
def Config.hearths : Nat := 49152

/-- Input-queue tokens per operand port (R10). -/
def Config.queueDepth : Nat := 4

/-- Damper entries of a hearth (R10). -/
def Config.damperEntries : Nat := 256

/-- Unreserved delay-matching entries of a hearth (R219). -/
def Config.unreserved : Nat := 32

end Sys2Proof
end

