-- ==== Sys2Proof/Machine/State.lean ====
section
/-! DEFINITION. The state of the module as plain data: everything the spec gives the machine, and the bookkeeping
of the one deterministic step that runs it. Things that come in large numbers are sparse tables whose missing
entries hold a named default. `State.reset` is the machine right after reset. -/

namespace Sys2Proof.Machine

/-- Why the machine stops without a next state. No spec-described condition of the module ends a run: run-time
faults of R60 are effects on the module's own state, and are modelled so. -/
inductive Fault where
  /-- Raised by a step whose locus is not one its instruction can have (an engine command away from a queue, a
  node instruction away from a node). The step function never makes such a pair. Safe. -/
  | misplaced
  deriving DecidableEq, Repr

/-- Why a step has no meaning. -/
inductive Refusal where
  /-- Raised by an arm of `exec` whose instruction has no meaning in this model. Safe. -/
  | notModelled (mnemonic : String)
  /-- Raised by `step` when the record at the firing node has an unallocated opcode (R55); the loader never lets
  one become resident (R58). Safe. -/
  | undecoded (h k n : Nat)
  deriving DecidableEq, Repr

/-! ### Tokens -/

/-- The MK field of a token header (R51). -/
inductive Mark where
  | data | barrier | snapshot | freeze
  deriving DecidableEq, Repr

/-- A token: the header of R51, the payload lanes, and three fields of the model that follow it. -/
structure Token where
  ctx : Nat := 0
  col : Nat := 0
  wave : Nat := 0
  node : Nat := 0
  port : Nat := 0
  wid : Nat := 1
  fmt : Nat := 1
  sc : Bool := false
  flg : BitVec 5 := 0
  tnt : Bool := false
  res : Nat := 0
  rid : Nat := 0
  mark : Mark := .data
  rsv : Bool := false
  scw : Nat := 0
  lanes : List Word := [0]
  /-- Cycle in which the token came to its present place (R315). -/
  since : Nat := 0
  /-- Region and colour that sent the token over the mesh, with that colour's serial (R342). -/
  sender : Option (Nat × Nat × Nat) := none
  /-- Already written to a snapshot area as channel state (R309). -/
  recorded : Bool := false
  /-- Cycle in which the token came to its node, in whichever place it waits there (R81, R169). -/
  came : Nat := 0
  deriving DecidableEq, Repr

/-- How a token travels (R218, R54). -/
inductive Way where
  | local | circuit | predicate | mesh
  deriving DecidableEq, Repr

/-- A token in flight to one operand port (R218). -/
structure Flight where
  tok : Token
  /-- Region, hearth and slot it is addressed to. -/
  region : Nat
  h : Nat
  k : Nat
  /-- The route identifier configured at the receiver (R53). -/
  expect : Nat
  arrive : Nat
  way : Way
  deriving DecidableEq, Repr

/-- A message on the mesh (R54): the route flit's fields and what it carries. Token sends, grid-call traffic and
engine control travel so; memory traffic is held as requests and replies. -/
structure MeshMessage where
  ddie : Nat := 0
  dx : Nat := 0
  dy : Nat := 0
  dkind : Nat := 0
  cls : Nat := 4
  /-- The LEN field. -/
  len : Nat := 1
  /-- The flits that really arrived. -/
  flits : Nat := 1
  sdie : Nat := 0
  sx : Nat := 0
  sy : Nat := 0
  mctx : Nat := 0
  snode : Nat := 0
  reqt : Nat := 0
  addr : Nat := 0
  rid : Nat := 0
  /-- Bits 127:0, by class (R54, R184, R293). -/
  body : Nat := 0
  token : Option Token := none
  /-- The route identifier configured at the receiver (R53). -/
  expect : Nat := 0
  arrive : Nat := 0
  /-- The region that sent it. -/
  source : Option Nat := none
  deriving DecidableEq, Repr

/-! ### Memory traffic -/

/-- A damper entry's state (R338, Table 19-2); a discarded or applied entry is no longer listed. -/
inductive EntryState where
  | held | eligible | logged | sent
  deriving DecidableEq, Repr

/-- A damper entry (R336). KIND 1 and 4 keep the byte address of their word or byte; other kinds are 32-byte
aligned. -/
structure DamperEntry where
  id : Nat
  tnt : Bool
  kind : Nat
  slot : Nat
  region : Nat
  col : Nat
  pa : Nat
  mask : BitVec 32
  data : BitVec 256
  /-- Cycle in which it entered; AGE is the distance from it, saturating at 255. -/
  born : Nat
  st : EntryState
  /-- Resends made (R346). -/
  resent : Nat
  /-- Cycle of the send. -/
  sentAt : Nat
  /-- Place of its activation in the order cm (R186), from 1; 0 before the commit point. -/
  order : Nat := 0
  /-- It writes a page with NR = 1 (R268). -/
  nr : Bool := false
  /-- It has a copy in the commit log, and its place in the damper is free (R338, R340). -/
  inLog : Bool := false
  /-- A resend that waits for the damper's drain and the bank port, and what it adds to `resent` (R339, R346). -/
  again : Nat := 0
  deriving DecidableEq, Repr

/-- One lane of a reply: a word carried unchanged, or bytes at physical addresses, each read from the activation's
own damper entry as it stood at issue or else from memory when the load performs (R171). -/
inductive LaneRead where
  | keep (w : Word)
  | mem (bytes : List (Nat × Option Byte))
  deriving DecidableEq, Repr

/-- When a memory node's token leaves. -/
inductive Answer where
  /-- At issue, with the node's latency (stores, PREF, MCAST, OPTST, RETW, ENQ's store has its own path). -/
  | atIssue
  /-- With the reply (loads and atomics). -/
  | atReply
  /-- Once the committed writes within the scope have performed (FENCE, R179). -/
  | fenced (scope : Nat)
  deriving DecidableEq, Repr

/-- A memory request of a node (R170): in the ordering buffer until it issues, then outstanding until its reply. -/
structure Request where
  id : Nat
  node : Nat
  col : Nat
  wave : Nat
  seq : Nat
  pred : Nat
  succ : Nat
  issued : Bool
  /-- The lanes of the reply; empty where nothing is read. -/
  reads : List LaneRead
  /-- The scale word that goes into SCW (LDT, R173), in the low half of a lane. -/
  scw : Option LaneRead
  /-- STT: where the scale word goes, and its value (R174). -/
  mix : Option (Nat × Nat)
  /-- Whether the granules read enter the read set (R171). -/
  tracked : Bool
  /-- Entries that enter the damper at issue. -/
  writes : List DamperEntry
  /-- ACAS: lanes whose word differs from b take no update (R177). -/
  compare : Bool
  /-- Virtual ranges whose leaves have A, and D for a write, set at issue (R323): address, length, write. -/
  leaves : List (Nat × Nat × Bool)
  /-- STS: the write pointer, the offset it must equal and the bytes it advances by (R174). -/
  pointer : Option (Nat × Nat × Nat)
  /-- The token emitted, and the record's destinations and latency. -/
  tok : Token
  nrec : Rec
  lat : Nat
  answer : Answer
  /-- Cycle of the reply or of the emission. -/
  due : Nat
  /-- Cycle of the issue. -/
  issuedAt : Nat
  /-- A request to T3 (R361). -/
  t3 : Bool
  /-- Withheld after a timeout until RESUME issues it again (R329). -/
  held : Bool
  /-- Granules that it reads through a leaf with K = 1 (R326). -/
  crit : List Nat := []
  /-- Its place among all requests that have issued. -/
  order : Nat := 0
  /-- FENCE: the committed writes within its scope that had not performed when it fired (R179). -/
  after : List Nat := []
  /-- Bits of lane 0 that an error has turned in the reply on its way (R33, R346). -/
  noise : Nat := 0
  /-- PREF: what the endpoint is to read into its row buffers (R175): virtual address, physical address, bytes. -/
  hint : List (Nat × Nat × Nat) := []
  deriving DecidableEq, Repr

/-- The last request that issued in a chain (R170). -/
structure Chain where
  col : Nat
  wave : Nat
  seq : Nat
  succ : Nat
  /-- The wave's request with SUCC = 63 has issued. -/
  ended : Bool
  deriving DecidableEq, Repr

/-- A withheld access of a node (R168): its cause, address and element counter, and when it was found. -/
structure WithheldAccess where
  cause : Nat
  addr : Nat
  elem : Nat
  detail : Nat
  col : Nat
  wave : Nat
  found : Nat
  sent : Bool
  /-- Waits for a recompute of this tensor instead of a RESUME (R132). -/
  recompute : Option (Nat × Nat)
  /-- RESUME was received: the head token is checked again. -/
  resumed : Bool
  deriving DecidableEq, Repr

/-! ### Node and slot state -/

/-- Why a token waits at its node to leave later than its firing (R418). -/
inductive HoldKind where
  | delay | cret | status | result | returned | transposed
  deriving DecidableEq, Repr

/-- A held token. A CRET hold names the colour whose commit releases it. -/
structure Hold where
  kind : HoldKind
  tok : Token
  nrec : Rec
  /-- Cycle from which it may leave; for a CRET hold, once `ready`. -/
  due : Nat
  ready : Bool
  /-- CRET: the colour ended, the wave of its firing, and the parent's serial it must find (R88). -/
  col : Nat
  wave : Nat := 0
  pser : Nat
  deriving DecidableEq, Repr

/-- The state of one node (R225, Table 11-5, and the waiting tokens). -/
structure NodeState where
  qa : List Token := []
  qb : List Token := []
  qc : List Token := []
  qp : List Token := []
  /-- JDQ entries in arrival order, each with its port (R69). -/
  jdq : List (Nat × Token) := []
  /-- Start tokens of a source node. -/
  starts : List Token := []
  holds : List Hold := []
  /-- RANGE or AGEN emissions made for the head trigger; 1 at a MARK that still owes its marker. -/
  emitted : Nat := 0
  /-- Markers a source node still has to emit (R308, R313). -/
  owed : List Token := []
  credit : Int := 0
  weight : Nat := 1
  passed : Nat := 0
  /-- Tokens counted over the running 1,024 cycles (R73). -/
  qsum : Nat := 0
  /-- Address tokens consumed per colour (R168). -/
  elems : List (Nat × Nat) := []
  /-- LDT or STT passes: colour and the identifier entry read at its beginning (R128). -/
  passes : List (Nat × BitVec 512) := []
  withheld : Option WithheldAccess := none
  /-- Ports that have received the snapshot marker of R309. -/
  marked : List Nat := []
  /-- The node stops firing until its snapshot markers align. -/
  stopped : Bool := false
  /-- Last cycle in which a token of the node is presented to an output port. -/
  sentAt : Nat := 0
  deriving DecidableEq, Repr

/-- A frame slot (R66): header and waiting payloads, or a CNTF count. -/
structure FrameSlot where
  col : Nat
  /-- wave mod K, and the node whose join index the slot serves. -/
  row : Nat
  node : Nat
  wave : Nat
  a : Option Token
  b : Option Token
  c : Option Token
  p : Option Token
  flg : BitVec 5
  tnt : Bool
  count : Nat
  deriving DecidableEq, Repr

/-- A wave-count buffer entry in use (R71). -/
structure WaveCount where
  col : Nat
  wave : Nat
  cnt : Nat
  bk : Bool
  deriving DecidableEq, Repr

/-- A block being transposed (R163): the elements received, the tokens' widths, and the tokens still to go out. -/
structure Transpose where
  node : Nat
  tag : Nat × Nat
  scw : Nat
  elems : List Nat
  widths : List Nat
  flg : BitVec 5
  tnt : Bool
  sc : Bool
  out : List Token
  nrec : Rec
  due : Nat
  deriving DecidableEq, Repr

/-- An element received for a contraction: its bits, the scale word of its token, and that token's FLG and TNT. -/
structure StreamElem where
  x : Nat
  scw : Nat
  flg : BitVec 5
  tnt : Bool
  deriving DecidableEq, Repr

/-- A sum on its way to an accumulator (R145): accumulator, the rounded group sum, the flags raised and brought, and
the taint. -/
structure GroupSum where
  acc : Nat
  sum : Nat
  flg : BitVec 5
  tnt : Bool
  deriving DecidableEq, Repr

/-- A mask lane received for a sparse contraction, with its token's FLG and TNT (R148, R149). -/
structure MaskLane where
  w : Word
  flg : BitVec 5
  tnt : Bool
  deriving DecidableEq, Repr

/-- A contraction in progress (R144): the descriptor it latched and what has been consumed. -/
structure Contraction where
  node : Nat
  opc : Nat
  nrec : Rec
  ctx : Nat
  col : Nat
  wave : Nat
  cdx : BitVec 512
  /-- Lanes consumed on ports A, B and C. -/
  la : Nat
  lb : Nat
  lc : Nat
  /-- Elements received and not yet used. -/
  ea : List StreamElem
  eb : List StreamElem
  ec : List StreamElem
  /-- FLG, TNT and SC over every token consumed, and the flags raised. -/
  flg : BitVec 5
  tnt : Bool
  sc : Bool
  /-- Next output of the tile and the position at which its next group begins. -/
  out : Nat
  pos : Nat
  /-- Mask lanes received and not yet used, and the elements of A and B that all masks so far call for (R148). -/
  masks : List MaskLane
  kept : Nat
  /-- Accumulators counted in MXC_NAN and in MXC_OVF. -/
  nans : List Nat
  ovfs : List Nat
  /-- The cycle in which the last step began, the cycle from which the unit is free again, the sum still on its way,
  and whether the walk is complete. -/
  lastStep : Nat
  busyUntil : Nat
  last : Option GroupSum
  done : Bool
  deriving DecidableEq, Repr

/-- An owned slot of a circuit port that a token leaves in (R218): the cycle it was presented in, its rank there
(0 a deferred token, 1 the first and 2 the second of a firing's tokens), the cycle it leaves in, and its flights. -/
structure PortUse where
  port : Nat
  presented : Nat
  rank : Nat
  leave : Nat
  flights : List Nat
  deriving DecidableEq, Repr

/-- The switch configuration of a slot and what a plane saves of it (R214, R225). -/
structure SlotConfig where
  /-- Node records; a missing one is an empty slot (R39). -/
  store : Tab (BitVec 96) := []
  /-- Circuit-port entries 0 to 11 (R217). -/
  circuits : Tab (BitVec 128) := []
  /-- Predicate-route entries by node (R217). -/
  routes : Tab (BitVec 32) := []
  nodes : Tab NodeState := []
  /-- Ordering buffer and outstanding requests. -/
  buffer : List Request := []
  chains : List Chain := []
  /-- Owned circuit slots taken, in the order in which tokens were presented (R218). -/
  portUsed : List PortUse := []
  /-- In a plane: a transposed block that is still being output, which waits with its node. -/
  output : Option Transpose := none
  deriving DecidableEq, Repr

/-- Where an ember plane lies (R226). -/
inductive PlanePlace where
  | onDie | stateDie | t1
  deriving DecidableEq, Repr

/-- An ember plane: the covered slot, the tokens in its circuit stages, and mesh tokens kept for its depth (R225,
R227). Cycles in it are those of the boundary it was frozen at: what it still owes is counted from there. -/
structure Plane where
  place : PlanePlace
  cfg : SlotConfig
  stages : Tab Flight
  arrivals : List Token
  frozenAt : Nat
  /-- A move in progress: its target and the cycle it ends in. -/
  moving : Option (PlanePlace × Nat)
  /-- Lengths of the token records that stand in its spill slot in T1, and in its extension there (R226). -/
  spilled : List Nat := []
  extended : List Nat := []
  deriving DecidableEq, Repr

/-- One context slot of one hearth. -/
structure SlotState where
  region : Option Nat := none
  cfg : SlotConfig := {}
  carveStart : Nat := 65536
  carveSize : Nat := 0
  planes : List Plane := []
  /-- A rekindle has ended, and the newest plane off the die is to move back up (R226). -/
  lift : Bool := false
  frames : List FrameSlot := []
  waves : List WaveCount := []
  lfsr : BitVec 32 := 0
  starve : Nat := 0
  /-- Cycle in which a YIELD's ranking ends (R244). -/
  yieldUntil : Nat := 0
  transpose : Option Transpose := none
  contraction : Option Contraction := none
  /-- The frame slots whose bytes stand in memory, as they stand there (R67). -/
  shown : List FrameSlot := []
  /-- Cycle of the last firing in the slot. -/
  firedAt : Option Nat := none
  /-- Cycle in which a reply last came to a node of the slot (R314). -/
  heardAt : Option Nat := none
  deriving DecidableEq, Repr

/-- Where a context's accumulator values or stay values lie (R151, R238). -/
inductive FilePlace where
  /-- Nowhere: the file reads +0. -/
  | none
  /-- In the hearth's own file or register. -/
  | live
  /-- In a home of the state die. -/
  | home
  /-- In the context's T1 home. -/
  | t1Home
  /-- In the context's image. -/
  | image
  deriving DecidableEq, Repr

/-- A context's accumulator file in one hearth (R149). -/
structure AccFile where
  place : FilePlace := .none
  vals : Tab Word := []
  af : Tab (BitVec 5) := []
  taint : List Nat := []
  /-- Slot and colour that began the current accumulation. -/
  acol : Option (Nat × Nat) := none
  deriving DecidableEq, Repr

/-- A context's stay register in one hearth (R143). STAYFMT 16 is the table mark of LUTP (R159). -/
structure StayFile where
  place : FilePlace := .none
  lanes : Tab Word := []
  cnt : Nat := 0
  fmt : Nat := 0
  scw : Nat := 0
  deriving DecidableEq, Repr

/-- One hearth. -/
structure Hearth where
  fenced : Bool := false
  damper : List DamperEntry := []
  accs : Tab AccFile := []
  stays : Tab StayFile := []
  /-- Cycles counted for starving slots (R72). -/
  starving : Option Nat := none
  /-- Accumulator-spill microtraps in progress: the touching context, whether it is the stay register, and the cycle
  they end in (R151). -/
  spills : List (Nat × Bool × Nat) := []
  strikes : Nat := 0
  uncorrectable : Nat := 0
  deriving DecidableEq, Repr

/-! ### Regions and activations -/

/-- ST of a colour-table entry (R62). -/
inductive ColourState where
  | free | live | ended | purging
  deriving DecidableEq, Repr

/-- An effect staged in an activation until the apply phase of its commit (R190, R335). -/
inductive Staged where
  /-- Identifier-table write: context, identifier, the bits written and their mask. -/
  | tensor (m tid : Nat) (mask val : BitVec 512)
  /-- Contraction-descriptor write (R164). -/
  | descriptor (i : Nat) (image : BitVec 512)
  /-- Status-register write (R243), from hearth and slot. -/
  | register (h k reg val : Nat)
  /-- CTX_PRIO write (R244). -/
  | priority (m prio : Nat)
  /-- HALT (R245). -/
  | halt (m : Nat)
  /-- Queue append (R275) made by a firing in hearth h at a cycle. -/
  | append (q addr : Nat) (h c : Nat)
  /-- Queue tail advance (R275). -/
  | tail (q n : Nat) (h c : Nat)
  /-- SPAWN (R260). -/
  | spawn (va : Nat) (after at' : Bool)
  deriving DecidableEq, Repr

/-- A colour-table entry (R62) and the activation it stands for. -/
structure Colour where
  st : ColourState := .free
  wid : Nat := 0
  ts : Nat := 0
  pcol : Nat := 0
  pwave : Nat := 0
  sx : Nat := 0
  sy : Nat := 0
  snode : Nat := 0
  ovf : Bool := false
  /-- Frame base: FB, with FBX above it when OVF = 1. -/
  fb : Nat := 0
  km1 : Nat := 0
  vm1 : Nat := 0
  loop : Bool := false
  lwave : Nat := 0
  owave : Nat := 0
  nwave : Nat := 0
  vcnt : Nat := 0
  back : Bool := false
  depth : Nat := 0
  ser : Nat := 0
  pser : Nat := 0
  flagsSt : BitVec 5 := 0
  mxcNan : Nat := 0
  mxcOvf : Nat := 0
  mxcSat : Nat := 0
  /-- The reissue copy (R67, R86). -/
  copy : Option Token := none
  /-- The SNODE's record at allocation, for the re-emission of R77. -/
  copyRec : Option Rec := none
  /-- Read set: granule numbers (R171). -/
  reads : List Nat := []
  staged : List Staged := []
  /-- Activations whose tokens this one consumed: region, colour, serial (R189). -/
  producers : List (Nat × Nat × Nat) := []
  /-- Last cycle in which a result of the activation was inside a pipeline (R337). -/
  busy : Nat := 0
  /-- Last firing or contraction step in each hearth (R341). -/
  fired : List (Nat × Nat) := []
  /-- A token with TNT = 1 was consumed, or an entry with TNT = 1 written (R345). -/
  taint : Bool := false
  /-- Scale words that its STT runs have staged: the scale word's address and its value (R174). -/
  blocks : List (Nat × Nat) := []
  /-- The group of a group colour (R63), and for every colour the group from whose colour it descends (R265). -/
  group : Option Nat := none
  origin : Option Nat := none
  /-- Oldest-only mode in hearths (R340). -/
  oldest : List Nat := []
  /-- In that mode it has been the oldest: no conflict aborts it any more (R340). -/
  settled : Bool := false
  /-- The prepare phase of its commit goes on (R190). -/
  preparing : Bool := false
  /-- The commit has taken its point and is in its apply phase. -/
  committed : Bool := false
  /-- Purging: messages with a lower number were sent before the purge began (R76). -/
  purgedAt : Nat := 0
  /-- Its place in the order cm, from 1; 0 before the commit point (R186). -/
  place : Nat := 0
  deriving DecidableEq, Repr

/-- States of a region (R215, Table 11-1). `resuming` is the Running that follows the restore of a plane, until the caller resumes
at the next frame boundary. -/
inductive RegionState where
  | unbound | loading | resident | running | callPending | covering | rekindling | resuming | loadingInPlace
  deriving DecidableEq, Repr

/-- Residence of a region's context in its hearths (R235). -/
inductive Residence where
  | absent | resident | evicting | evicted | restoring
  deriving DecidableEq, Repr

/-- The configuration of a region that every hearth holds a copy of (R214). -/
structure RegionConfig where
  cfgid : Nat := 0
  w : Nat := 0
  h : Nat := 0
  agb : Tab (BitVec 512) := []
  cdx : Tab (BitVec 512) := []
  mesh : Tab (BitVec 64) := []
  deriving DecidableEq, Repr

/-- A hearth block of a configuration image (R217): its header, 16 node records of 128 bits, 12 circuit-port entries,
16 predicate-route entries and the bytes after them. -/
structure Block where
  header : Nat
  recs : List Nat
  circuits : List Nat
  routes : List Nat
  tail : Nat
  deriving DecidableEq, Repr

/-- A configuration image as read (R216); the blocks of hearths (x, y) in the order y × W + x. -/
structure Image where
  cfgid : Nat
  w : Nat
  h : Nat
  /-- Carve in bytes. -/
  carve : Nat
  agb : List Nat
  cdx : List Nat
  mesh : List Nat
  blocks : List Block
  deriving DecidableEq, Repr

/-- What a TAILG puts in place (R229): the image, the entry hearth and node, and the argument. -/
structure TailSwap where
  image : Image
  ex : Nat
  ey : Nat
  enode : Nat
  tok : Token
  deriving DecidableEq, Repr

/-- A grid call (R223): where the CALLG is, its operand, and the callee it names. -/
structure Call where
  h : Nat
  n : Nat
  nrec : Rec
  operand : Token
  /-- The call colour. -/
  col : Nat
  /-- Directory entry, entry hearth and entry node. -/
  cfgn : Nat
  va : Nat
  cfgid : Nat
  ex : Nat
  ey : Nat
  enode : Nat
  /-- The caller's configuration, saved at the cover. -/
  saved : RegionConfig
  /-- RETG's operand (R228). -/
  result : Option Token
  /-- The call colour has committed. -/
  done : Bool
  /-- The call colour was purged and is not reissued: the rekindle is forced and the CALLG emits nothing (R230). -/
  dead : Bool
  /-- The number of the reissue that the call colour waits for (R230). -/
  again : Option Nat
  deriving DecidableEq, Repr

/-- A colour waiting to be reissued (R77): the purged entry. -/
structure Reissue where
  id : Nat
  entry : Colour
  deriving DecidableEq, Repr

/-- A sender-table entry (R342): the receiving colour, the sending region and the sending colour. -/
structure SenderEntry where
  col : Nat
  region : Nat
  scol : Nat
  deriving DecidableEq, Repr

/-- A purge notice on its way (R342): source region and colour, cycle of arrival, and whether its cause raises the
verdict (R348). -/
structure PurgeNotice where
  source : Nat
  col : Nat
  arrive : Nat
  corrects : Bool
  deriving DecidableEq, Repr

/-- A drain in progress (R308). -/
structure Drain where
  h : Nat
  n : Nat
  nrec : Rec
  id : Nat
  tok : Token
  absorbed : List Nat
  lost : Bool
  reissued : Bool
  /-- Depth of the configuration whose node started it. -/
  depth : Nat := 0
  deriving DecidableEq, Repr

/-- A marker snapshot in progress (R309 to R313). -/
structure Snapshot where
  h : Nat
  n : Nat
  nrec : Rec
  id : Nat
  tok : Token
  area : Nat
  started : Nat
  /-- Nodes that have aligned. -/
  aligned : List Nat
  /-- Bytes of token records written per hearth, and their count. -/
  written : Tab Nat
  count : Tab Nat
  /-- Hearths whose token area had no room for a record (R310). -/
  full : List Nat
  /-- A purge of the SNAP's colour has discarded its status token. -/
  dropped : Bool
  /-- Depth of the configuration whose node started it. -/
  depth : Nat := 0
  deriving DecidableEq, Repr

/-- A region (R213). -/
structure Region where
  st : RegionState := .unbound
  residence : Residence := .resident
  ctx : Nat := 0
  slot : Nat := 0
  die : Nat := 0
  x : Nat := 0
  y : Nat := 0
  w : Nat := 1
  h : Nat := 1
  /-- The depth-0 configuration identifier (R220). -/
  cfgid : Nat := 0
  cfg : RegionConfig := {}
  /-- The kernel that holds it, and its number k among that kernel's regions (R249). -/
  kernel : Option Nat := none
  index : Nat := 0
  jmax : Nat := 0
  carve : Nat := 0
  depth : Nat := 0
  planeLim : Nat := 4
  cols : Tab Colour := []
  serial : Nat := 0
  /-- Grid calls, the newest first; the head is pending or covers while depth is below their number. -/
  calls : List Call := []
  /-- A TAILG that has fired (R229). -/
  tailg : Option TailSwap := none
  /-- Purged activations waiting to be re-emitted. -/
  reissues : List Reissue := []
  senders : List SenderEntry := []
  /-- Colours whose freeing ends the untracked state (R343). -/
  untracked : Option (List Nat) := none
  drain : Option Drain := none
  snapshot : Option Snapshot := none
  snapCount : Nat := 0
  /-- Identifiers of abandoned snapshots (R311). -/
  abandoned : List Nat := []
  wdogLim : Nat := 0x01000000
  wdogCnt : Nat := 0
  wdogHit : Bool := false
  /-- Cycle in which a transition in progress ends (a load, a cover, a rekindle, an image move). -/
  until_ : Nat := 0
  /-- The image of an evicted region: slot state by hearth, and the tokens held for it. -/
  image : Tab SlotState := []
  imageFlights : Tab Flight := []
  imageAt : Nat := 0
  /-- Purge notices on their way (R342). -/
  notices : List PurgeNotice := []
  /-- Activations of the region that have been purged, by colour and serial: they never commit, and a token of theirs may
  still come to an INJECT (R88, R189). -/
  gone : List (Nat × Nat) := []
  /-- Results of RDSR, SEQRD and TDQ in flight: colour and cycle of the emission (R314). -/
  slow : List (Nat × Nat) := []
  /-- Unit of a region- or hearth-level that the region keeps (R263). -/
  unit : Option Nat := none
  /-- Its hearths have stopped firing for a HALT that takes effect (R245). -/
  halted : Bool := false
  /-- The lowest hearth that has a CALLG ready in the running cycle (R223). -/
  firstCall : Option Nat := none
  /-- The colour-table entries and reissue copies whose bytes stand in memory, as they stand there (R67, R249). -/
  tableShown : Tab Nat := []
  copyShown : Tab Token := []
  deriving DecidableEq, Repr

/-! ### Contexts, kernels, queues -/

/-- State of a module context (R234). -/
inductive ContextState where
  | idle | active | halted
  deriving DecidableEq, Repr

/-- The registers of a module context (R233 and Table 12-1). TID_BASE and TID_CNT keep the value written and the
one in effect (R125). -/
structure Context where
  st : ContextState := .idle
  prio : Nat := 0
  /-- CTX_PRIO before its last change, and the cycle in which that change applied: the new value takes effect in the
  first cycle after it (R239). -/
  prioWas : Nat := 0
  prioAt : Option Nat := none
  pmax : Nat := 0
  priv : Bool := false
  rndDef : Nat := 0
  lfsrSeed : Nat := 1
  tidBase : Nat := 0
  tidCnt : Nat := 0
  tidBaseNow : Nat := 0
  tidCntNow : Nat := 0
  accSpill : Nat := 0
  faultPtr : Nat := 0
  kvThresh : Nat := 0x80
  ptroot : BitVec 64 := 0
  /-- A HALT has applied and takes effect at the next frame boundary. -/
  halting : Bool := false
  deriving DecidableEq, Repr

/-- ST of a dependence-table entry (R254, Table 13-4). -/
inductive KernelState where
  | free | waiting | held | ready | bound | running | draining | faulting | complete | visible | withdrawn | halted
  deriving DecidableEq, Repr

/-- State of a group (R265). A group not listed is Pending, or Abandoned where its kernel is Faulting or Halted. -/
inductive GroupState where
  | running (g : Nat) | done (g : Nat) | lost | abandoned | again
  deriving DecidableEq, Repr

/-- A fault record's fields (R259, Table 13-6). -/
structure FaultRecord where
  cause : Nat := 0
  die : Nat := 0
  x : Nat := 0
  y : Nat := 0
  ctx : Nat := 0
  slot : Nat := 0
  node : Nat := 0
  col : Nat := 0
  wave : Nat := 0
  opc : Nat := 0
  elem : Nat := 0
  addr : Nat := 0
  detail : Nat := 0
  cycle : Nat := 0
  deriving DecidableEq, Repr

/-- A level of the launch record (R247). -/
structure Level where
  dom : Nat
  scp : Nat
  parts : Nat
  deriving DecidableEq, Repr

/-- A kernel in the dependence table (R251), with the fields of its launch record and its running totals. -/
structure Kernel where
  st : KernelState := .free
  ctx : Nat := 0
  rtag : Nat := 0
  seq : Nat := 0
  lra : Nat := 0
  /-- Unresolved dependences: entry, its journal number, AT. PEND is their number. -/
  deps : List (Nat × Nat × Bool) := []
  hold : Bool := false
  verdict : Nat := 0
  first : Bool := false
  nr : Bool := false
  plim : Nat := 1
  psn : Nat := 1
  dirm1 : Nat := 0
  rmax : Nat := 1
  ext0 : Nat := 1
  ext1 : Nat := 1
  ext2 : Nat := 1
  levels : List Level := []
  cta : Nat := 0
  ova : Nat := 0
  ovsz : Nat := 0
  psa : Nat := 0
  pss : Nat := 0
  cra : Nat := 0
  dira : Nat := 0
  /-- Directory entry 0 and its image's header as read at acceptance: address, identifier, shape (R250). -/
  cfgVa : Nat := 0
  cfgId : Nat := 0
  cfgW : Nat := 0
  cfgH : Nat := 0
  /-- LFSR_SEED as it stood at the kernel's start (R27). -/
  seed : Nat := 1
  /-- The pair through which it was launched; none for SPAWN (R365). -/
  pair : Option Nat := none
  /-- Identifier whose recompute it is: context and TID (R132). -/
  recompute : Option (Nat × Nat) := none
  flagsK : BitVec 5 := 0
  mxcNan : Nat := 0
  mxcOvf : Nat := 0
  mxcSat : Nat := 0
  groups : Tab GroupState := []
  groupsDone : Nat := 0
  reissued : Nat := 0
  firstCycle : Nat := 0
  endCycle : Nat := 0
  laterFaults : Nat := 0
  fault : Option FaultRecord := none
  /-- Cycle in which that fault reached the Stoker (R259). -/
  faultAt : Nat := 0
  /-- Horizon H of its commit domain (R192). -/
  horizon : Nat := 0
  /-- Regions bound so far. -/
  bound : Nat := 0
  /-- The rectangle and slot whose occupants leave for the next region of the kernel (R235): die, x, y, slot. -/
  claim : Option (Nat × Nat × Nat × Nat) := none
  /-- Dies not fenced at the first handout (R263). -/
  dies : List Nat := []
  /-- Dies fenced since then, each with the dies that survived it (R267). -/
  fences : List (Nat × List Nat) := []
  /-- Groups that have committed a write to a page with NR = 1 (R268). -/
  nrGroups : List Nat := []
  /-- Groups an activation of which has been purged for good since they were handed out: they are never Done (R265). -/
  broken : List Nat := []
  status : Nat := 0
  /-- T3 writes not yet acknowledged by the host (R198). -/
  t3Pending : Nat := 0
  recordWritten : Bool := false
  deriving DecidableEq, Repr

/-- A submission that the journal holds and that has no table entry yet (R250). -/
structure Accepted where
  sub : Submission
  /-- Its journal sequence number. -/
  seq : Nat
  /-- What reading its launch record gave, once it has been read: the table entry that it makes, and the 256 bytes. -/
  read : Option (Kernel × Nat)
  /-- It is rejected, and its completion record is still to be written: what the record says, and the reason. -/
  bad : Option (Kernel × Nat) := none
  deriving DecidableEq, Repr

/-- STATE of a queue (R271). -/
inductive QueueState where
  | disabled | idle | running | waiting | stopped
  deriving DecidableEq, Repr

/-- A contribution to a chunk that has come: the chunk, the rank that sent it, the elements, their poison, and the ranks whose
contributions are in it. -/
structure Part where
  chunk : Nat
  rank : Nat
  elems : List Nat
  tnt : Bool
  ranks : Nat
  deriving DecidableEq, Repr

/-- What a member of a collective holds of it (R357 to R359), and a SEND or RECV of its transfer (R360). Ranks name the
members; a transfer's peer is rank 0. -/
structure Collective where
  /-- The identifier of a RECV's transfer, or the one that a SEND has matched. -/
  id : Option Nat := none
  /-- Neighbours that have started their matching entry. -/
  started : List Nat := []
  /-- Cycle of the last item that came from a neighbour. -/
  heard : List (Nat × Nat) := []
  /-- Members that are lost. -/
  lost : List Nat := []
  /-- Contributions in hand. -/
  parts : List Part := []
  /-- Chunks whose partial result has gone on to the next member. -/
  passed : List Nat := []
  /-- The chunks' own contributions have gone out, and the end has been announced. -/
  began : Bool := false
  isOver : Bool := false
  /-- Results that are still to be written: chunk, elements, poison. -/
  results : List (Nat × List Nat × Bool) := []
  /-- Chunks that are complete here. -/
  complete : List Nat := []
  /-- Ends that survivors have announced: rank, and its contribution bitmap for every chunk. -/
  ends : List (Nat × List Nat) := []
  /-- The contribution bitmap of each chunk here (R359). -/
  maps : Tab Nat := []
  /-- The pieces of another member do not agree with those here, and the neighbours that have said so. -/
  mismatch : Bool := false
  refused : List Nat := []
  deriving DecidableEq, Repr

/-- The entry a queue is performing (R276): its image as read at the start. -/
structure CurrentEntry where
  image : BitVec 512
  n : Nat
  started : Nat
  /-- Granules (or rows, or blocks) already performed; the point at which RESUME continues (R279). -/
  progress : Nat
  /-- Names of a QFENCE with "all appended" resolved at its start (R287). -/
  names : List (Nat × Nat)
  /-- Poison met in a source (R279). -/
  poison : Bool
  /-- Results kept for the completion write: MOVED, STALE, COUNT or PREV. -/
  r0 : Nat
  r1 : Nat
  /-- Page move: the switch has taken place, and its status (R331). -/
  switched : Option Nat
  /-- Cycle of the last read of a WAITV (R291); the tag that a COMPACT read before its rows (R302). -/
  lastRead : Nat
  /-- The status of an entry whose completion write is still to be made. -/
  finish : Option Nat
  /-- The checks of its body have passed, and its data accesses go on. -/
  begun : Bool
  /-- Its next access starts no earlier. -/
  busyUntil : Nat
  /-- What the body's start read and the entry keeps to its end: identifier entries (R128), a sequence descriptor
  (R295), row indices (R286), a group descriptor (R356). -/
  latch : List Nat
  /-- Bytes of the row that is being written. -/
  off : Nat
  /-- Source bytes read before a write of the entry could reach them, with their poison (R281, R301). -/
  buffer : List (Byte × Bool)
  /-- The collective, or the transfer to a peer, as far as it has come. -/
  coll : Collective
  /-- The tag address of the slot that it is rewriting (R297). -/
  slot : Option Nat := none
  /-- Errors met by the access at hand (R346): where the entry stood, and how many. -/
  retried : (Nat × Nat) × Nat := ((0, 0), 0)
  deriving DecidableEq, Repr

/-- A queue block (R270) and what the engine holds of it. -/
structure Queue where
  en : Bool := false
  ctx : Nat := 0
  st : QueueState := .disabled
  host : Bool := false
  fetch : Nat := 0
  last : Nat := 0
  appn : Nat := 0
  tailn : Nat := 0
  done : Nat := 0
  cur : Option CurrentEntry := none
  /-- A withheld access: cause, address, detail, when found, message sent. -/
  withheld : Option WithheldAccess := none
  /-- Entries that a WDRAW has withdrawn (R289), by number. -/
  withdrawn : List Nat := []
  /-- Withdrawals of entries whose headers could not be read: tag, mask, and the range of entry numbers that they reach. -/
  withdraws : List (Nat × Nat × Nat × Nat) := []
  /-- NEXT of the entry at FETCH is still to be read (R276). -/
  relink : Bool := false
  /-- Applies that wait behind a faulting link write (R275): append or tail, its address or count, and the region and
  colour of its activation. -/
  blocked : List (Bool × Nat × Nat × Nat) := []
  /-- The link write that faulted (R275), and a link write that waits for its answer: its address, and since when (R361). -/
  linkFault : Option WithheldAccess := none
  linkSince : Option (Nat × Nat) := none
  /-- An access of the engine for the queue that has issued and waits for its answer: its address, and since when (R329). -/
  since : Option (Nat × Nat) := none
  /-- Errors met in a row by the read of an entry or of NEXT, and the cycle from which it is tried again (R346). -/
  errors : Nat := 0
  again : Nat := 0
  deriving DecidableEq, Repr

/-- An engine block (R373, Table 21-6). -/
structure Engine where
  busy : Bool := false
  queue : Nat := 0
  granules : Nat := 0
  entries : Nat := 0
  /-- The queue whose turn comes first in the round (R274). -/
  turn : Nat := 0
  deriving DecidableEq, Repr

/-- A forward left by a page move (R332), the oldest first in the state: old frame, new frame, size, the activations that must leave, the queue. -/
structure Forward where
  old : Nat
  new : Nat
  size : Nat
  waits : List (Nat × Nat × Nat)
  queue : Nat
  deriving DecidableEq, Repr

/-! ### Links, host and module -/

/-- State of a flue link (R352, coded in the order of Table 20-1). -/
inductive LinkState where
  | disabled | down | detect | train | config | active | recovery | fenced
  deriving DecidableEq, Repr

/-- A flue link. -/
structure Link where
  st : LinkState := .disabled
  enable : Bool := false
  fence : Bool := false
  peer : Nat := 0
  /-- Next sequence number to send, highest received in order, and unacknowledged flits (R354). -/
  seqOut : Nat := 0
  seqIn : Nat := 4095
  replay : List Flit := []
  /-- How often each unacknowledged SEQ has been asked for (R354). -/
  retries : Tab Nat := []
  attempts : Nat := 0
  /-- The nonce that this side has chosen for its partner, and what it has signed for the partner (R355). -/
  nonce : BitVec 256 := 0
  offered : Option ConfigSide := none
  /-- Cycle in which Detect was entered. -/
  since : Nat := 0
  /-- SEQs that this side has asked its partner to send again (R354). -/
  asked : List Nat := []
  /-- Items that wait for room in the replay buffer. -/
  pending : List FlueItem := []
  /-- Items delivered to the collective engine and not yet used. -/
  inbox : List FlueItem := []
  /-- Starts (false) and disagreements (true) of collectives that have ended here, which the partner has still to send. -/
  skips : List (BitVec 32 × Bool) := []
  /-- Flits sent to the partner, the newest last. -/
  outbox : List Flit := []
  deriving DecidableEq, Repr

/-- A RECV of a peer that waits for its SEND (R360): the link it came over, its tag, its length, and the number that names its
transfer. -/
structure Posted where
  link : Nat
  mtag : BitVec 32
  len : Nat
  id : Nat
  deriving DecidableEq, Repr

/-- A Viroft queue pair (R363). -/
structure Pair where
  sqbase : Nat := 0
  cqbase : Nat := 0
  sizes : Nat := 0
  ctx : Nat := 0
  en : Bool := false
  sqTail : Nat := 0
  sqHead : Nat := 0
  cqHead : Nat := 0
  cqTail : Nat := 0
  /-- Consumption stopped at a command that waits for a journal entry (R371) or a table entry (R250). -/
  blocked : Bool := false
  deriving DecidableEq, Repr

/-- A message to the host waiting to be written as a completion entry (R365). -/
structure HostMessage where
  /-- The 64 bytes of the entry as a number, byte 0 lowest. -/
  body : Nat
  /-- The pair it belongs to, if it answers a command or its kernel's pair is known. -/
  pair : Option Nat
  /-- The context whose lowest-numbered enabled pair it goes to otherwise. -/
  ctx : Option Nat
  deriving DecidableEq, Repr

/-- A strike sensed or injected and not yet reported (R341, R350). -/
structure Strike where
  h : Nat
  s : Nat
  r : Nat
  deriving DecidableEq, Repr

/-- A configuration load in progress: by a CFGLD node, of an image (R222). -/
structure Load where
  h : Nat
  k : Nat
  n : Nat
  nrec : Rec
  tok : Token
  va : Nat
  /-- The image's header as read at firing. -/
  head : Nat
  /-- The target rectangle: origin hearth, width, height. -/
  origin : Nat
  w : Nat
  height : Nat
  due : Nat
  region : Nat
  /-- The state of the rectangle's region before Loading, to return to on failure. -/
  prior : List Nat
  /-- A purge of the loading activation has discarded the status token (R222). -/
  dropped : Bool
  deriving DecidableEq, Repr

/-- A leaf in a translation cache (R324): context, virtual page, page size, the leaf's address and the leaf. -/
structure CachedLeaf where
  ctx : Nat
  page : Nat
  size : Nat
  place : Nat
  leaf : Nat
  deriving DecidableEq, Repr

/-- A pointer entry in a walk cache (R324): context, level 0 or 1, the part of the virtual address that leads to it, and the
entry. -/
structure CachedPointer where
  ctx : Nat
  level : Nat
  index : Nat
  entry : Nat
  deriving DecidableEq, Repr

/-- The translation cache and the walk cache of a sector, an engine or a distributor (R324). -/
structure TableCache where
  leaves : List CachedLeaf := []
  pointers : List CachedPointer := []
  deriving DecidableEq, Repr

/-- What happens next in the running cycle. -/
inductive Turn where
  /-- The moves of one part of the cycle are put in order, from the state as it then stands. -/
  | sweep (part : Nat)
  /-- A node's firing: the record of its node-store entry is fetched and run. -/
  | fire (h k n : Nat)
  /-- A hearth chooses the node that fires (R72). -/
  | pick (h : Nat)
  /-- A queue's current entry is run from its image. -/
  | entry (q : Nat)
  /-- The next submission of a queue pair is fetched and run. -/
  | submit (p : Nat)
  /-- An event of the module, at its place. -/
  | event (i : Instr) (l : Locus)
  deriving DecidableEq, Repr

/-- The firmware image in the module's flash (R367). Digests and keys are numbers; `signs` says whether its signature verifies
under its root key over the digest of its body, which only the Falcon-1024 and SHAKE256 functions decide: free data (logs 3, 133). -/
structure Firmware where
  /-- The image can be read as one. -/
  formed : Bool := true
  version : Nat := 0
  rootKey : Nat := 0
  /-- SHAKE256 of the root key, and of the image body. -/
  keyDigest : Nat := 0
  bodyDigest : Nat := 0
  signature : Nat := 0
  signs : Bool := true
  moduleKeys : List Nat := []
  deriving DecidableEq, Repr

/-- What the module is to its flue partners (R355): its module ID, the lane map and the flit format of its links. -/
structure Identity where
  moduleId : BitVec 16 := 0
  lanes : Nat := 0
  format : Nat := 0
  deriving DecidableEq, Repr

/-- What the module's own hardware decides at power-up: free data of the state (R366 to R370). -/
structure BootOutcome where
  /-- The boot ROM's own phase fails. -/
  romFails : Bool := false
  firmware : Firmware := {}
  /-- Hearths that fail self-test. -/
  badHearths : List Nat := []
  /-- Dies whose distributor or Stoker mirror fails. -/
  badDies : List Nat := []
  /-- Dies whose T1 slice fails to train. -/
  badT1 : List Nat := []
  /-- T2 fails to train. -/
  badT2 : Bool := false
  deriving DecidableEq, Repr

/-- The whole machine. -/
structure State where
  /-- The fabric cycle count c (R218). -/
  cycle : Nat
  /-- Moves of the running cycle that are still to be made. -/
  agenda : List Turn
  /-- The place of the move being made. -/
  cur : Locus
  /-- What the outside world does to the module, and when: host writes, link events, strikes, errors. -/
  inputs : List (Nat × Turn)
  /-- How many free values have been used: each variable latency and each value that the spec leaves open takes the
  next one of `Config.freeDelay` or `Config.freeWord` (logs 4 and 5). The model's own field. -/
  free : Nat
  /-- Damper entry identifiers whose commit write the endpoint does not acknowledge at once (free data, log 6). -/
  unacked : List Nat
  /-- Addresses of 64-bit words that a scrub finds uncorrectable, with the hearth (free data, log 6). -/
  badWords : List (Nat × ErrorSite)
  /-- Critical reads whose array reads go wrong (R326): a granule, and what its first, second and third array read differ by from
  the granule's 512 bits (free data, log 6). -/
  misreads : List (Nat × List Nat)
  /-- The windows of T3 that reach peer modules: base, size and flue link; the rest of T3 is host memory (R11; free data, logs 6, 134). -/
  windows : List (Nat × Nat × Nat)
  nextId : Nat
  mem : List Host.Cell
  /-- Poisoned granules, by number, rising (R345). -/
  poison : List Nat
  hearths : Tab Hearth
  slots : Tab SlotState
  regions : Tab Region
  flights : Tab Flight
  messages : Tab MeshMessage
  /-- Mesh errors logged (R54). -/
  meshErrors : Nat
  loads : List Load
  contexts : Tab Context
  /-- The dependence table; it stands for the mirror of every die that is not fenced (R14, log 103). -/
  kernels : Tab Kernel
  queues : Tab Queue
  engines : Tab Engine
  forwards : List Forward
  /-- Pages being moved: queue, old frame, size, destination, marked granules (R331). -/
  moves : List (Nat × Nat × Nat × Nat × List Nat)
  /-- Write pointers wp0 to wp63 of each die: key die × 64 + n (R181). -/
  pointers : Tab Nat
  links : Tab Link
  /-- RECVs of peers that no SEND has matched, the oldest first (R360). -/
  posted : List Posted
  pairs : Tab Pair
  outgoing : List HostMessage
  strikes : List Strike
  /-- Strikes reported in the running cycle: hearth, cycle of the strike, and activations purged so far (R341). -/
  reports : List (Nat × Nat × Nat)
  /-- Bytes that bank ports have taken up and not moved in earlier cycles, by hearth (R183). -/
  traffic : Tab Nat
  /-- An engine makes an access of many granules as one move: the bytes that the ports had taken up when it began (log 109). -/
  long : Option (Tab Nat)
  /-- Bytes that dampers have sent in the running cycle, by hearth (R339). -/
  drained : Tab Nat
  /-- Commit points taken (the order cm of R186). -/
  commits : Nat
  /-- Submissions of SPAWN or for a recompute that wait for a journal entry (R371). -/
  waiting : List Submission
  /-- Submissions in the journal that wait to be read or for a table entry (R250). -/
  accepted : List Accepted
  /-- Kernels that have faulted in the running cycle: their activations are purged when it ends (R254, R259). -/
  failing : List Nat
  -- Dies, master, boot
  fencedDies : List Nat
  master : Nat
  /-- Heartbeats missed in a row, by die (R266), and the dies that send none. -/
  missed : Tab Nat
  silent : List Nat
  /-- End of the election in progress. -/
  election : Option Nat
  phase : Nat
  bootErr : Nat
  boot : BootOutcome
  /-- The boot ROM's digest of the root public key, and its rollback counter (R367). -/
  romDigest : Nat
  minVersion : Nat
  identity : Identity
  /-- The device key that phase 1 derives (R368). -/
  deviceKey : Nat
  cxlUp : Bool
  /-- What host reads over CXL.mem have returned: address, bytes, poison; the newest last (R362). -/
  cxlReplies : List (Nat × List Byte × Bool)
  -- Module registers
  strikeStrk : Nat
  strikeRoll : Nat
  promoLate : Nat
  snapInc : Bool
  snapOvf : Bool
  snapCnt : Nat
  snapCyc : Nat
  /-- Snapshot copies: register address and the 8 bytes latched (R312). -/
  snapCopies : List (Nat × Nat)
  xlinv : Nat
  xlinvBusy : Option Nat
  /-- Translation and walk caches (R324): sector n of die d is 48 × d + n, engine e of die d is 192 + 8 × d + e, the distributor of
  die d is 224 + d. -/
  caches : Tab TableCache
  jrnlBase : Nat
  jrnlSize : Nat
  jrnlNext : Nat
  pwrLim : Nat
  throttled : Bool
  attNonce : BitVec 256
  attDone : Bool
  attCount : Nat
  attReport : List Byte
  deriving DecidableEq, Repr

/-- The machine right after reset: every register at the value the spec gives, no region bound, nothing in memory
(R39, R366 and the reset columns of the register tables). The power-up phases then follow from the first step. -/
def State.reset : State :=
  { cycle := 0
    agenda := [.event .powerOnReset .module]
    cur := .module
    inputs := []
    free := 0
    unacked := []
    badWords := []
    misreads := []
    windows := []
    nextId := 1
    mem := []
    poison := []
    hearths := []
    slots := []
    regions := []
    flights := []
    messages := []
    meshErrors := 0
    loads := []
    contexts := []
    kernels := []
    queues := []
    engines := []
    forwards := []
    moves := []
    pointers := []
    links := []
    posted := []
    pairs := []
    outgoing := []
    strikes := []
    reports := []
    traffic := []
    long := none
    drained := []
    commits := 0
    waiting := []
    accepted := []
    failing := []
    fencedDies := []
    master := 0
    missed := []
    silent := []
    election := none
    phase := 0
    bootErr := 0
    boot := {}
    romDigest := 0
    minVersion := 0
    identity := {}
    deviceKey := 0
    cxlUp := false
    cxlReplies := []
    strikeStrk := 0
    strikeRoll := 0
    promoLate := 0
    snapInc := false
    snapOvf := false
    snapCnt := 0
    snapCyc := 0
    snapCopies := []
    xlinv := 0
    xlinvBusy := none
    caches := []
    jrnlBase := 0
    jrnlSize := 0
    jrnlNext := 0
    pwrLim := 2400
    throttled := false
    attNonce := 0
    attDone := false
    attCount := 0
    attReport := [] }

end Sys2Proof.Machine
end

