-- ==== Sys2Proof/Machine/Mem.lean ====
section
/-! DEFINITION. Memory: the sparse byte store over the 52-bit physical address space, poison by granule, the
address map (R11), the page walk (R320 to R322) and translation with its cache (R323, R324), and the forwards that
a page move leaves (R332). -/

namespace Sys2Proof.Machine

/-! ### Bytes -/

/-- The byte at an address: the listed one, or what an unlisted address reads as. -/
def Memory.read : List Host.Cell → Nat → Byte
  | [], _ => Config.blankByte
  | (k, v) :: t, a => if k = a then v else if a < k then Config.blankByte else Memory.read t a

/-- The cells of consecutive bytes that differ from a blank. -/
def Memory.cells : Nat → List Byte → List Host.Cell
  | _, [] => []
  | a, b :: bs => if b = Config.blankByte then Memory.cells (a + 1) bs else (a, b) :: Memory.cells (a + 1) bs

/-- Write consecutive bytes. -/
def Memory.write (m : List Host.Cell) (a : Nat) (bs : List Byte) : List Host.Cell :=
  m.filter (fun c => c.1 < a) ++ Memory.cells a bs ++ m.filter (fun c => a + bs.length ≤ c.1)

/-- Addresses strictly rising from `lo` and no blank listed. -/
def Memory.wfFrom : Nat → List Host.Cell → Bool
  | _, [] => true
  | lo, (k, v) :: t => decide (lo ≤ k) && v != Config.blankByte && Memory.wfFrom (k + 1) t

/-- The canonical form of a memory. -/
def Memory.wf (m : List Host.Cell) : Bool := Memory.wfFrom 0 m

/-- `n` consecutive bytes. -/
def readBytes (m : List Host.Cell) (a : Nat) : Nat → List Byte
  | 0 => []
  | n + 1 => Memory.read m a :: readBytes m (a + 1) n

/-- The number that bytes hold, least significant first (R19). -/
def leNat : List Byte → Nat
  | [] => 0
  | b :: bs => b.toNat + 256 * leNat bs

/-- `n` bytes of a number, least significant first (R19). -/
def leBytes : Nat → Nat → List Byte
  | 0, _ => []
  | n + 1, x => BitVec.ofNat 8 x :: leBytes n (x / 256)

/-- A number of `n` bytes at an address. -/
def readLe (m : List Host.Cell) (a n : Nat) : Nat := leNat (readBytes m a n)

/-- The lanes that bytes hold, four to a lane (R19). -/
def lanesOf : Nat → List Byte → List Word
  | 0, _ => []
  | n + 1, bs => BitVec.ofNat 32 (leNat (bs.take 4)) :: lanesOf n (bs.drop 4)

/-- The bytes of lanes. -/
def bytesOf (ls : List Word) : List Byte := ls.flatMap (fun w => leBytes 4 w.toNat)

/-! ### Poison -/

/-- Insert into a rising list without repeats. -/
def insertRising : List Nat → Nat → List Nat
  | [], x => [x]
  | y :: t, x => if x = y then y :: t else if x < y then x :: y :: t else y :: insertRising t x

/-- The granules that `n` bytes at `a` meet. -/
def granules (a n : Nat) : List Nat :=
  if n = 0 then [] else (List.range ((a + n - 1) / 64 - a / 64 + 1)).map (fun i => a / 64 + i)

/-- Some granule of a range is poisoned. -/
def anyPoison (p : List Nat) (a n : Nat) : Bool := p.any (fun g => a / 64 ≤ g && (n != 0 && g ≤ (a + n - 1) / 64))

/-- Poison after `n` bytes at `a` are written (R345): tainted data poisons every granule met; clean data clears a
granule that it covers whole. -/
def poisonAfter (p : List Nat) (a n : Nat) (tainted : Bool) : List Nat :=
  if tainted then (granules a n).foldl insertRising p
  else p.filter (fun g => !(a ≤ 64 * g && 64 * g + 64 ≤ a + n))

/-! ### The address map -/

/-- The memory tiers and the module-register range (R11). -/
inductive Tier where
  | t0 | t1 | t2 | t3 | registers
  deriving DecidableEq, Repr

/-- The code of a tier in a leaf (R321). -/
def Tier.code : Tier → Nat
  | .t0 => 0 | .t1 => 1 | .t2 => 2 | .t3 => 3 | .registers => 4

/-- What a physical address reaches; `none` where it is unpopulated (R11, Table 1-2). -/
def tierOf (pa : Nat) : Option Tier :=
  if pa < 0x100000000 then (if pa % 0x40000000 < 0x30000000 then some .t0 else none)
  else if pa < 0x200000000 then some .registers
  else if pa < 0x8000000000 then none
  else if pa < 0x10000000000 then (if (pa - 0x8000000000) % 0x2000000000 < 0x1DCD650000 then some .t1 else none)
  else if pa < 0x80000000000 then none
  else if pa < 0xA0000000000 then (if pa - 0x80000000000 < 2048000000000 then some .t2 else none)
  else if pa < 0x100000000000 then none
  else if pa < 0x10000000000000 then some .t3
  else none

/-- Start of a hearth's bank window (R11). -/
def bankBase (h : Nat) : Nat := (h / 12288) * 0x40000000 + (h % 12288) * 0x10000

/-- The die whose T0 window or T1 slice an address lies in. -/
def dieOfAddr (pa : Nat) : Nat :=
  if pa < 0x100000000 then pa / 0x40000000 else if pa < 0x10000000000 then (pa - 0x8000000000) / 0x2000000000 else 0

/-- A range lies whole in one populated tier. -/
def rangeTier (pa n : Nat) : Option Tier :=
  match tierOf pa with
  | none => none
  | some t => if n ≤ 1 then some t else if tierOf (pa + n - 1) = some t then some t else none

/-! ### Forwards and writes -/

/-- The address that now serves `pa` (R332): the forwards, followed in the order in which they were made. -/
def forwardAddr : List Forward → Nat → Nat
  | [], pa => pa
  | f :: t, pa => if f.old ≤ pa && pa < f.old + f.size then forwardAddr t (f.new + (pa - f.old)) else forwardAddr t pa

/-- Marks, in the pages being moved, the granules that a write meets (R331). -/
def markMoves (ms : List (Nat × Nat × Nat × Nat × List Nat)) (a n : Nat) :
    List (Nat × Nat × Nat × Nat × List Nat) :=
  ms.map (fun m => if m.2.1 ≤ a && a < m.2.1 + m.2.2.1 then
    (m.1, m.2.1, m.2.2.1, m.2.2.2.1, (granules a n).foldl insertRising m.2.2.2.2) else m)

/-- One write at its endpoint: the bytes, the poison it leaves, and the mark of a moving page. T3 keeps no poison (R345). -/
def State.put (s : State) (pa : Nat) (bs : List Byte) (tainted : Bool) : State :=
  let a := forwardAddr s.forwards pa
  { s with mem := Memory.write s.mem a bs,
           poison := if tierOf a == some .t3 then s.poison else poisonAfter s.poison a bs.length tainted,
           moves := markMoves s.moves a bs.length }

/-- `n` bytes at a physical address, through the forwards. -/
def State.fetch (s : State) (pa n : Nat) : List Byte := readBytes s.mem (forwardAddr s.forwards pa) n

/-- A number of `n` bytes at a physical address. -/
def State.fetchLe (s : State) (pa n : Nat) : Nat := leNat (s.fetch pa n)

/-- A poisoned granule lies in the range. -/
def State.tainted (s : State) (pa n : Nat) : Bool := anyPoison s.poison (forwardAddr s.forwards pa) n

/-- A physical address of T3 cannot be reached now: the CXL link is down, or the flue link of its peer window is not Active (R361). -/
def State.unreached (s : State) (pa : Nat) : Bool :=
  let a := forwardAddr s.forwards pa
  tierOf a == some .t3 && (match s.windows.find? (fun w => decide (w.1 ≤ a) && decide (a < w.1 + w.2.1)) with
    | some w => (Tab.get {} s.links w.2.2).st != .active
    | none => !s.cxlUp)

/-! ### Bank ports (R183) -/

/-- The hearth whose bank serves a physical address. -/
def State.bankOf (s : State) (pa : Nat) : Option Nat :=
  let a := forwardAddr s.forwards pa
  if tierOf a == some .t0 then some (a / 0x40000000 * 12288 + a % 0x40000000 / 0x10000) else none

/-- How many of some bytes each bank serves. -/
def State.portLoad (s : State) (as : List Nat) : Tab Nat :=
  as.foldl (fun t a => match s.bankOf a with
    | some h => Tab.modify 0 t h (fun n => n + 1)
    | none => t) []

/-- The bank ports can move these bytes in the running cycle, 256 at most each; an idle port begins any access. An access of many
granules finds room where its ports had some when it began, and takes them up for as many cycles as its bytes need. -/
def State.portRoom (s : State) (as : List Nat) : Bool :=
  match s.long with
  | some t => (s.portLoad as).all (fun e => decide (Tab.get 0 t e.1 < 256))
  | none => (s.portLoad as).all (fun e => Tab.get 0 s.traffic e.1 == 0 || decide (Tab.get 0 s.traffic e.1 + e.2 ≤ 256))

/-- The bank ports move these bytes. -/
def State.usePort (s : State) (as : List Nat) : State :=
  { s with traffic := (s.portLoad as).foldl (fun t e => Tab.modify 0 t e.1 (fun n => n + e.2)) s.traffic }

/-! ### Critical reads (R326) -/

/-- What the array reads of a critical granule come to, from what each differs by from its bits: the difference that two of them
agree on, or a poisoned reply. -/
def critOutcome (ds : List Nat) : Nat × Bool :=
  let a := ds.getD 0 0
  let b := ds.getD 1 0
  let c := ds.getD 2 0
  if a = b || c = a then (a, false) else if c = b then (b, false) else (a, true)

/-- The outcome of the next critical read of a granule. -/
def State.critRead (s : State) (g : Nat) : Nat × Bool :=
  critOutcome (((s.misreads.find? (fun x => x.1 == g)).map (fun x => x.2)).getD [])

/-- The addresses of critical granules hold a byte's address. -/
def State.isCrit (s : State) (crit : List Nat) (a : Nat) : Bool :=
  crit.any (fun c => forwardAddr s.forwards c / 64 == forwardAddr s.forwards a / 64)

/-- The byte at a physical address as a reader gets it that reads the granules at `crit` twice. Wrong reads of other granules are
SECDED's: DESIGN CHOICE (log 98). -/
def State.critByte (s : State) (crit : List Nat) (a : Nat) : Byte :=
  let b := (s.fetch a 1).headD 0
  if s.isCrit crit a then
    let p := forwardAddr s.forwards a
    b ^^^ BitVec.ofNat 8 ((s.critRead (p / 64)).1 / 2 ^ (8 * (p % 64)))
  else b

/-- A byte that such a reader gets is poisoned. -/
def State.critTaint (s : State) (crit : List Nat) (a : Nat) : Bool :=
  s.tainted a 1 || (s.isCrit crit a && (s.critRead (forwardAddr s.forwards a / 64)).2)

/-- Remove the first entry of a granule. -/
def dropMisread (g : Nat) : List (Nat × List Nat) → List (Nat × List Nat)
  | [] => []
  | x :: t => if x.1 = g then t else x :: dropMisread g t

/-- The critical reads of some granules have been made. -/
def State.critDone (s : State) (crit : List Nat) : State :=
  if s.misreads.isEmpty then s
  else { s with misreads := ((crit.map (fun c => forwardAddr s.forwards c / 64)).foldl insertRising []).foldl
                  (fun l g => dropMisread g l) s.misreads }

/-! ### Translation -/

/-- A table entry's or leaf's address bits 51:16, in bytes. -/
def frameOf (e : Nat) : Nat := bits e 51 16 * 65536

/-- A table lies in T1 or T2. -/
def tableOk (pa : Nat) : Bool :=
  match rangeTier pa 65536 with
  | some .t1 => true
  | some .t2 => true
  | _ => false

/-- The reason that a pointer entry fails at its level (R322), judged on its bits. -/
def pointerReason (e level : Nat) : Option Nat :=
  if !bit e 0 then some 1
  else if bit e 63 || bits e 54 52 != 0 || bits e 15 1 != 0 || (!bit e 55 && level == 0) then some 2
  else none

/-- The reason that a leaf fails (R322), for a page of `size` bytes. -/
def leafReason (e size : Nat) : Option Nat :=
  if !bit e 0 then some 1
  else if bits e 55 52 != 0 || bits e 15 9 != 0 || bits e 8 7 == 3 then some 2
  else if size != 65536 && bits e 28 16 != 0 then some 3
  else match rangeTier (frameOf e) size with
    | none => some 4
    | some t => if t.code = bits e 6 5 then none else some 4

/-- A translation: the leaf's address, the leaf, the page's size. Otherwise the failing level and reason. -/
abbrev PageWalk := Except (Nat × Nat) (Nat × Nat × Nat)

/-- Level 2 of the walk (R320). -/
def walk2 (s : State) (e1 va : Nat) : PageWalk :=
  let t := frameOf e1
  if !tableOk t then .error (2, 4)
  else
    let a := t + 8 * bits va 28 16
    if s.tainted a 8 then .error (2, 5)
    else
      let e := s.fetchLe a 8
      match leafReason e 65536 with
      | some r => .error (2, r)
      | none => .ok (a, e, 65536)

/-- Level 1 of the walk. -/
def walk1 (s : State) (e0 va : Nat) : PageWalk :=
  let t := frameOf e0
  if !tableOk t then .error (1, 4)
  else
    let a := t + 8 * bits va 41 29
    if s.tainted a 8 then .error (1, 5)
    else
      let e := s.fetchLe a 8
      if bit e 55 then
        match pointerReason e 1 with
        | some r => .error (1, r)
        | none => walk2 s e va
      else
        match leafReason e 0x20000000 with
        | some r => .error (1, r)
        | none => .ok (a, e, 0x20000000)

/-- The walk of a 55-bit virtual address from a root (R319 to R322). -/
def walk (s : State) (root va : Nat) : PageWalk :=
  if !bit root 0 then .error (0, 1)
  else if bits root 63 52 != 0 || bits root 15 1 != 0 then .error (0, 2)
  else
    let t := frameOf root
    if !tableOk t then .error (0, 4)
    else
      let a := t + 8 * bits va 54 42
      if s.tainted a 8 then .error (0, 5)
      else
        let e := s.fetchLe a 8
        match pointerReason e 0 with
        | some r => .error (0, r)
        | none => walk1 s e va

/-- A context's registers. -/
def State.context (s : State) (m : Nat) : Context := Tab.get {} s.contexts m

/-- The priority in effect in the running cycle (R239). -/
def State.prioNow (s : State) (m : Nat) : Nat :=
  if (s.context m).prioAt = some s.cycle then (s.context m).prioWas else (s.context m).prio

/-- A context's priority changed: the value before it stays in effect for the running cycle (R239). -/
def Context.setPrio (x : Context) (now p : Nat) : Context :=
  { x with prio := p, prioWas := (if x.prioAt = some now then x.prioWas else x.prio), prioAt := some now }

/-- What a unit's caches hold (R324). -/
def State.cache (s : State) (u : Nat) : TableCache := Tab.get {} s.caches u

/-- Capacities of a unit's caches: leaves and pointer entries (R324). -/
def cacheSizes (u : Nat) : Nat × Nat := if u < 192 then (1024, 64) else (256, 16)

/-- The part of a virtual address that leads to the pointer entry of a level. -/
def pointerIndex (level va : Nat) : Nat := if level = 0 then bits va 54 42 else bits va 54 29

/-- The cached leaf of a page. -/
def TableCache.leafOf (t : TableCache) (m va : Nat) : Option CachedLeaf :=
  t.leaves.find? (fun e => e.ctx == m && e.page == va / e.size * e.size)

/-- The cached pointer entry of a level. -/
def TableCache.pointer (t : TableCache) (m level va : Nat) : Option Nat :=
  (t.pointers.find? (fun e => e.ctx == m && e.level == level && e.index == pointerIndex level va)).map (fun e => e.entry)

/-- The walk from the deepest pointer entry that the walk cache holds. -/
def State.walkFrom (s : State) (t : TableCache) (m va : Nat) : PageWalk :=
  match t.pointer m 1 va with
  | some e1 => walk2 s e1 va
  | none => match t.pointer m 0 va with
    | some e0 => walk1 s e0 va
    | none => walk s (s.context m).ptroot.toNat va

/-- The translation of a virtual address for a unit: from its cache, or by a walk. -/
def State.leafFor (s : State) (u m va : Nat) : PageWalk :=
  if va ≥ 2 ^ 55 then .error (0, 1)
  else match (s.cache u).leafOf m va with
    | some x => .ok (x.place, x.leaf, x.size)
    | none => s.walkFrom (s.cache u) m va

/-- Bytes that an entry's write may reach from its address: a line, an atomic's word, a weight's byte (R336). -/
def DamperEntry.reach (e : DamperEntry) : Nat := if e.kind = 1 then 4 else if e.kind = 4 then 1 else 32

/-- The granules that an entry writes, one or two. -/
def State.granulesOf (s : State) (e : DamperEntry) : List Nat :=
  let a := forwardAddr s.forwards e.pa / 64
  let b := forwardAddr s.forwards (e.pa + e.reach - 1) / 64
  if a = b then [a] else [a, b]

/-- A granule is prepared by a commit that has not been applied (R190): an entry that writes it has been sent. -/
def State.prepared (s : State) (granule : Nat) : Bool :=
  s.hearths.any (fun e => e.2.damper.any (fun x => x.st == .sent && (s.granulesOf x).contains granule))

/-- A write that its commit has taken past the commit point and that has not been applied stands in a range: a later write waits
behind it (MCA of R187). -/
def State.unapplied (s : State) (granule : Nat) : Bool :=
  s.hearths.any (fun e => e.2.damper.any (fun x => x.order != 0 && (s.granulesOf x).contains granule))

/-- Addresses of the entries that a walk of levels 0, 1 and 2 reads. -/
def walkReads0 (s : State) (root va : Nat) : List Nat :=
  let a0 := frameOf root + 8 * bits va 54 42
  let a1 := frameOf (s.fetchLe a0 8) + 8 * bits va 41 29
  [a0, a1, frameOf (s.fetchLe a1 8) + 8 * bits va 28 16]

/-- Addresses of the table entries that a translation would read. -/
def State.walkReads (s : State) (u m va : Nat) : List Nat :=
  let t := s.cache u
  if (t.leafOf m va).isSome then []
  else match t.pointer m 1 va with
    | some e1 => [frameOf e1 + 8 * bits va 28 16]
    | none => match t.pointer m 0 va with
      | some e0 =>
        let a1 := frameOf e0 + 8 * bits va 41 29
        [a1, frameOf (s.fetchLe a1 8) + 8 * bits va 28 16]
      | none => walkReads0 s (s.context m).ptroot.toNat va

/-- A translation waits: it would read an entry in a prepared granule, as LDN reads (R320, R190). -/
def State.walkWaits (s : State) (u m va : Nat) : Bool :=
  (s.walkReads u m va).any (fun a => s.prepared (forwardAddr s.forwards a / 64))

/-- The physical address that a leaf gives (R320). -/
def leafAddr (leaf size va : Nat) : Nat := frameOf leaf / size * size + va % size

/-- Access-fault causes of Table 9-2 in table order, and TMO (R329). -/
def causeTrans : Nat := 7
def causeWrite : Nat := 8
def causeSpace : Nat := 9

/-- Cause and detail of an access fault: byte 0 the cause, byte 1 the level and byte 2 the reason (R328). -/
abbrev AccessFault := Nat × Nat

/-- The detail word of a translation fault. -/
def transDetail (l r : Nat) : Nat := causeTrans + 256 * l + 65536 * r

/-- Where one byte of a virtual address lies, checked for a read or a write: the physical address and the leaf's
address, or the fault. Module registers are no memory (R11). -/
def State.locate (s : State) (u m va : Nat) (write : Bool) : Except AccessFault (Nat × Nat) :=
  match s.leafFor u m va with
  | .error (l, r) => .error (causeTrans, transDetail l r)
  | .ok (la, leaf, size) =>
    if write && !bit leaf 1 then .error (causeWrite, causeWrite)
    else
      let pa := leafAddr leaf size va
      match tierOf pa with
      | none => .error (causeSpace, causeSpace)
      | some .registers => .error (causeSpace, causeSpace)
      | some _ => .ok (pa, la)

/-- Put an entry into a cache: where it is full, which entry it replaces is open (R324, log 5). -/
def cacheIn {α : Type} (size : Nat) (x : α) (l : List α) (s : State) : List α × State :=
  if l.length < size then (x :: l, s)
  else (x :: l.eraseIdx (Config.freeWord s.free % size), { s with free := s.free + 1 })

/-- Put pointer entries into a unit's walk cache. -/
def State.fillPointers (s : State) (u : Nat) : List CachedPointer → State
  | [] => s
  | x :: t =>
    let r := cacheIn (cacheSizes u).2 x (s.cache u).pointers s
    ({ r.2 with caches := Tab.set r.2.caches u { r.2.cache u with pointers := r.1 } } : State).fillPointers u t

/-- Put a leaf into a unit's translation cache, in the place of an older copy. -/
def State.fillLeaf (s : State) (u : Nat) (x : CachedLeaf) : State :=
  let r := cacheIn (cacheSizes u).1 x ((s.cache u).leaves.filter (fun e => !(e.ctx == x.ctx && e.page == x.page))) s
  { r.2 with caches := Tab.set r.2.caches u { r.2.cache u with leaves := r.1 } }

/-- The pointer entries that a walk for a page of `size` bytes has read. -/
def State.walked (s : State) (u m va size : Nat) : List CachedPointer :=
  let t := s.cache u
  let keep := fun (level e : Nat) => { ctx := m, level := level, index := pointerIndex level va, entry := e : CachedPointer }
  if (t.pointer m 1 va).isSome then []
  else
    let e0 := match t.pointer m 0 va with
      | some e => e
      | none => s.fetchLe (frameOf (s.context m).ptroot.toNat + 8 * bits va 54 42) 8
    (if (t.pointer m 0 va).isSome then [] else [keep 0 e0]) ++
    (if size = 65536 then [keep 1 (s.fetchLe (frameOf e0 + 8 * bits va 41 29) 8)] else [])

/-- OR bits into the 8 bytes of a leaf by one engine write (R323). -/
def State.orLeaf (s : State) (place mask : Nat) : State :=
  let now := s.fetchLe place 8
  if now ||| mask = now then s else s.put place (leBytes 8 (now ||| mask)) false

/-- A translation is used: a unit that had no leaf fills its caches from the walk and sets A in the leaf, and a node's write through
a leaf with D = 0 sets D (R323). -/
def State.touch (s : State) (u m va : Nat) (write : Bool) : State :=
  match s.leafFor u m va with
  | .error _ => s
  | .ok (place, leaf, size) =>
    let new := ((s.cache u).leafOf m va).isNone
    let mask := (if new then 8 else 0) ||| (if write && !bit leaf 4 then 16 else 0)
    if mask = 0 then s
    else
      let s := (s.fillPointers u (if new then s.walked u m va size else [])).orLeaf place mask
      s.fillLeaf u { ctx := m, page := va / size * size, size := size, place := place, leaf := leaf ||| mask }

/-- Split a virtual range into the pieces of its 64-byte granules (R167): address and length. -/
def pieces (va n : Nat) : List (Nat × Nat) :=
  (granules va n).map (fun g =>
    let lo := max va (64 * g)
    (lo, min (va + n) (64 * g + 64) - lo))

/-- Every piece of a virtual range with its physical address, or the first fault. -/
def State.locateAll (s : State) (u m : Nat) (write : Bool) :
    List (Nat × Nat) → Except (AccessFault × Nat) (List (Nat × Nat × Nat))
  | [] => .ok []
  | (va, n) :: t =>
    match s.locate u m va write with
    | .error f => .error (f, va)
    | .ok (pa, _) =>
      match s.locateAll u m write t with
      | .error f => .error f
      | .ok r => .ok ((va, pa, n) :: r)

/-- Pieces of a range that are read through a leaf with K = 1 (R326). -/
def State.critPieces (s : State) (u m : Nat) (ps : List (Nat × Nat × Nat)) : List Nat :=
  ps.filterMap (fun p => match s.leafFor u m p.1 with
    | .ok (_, leaf, _) => if bit leaf 2 then some p.2.1 else none
    | .error _ => none)

/-- The physical addresses of the bytes of pieces. -/
def pieceBytes (ps : List (Nat × Nat × Nat)) : List Nat := ps.flatMap (fun p => (List.range p.2.2).map (fun i => p.2.1 + i))

/-- The bytes of pieces, and their taint, as a reader gets them that reads critical granules twice (R326). -/
def State.readPieces (s : State) (u m : Nat) (ps : List (Nat × Nat × Nat)) : List Byte × Bool :=
  let crit := s.critPieces u m ps
  if crit.isEmpty then (ps.flatMap (fun p => s.fetch p.2.1 p.2.2), ps.any (fun p => s.tainted p.2.1 p.2.2))
  else ((pieceBytes ps).map (s.critByte crit), (pieceBytes ps).any (s.critTaint crit))

/-- `n` bytes at a virtual address, as committed memory holds them, with their taint; or the fault. -/
def State.readVirt (s : State) (u m va n : Nat) : Except (AccessFault × Nat) (List Byte × Bool) :=
  match s.locateAll u m false (pieces va n) with
  | .error f => .error f
  | .ok ps => .ok (s.readPieces u m ps)

/-- Use the translations of every page of a range. -/
def State.touchAll (s : State) (u m va n : Nat) (write : Bool) : State :=
  (pieces va n).foldl (fun s p => s.touch u m p.1 write) s

/-- Use the translations of pieces up to the first that cannot be read. -/
def State.touchRead (s : State) (u m : Nat) : List (Nat × Nat) → State
  | [] => s
  | p :: t => match s.locate u m p.1 false with
    | .ok _ => (s.touch u m p.1 false).touchRead u m t
    | .error _ => s

/-- A range has been read, whole or up to its first fault: its translations were used (R323), and the array reads of its critical
granules were made (R326). -/
def State.readUsed (s : State) (u m va n : Nat) : State :=
  let t := s.touchRead u m (pieces va n)
  match s.locateAll u m false (pieces va n) with
  | .ok ps => t.critDone (s.critPieces u m ps)
  | .error _ => t

/-- Several ranges have been read. -/
def State.readsUsed (s : State) (u m : Nat) (rs : List (Nat × Nat)) : State := rs.foldl (fun s r => s.readUsed u m r.1 r.2) s

/-- Write the pieces of a byte list. -/
def putPieces (s : State) (bs : List Byte) (tainted : Bool) : List (Nat × Nat × Nat) → State
  | [] => s
  | (_, pa, n) :: t => putPieces (s.put pa (bs.take n) tainted) (bs.drop n) tainted t

/-- Write bytes at a virtual address as an engine does (R194), which sets no D (R323): the new state, or the fault with nothing
written. -/
def State.writeVirt (s : State) (u m va : Nat) (bs : List Byte) (tainted : Bool) :
    Except (AccessFault × Nat) State :=
  match s.locateAll u m true (pieces va bs.length) with
  | .error f => .error f
  | .ok ps => .ok (putPieces (s.touchAll u m va bs.length false) bs tainted ps)

/-- A physical access of the module itself (journal, tables): bytes at a physical address. -/
def State.putPhys (s : State) (pa : Nat) (bs : List Byte) : State := s.put pa bs false

end Sys2Proof.Machine
end

