-- ==== Sys2Proof/Machine/Access.lean ====
section
/-! DEFINITION. Where things lie: the geometry of the module (R7, R8), the accessors of hearths, slots, nodes,
regions, colours, kernels and queues, and the free values that a step takes from the state. -/

namespace Sys2Proof.Machine

/-! ### Geometry (R7) -/

/-- Die of a hearth's linear index. -/
def dieOf (h : Nat) : Nat := h / 12288

/-- Column x of a hearth. -/
def colOf (h : Nat) : Nat := h % 128

/-- Row y of a hearth. -/
def rowOf (h : Nat) : Nat := h % 12288 / 128

/-- Linear index d × 12,288 + y × 128 + x (R27, R58). -/
def hearthAt (d x y : Nat) : Nat := d * 12288 + y * 128 + x

/-- A hearth where LUTP and LUTM may run (R9). -/
def lutHearth (h : Nat) : Bool := colOf h % 16 == 0

/-- Distance of two coordinates. -/
def apart (a b : Nat) : Nat := (a - b) + (b - a)

/-- The hearths of a rectangle in ascending linear order. -/
def rectHearths (d x y w h : Nat) : List Nat :=
  (List.range h).flatMap (fun j => (List.range w).map (fun i => hearthAt d (x + i) (y + j)))

/-- The hearths of a region. -/
def Region.hearths (r : Region) : List Nat := rectHearths r.die r.x r.y r.w r.h

/-- A hearth lies in a region's rectangle. -/
def Region.holds (r : Region) (h : Nat) : Bool :=
  dieOf h == r.die && (r.x ≤ colOf h && colOf h < r.x + r.w) && (r.y ≤ rowOf h && rowOf h < r.y + r.h)

/-- The hearth at the region's origin. -/
def Region.origin (r : Region) : Nat := hearthAt r.die r.x r.y

/-- Sector of a hearth in its die (R8). -/
def sectorOf (h : Nat) : Nat := rowOf h / 16 * 8 + colOf h / 16

/-! ### Who translates (R324) -/

/-- The caches of a hearth's sector. -/
def sectorUnit (h : Nat) : Nat := 48 * dieOf h + sectorOf h

/-- The caches of a queue's engine. -/
def engineUnit (q : Nat) : Nat := 192 + q / 16

/-- The caches of a die's distributor. -/
def distributorUnit (d : Nat) : Nat := 224 + d

/-! ### Accessors -/

def State.slot (s : State) (h k : Nat) : SlotState := Tab.get {} s.slots (4 * h + k)

def State.setSlot (s : State) (h k : Nat) (x : SlotState) : State :=
  { s with slots := Tab.set s.slots (4 * h + k) x }

def State.modSlot (s : State) (h k : Nat) (f : SlotState → SlotState) : State := s.setSlot h k (f (s.slot h k))

def State.hearth (s : State) (h : Nat) : Hearth := Tab.get {} s.hearths h

def State.setHearth (s : State) (h : Nat) (x : Hearth) : State := { s with hearths := Tab.set s.hearths h x }

def State.modHearth (s : State) (h : Nat) (f : Hearth → Hearth) : State := s.setHearth h (f (s.hearth h))

def State.region (s : State) (g : Nat) : Region := Tab.get {} s.regions g

def State.setRegion (s : State) (g : Nat) (x : Region) : State := { s with regions := Tab.set s.regions g x }

def State.modRegion (s : State) (g : Nat) (f : Region → Region) : State := s.setRegion g (f (s.region g))

def State.colour (s : State) (g c : Nat) : Colour := Tab.get {} (s.region g).cols c

def State.setColour (s : State) (g c : Nat) (x : Colour) : State :=
  s.modRegion g (fun r => { r with cols := Tab.set r.cols c x })

def State.modColour (s : State) (g c : Nat) (f : Colour → Colour) : State := s.setColour g c (f (s.colour g c))

def SlotState.node (x : SlotState) (n : Nat) : NodeState := Tab.get {} x.cfg.nodes n

def SlotState.setNode (x : SlotState) (n : Nat) (v : NodeState) : SlotState :=
  { x with cfg := { x.cfg with nodes := Tab.set x.cfg.nodes n v } }

def State.node (s : State) (h k n : Nat) : NodeState := (s.slot h k).node n

def State.setNode (s : State) (h k n : Nat) (v : NodeState) : State := s.modSlot h k (fun x => x.setNode n v)

def State.modNode (s : State) (h k n : Nat) (f : NodeState → NodeState) : State :=
  s.setNode h k n (f (s.node h k n))

/-- The record in the node store, if the slot is not empty (R39). -/
def State.record (s : State) (h k n : Nat) : Option (Nat × Rec) :=
  match Tab.find (s.slot h k).cfg.store n with
  | none => none
  | some w => (decodeRecord w).bind Instr.record

def State.setContext (s : State) (m : Nat) (x : Context) : State := { s with contexts := Tab.set s.contexts m x }

def State.modContext (s : State) (m : Nat) (f : Context → Context) : State := s.setContext m (f (s.context m))

def State.kernel (s : State) (e : Nat) : Kernel := Tab.get {} s.kernels e

def State.setKernel (s : State) (e : Nat) (x : Kernel) : State := { s with kernels := Tab.set s.kernels e x }

def State.modKernel (s : State) (e : Nat) (f : Kernel → Kernel) : State := s.setKernel e (f (s.kernel e))

def State.queue (s : State) (q : Nat) : Queue := Tab.get {} s.queues q

def State.setQueue (s : State) (q : Nat) (x : Queue) : State := { s with queues := Tab.set s.queues q x }

def State.modQueue (s : State) (q : Nat) (f : Queue → Queue) : State := s.setQueue q (f (s.queue q))

/-- The caches that serve the accesses of the running move that are not a node's: an engine's for its queue, the distributor's of
the die where the move takes place, and else those of the Stoker's die (R324). -/
def State.agent (s : State) : Nat :=
  match s.cur with
  | .queue q => engineUnit q
  | .member q _ => engineUnit q
  | .node h _ _ => distributorUnit (dieOf h)
  | .port h _ _ _ => distributorUnit (dieOf h)
  | .slot h _ => distributorUnit (dieOf h)
  | .region g => distributorUnit (s.region g).die
  | .colour g _ => distributorUnit (s.region g).die
  | _ => distributorUnit s.master

/-! ### Tokens at a node -/

/-- The input queue of an operand port. -/
def NodeState.queue (x : NodeState) (p : Nat) : List Token :=
  match p with
  | 0 => x.qa
  | 1 => x.qb
  | 2 => x.qc
  | _ => x.qp

/-- Replace an input queue. -/
def NodeState.setQueue (x : NodeState) (p : Nat) (q : List Token) : NodeState :=
  match p with
  | 0 => { x with qa := q }
  | 1 => { x with qb := q }
  | 2 => { x with qc := q }
  | _ => { x with qp := q }

/-- JDQ entries that hold a token of a port. -/
def NodeState.jdqOf (x : NodeState) (p : Nat) : Nat := (x.jdq.filter (fun e => e.1 == p)).length

/-- A port's tokens in arrival order, in its queue and in its JDQ entries. -/
def NodeState.waiting (x : NodeState) (p : Nat) : List Token :=
  x.queue p ++ (x.jdq.filter (fun e => e.1 == p)).map (fun e => e.2)

/-- Tokens in input queues and JDQ entries (R73). -/
def NodeState.occupancy (x : NodeState) : Nat :=
  x.qa.length + x.qb.length + x.qc.length + x.qp.length + x.jdq.length

/-- The first JDQ entry of a port, and the entries without it. -/
def takeJdq (p : Nat) : List (Nat × Token) → Option (Token × List (Nat × Token))
  | [] => none
  | e :: t =>
    if e.1 = p then some (e.2, t)
    else (takeJdq p t).map (fun r => (r.1, e :: r.2))

/-- Move JDQ tokens of a port up while its queue has room. -/
def NodeState.refill (x : NodeState) (p now : Nat) : Nat → NodeState
  | 0 => x
  | i + 1 =>
    if (x.queue p).length ≥ Config.queueDepth then x
    else match takeJdq p x.jdq with
      | none => x
      | some (t, rest) =>
        ({ x with jdq := rest }.setQueue p (x.queue p ++ [{ t with since := now }])).refill p now i

/-- Remove the head of a port; the port's oldest JDQ token takes the freed place (R69). -/
def NodeState.pop (x : NodeState) (p now : Nat) : NodeState :=
  (x.setQueue p (x.queue p).tail).refill p now Config.queueDepth

/-! ### Free values -/

/-- A latency that the spec leaves variable: at least one cycle (log 4). -/
def State.freeDelay (s : State) : Nat × State := (Config.freeDelay s.free + 1, { s with free := s.free + 1 })

/-- A value that the spec leaves open (log 5). -/
def State.freeWord (s : State) : Nat × State := (Config.freeWord s.free, { s with free := s.free + 1 })

/-- A fresh number. -/
def State.fresh (s : State) : Nat × State := (s.nextId, { s with nextId := s.nextId + 1 })

/-- Put moves at the front of the running cycle. -/
def State.push (s : State) (ts : List Turn) : State := { s with agenda := ts ++ s.agenda }

end Sys2Proof.Machine
end

