-- ==== Sys2Proof/Machine/Fp.lean ====
section
/-! DEFINITION. Numbers: elements and lanes (R19, R20), exact values of floating and block elements (R21, R22), the
rounding of R24 to R27, and the encoding of block elements (R29). A value is computed exactly and rounded once. -/

namespace Sys2Proof.Machine

/-! ### Flags -/

/-- The five IEEE flags in the order of R37. -/
def flagNV : BitVec 5 := 16
def flagDZ : BitVec 5 := 8
def flagOF : BitVec 5 := 4
def flagUF : BitVec 5 := 2
def flagNX : BitVec 5 := 1

/-! ### Elements of lanes -/

/-- Element `k` of a lane under a format (R19). -/
def elem (fmt : Nat) (w : Word) (k : Nat) : Nat :=
  (w.toNat >>> (k * elemWidth fmt)) % 2 ^ elemWidth fmt

/-- The elements of one lane, low first. -/
def laneElems (fmt : Nat) (w : Word) : List Nat := (List.range (elemsPerLane fmt)).map (elem fmt w)

/-- Pack elements into one lane, low first. -/
def packLane (fmt : Nat) : List Nat → Nat
  | [] => 0
  | x :: xs => x % 2 ^ elemWidth fmt + 2 ^ elemWidth fmt * packLane fmt xs

/-- A lane from its elements. -/
def laneOf (fmt : Nat) (xs : List Nat) : Word := BitVec.ofNat 32 (packLane fmt xs)

/-- All elements of lanes, in ascending lane order and low first within a lane. -/
def elemsOf (fmt : Nat) (ls : List Word) : List Nat := ls.flatMap (laneElems fmt)

/-- `n` lanes from a list of elements; positions beyond the list are zero. -/
def packLanes (fmt : Nat) : Nat → List Nat → List Word
  | 0, _ => []
  | n + 1, xs => laneOf fmt (xs.take (elemsPerLane fmt)) :: packLanes fmt n (xs.drop (elemsPerLane fmt))

/-! ### Exact values -/

/-- The value of a floating element: a NaN, an infinity, or ± m × 2^e. -/
inductive Val where
  | nan (signalling : Bool)
  | inf (neg : Bool)
  | fin (neg : Bool) (m : Nat) (e : Int)
  deriving DecidableEq, Repr

/-- A result before its rounding: ± (m, with more below it when `sticky`) × 2^e. -/
inductive Exact where
  | nan
  | inf (neg : Bool)
  | num (neg : Bool) (m : Nat) (e : Int) (sticky : Bool)
  deriving DecidableEq, Repr

/-- Fraction bits of a floating format. -/
def fracBits (fmt : Nat) : Nat := if fmt = 2 then 23 else if fmt = 3 then 7 else 10

/-- Exponent bias. -/
def expBias (fmt : Nat) : Nat := if fmt = 4 then 15 else 127

/-- The all-ones exponent field. -/
def expOnes (fmt : Nat) : Nat := if fmt = 4 then 31 else 255

/-- The canonical quiet NaN (R21). -/
def quietNan (fmt : Nat) : Nat := if fmt = 2 then 0x7FC00000 else 0x7FC0

/-- Sign bit position. -/
def signBit (fmt : Nat) : Nat := if fmt = 2 then 31 else 15

/-- The value of a floating element (Table 2-1). -/
def decodeFloat (fmt x : Nat) : Val :=
  let fb := fracBits fmt
  let f := x % 2 ^ fb
  let ex := (x >>> fb) % (expOnes fmt + 1)
  let s := x.testBit (signBit fmt)
  if ex = expOnes fmt then (if f = 0 then .inf s else .nan (!f.testBit (fb - 1)))
  else if ex = 0 then .fin s f (1 - (expBias fmt : Int) - (fb : Int))
  else .fin s (f + 2 ^ fb) ((ex : Int) - (expBias fmt : Int) - (fb : Int))

/-- An infinity of a format. -/
def infBits (fmt : Nat) (neg : Bool) : Nat := expOnes fmt * 2 ^ fracBits fmt + b2n neg * 2 ^ signBit fmt

/-- The largest finite magnitude with a sign. -/
def maxBits (fmt : Nat) (neg : Bool) : Nat :=
  expOnes fmt * 2 ^ fracBits fmt - 1 + b2n neg * 2 ^ signBit fmt

/-- Number of bits of a natural number. -/
def bitLen (m : Nat) : Nat := if m = 0 then 0 else Nat.log2 m + 1

/-- 2 to an integer power as a shift of `m`, dropping bits below one. -/
def shiftInt (m : Nat) (k : Int) : Nat := if k ≥ 0 then m * 2 ^ k.toNat else m >>> (-k).toNat

/-- The magnitude rounded to a multiple of 2^q, in units of 2^q, and whether it was inexact. Modes: 0 RNE, 1 RTZ,
2 toward +∞, 3 toward −∞, 4 stochastic with `draw` (R27), 5 away from zero. -/
def roundUnits (mode draw : Nat) (neg : Bool) (m : Nat) (e : Int) (sticky : Bool) (q : Int) : Nat × Bool :=
  let s := q - e
  if s ≤ 0 then
    let k := m * 2 ^ (-s).toNat
    let k' := match mode with
      | 2 => if sticky && !neg then k + 1 else k
      | 3 => if sticky && neg then k + 1 else k
      | 4 => (k * 65536 + draw) / 65536
      | 5 => if sticky then k + 1 else k
      | _ => k
    (k', sticky)
  else
    let sh := s.toNat
    let k := m >>> sh
    let r := m % 2 ^ sh
    let half := 2 ^ (sh - 1)
    let inexact := r != 0 || sticky
    let k' := match mode with
      | 0 => if decide (r > half) || (r == half && (sticky || k % 2 == 1)) then k + 1 else k
      | 2 => if inexact && !neg then k + 1 else k
      | 3 => if inexact && neg then k + 1 else k
      | 4 => ((m * 65536) >>> sh + draw) / 65536
      | 5 => if inexact then k + 1 else k
      | _ => k
    (k', inexact)

/-- The bits of ± k × 2^q, where k has at most one bit more than the fraction. -/
def packFloat (fmt : Nat) (neg : Bool) (k : Nat) (q : Int) : Nat :=
  let fb := fracBits fmt
  let s := b2n neg * 2 ^ signBit fmt
  if k < 2 ^ fb then s + k
  else
    let (k, q) := if k = 2 ^ (fb + 1) then (2 ^ fb, q + 1) else (k, q)
    let ex := (q + (fb : Int) + (expBias fmt : Int)).toNat
    s + ex * 2 ^ fb + (k - 2 ^ fb)

/-- Whether ± k × 2^q lies above the largest finite magnitude. -/
def tooLarge (fmt : Nat) (k : Nat) (q : Int) : Bool :=
  decide (k ≥ 1) && decide (q + (Nat.log2 k : Int) > (expBias fmt : Int))

/-- Round a non-zero magnitude once to a floating format (R21, R24 to R27): bits and flags. DESIGN CHOICE (log 91): an x above
the largest finite magnitude that stochastic rounding truncates to that magnitude counts as inexact and not as an overflow, so
NX alone is raised. -/
def roundFloat (fmt mode draw : Nat) (sat neg : Bool) (m : Nat) (e : Int) (sticky : Bool) : Nat × BitVec 5 :=
  let fb := fracBits fmt
  let emin : Int := 1 - (expBias fmt : Int)
  let lead := e + (bitLen m : Int) - 1
  let q := max lead emin - (fb : Int)
  let (k, inexact) := roundUnits mode draw neg m e sticky q
  if tooLarge fmt k q then
    let toInf := match mode with
      | 0 => true
      | 2 => !neg
      | 3 => neg
      | 4 => true
      | 5 => true
      | _ => false
    ((if toInf && !sat then infBits fmt neg else maxBits fmt neg), flagOF ||| flagNX)
  else
    let qu := lead - (fb : Int)
    let (ku, _) := roundUnits mode draw neg m e sticky qu
    let tiny := decide (qu + (bitLen ku : Int) - 1 < emin)
    (packFloat fmt neg k q, if inexact then (if tiny then flagUF ||| flagNX else flagNX) else 0)

/-- Round an exact result. A NaN is the canonical one; an infinity is replaced under SAT (R26). -/
def roundExact (fmt mode draw : Nat) (sat : Bool) : Exact → Nat × BitVec 5
  | .nan => (quietNan fmt, 0)
  | .inf neg => (if sat then maxBits fmt neg else infBits fmt neg, 0)
  | .num neg m e sticky =>
    if m = 0 then (b2n neg * 2 ^ signBit fmt, 0) else roundFloat fmt mode draw sat neg m e sticky

/-- An element with the largest finite magnitude in place of an infinity where SAT = 1 (R26); no flag is raised for it. -/
def saturate (fmt : Nat) (sat : Bool) (x : Nat × BitVec 5) : Nat × BitVec 5 :=
  if sat then (match decodeFloat fmt x.1 with
    | .inf n => (maxBits fmt n, x.2)
    | _ => x)
  else x

/-- Round exact results elsewhere decided with flags of their own. -/
def roundWith (fmt mode draw : Nat) (sat : Bool) (x : Exact × BitVec 5) : Nat × BitVec 5 :=
  let (b, f) := roundExact fmt mode draw sat x.1
  (b, f ||| x.2)

/-! ### Exact arithmetic -/

/-- A signalling NaN among the operands raises NV (R21). -/
def nanFlags (vs : List Val) : BitVec 5 := if vs.contains (.nan true) then flagNV else 0

/-- Whether a value is a NaN. -/
def Val.isNan : Val → Bool
  | .nan _ => true
  | _ => false

/-- The value with its sign inverted. -/
def Val.negate : Val → Val
  | .nan s => .nan s
  | .inf n => .inf (!n)
  | .fin n m e => .fin (!n) m e

/-- An exact sum of two signed dyadics. The sign of a zero sum of unlike signs is minus only toward −∞ (R21). -/
def addFin (mode : Nat) (n1 : Bool) (m1 : Nat) (e1 : Int) (n2 : Bool) (m2 : Nat) (e2 : Int) : Exact :=
  let e := min e1 e2
  let a := m1 * 2 ^ (e1 - e).toNat
  let b := m2 * 2 ^ (e2 - e).toNat
  if n1 = n2 then .num n1 (a + b) e false
  else if a = b then .num (mode == 3) 0 0 false
  else if a > b then .num n1 (a - b) e false
  else .num n2 (b - a) e false

/-- The exact sum of two values. -/
def addVal (mode : Nat) (a b : Val) : Exact × BitVec 5 :=
  match a, b with
  | .nan _, _ => (.nan, nanFlags [a, b])
  | _, .nan _ => (.nan, nanFlags [a, b])
  | .inf x, .inf y => if x = y then (.inf x, 0) else (.nan, flagNV)
  | .inf x, .fin _ _ _ => (.inf x, 0)
  | .fin _ _ _, .inf y => (.inf y, 0)
  | .fin n1 m1 e1, .fin n2 m2 e2 => (addFin mode n1 m1 e1 n2 m2 e2, 0)

/-- The exact product of two values. -/
def mulVal (a b : Val) : Exact × BitVec 5 :=
  match a, b with
  | .nan _, _ => (.nan, nanFlags [a, b])
  | _, .nan _ => (.nan, nanFlags [a, b])
  | .inf x, .inf y => (.inf (x != y), 0)
  | .inf x, .fin n m _ => if m = 0 then (.nan, flagNV) else (.inf (x != n), 0)
  | .fin n m _, .inf y => if m = 0 then (.nan, flagNV) else (.inf (n != y), 0)
  | .fin n1 m1 e1, .fin n2 m2 e2 => (.num (n1 != n2) (m1 * m2) (e1 + e2) false, 0)

/-- An exact result read as a value again. -/
def Exact.toVal : Exact → Val
  | .nan => .nan false
  | .inf n => .inf n
  | .num n m e _ => .fin n m e

/-- a × b + c with the product exact (R113): 0 × ∞ is invalid even when c is a quiet NaN. -/
def fmaVal (mode : Nat) (a b c : Val) : Exact × BitVec 5 :=
  let (p, f) := mulVal a b
  match p with
  | .nan => (.nan, f ||| nanFlags [c])
  | _ =>
    let (r, g) := addVal mode p.toVal c
    (r, f ||| g)

/-- a / b (R113): at least 90 quotient bits and a sticky bit. -/
def divVal (a b : Val) : Exact × BitVec 5 :=
  match a, b with
  | .nan _, _ => (.nan, nanFlags [a, b])
  | _, .nan _ => (.nan, nanFlags [a, b])
  | .inf _, .inf _ => (.nan, flagNV)
  | .inf x, .fin n _ _ => (.inf (x != n), 0)
  | .fin n _ _, .inf y => (.num (n != y) 0 0 false, 0)
  | .fin n1 m1 e1, .fin n2 m2 e2 =>
    if m2 = 0 then (if m1 = 0 then (.nan, flagNV) else (.inf (n1 != n2), flagDZ))
    else
      let k := 90 + bitLen m2
      let x := m1 * 2 ^ k
      (.num (n1 != n2) (x / m2) (e1 - e2 - (k : Int)) (x % m2 != 0), 0)

/-- Integer square root by digits: `i` further bits of the root `r` of `n`. -/
def isqrtGo (n : Nat) : Nat → Nat → Nat
  | 0, r => r
  | i + 1, r => if (r + 2 ^ i) * (r + 2 ^ i) ≤ n then isqrtGo n i (r + 2 ^ i) else isqrtGo n i r

/-- The integer square root. -/
def isqrt (n : Nat) : Nat := isqrtGo n (bitLen n / 2 + 1) 0

/-- sqrt(a) (R113). -/
def sqrtVal (a : Val) : Exact × BitVec 5 :=
  match a with
  | .nan s => (.nan, if s then flagNV else 0)
  | .inf n => if n then (.nan, flagNV) else (.inf false, 0)
  | .fin n m e =>
    if m = 0 then (.num n 0 0 false, 0)
    else if n then (.nan, flagNV)
    else
      let e' := if e % 2 = 0 then e else e - 1
      let m' := if e % 2 = 0 then m else 2 * m
      let x := m' * 2 ^ 180
      let r := isqrt x
      (.num false r (e' / 2 - 90) (r * r != x), 0)

/-- Whether a < b for finite or infinite values; NaNs compare false. −0 equals +0. -/
def ltVal (a b : Val) : Bool :=
  match a, b with
  | .nan _, _ => false
  | _, .nan _ => false
  | .inf x, .inf y => x && !y
  | .inf x, .fin _ _ _ => x
  | .fin _ _ _, .inf y => !y
  | .fin n1 m1 e1, .fin n2 m2 e2 =>
    match addFin 0 n1 m1 e1 (!n2) m2 e2 with
    | .num n m _ _ => n && m != 0
    | _ => false

/-- Whether a = b for values that are no NaN. -/
def eqVal (a b : Val) : Bool := !a.isNan && !b.isNan && !ltVal a b && !ltVal b a

/-- Sign of a value. -/
def Val.neg : Val → Bool
  | .nan _ => false
  | .inf n => n
  | .fin n _ _ => n

/-- FMIN or FMAX of two elements (R113): bits and flags. No rounding takes place. -/
def minMax (fmt : Nat) (wantMax : Bool) (a b : Nat) : Nat × BitVec 5 :=
  let va := decodeFloat fmt a
  let vb := decodeFloat fmt b
  let f := nanFlags [va, vb]
  if va.isNan && vb.isNan then (quietNan fmt, f)
  else if va.isNan then (b, f)
  else if vb.isNan then (a, f)
  else
    let aLess := ltVal va vb || (eqVal va vb && va.neg && !vb.neg)
    (if aLess = wantMax then b else a, f)

/-! ### Block elements -/

/-- The largest magnitude of a block format. -/
def blockMax (fmt : Nat) : Nat := if fmt = 8 then 63 else 3

/-- The exponent bias of a block format (R22). -/
def blockBias (fmt : Nat) : Nat := if fmt = 8 then 132 else 128

/-- The value of a block element under a scale word (R22, Table 2-2). -/
def decodeBlock (fmt scw x : Nat) : Val :=
  let sel := if fmt = 8 then x.testBit 7 else x.testBit 3
  let neg := if fmt = 8 then x.testBit 6 else x.testBit 2
  let m := if fmt = 8 then x % 64 else x % 4
  let code := if sel then scw / 256 % 256 else scw % 256
  if code = 0xFF then .nan false
  else if code = 0 || m = 0 then .fin false 0 0
  else .fin neg m ((code : Int) - (blockBias fmt : Int))

/-- The value of an element in a floating or block format. -/
def decodeElem (fmt scw x : Nat) : Val :=
  if fmt = 8 || fmt = 9 then decodeBlock fmt scw x else decodeFloat fmt x

/-- A block element's bits. -/
def packBlock (fmt : Nat) (sel neg : Bool) (m : Nat) : Nat :=
  if fmt = 8 then b2n sel * 128 + b2n neg * 64 + m else b2n sel * 8 + b2n neg * 4 + m

/-- What encoding an element gives: its bits, flags, and counts for MXC_SAT and MXC_NAN. -/
structure Encoded where
  bits : Nat
  flags : BitVec 5 := 0
  sat : Nat := 0
  nan : Nat := 0
  deriving DecidableEq, Repr

/-- Encode a value that is no NaN against one code (R29). -/
def encodeAgainst (fmt code mode draw : Nat) (sel : Bool) (v : Val) : Encoded :=
  match v with
  | .nan _ => { bits := packBlock fmt sel false 0, flags := flagNV, nan := 1 }
  | .inf n =>
    if code = 0 then { bits := packBlock fmt sel false 0, flags := flagNX }
    else { bits := packBlock fmt sel n (blockMax fmt), flags := flagOF ||| flagNX, sat := 1 }
  | .fin n m e =>
    if code = 0 then { bits := packBlock fmt sel false 0, flags := if m = 0 then 0 else flagNX }
    else
      let (k, inexact) := roundUnits mode draw n m e false ((code : Int) - (blockBias fmt : Int))
      if k > blockMax fmt then
        { bits := packBlock fmt sel n (blockMax fmt), flags := flagOF ||| flagNX, sat := 1 }
      else if k = 0 then
        { bits := packBlock fmt sel false 0, flags := if m = 0 then 0 else flagUF ||| flagNX }
      else { bits := packBlock fmt sel n k, flags := if inexact then flagNX else 0 }

/-- |v| ≤ max × 2^(code − bias). -/
def fitsCode (fmt code : Nat) (v : Val) : Bool :=
  match v with
  | .fin _ m e =>
    !ltVal (.fin false (blockMax fmt) ((code : Int) - (blockBias fmt : Int))) (.fin false m e)
  | _ => false

/-- QNTB's choice of selector and code (R119, R29). -/
def encodeBlock (fmt scw mode draw : Nat) (v : Val) : Encoded :=
  let e0 := scw % 256
  let e1 := scw / 256 % 256
  match v with
  | .nan _ =>
    if e0 = 0xFF then { bits := packBlock fmt false false 0 }
    else if e1 = 0xFF then { bits := packBlock fmt true false 0 }
    else { bits := packBlock fmt true false 0, flags := flagNV, nan := 1 }
  | _ =>
    if e0 = 0xFF && e1 = 0xFF then { bits := packBlock fmt false false 0, flags := flagNV, nan := 1 }
    else if v = .fin true 0 0 || (match v with | .fin _ 0 _ => true | _ => false) then
      { bits := packBlock fmt (e0 == 0xFF) false 0 }
    else if e0 != 0 && e0 != 0xFF && (fitsCode fmt e0 v || e1 = 0xFF) then encodeAgainst fmt e0 mode draw false v
    else if e1 = 0xFF then encodeAgainst fmt e0 mode draw false v
    else encodeAgainst fmt e1 mode draw true v

/-! ### Integers -/

/-- An element read signed. -/
def signedElem (w x : Nat) : Int := if x ≥ 2 ^ (w - 1) then (x : Int) - 2 ^ w else x

/-- FMT codes whose elements are signed (R97). -/
def fmtSigned (fmt : Nat) : Bool := fmt = 0 || fmt = 5 || fmt = 6 || fmt = 10

/-- An element read as its format says. -/
def intElem (fmt x : Nat) : Int := if fmtSigned fmt then signedElem (elemWidth fmt) x else x

/-- Keep an integer modulo 2^w. -/
def wrapInt (w : Nat) (x : Int) : Nat := (x % (2 ^ w : Nat)).toNat

/-- The bounds of an element. -/
def intLow (signed : Bool) (w : Nat) : Int := if signed then -(2 ^ (w - 1) : Nat) else 0
def intHigh (signed : Bool) (w : Nat) : Int := if signed then (2 ^ (w - 1) : Nat) - 1 else (2 ^ w : Nat) - 1

/-- The nearer bound (R98). -/
def clampInt (signed : Bool) (w : Nat) (x : Int) : Int := max (intLow signed w) (min (intHigh signed w) x)

/-- An integer as an exact value. -/
def exactInt (x : Int) : Exact := .num (decide (x < 0)) x.natAbs 0 false

/-- Round a floating value to an integer element (R117, CVTFI): bits and flags. -/
def floatToInt (ofmt mode draw : Nat) (v : Val) : Nat × BitVec 5 :=
  let w := elemWidth ofmt
  let sg := fmtSigned ofmt
  match v with
  | .nan _ => (0, flagNV)
  | .inf n => (wrapInt w (if n then intLow sg w else intHigh sg w), flagNV)
  | .fin n m e =>
    let (k, inexact) := roundUnits mode draw n m e false 0
    let x : Int := if n then -(k : Int) else k
    if x < intLow sg w then (wrapInt w (intLow sg w), flagNV)
    else if x > intHigh sg w then (wrapInt w (intHigh sg w), flagNV)
    else (wrapInt w x, if inexact then flagNX else 0)

/-! ### Stochastic draws -/

/-- One LFSR step (R27). -/
def lfsrStep (s : BitVec 32) : BitVec 32 :=
  let f := (s.getLsbD 31 ^^ s.getLsbD 21) ^^ (s.getLsbD 1 ^^ s.getLsbD 0)
  (s <<< 1) ||| BitVec.ofNat 32 (b2n f)

/-- `n` steps. -/
def lfsrSteps : Nat → BitVec 32 → BitVec 32
  | 0, s => s
  | n + 1, s => lfsrSteps n (lfsrStep s)

/-- One draw: 16 steps, yielding bits 15:0. -/
def lfsrDraw (s : BitVec 32) : Nat × BitVec 32 :=
  let t := lfsrSteps 16 s
  (t.toNat % 65536, t)

/-! ### Residues -/

/-- The residue of a payload (R32). -/
def residue (ls : List Word) : Nat := (ls.foldl (fun a w => a + w.toNat) 0) % 63

/-- The residue of a predicate payload: each lane contributes its bit. -/
def predResidue (ls : List Word) : Nat := (ls.foldl (fun a w => a + w.toNat % 2) 0) % 63

/-- The residue that a token of a format must carry. -/
def tokenResidue (fmt : Nat) (ls : List Word) : Nat := if fmt = 11 then predResidue ls else residue ls

end Sys2Proof.Machine
end

