-- ==== Sys2Proof/Machine/Flags.lean ====
section
/-! DEFINITION. Flags and counters: the staged copies of an activation (R36), their saturation (R38), the merge at
commit, and the flag field of an emitted token (R35). The IEEE flags themselves are raised where a result is rounded
(Fp.lean, Special.lean). -/

namespace Sys2Proof.Machine

/-- Saturating 32-bit addition (R38). -/
def satAdd (a b : Nat) : Nat := min 0xFFFFFFFF (a + b)

/-- Stage a consumed token's flags in its activation (R36). -/
def Colour.stage (c : Colour) (f : BitVec 5) : Colour := { c with flagsSt := c.flagsSt ||| f }

/-- Stage counts of MXC_NAN, MXC_OVF and MXC_SAT (R36). -/
def Colour.count (c : Colour) (nan ovf sat : Nat) : Colour :=
  { c with mxcNan := satAdd c.mxcNan nan, mxcOvf := satAdd c.mxcOvf ovf, mxcSat := satAdd c.mxcSat sat }

/-- Discard what is staged (R36, R64). -/
def Colour.clearStaged (c : Colour) : Colour :=
  { c with flagsSt := 0, mxcNan := 0, mxcOvf := 0, mxcSat := 0, staged := [] }

/-- Merge an activation's staged flags and counters into its kernel (R36). -/
def Kernel.merge (k : Kernel) (c : Colour) : Kernel :=
  { k with flagsK := k.flagsK ||| c.flagsSt, mxcNan := satAdd k.mxcNan c.mxcNan,
           mxcOvf := satAdd k.mxcOvf c.mxcOvf, mxcSat := satAdd k.mxcSat c.mxcSat }

/-- Stage the flags of a token that is consumed without one carrying them onward, and note its taint (R36, R345). -/
def State.stageToken (s : State) (g c : Nat) (f : BitVec 5) (tnt : Bool) : State :=
  s.modColour g c (fun x => { x.stage f with taint := x.taint || tnt })

/-- OR of the flag fields of tokens (R35). -/
def flagsOf (ts : List Token) : BitVec 5 := ts.foldl (fun f t => f ||| t.flg) 0

/-- OR of the taints of tokens (R52). -/
def taintOf (ts : List Token) : Bool := ts.any (fun t => t.tnt)

/-- OR of the scaled tags of tokens (R46). -/
def scaledOf (ts : List Token) : Bool := ts.any (fun t => t.sc)

end Sys2Proof.Machine
end

