-- ==== Sys2Proof/Machine/Colours.lean ====
section
/-! DEFINITION. The colour table: allocation with its serial and frame run (R64, R67), families of colours (R76), and
the waves of a loop (R71). -/

namespace Sys2Proof.Machine

/-! ### Allocation -/

/-- A colour that is not Free. -/
def Colour.held (c : Colour) : Bool := c.st != .free

/-- A colour that is Live or Ended. -/
def Colour.active (c : Colour) : Bool := c.st == .live || c.st == .ended

/-- Bytes of a frame slot (R66). -/
def slotBytes (wid : Nat) : Nat := roundUp (16 + 12 * wid) 16

/-- Bytes of a colour's reissue copy (R67). -/
def copyBytes (wid : Nat) : Nat := roundUp (16 + 4 * wid) 16

/-- Bytes of a colour's frame run (R67). -/
def runBytes (wid k jmax : Nat) : Nat := copyBytes wid + k * jmax * slotBytes wid

/-- Where a colour's frame run begins (R67): a physical address of its bank for a carve that starts at `carve`, or a virtual
address of the region's part of the overflow area. The copy and the slots themselves are `Colour.copy` and `FrameSlot`
(log 11). -/
def Colour.runBase (c : Colour) (carve part : Nat) : Nat := if c.ovf then part + 256 * c.fb else carve + 16 * c.fb

/-- The address of the slot of wave w and join index j (R67). -/
def Colour.slotAddr (c : Colour) (carve part jmax w j : Nat) : Nat :=
  c.runBase carve part + copyBytes c.wid + (w % (c.km1 + 1) * jmax + j) * slotBytes c.wid

/-- Insert an interval into a list sorted by its start. -/
def insertRun : List (Nat × Nat) → Nat × Nat → List (Nat × Nat)
  | [], x => [x]
  | y :: t, x => if x.1 ≤ y.1 then x :: y :: t else y :: insertRun t x

/-- First fit of `size` bytes above `lo` among sorted used intervals, in units. -/
def firstFit (size unit limit : Nat) : Nat → List (Nat × Nat) → Option Nat
  | lo, [] => if lo + size ≤ limit then some lo else none
  | lo, (a, n) :: t => if lo + size ≤ a then some lo else firstFit size unit limit (max lo (roundUp (a + n) unit)) t

/-- The frame runs in use in the carve (`ovf` false) or in the overflow part, sorted. -/
def Region.runs (r : Region) (ovf : Bool) : List (Nat × Nat) :=
  (r.cols.filter (fun e => e.2.held && e.2.ovf == ovf)).foldl
    (fun l e => insertRun l
      (e.2.fb * (if ovf then 256 else 16),
       roundUp (runBytes e.2.wid (e.2.km1 + 1) r.jmax) (if ovf then 256 else 16))) []

/-- Where a new run lies (R67): overflow bit and frame base, or nowhere. -/
def Region.placeRun (r : Region) (ovsz wid k : Nat) : Option (Bool × Nat) :=
  let size := runBytes wid k r.jmax
  match firstFit size 16 r.carve 0 (r.runs false) with
  | some a => some (false, a / 16)
  | none =>
    match firstFit (roundUp size 256) 256 (min ovsz 0x2000000) 0 (r.runs true) with
    | some a => some (true, a / 256)
    | none => none

/-- The lowest-numbered Free colour. -/
def lowestFree : Nat → Tab Colour → Nat
  | i, [] => i
  | i, (k, c) :: t => if i < k then i else if k = i && c.held then lowestFree (i + 1) t else if k = i then i else lowestFree i t

/-- A serial is held by a colour that is not Free, as SER or as PSER (R64). -/
def serialHeld (cols : Tab Colour) (n : Nat) : Bool := cols.any (fun e => e.2.held && (e.2.ser == n || e.2.pser == n))

/-- The next allocation serial that is not held (R64). -/
def nextSerial (cols : Tab Colour) (avoid : Option Nat) : Nat → Nat → Nat
  | 0, n => n
  | i + 1, n => if serialHeld cols n || avoid == some n then nextSerial cols avoid i ((n + 1) % 65536) else n

/-- What an allocation gives. -/
inductive Grant where
  /-- No colour is Free: the allocation waits (R64). -/
  | wait
  /-- The frame run fits nowhere (R67). -/
  | exhausted
  | granted (n : Nat) (r : Region)
  deriving DecidableEq, Repr

/-- Allocate a colour (R64, R67). `want` holds width, TS, K, V, parent and allocating node; a group colour is its own
parent (R63). -/
def Region.allocate (r : Region) (ovsz : Nat) (want : Colour) (ownParent : Bool) : Grant :=
  let n := lowestFree 0 r.cols
  if n ≥ 4096 then .wait
  else match r.placeRun ovsz want.wid (want.km1 + 1) with
    | none => .exhausted
    | some (ovf, fb) =>
      let ser := nextSerial r.cols (if ownParent then none else some want.pser) (2 * r.cols.length + 2) r.serial
      let c : Colour :=
        { want with
          st := .live, ovf := ovf, fb := fb, ser := ser
          pcol := if ownParent then n else want.pcol
          pser := if ownParent then ser else want.pser
          loop := false, lwave := 0, owave := 0, nwave := 0, vcnt := 0, back := false
          flagsSt := 0, mxcNan := 0, mxcOvf := 0, mxcSat := 0
          reads := [], staged := [], producers := [], busy := 0, fired := [], taint := false
          blocks := [], oldest := [], settled := false, preparing := false, committed := false, purgedAt := 0, place := 0 }
      .granted n { r with cols := Tab.set r.cols n c, serial := (ser + 1) % 65536, gone := r.gone.filter (fun x => x != (n, ser)) }

/-- Colours whose parent is one of `ps` (PCOL with its PSER), and theirs in turn (R76). -/
def descend (cols : Tab Colour) : Nat → List (Nat × Nat) → List Nat → List Nat
  | 0, _, acc => acc
  | i + 1, ps, acc =>
    let kids := cols.filter (fun e => e.2.active && !e.2.committed && !acc.contains e.1 && ps.contains (e.2.pcol, e.2.pser))
    if kids.isEmpty then acc
    else descend cols i (kids.map (fun e => (e.1, e.2.ser))) (acc ++ kids.map (fun e => e.1))

/-- A colour and its descendants that a purge takes: those that are Live or Ended and have no commit point (R76). -/
def Region.family (r : Region) (c : Nat) : List Nat :=
  descend r.cols r.cols.length [(c, (Tab.get {} r.cols c).ser)] [c]

/-! ### Waves (R71) -/

/-- Distance of a wave from the oldest live one. -/
def Colour.age (c : Colour) (w : Nat) : Nat := (w + 256 - c.owave) % 256

/-- A wave-count entry exists for a colour's wave, or one is free. -/
def waveRoom (ws : List WaveCount) (col w : Nat) : Bool :=
  ws.any (fun e => e.col == col && e.wave == w) || decide (ws.length < 32)

/-- Whether a WAVE (`isWave`) or WEXIT firing on wave `w` may take place in a hearth (R71, R85). A WAVE that opens a loop is
judged with the OWAVE = w that its own firing sets, so it needs K ≥ 2. DEDUCED (log 94): R71 does not say which OWAVE the test
reads while LOOP = 0. -/
def Colour.waveReady (c : Colour) (ws : List WaveCount) (col w : Nat) (isWave : Bool) : Bool :=
  if !c.loop then !isWave || decide (c.km1 ≥ 1)
  else (!isWave || decide (c.age ((w + 1) % 256) ≤ c.km1)) && (c.age w == 0 || waveRoom ws col w)

/-- Count a firing in the wave-count buffer. -/
def bumpWave (ws : List WaveCount) (col w : Nat) (isWave : Bool) : List WaveCount :=
  if ws.any (fun e => e.col == col && e.wave == w) then
    ws.map (fun e => if e.col == col && e.wave == w then { e with cnt := e.cnt + 1, bk := e.bk || isWave } else e)
  else ws ++ [{ col := col, wave := w, cnt := 1, bk := isWave }]

/-- A WAVE opens a loop when none is open. -/
def Colour.openLoop (c : Colour) (w : Nat) (isWave : Bool) : Colour :=
  if isWave && !c.loop then { c with loop := true, lwave := w, owave := w, nwave := w, vcnt := 0, back := false } else c

/-- A WAVE makes wave w + 1 live when it is newer. -/
def Colour.extend (c : Colour) (w : Nat) (isWave : Bool) : Colour :=
  if isWave && decide (c.age ((w + 1) % 256) > c.age c.nwave) then { c with nwave := (w + 1) % 256 } else c

/-- The wave that a WAVE or WEXIT firing emits on (R43, R85). -/
def Colour.waveOut (c : Colour) (w : Nat) (isWave : Bool) : Nat :=
  if isWave then (w + 1) % 256 else if c.loop then c.lwave else w

/-- The count of a WAVE or WEXIT firing in hearth h and slot k (R71). The retiring of a wave that reaches V is the
step WAVE_RETIRE, put next in the same cycle. -/
def State.countWave (s : State) (g h k col w : Nat) (isWave : Bool) : State :=
  let c0 := s.colour g col
  if !isWave && !c0.loop then s
  else
    let c := (c0.openLoop w isWave).extend w isWave
    if c.age w = 0 then
      let c := { c with vcnt := c.vcnt + 1, back := c.back || isWave }
      let s := s.setColour g col c
      if c.vcnt ≥ c.vm1 + 1 then s.push [.event .waveRetire (.colour g col)] else s
    else
      (s.setColour g col c).modSlot h k (fun x => { x with waves := bumpWave x.waves col w isWave })

/-- Free a colour's wave-count entries in every hearth of the region. -/
def State.dropWaves (s : State) (g : Nat) (cols : List Nat) : State :=
  { s with slots := s.slots.map (fun e =>
      if e.2.region == some g then (e.1, { e.2 with waves := e.2.waves.filter (fun w => !cols.contains w.col) }) else e) }

/-- The counts that the hearths of a region keep for a colour's wave. -/
def State.bufferedWaves (s : State) (g col w : Nat) : Nat × Bool :=
  s.slots.foldl (fun acc e =>
    if e.2.region == some g then
      e.2.waves.foldl (fun a x => if x.col == col && x.wave == w then (a.1 + x.cnt, a.2 || x.bk) else a) acc
    else acc) (0, false)

/-- Free the entries of one wave of a colour. -/
def State.takeWave (s : State) (g col w : Nat) : State :=
  { s with slots := s.slots.map (fun e =>
      if e.2.region == some g then
        (e.1, { e.2 with waves := e.2.waves.filter (fun x => !(x.col == col && x.wave == w)) })
      else e) }

/-- Forget the request chains of a colour that keep no link with a live wave (R170). -/
def State.dropChains (s : State) (g col : Nat) (keep : Nat → Bool) : State :=
  { s with slots := s.slots.map (fun e =>
      if e.2.region == some g then
        (e.1, { e.2 with cfg := { e.2.cfg with chains := e.2.cfg.chains.filter (fun x => x.col != col || keep x.wave) } })
      else e) }

/-- Wave OWAVE retires (R71): the next wave takes its buffered counts, or the loop closes. -/
def State.retireWave (s : State) (g col : Nat) : State :=
  let c := s.colour g col
  if !c.loop || c.vcnt < c.vm1 + 1 then s
  else if !c.back then
    ((s.dropWaves g [col]).dropChains g col (fun w => w == c.lwave)).setColour g col
      { c with loop := false, owave := c.lwave, nwave := c.lwave, vcnt := 0, back := false }
  else
    let w := (c.owave + 1) % 256
    let b := s.bufferedWaves g col w
    let c := { c with owave := w, vcnt := b.1, back := b.2 }
    let s := ((s.takeWave g col w).dropChains g col (fun v => v != (w + 254) % 256 || v == c.lwave)).setColour g col c
    if c.vcnt ≥ c.vm1 + 1 then s.push [.event .waveRetire (.colour g col)] else s

end Sys2Proof.Machine
end

