-- ==== Sys2Proof/Machine/Emit.lean ====
section
/-! DEFINITION. How tokens leave a node: the far ends of a destination field (R49, R216, R217), the credits (R70), the
circuit slots (R218), and the sending itself (R50, R52). -/

namespace Sys2Proof.Machine

/-! ### Switch entries -/

/-- A far end of a circuit, route or mesh entry. -/
structure Target where
  h : Nat
  k : Nat
  node : Nat
  port : Nat
  way : Way
  hops : Nat
  rid : Nat
  deriving DecidableEq, Repr

/-- Slot of a hearth in which a module context is resident (R53). -/
def State.slotFor (s : State) (h m : Nat) : Option Nat :=
  (List.range 4).find? (fun k =>
    match (s.slot h k).region with
    | some g => (s.region g).ctx == m
    | none => false)

/-- A far end given by its place from the region's origin. -/
def circuitEnd (r : Region) (h k : Nat) (d : Dest) (way : Way) (rid x y port : Nat) : Target :=
  let far := hearthAt r.die (r.x + x) (r.y + y)
  { h := far, k := k, node := d.node.toNat, port := port, way := way
    hops := apart (colOf h) (colOf far) + apart (rowOf h) (rowOf far), rid := rid }

/-- The far ends of a circuit port (R217). -/
def circuitEnds (r : Region) (h k : Nat) (d : Dest) (e : Nat) : List Target :=
  if !bit e 127 then []
  else
    circuitEnd r h k d .circuit (bits e 125 116) (bits e 99 93) (bits e 92 86) d.opnd.toNat ::
      (if bit e 126 then [circuitEnd r h k d .circuit (bits e 125 116) (bits e 85 79) (bits e 78 72) d.opnd.toNat]
       else [])

/-- The far ends of a node's destination (R49). The mesh and the sink have none here. -/
def State.endsOf (s : State) (g h k n : Nat) (d : Dest) : List Target :=
  if d.v = 0 then []
  else
    let r := s.region g
    match d.oport.toNat with
    | 12 => [{ h := h, k := k, node := d.node.toNat, port := d.opnd.toNat, way := .local, hops := 0, rid := 0 }]
    | 13 => []
    | 14 =>
      let e := (Tab.get 0 (s.slot h k).cfg.routes n : BitVec 32).toNat
      if bit e 31 then [circuitEnd r h k d .predicate (bits e 16 7) (bits e 30 24) (bits e 23 17) 3] else []
    | 15 => []
    | p => circuitEnds r h k d (Tab.get 0 (s.slot h k).cfg.circuits p : BitVec 128).toNat

/-- The hearth and node that a mesh entry names, in the slot where the context is resident. -/
def State.meshEnd (s : State) (g : Nat) (d : Dest) : List Target :=
  if d.v = 0 || d.oport != 13 then []
  else
    let r := s.region g
    let e := (Tab.get 0 r.cfg.mesh d.node.toNat : BitVec 64).toNat
    if !bit e 63 then []
    else
      let far := hearthAt (bits e 62 61) (bits e 60 54) (bits e 53 47)
      match s.slotFor far r.ctx with
      | none => []
      | some k => [{ h := far, k := k, node := bits e 32 29, port := bits e 28 27, way := .mesh, hops := 0,
                     rid := bits e 42 33 }]

/-- Every queue that a destination's token will enter. -/
def State.targets (s : State) (g h k n : Nat) (d : Dest) : List Target := s.endsOf g h k n d ++ s.meshEnd g d

/-! ### Credits (R70) -/

/-- Credits that a request's reply has reserved at a port (R171). -/
def State.reservedBy (s : State) (h k n p : Nat) (g h' k' : Nat) (q : Request) : Nat :=
  if q.issued && q.answer != .atIssue then
    ((s.targets g h' k' q.node q.nrec.d0 ++ s.targets g h' k' q.node q.nrec.d1).filter
      (fun t => t.h == h && t.k == k && t.node == n && t.port == p)).length
  else 0

/-- Tokens on their way to a port, those of outstanding loads included. -/
def State.incoming (s : State) (h k n p : Nat) : Nat :=
  (s.flights.filter (fun e => e.2.h == h && e.2.k == k && e.2.tok.node == n && e.2.tok.port == p)).length
  + (s.messages.filter (fun e =>
      match e.2.token with
      | some t => hearthAt e.2.ddie e.2.dx e.2.dy == h && t.node == n && t.port == p && s.slotFor h e.2.mctx == some k
      | none => false)).length
  + s.slots.foldl (fun a e =>
      match e.2.region with
      | some g => e.2.cfg.buffer.foldl (fun b q => b + s.reservedBy h k n p g (e.1 / 4) (e.1 % 4) q) a
      | none => a) 0

/-- Entries taken or promised at a port. -/
def State.load (s : State) (h k n p : Nat) : Nat := ((s.node h k n).waiting p).length + s.incoming h k n p

/-- JDQ entries that a node's record reserves. -/
def jdqSize (store : Tab (BitVec 96)) (n : Nat) : Nat := match Tab.find store n with
  | some w => (decodeFields w).jdq.toNat
  | none => 0

/-- Unreserved delay-matching entries in use in a hearth (R219): DELAY and CRET holds, and tokens that a snapshot holds
beyond a node's own entries (R309). -/
def State.unreservedUsed (s : State) (h : Nat) : Nat :=
  (List.range 4).foldl (fun a k => (s.slot h k).cfg.nodes.foldl (fun a e =>
    a + (e.2.holds.filter (fun x => x.kind == .delay || x.kind == .cret)).length +
    (e.2.jdq.length - jdqSize (s.slot h k).cfg.store e.1)) a) 0

/-- Room for `count` more tokens at a port: its queue of four, and the JDQ entries of a static join (R69, R70); a node that
waits for a snapshot marker also takes unreserved delay-matching entries (R309). -/
def State.room (s : State) (h k n p count : Nat) : Bool :=
  match s.record h k n with
  | none => true
  | some (_, r) =>
    let l := s.load h k n p + (count - 1)
    decide (l < Config.queueDepth) ||
      (r.jdq != 0 &&
        decide (((List.range 4).foldl
          (fun a q => a + ((if q = p then l else s.load h k n q) - Config.queueDepth)) 0) < r.jdq.toNat)) ||
      ((s.node h k n).stopped && decide (s.incoming h k n p + (count - 1) + s.unreservedUsed h < Config.unreserved))

/-- Room for `count` markers: as many free queue entries, and no token of the port in a JDQ entry (R307). -/
def State.markerRoom (s : State) (h k n p count : Nat) : Bool :=
  match s.record h k n with
  | none => true
  | some _ => decide (s.load h k n p + count ≤ Config.queueDepth) && (s.node h k n).jdqOf p == 0

/-- Targets that lead into one queue with a target, itself among them. -/
def sameQueue (ts : List Target) (t : Target) : Nat :=
  (ts.filter (fun u => u.h == t.h && u.k == t.k && u.node == t.node && u.port == t.port)).length

/-- Each queue that tokens for these destinations enter has room for all of them (R70). -/
def State.roomAll (s : State) (ts : List Target) : Bool := ts.all (fun t => s.room t.h t.k t.node t.port (sameQueue ts t))

/-- The destinations of a node, both together. -/
def State.bothTargets (s : State) (g h k n : Nat) (r : Rec) : List Target :=
  s.targets g h k n r.d0 ++ s.targets g h k n r.d1

/-! ### Circuit slots (R218) -/

/-- The first cycle from `c` whose slot the circuit owns. -/
def firstOwned (smask : Nat) : Nat → Nat → Nat
  | 0, c => c
  | i + 1, c => if bit smask (c % 16) then c else firstOwned smask i (c + 1)

/-- Insert a use behind those presented before it, or together with it at a rank no higher. -/
def insertUse : List PortUse → PortUse → List PortUse
  | [], u => [u]
  | v :: t, u =>
    if u.presented < v.presented || (u.presented == v.presented && u.rank < v.rank) then u :: v :: t
    else v :: insertUse t u

/-- Give every use of a port its slot, in order. -/
def assignSlots (port smask : Nat) : Nat → List PortUse → List PortUse
  | _, [] => []
  | next, u :: t =>
    if u.port = port then
      let d := firstOwned smask 16 (max u.presented next)
      { u with leave := d } :: assignSlots port smask (d + 1) t
    else u :: assignSlots port smask next t

/-- The flights of uses whose slot has moved, with the cycles they come later. -/
def moved : List PortUse → List PortUse → List (Nat × Nat)
  | u :: us, v :: vs => (if u.leave = v.leave then [] else v.flights.map (fun i => (i, v.leave - u.leave))) ++ moved us vs
  | _, _ => []

/-- Delay flights. -/
def delayFlights (fs : Tab Flight) (ms : List (Nat × Nat)) : Tab Flight :=
  fs.map (fun e => match ms.find? (fun m => m.1 == e.1) with
    | some m => (e.1, { e.2 with arrive := e.2.arrive + m.2 })
    | none => e)

/-- Put a token's flights into an owned slot of a circuit port. -/
def State.useSlot (s : State) (h k port smask present rank : Nat) (fs : List (Nat × Flight)) : State :=
  let uses := (s.slot h k).cfg.portUsed.filter (fun u => s.cycle ≤ u.leave)
  let before := insertUse uses { port := port, presented := present, rank := rank, leave := present, flights := fs.map (fun f => f.1) }
  let after := assignSlots port smask 0 before
  let all := fs.foldl (fun t f => Tab.set t f.1 f.2) s.flights
  { s with flights := delayFlights all (moved before after) }
  |>.modSlot h k (fun x => { x with cfg := { x.cfg with portUsed := after } })

/-! ### Sending -/

/-- A token as it travels to a target. -/
def Token.toward (t : Token) (k : Nat) (e : Target) : Token :=
  { t with ctx := k, node := e.node, port := e.port, rid := e.rid }

/-- A flight to a target. -/
def flightTo (t : Token) (g : Nat) (e : Target) (arrive : Nat) : Flight :=
  { tok := t.toward e.k e, region := g, h := e.h, k := e.k, expect := e.rid, arrive := arrive, way := e.way }

/-- A token's header (Table 3-5). -/
def Token.header (t : Token) : Nat :=
  t.scw % 65536 + b2n t.rsv * 2 ^ 16 + (match t.mark with | .data => 0 | .barrier => 1 | .snapshot => 2 | .freeze => 3) * 2 ^ 17 +
  t.rid % 1024 * 2 ^ 19 + t.res % 64 * 2 ^ 29 + b2n t.tnt * 2 ^ 35 + t.flg.toNat * 2 ^ 36 + b2n t.sc * 2 ^ 41 +
  t.fmt % 16 * 2 ^ 42 + t.wid % 64 * 2 ^ 46 + t.port % 4 * 2 ^ 52 + t.node % 16 * 2 ^ 54 + t.wave % 256 * 2 ^ 58 +
  t.col % 4096 * 2 ^ 66 + t.ctx % 4 * 2 ^ 78

/-- The message of a token send (R54). -/
def tokenMessage (t : Token) (r : Region) (g h n : Nat) (e : Nat) (arrive : Nat) : MeshMessage :=
  { ddie := bits e 62 61, dx := bits e 60 54, dy := bits e 53 47, dkind := bits e 46 43, cls := 4
    len := 1 + cdiv (4 * t.wid) 32, flits := 1 + cdiv (4 * t.wid) 32
    sdie := dieOf h, sx := colOf h, sy := rowOf h, mctx := r.ctx, snode := n, rid := bits e 42 33
    body := ({ t with node := bits e 32 29, port := bits e 28 27, rid := bits e 42 33 } : Token).header
    expect := bits e 42 33, arrive := arrive, source := some g
    token := some { t with node := bits e 32 29, port := bits e 28 27, rid := bits e 42 33
                           sender := some (g, t.col, (Tab.get {} r.cols t.col).ser) } }

/-- Send a token through one destination (R49, R52, R218), presented at the output port in cycle `present`. A marker
that takes the mesh is absorbed there (R307). -/
def State.sendOne (s : State) (g h k n : Nat) (d : Dest) (rank present : Nat) (t : Token) : State :=
  if d.v = 0 then s
  else
    let s := s.modNode h k n (fun x => { x with sentAt := max x.sentAt present })
    match d.oport.toNat with
    | 15 => if t.mark == .data then s.stageToken g t.col t.flg t.tnt else s
    | 13 =>
      if t.mark != .data then s
      else
        let e := (Tab.get 0 (s.region g).cfg.mesh d.node.toNat : BitVec 64).toNat
        let (wait, s) := s.freeDelay
        let (i, s) := s.fresh
        { s with messages := Tab.set s.messages i (tokenMessage t (s.region g) g h n e (present + wait)) }
    | p =>
      match s.endsOf g h k n d with
      | [] => s
      | e :: more =>
        if e.way == .circuit then
          let smask := bits (Tab.get 0 (s.slot h k).cfg.circuits p : BitVec 128).toNat 115 100
          let fs := (e :: more).mapIdx (fun i x => (s.nextId + i, flightTo t g x (present + 2 * x.hops)))
          ({ s with nextId := s.nextId + (more.length + 1) }).useSlot h k p smask present rank fs
        else
          { s with nextId := s.nextId + 1
                   flights := Tab.set s.flights s.nextId (flightTo t g e (present + 2 * e.hops)) }

/-- Send one token to every valid destination (R50). With none valid it is consumed as at port 15. -/
def State.sendAll (s : State) (g h k n : Nat) (r : Rec) (deferred : Bool) (present : Nat) (t : Token) : State :=
  if r.d0.v = 0 && r.d1.v = 0 then
    if t.mark == .data then s.stageToken g t.col t.flg t.tnt else s
  else (s.sendOne g h k n r.d0 (if deferred then 0 else 1) present t).sendOne g h k n r.d1 (if deferred then 0 else 2) present t

end Sys2Proof.Machine
end

