-- ==== Sys2Proof/Machine/Ops.lean ====
section
/-! DEFINITION. The purge (R76), its notices (R342) and the request of a reissue (R77); and the one operation by which
a run-time fault is taken: the activation leaves no effect, its kernel moves to Faulting, and the fault record and
FAULT_PTR are written (R60, R254, R259). -/

namespace Sys2Proof.Machine

/-! ### What a purge removes (R76) -/

/-- A held token that a purge of colours leaves. An unreleased CRET token belongs to the colour that its firing ran under, not to
the parent number that it will carry (R76). -/
def Hold.stays (x : Hold) (cs : List Nat) : Bool :=
  if x.kind == .cret && !x.ready then !cs.contains x.col else !cs.contains x.tok.col

/-- Remove the tokens of colours from a node. The emissions still owed by a removed trigger go with it (R108). -/
def NodeState.without (x : NodeState) (cs : List Nat) (now : Nat) : NodeState :=
  let keep := fun (t : Token) => !cs.contains t.col
  let trigger := match x.starts with
    | t :: _ => some t.col
    | [] => x.qa.head?.map (fun t => t.col)
  let y : NodeState :=
    { x with
      qa := x.qa.filter keep, qb := x.qb.filter keep, qc := x.qc.filter keep, qp := x.qp.filter keep
      jdq := x.jdq.filter (fun e => keep e.2)
      starts := x.starts.filter keep
      holds := x.holds.filter (fun e => e.stays cs)
      emitted := match trigger with
        | some c => if cs.contains c then 0 else x.emitted
        | none => x.emitted
      owed := x.owed.filter keep
      elems := x.elems.filter (fun e => !cs.contains e.1)
      passes := x.passes.filter (fun e => !cs.contains e.1)
      withheld := match x.withheld with
        | some w => if cs.contains w.col then none else some w
        | none => none }
  (((y.refill 0 now 4).refill 1 now 4).refill 2 now 4).refill 3 now 4

/-- Remove them from a frame slot; a slot left with neither token nor count goes. -/
def dropFrames (fs : List FrameSlot) (cs : List Nat) : List FrameSlot := fs.filter (fun f => !cs.contains f.col)

/-- Remove them from the configuration state of a slot. -/
def SlotConfig.without (x : SlotConfig) (cs : List Nat) (now : Nat) : SlotConfig :=
  { x with nodes := x.nodes.map (fun e => (e.1, e.2.without cs now))
           buffer := x.buffer.filter (fun q => !cs.contains q.col)
           chains := x.chains.filter (fun q => !cs.contains q.col)
           output := x.output.filter (fun t => !cs.contains t.tag.1) }

/-- Remove them from a plane. -/
def Plane.without (x : Plane) (cs : List Nat) (now : Nat) : Plane :=
  { x with cfg := x.cfg.without cs now
           stages := x.stages.filter (fun f => !cs.contains f.2.tok.col)
           arrivals := x.arrivals.filter (fun t => !cs.contains t.col) }

/-- Remove them from a slot. A contraction or transposition of a purged colour ends. -/
def SlotState.without (x : SlotState) (cs : List Nat) (now : Nat) : SlotState :=
  { x with cfg := x.cfg.without cs now
           planes := x.planes.map (fun p => p.without cs now)
           frames := dropFrames x.frames cs
           waves := x.waves.filter (fun w => !cs.contains w.col)
           transpose := match x.transpose with
             | some t => if cs.contains t.tag.1 then none else some t
             | none => none
           contraction := match x.contraction with
             | some t => if cs.contains t.col then none else some t
             | none => none }

/-- Discard the damper entries of purged colours (Table 19-2); entries past their commit point stay. Clear ACOL where it holds one of
the colours (R150). -/
def Hearth.without (x : Hearth) (g m k : Nat) (cs : List Nat) : Hearth :=
  { x with
    damper := x.damper.filter (fun e => !(e.region == g && cs.contains e.col && e.order == 0))
    accs := x.accs.map (fun e =>
      if e.1 = m then
        match e.2.acol with
        | some (k', c) => if k' = k && cs.contains c then (e.1, { e.2 with acol := none }) else e
        | none => e
      else e) }

/-- A purged colour-table entry. -/
def Colour.purged (c : Colour) (sent : Nat) : Colour :=
  { c.clearStaged with st := .purging, reads := [], producers := [], blocks := [], oldest := [], settled := false, preparing := false, taint := false, purgedAt := sent }

/-- Barriers of an ID among the tokens of colours at a node. -/
def NodeState.hasBarrier (x : NodeState) (cs : List Nat) (id : Nat) : Bool :=
  (x.qa ++ x.qb ++ x.qc ++ x.qp ++ x.owed).any (fun t => t.mark == .barrier && cs.contains t.col &&
    (t.lanes.headD 0).toNat % 65536 == id)

/-- A flight carries a barrier of an ID whose colour is one of `cs`. -/
def Flight.barrierOf (f : Flight) (cs : List Nat) (id : Nat) : Bool :=
  f.tok.mark == .barrier && cs.contains f.tok.col && (f.tok.lanes.headD 0).toNat % 65536 == id

/-- A slot, or a plane of it, holds such a barrier. -/
def SlotState.hasBarrier (x : SlotState) (cs : List Nat) (id : Nat) : Bool :=
  x.cfg.nodes.any (fun n => n.2.hasBarrier cs id) ||
  x.planes.any (fun p => p.cfg.nodes.any (fun n => n.2.hasBarrier cs id) || p.stages.any (fun f => f.2.barrierOf cs id))

/-- A purge of `cs` removes a barrier of the running drain (R308). -/
def State.losesBarrier (s : State) (g id : Nat) (cs : List Nat) : Bool :=
  let r := s.region g
  s.slots.any (fun e => e.2.region == some g && e.2.hasBarrier cs id) || r.image.any (fun e => e.2.hasBarrier cs id) ||
  r.imageFlights.any (fun f => f.2.barrierOf cs id) || s.flights.any (fun f => f.2.region == g && f.2.barrierOf cs id)

/-- What a purge does to the drain of the region (R308). -/
def State.drainAfter (s : State) (g : Nat) (cs : List Nat) : Option Drain :=
  match (s.region g).drain with
  | none => none
  | some d =>
    if cs.contains d.tok.col then none
    else if s.losesBarrier g d.id cs then some { d with lost := true } else some d

/-- What a purge does to the calls of a region (R230): a pending call is given up, and a covered caller's call is
dead unless its call colour is purged in its own right with reissue. -/
def Region.callsAfter (r : Region) (cs kept : List Nat) (first : Nat) : List Call :=
  let hit := fun (c : Call) => cs.contains c.col
  (if r.calls.length > r.depth && r.st != .covering then
    match r.calls with
    | c :: t => if hit c && !kept.contains c.col then t else c :: t
    | [] => []
   else r.calls).map (fun c => if hit c && !kept.contains c.col then { c with dead := true }
    else if hit c then { c with result := none, col := 4096, again := some (first + (kept.takeWhile (fun x => x != c.col)).length) } else c)

/-- The state of a region whose pending call or tail swap has been given up. -/
def Region.settle (r : Region) (calls : List Call) (tailg : Option TailSwap) : RegionState :=
  if r.st == .callPending && calls.length ≤ r.depth then .running
  else if r.st == .loadingInPlace && tailg.isNone then .running
  else r.st

/-- Send the notices of a purge to every region of the kernel (R342). -/
def State.notify (s : State) (g : Nat) (cs : List Nat) (corrects : Bool) : State :=
  let e := (s.region g).kernel
  let (d, s) := s.freeDelay
  let ns := cs.map (fun c => { source := g, col := c, arrive := s.cycle + min d 32, corrects := corrects : PurgeNotice })
  { s with regions := s.regions.map (fun x =>
      if x.1 = g || (e.isSome && x.2.kernel == e) then (x.1, { x.2 with notices := x.2.notices ++ ns }) else x) }

/-! ### The purge -/

/-- The roots of a purge that may be reissued: those that are no descendant of another root (R76). -/
def Region.topRoots (r : Region) (roots : List Nat) : List Nat :=
  roots.filter (fun c => !roots.any (fun p => p != c && (r.family p).contains c))

/-- Colours that a purge can take: Live or Ended, without a commit point. -/
def Region.purgeable (r : Region) (cs : List Nat) : List Nat :=
  cs.filter (fun c => (Tab.get {} r.cols c).active && !(Tab.get {} r.cols c).committed)

/-- Purge colours of a region with their descendants, and ask for the reissue of the topmost where `reissue` holds
(R76, R77). DEDUCED (log 132): their tokens in an image go too. -/
def State.purge (s : State) (g : Nat) (roots : List Nat) (reissue corrects : Bool) : State :=
  let r := s.region g
  let roots := r.purgeable roots
  let cs := r.purgeable ((roots.flatMap r.family).foldl insertRising [])
  if cs.isEmpty then s
  else
    let kept := if reissue then r.topRoots roots else []
    let drain := s.drainAfter g cs
    let left := r.reissues.filter (fun x => x.entry.group.isSome || !cs.any (fun c => c == x.entry.pcol && (Tab.get {} r.cols c).ser == x.entry.pser))
    let calls := (r.callsAfter cs kept s.nextId).map (fun c => match c.again with
      | some i => if i < s.nextId && !left.any (fun x => x.id == i) then { c with again := none, dead := true } else c
      | none => c)
    let tailg := match r.tailg with
      | some t => if cs.contains t.tok.col then none else some t
      | none => none
    let again := kept.mapIdx (fun i c => { id := s.nextId + i, entry := Tab.get {} r.cols c : Reissue })
    let r' : Region :=
      { r with
        cols := r.cols.map (fun e => if cs.contains e.1 then (e.1, e.2.purged s.nextId) else e)
        reissues := left ++ again
        drain := drain, calls := calls, tailg := tailg
        gone := cs.map (fun c => (c, (Tab.get {} r.cols c).ser)) ++ r.gone
        slow := r.slow.filter (fun x => !cs.contains x.1)
        st := r.settle calls tailg
        snapshot := r.snapshot.map (fun x => if cs.contains x.tok.col then { x with dropped := true } else x)
        image := r.image.map (fun e => (e.1, e.2.without cs s.cycle))
        imageFlights := r.imageFlights.filter (fun f => !cs.contains f.2.tok.col) }
    let s : State :=
      { s with
        nextId := s.nextId + kept.length
        regions := Tab.set s.regions g r'
        slots := s.slots.map (fun e => if e.2.region == some g then (e.1, e.2.without cs s.cycle) else e)
        hearths := s.hearths.map (fun e => if r.holds e.1 then (e.1, e.2.without g r.ctx r.slot cs) else e)
        flights := s.flights.filter (fun f => !(f.2.region == g && cs.contains f.2.tok.col))
        loads := s.loads.map (fun l => if l.tok.col ∈ cs && (s.slot l.h l.k).region == some g then { l with dropped := true } else l) }
    s.notify g cs corrects

/-- The kernel's verdict rises to corrected (R348). -/
def Kernel.corrected (k : Kernel) : Kernel := { k with verdict := max k.verdict 1 }

/-- Change the kernel that holds a region, if one does. -/
def State.modHolder (s : State) (g : Nat) (f : Kernel → Kernel) : State :=
  match (s.region g).kernel with
  | none => s
  | some e => s.modKernel e f

/-- Purge and reissue for a strike, a residue or route error, or an uncorrectable error (R341, R346, R348). -/
def State.purgeCorrected (s : State) (g : Nat) (roots : List Nat) : State :=
  if ((s.region g).purgeable roots).isEmpty then s
  else (s.purge g roots true true).modHolder g Kernel.corrected

/-- Roll a region back whole (R343). -/
def State.rollback (s : State) (g : Nat) : State :=
  let all := (s.region g).cols.map (fun e => e.1)
  ({ s with strikeRoll := min 0xFFFF (s.strikeRoll + 1) }.purge g all true true).modHolder g Kernel.corrected

/-! ### Taking a fault -/

/-- The regions that a kernel holds. -/
def State.regionsOf (s : State) (e : Nat) : List Nat :=
  (s.regions.filter (fun x => x.2.kernel == some e)).map (fun x => x.1)

/-- No purged activation of a region is reissued; a call that waits for its colour is given up (R230). -/
def Region.dropReissues (r : Region) : Region :=
  let calls := r.calls.map (fun c => if c.again.isSome then { c with again := none, dead := true } else c)
  if r.st == .callPending && (match calls with
      | c :: _ => c.dead
      | [] => false) then { r with reissues := [], calls := calls.tail, st := .running }
  else { r with reissues := [], calls := calls }

/-- The group of an activation that has not committed. -/
def Colour.openGroup (c : Colour) : Option Nat := if c.held && !c.committed then c.origin else none

/-- Groups of a region some activation of which has not committed. -/
def Region.openGroups (r : Region) : List Nat :=
  r.cols.filterMap (fun x => x.2.openGroup) ++ r.reissues.filterMap (fun x => x.entry.origin)

/-- Activations of groups are purged for good. -/
def State.breakGroups (s : State) (g : Nat) (ps : List Nat) : State :=
  s.modHolder g (fun k => { k with broken := ps.foldl insertRising k.broken })

/-- Purge every uncommitted activation of a region without reissue. -/
def State.dropRegion (s : State) (g : Nat) : State :=
  let s := s.breakGroups g (s.region g).openGroups
  (s.purge g ((s.region g).cols.map (fun x => x.1)) false false).modRegion g Region.dropReissues

/-- Purge an activation for good: it is not reissued, and its group is never Done (R265). -/
def State.purgeForGood (s : State) (g c : Nat) : State :=
  (s.breakGroups g (s.colour g c).openGroup.toList).purge g [c] false false

/-- Purge every uncommitted activation of a kernel without reissue (R254). -/
def State.dropKernel (s : State) (e : Nat) : State := (s.regionsOf e).foldl (fun s g => s.dropRegion g) s

/-- A fault comes from a lower die, or from a lower hearth of the same die (R259). -/
def FaultRecord.before (a b : FaultRecord) : Bool :=
  decide (a.die < b.die) || (a.die == b.die && decide (a.y * 128 + a.x < b.y * 128 + b.x))

/-- A fault reaches the Stoker (R254, R259): the first is recorded, the others are counted, and the kernel moves to
Faulting. Its activations are purged when the cycle ends, so that other faults of the cycle are counted too. -/
def State.kernelFault (s : State) (e : Nat) (f : FaultRecord) : State :=
  let k := s.kernel e
  let point := fun (s : State) => s.modContext k.ctx (fun c => { c with faultPtr := k.cra + 0x40 })
  match k.st with
  | .ready | .bound | .running | .draining =>
    point ({ s with failing := s.failing ++ [e] }.setKernel e { k with st := .faulting, fault := some f, faultAt := s.cycle, status := 1 })
  | .faulting =>
    match k.fault with
    | none => point (s.setKernel e { k with fault := some f, faultAt := s.cycle })
    | some old =>
      if k.faultAt == s.cycle && f.before old then s.setKernel e { k with fault := some f, laterFaults := satAdd k.laterFaults 1 }
      else s.setKernel e { k with laterFaults := satAdd k.laterFaults 1 }
  | _ => s

/-- The cycle of faults ends: their kernels' activations are purged without reissue. -/
def State.closeFaults (s : State) : State :=
  if s.failing.isEmpty then s else s.failing.foldl State.dropKernel { s with failing := [] }

/-- The fault record of a node (Table 13-6). -/
def nodeRecord (s : State) (g h k n col wave cause detail : Nat) : FaultRecord :=
  { cause := cause, die := dieOf h, x := colOf h, y := rowOf h, ctx := (s.region g).ctx, slot := k, node := n
    col := col, wave := wave, opc := match s.record h k n with
      | some (o, _) => o
      | none => 0
    detail := detail, cycle := s.cycle }

/-- A run-time fault at a node (R60): its activation is purged and not reissued, and its kernel faults. -/
def State.nodeFault (s : State) (g h k n col wave cause detail : Nat) : State :=
  let f := nodeRecord s g h k n col wave cause detail
  let s := s.purgeForGood g col
  match (s.region g).kernel with
  | none => s
  | some e => s.kernelFault e f

/-- The same with an element counter and an address, for ACCESS (R259). -/
def State.accessFault (s : State) (g h k n col wave elem addr detail : Nat) : State :=
  let f := { nodeRecord s g h k n col wave 0x19 detail with elem := elem, addr := addr }
  let s := s.purgeForGood g col
  match (s.region g).kernel with
  | none => s
  | some e => s.kernelFault e f

/-! Causes of Table 13-7. -/

def faultPriv : Nat := 0x01
def faultLutHearth : Nat := 0x02
def faultArity : Nat := 0x03
def faultWidth : Nat := 0x04
def faultSclTag : Nat := 0x05
def faultPcount : Nat := 0x06
def faultColour : Nat := 0x07
def faultJoinOrd : Nat := 0x08
def faultColExh : Nat := 0x09
def faultTrap : Nat := 0x0A
def faultTidRange : Nat := 0x0B
def faultTidBad : Nat := 0x0C
def faultCdxBad : Nat := 0x0D
def faultTlen : Nat := 0x0E
def faultMaskN : Nat := 0x0F
def faultStayBad : Nat := 0x10
def faultAchain : Nat := 0x11
def faultAccRange : Nat := 0x12
def faultTxBlk : Nat := 0x13
def faultWpOrd : Nat := 0x14
def faultScwMix : Nat := 0x15
def faultTslate : Nat := 0x16
def faultCallDepth : Nat := 0x17
def faultCallBad : Nat := 0x18
def faultAccess : Nat := 0x19
def faultUncorr : Nat := 0x1A
def faultQuiesce : Nat := 0x1B
def faultBindBad : Nat := 0x1C

end Sys2Proof.Machine
end

