-- ==== Sys2Proof/Machine/Operands.lean ====
section
/-! DEFINITION. Operand forms: the ports a node has and those a literal replaces (R42, R44), the kind of its join
(R65), the operands of a firing, the lanes that a predicate qualifies (R47), the rounding mode (R24, R25), and the
emitted token's header (R52). -/

namespace Sys2Proof.Machine

/-- The node has an operand port that tokens enter (R42, R44): 0 A, 1 B, 2 C, 3 P. -/
def recHasPort (r : Rec) (p : Nat) : Bool :=
  match p with
  | 0 => r.ary != 0
  | 1 => decide (2 ≤ r.ary.toNat) && r.lit != 1
  | 2 => r.ary == 3 && r.lit != 3
  | _ => r.pm != 0

/-- The ports in order. -/
def recPorts (r : Rec) : List Nat := (List.range 4).filter (recHasPort r)

/-- TRIC, MMA, TRIS and MMAS: nodes that consume streams (R144). -/
def isContraction (opc : Nat) : Bool := 0x150 ≤ opc && opc ≤ 0x153

/-- Nodes that fire on a token at A or at B alone: MERGEU (R81) and AGEN in LINK mode (R169). -/
def firesOnOne (opc : Nat) (r : Rec) : Bool := opc == 0x005 || (opc == 0x1C0 && r.fmt == 4)

/-- A dynamic join (R65). -/
def isDynamic (opc : Nat) (r : Rec) : Bool :=
  r.jdq == 0 && !isContraction opc && !firesOnOne opc r && (decide (2 ≤ (recPorts r).length) || opc == 0x013)

/-- What a firing works on. -/
structure Fire where
  g : Nat
  h : Nat
  k : Nat
  n : Nat
  opc : Nat
  nrec : Rec
  /-- The operands; a replacing literal stands where its port's token would. -/
  a : Option Token
  b : Option Token
  c : Option Token
  p : Option Token
  /-- Ports whose token the firing consumes. -/
  taken : List Nat
  /-- The frame-slot row of a dynamic join. -/
  row : Option Nat
  /-- Fires on a start token (R42). -/
  source : Bool
  col : Nat
  wave : Nat
  deriving DecidableEq, Repr

/-- A replacing literal as an operand (R44). -/
def literalToken (r : Rec) (wid : Nat) : Token :=
  { wid := wid, fmt := r.fmt.toNat, lanes := List.replicate wid r.lit32
    res := residue (List.replicate wid r.lit32) }

/-- A port's operand: the token found there, or the literal that replaces it. -/
def operand (r : Rec) (toks : List (Nat × Token)) (wid p : Nat) : Option Token :=
  match Tab.find toks p with
  | some t => some t
  | none =>
    if p = 1 && r.lit == 1 && decide (2 ≤ r.ary.toNat) then some (literalToken r wid)
    else if p = 2 && r.lit == 3 && r.ary == 3 then some (literalToken r wid)
    else none

/-- A firing from the tokens it takes. -/
def fireOf (g h k n opc : Nat) (r : Rec) (toks : List (Nat × Token)) (row : Option Nat) (source : Bool) (tag : Token) :
    Fire :=
  let wid := match toks with
    | (_, t) :: _ => t.wid
    | [] => 1
  { g := g, h := h, k := k, n := n, opc := opc, nrec := r
    a := operand r toks wid 0, b := operand r toks wid 1, c := operand r toks wid 2, p := operand r toks wid 3
    taken := toks.map (fun t => t.1), row := row, source := source, col := tag.col, wave := tag.wave }

def Fire.ta (f : Fire) : Token := f.a.getD {}
def Fire.tb (f : Fire) : Token := f.b.getD {}
def Fire.tc (f : Fire) : Token := f.c.getD {}
def Fire.tp (f : Fire) : Token := f.p.getD {}

/-- The data operands, literals among them. -/
def Fire.data (f : Fire) : List Token := [f.a, f.b, f.c].filterMap id

/-- Every operand token, the predicate's included. -/
def Fire.operands (f : Fire) : List Token := [f.a, f.b, f.c, f.p].filterMap id

/-- Data operands that came as tokens: the SC of a literal is not checked (R46). -/
def Fire.tokens (f : Fire) : List (Nat × Token) :=
  f.taken.filterMap (fun p => (match p with
    | 0 => f.a
    | 1 => f.b
    | 2 => f.c
    | _ => f.p).map (fun t => (p, t)))

/-- Lane width of the firing. -/
def Fire.wid (f : Fire) : Nat := match f.a with
  | some t => t.wid
  | none => 1

/-- The lanes that the predicate qualifies (R47). -/
def Fire.qual (f : Fire) : List Bool :=
  if f.nrec.pm = 1 then f.tp.lanes.map (fun w => w.toNat % 2 == 1)
  else if f.nrec.pm = 2 then f.tp.lanes.map (fun w => w.toNat % 2 == 0)
  else List.replicate f.wid true

/-- PM = 01 or 10 and no lane qualifies. -/
def Fire.idle (f : Fire) : Bool := (f.nrec.pm == 1 || f.nrec.pm == 2) && !f.qual.contains true

/-- Results in qualifying lanes, port A's lanes elsewhere (R47). -/
def Fire.blend (f : Fire) (out : List Word) : List Word :=
  if f.nrec.pm = 1 || f.nrec.pm = 2 then
    List.zipWith (fun q (x : Word × Word) => if q then x.1 else x.2) f.qual (out.zip f.ta.lanes)
  else out

/-- SC of an emitted token (R46). DEDUCED (log 114): predicate tokens are not checked and do not join the OR. -/
def Fire.scOut (f : Fire) : Bool :=
  if f.nrec.scl = 3 || f.opc = 0x0E8 then true else if f.opc = 0x0E9 then false else scaledOf f.data

/-- An emitted token with a new payload (R52): FLG by R35, RES generated from the payload (R34).
DEDUCED (log 115): every node with a predicate port is predicate-steered, so its predicate's FLG joins. -/
def Fire.token (f : Fire) (fmt : Nat) (out : List Word) (raised : BitVec 5) (scw : Nat) : Token :=
  { ctx := f.k, col := f.col, wave := f.wave, wid := out.length, fmt := fmt, sc := f.scOut
    flg := raised ||| flagsOf f.operands, tnt := taintOf f.operands, res := tokenResidue fmt out
    scw := scw, lanes := out }

/-- An integer modulo 63. -/
def mod63 (x : Int) : Nat := (x % 63).toNat

/-- The residue of each lane of an operand. A token of one lane carries it; a wider one carries the sum only, and the unit forms
the lanes' own. -/
def Token.laneResidues (t : Token) : List Nat :=
  if t.lanes.length = 1 then [t.res] else t.lanes.map (fun w => w.toNat % 63)

/-- The part of an operand's residue that comes from lanes that do not qualify (R103). -/
def Fire.unqualified (f : Fire) (t : Token) : Int :=
  (List.zipWith (fun (q : Bool) (x : Nat) => if q then (0 : Int) else (x : Int)) f.qual t.laneResidues).foldl (fun a x => a + x) 0

/-- The part that comes from qualifying lanes. -/
def Fire.qualified (f : Fire) (t : Token) : Int := (t.res : Int) - f.unqualified t

/-- A sum over the qualifying lanes. -/
def Fire.sumQualified (f : Fire) (xs : List Int) : Int :=
  (List.zipWith (fun (q : Bool) (x : Int) => if q then x else 0) f.qual xs).foldl (fun a x => a + x) 0

/-- Port A's token sent on with its payload unchanged: WID, FMT, SCW, MK and RES stay (R79). -/
def Fire.passed (f : Fire) : Token :=
  { f.ta with ctx := f.k, sc := f.scOut, flg := flagsOf f.operands, tnt := taintOf f.operands, sender := none
              recorded := false }

/-- The active rounding mode (R24, R25). -/
def Fire.mode (f : Fire) (s : State) : Nat :=
  if f.nrec.rnd = 5 then (s.context (s.region f.g).ctx).rndDef else f.nrec.rnd.toNat

/-- A variable latency of a firing, of more than `least` cycles (log 4): results of one node leave in the order of its firings
(R68; DEDUCED, log 138). -/
def State.resultDelay (s : State) (f : Fire) (least : Nat) : Nat × State :=
  let (d, s) := s.freeDelay
  (max (d + least) ((s.node f.h f.k f.n).sentAt + 1 - s.cycle), s)

/-- A result of RDSR, SEQRD, SEQWAIT, TDQ or WPWAIT is in flight for `d` cycles (R314). -/
def State.inFlight (s : State) (f : Fire) (d : Nat) : State :=
  s.modRegion f.g (fun r => { r with slow := (f.col, s.cycle + d) :: r.slow.filter (fun c => decide (s.cycle < c.2)) })

/-- The firing's SAT bit. -/
def Fire.sat (f : Fire) : Bool := f.nrec.sat == 1

/-- Draws for `n` elements when the mode is stochastic (R27), and the LFSR after them. -/
def draws (stochastic : Bool) : Nat → BitVec 32 → List Nat × BitVec 32
  | 0, l => ([], l)
  | n + 1, l =>
    if stochastic then
      let d := lfsrDraw l
      let r := draws stochastic n d.2
      (d.1 :: r.1, r.2)
    else
      let r := draws stochastic n l
      (0 :: r.1, r.2)

/-- Take draws from the LFSR of the firing's slot. -/
def Fire.draws (f : Fire) (s : State) (n : Nat) : List Nat × State :=
  let stochastic := f.mode s == 4
  let r := Machine.draws stochastic n (s.slot f.h f.k).lfsr
  (r.1, if stochastic then s.modSlot f.h f.k (fun x => { x with lfsr := r.2 }) else s)

end Sys2Proof.Machine
end

