-- ==== Sys2Proof/Machine/Fire.lean ====
section
/-! DEFINITION. The firing of a node: its operands from queues, frame slots or start tokens (R42, R68, R69), whether it
is ready (R70), the checks made at firing (R60), the consumption, and the emission. Every node instruction's meaning is
`fireNode` with what the instruction computes. -/

namespace Sys2Proof.Machine

/-! ### Operands -/

/-- The head of a port, if it is a data token. -/
def dataHead (x : NodeState) (p : Nat) : Option Token :=
  match x.queue p with
  | t :: _ => if t.mark == .data then some t else none
  | [] => none

/-- The heads of several ports, all present. -/
def dataHeads (x : NodeState) : List Nat → Option (List (Nat × Token))
  | [] => some []
  | p :: t =>
    match dataHead x p, dataHeads x t with
    | some a, some r => some ((p, a) :: r)
    | _, _ => none

/-- Two tokens carry one tag. -/
def sameTag (a b : Token) : Bool := a.col == b.col && a.wave == b.wave

/-- Every token carries the tag of the first. -/
def agree : List (Nat × Token) → Bool
  | [] => true
  | (_, a) :: t => t.all (fun e => sameTag a e.2)

/-- The tokens of a frame slot, port by port. -/
def FrameSlot.tokens (f : FrameSlot) : List (Nat × Token) :=
  (match f.a with | some t => [(0, t)] | none => []) ++ (match f.b with | some t => [(1, t)] | none => []) ++
  (match f.c with | some t => [(2, t)] | none => []) ++ (match f.p with | some t => [(3, t)] | none => [])

/-- A port's token in a frame slot. -/
def FrameSlot.port (f : FrameSlot) (p : Nat) : Option Token := Tab.find f.tokens p

/-- Put or clear a port's token. -/
def FrameSlot.setPort (f : FrameSlot) (p : Nat) (t : Option Token) : FrameSlot :=
  match p with
  | 0 => { f with a := t }
  | 1 => { f with b := t }
  | 2 => { f with c := t }
  | _ => { f with p := t }

/-- The arm that MERGE's predicate names (R82). -/
def armOf (p : Token) : Nat := if (p.lanes.headD 0).toNat % 2 = 1 then 0 else 1

/-- The tokens that a firing takes from a complete set of ports: all of them, or for MERGE the predicate and the arm it
names. -/
def takeFrom (opc : Nat) (r : Rec) (port : Nat → Option Token) : Option (List (Nat × Token)) :=
  if opc = 0x004 then
    match port 3 with
    | none => none
    | some p => (port (armOf p)).map (fun t => [(armOf p, t), (3, p)])
  else
    let ps := recPorts r
    let ts := ps.filterMap (fun p => (port p).map (fun t => (p, t)))
    if ts.length = ps.length then some ts else none

/-- Rank of a waiting firing: wave age, untimed last, timestamp (R72 stages 3 and 4). -/
def tagRank (r : Region) (t : Token) : Nat :=
  let c := Tab.get {} r.cols t.col
  (c.age t.wave * 2 + (if c.ts = 0 then 1 else 0)) * 2 ^ 48 + c.ts

/-- Of the candidates, the first with the lowest rank. DESIGN CHOICE (log 116): among equals in wave age and TS, the first of the
frame list. -/
def bestOf : List (Nat × Fire) → Option (Nat × Fire)
  | [] => none
  | x :: t =>
    match bestOf t with
    | none => some x
    | some y => if x.1 ≤ y.1 then some x else some y

/-- A node that checks a withheld access again takes the same token (R168). -/
def NodeState.offers (x : NodeState) (col wave : Nat) : Bool :=
  match x.withheld with
  | some w => col == w.col && wave == w.wave
  | none => true

/-- The firing of a dynamic join: the oldest complete frame slot (R68). -/
def State.frameFire (s : State) (g h k n opc : Nat) (r : Rec) : Option Fire :=
  let rg := s.region g
  (bestOf ((s.slot h k).frames.filterMap (fun f =>
    if f.node = n && (s.node h k n).offers f.col f.wave then
      match takeFrom opc r f.port with
      | some ((p, t) :: more) => some (tagRank rg t, fireOf g h k n opc r ((p, t) :: more) (some f.row) false t)
      | _ => none
    else none))).map (fun x => x.2)

/-- The firing of a node that fires on A or on B alone: the older head, A first (R81, R169). -/
def oneFire (x : NodeState) (g h k n opc : Nat) (r : Rec) : Option Fire :=
  match dataHead x 0, dataHead x 1 with
  | some a, some b =>
    if a.came ≤ b.came then some (fireOf g h k n opc r [(0, a)] none false a)
    else some (fireOf g h k n opc r [(1, b)] none false b)
  | some a, none => some (fireOf g h k n opc r [(0, a)] none false a)
  | none, some b => some (fireOf g h k n opc r [(1, b)] none false b)
  | none, none => none

/-- The operands that a node could fire on now. -/
def State.gather (s : State) (g h k n opc : Nat) (r : Rec) : Option Fire :=
  let x := s.node h k n
  if r.ary = 0 then
    match x.starts with
    | t :: _ => some (fireOf g h k n opc r [] none true t)
    | [] => none
  else if firesOnOne opc r then oneFire x g h k n opc r
  else if isDynamic opc r then s.frameFire g h k n opc r
  else
    match takeFrom opc r (dataHead x) with
    | some ((p, t) :: more) =>
      if agree ((p, t) :: more) then some (fireOf g h k n opc r ((p, t) :: more) none false t) else none
    | _ => none

/-! ### Readiness -/

/-- A deferred token of the node waits to leave (R418). -/
def NodeState.blocked (x : NodeState) (now : Nat) : Bool := x.holds.any (fun e => e.ready && decide (e.due ≤ now))

/-- Nodes of the region's slot may fire: the region runs, its context is in place (an eviction has not frozen it yet) and
not halted. -/
def State.firing (s : State) (g : Nat) : Bool :=
  let r := s.region g
  (r.st == .running || r.st == .callPending) && !r.halted &&
  (r.residence == .resident || (r.residence == .evicting && r.image.isEmpty)) && (s.context r.ctx).st != .halted

/-- The node's operands, when nothing but the instruction's own conditions could still hold it (R70). -/
def State.offered (s : State) (h k n opc : Nat) (r : Rec) : Option Fire :=
  match (s.slot h k).region with
  | none => none
  | some g =>
    let x := s.node h k n
    if s.firing g && !x.blocked s.cycle && !x.stopped &&
        (match x.withheld with | none => true | some w => w.resumed) && s.roomAll (s.bothTargets g h k n r) then
      s.gather g h k n opc r
    else none

/-! ### Consumption -/

/-- Remove what a firing takes from a frame slot; an empty slot without a count is free. -/
def takeFrame (fs : List FrameSlot) (n : Nat) (col row : Nat) (ps : List Nat) : List FrameSlot :=
  fs.filterMap (fun f =>
    if f.node = n && f.col = col && f.row = row then
      let f := ps.foldl (fun f p => f.setPort p none) f
      if f.tokens.isEmpty && f.count = 0 then none else some f
    else some f)

/-- Note a firing in hearth h and cycle t of an activation (R341). -/
def Colour.fire (c : Colour) (h t : Nat) : Colour := { c with fired := Tab.set c.fired h t }

/-- A result of the activation is in a pipeline until cycle t (R337). -/
def Colour.inPipe (c : Colour) (t : Nat) : Colour := { c with busy := max c.busy t }

/-- Consume the operands of a firing. -/
def State.consume (s : State) (f : Fire) : State :=
  let s :=
    match f.row with
    | some row => s.modSlot f.h f.k (fun x => { x with frames := takeFrame x.frames f.n f.col row f.taken })
    | none =>
      s.modNode f.h f.k f.n (fun x =>
        if f.source then { x with starts := x.starts.tail }
        else f.taken.foldl (fun x p => x.pop p s.cycle) x)
  s.modColour f.g f.col (fun c => { c with taint := c.taint || taintOf (f.tokens.map (fun e => e.2)) })

/-- The slot has fired in this cycle (R72), and the activation in this hearth (R341). -/
def State.noteFiring (s : State) (f : Fire) : State :=
  (s.modSlot f.h f.k (fun x => { x with firedAt := some s.cycle })).modColour f.g f.col (fun c => c.fire f.h s.cycle)

/-- Heads of a static join that disagree (R69): the port and tag of the first. -/
def State.disagreement (s : State) (h k n opc : Nat) (r : Rec) : Option Token :=
  if r.jdq = 0 || firesOnOne opc r then none
  else match takeFrom opc r (dataHead (s.node h k n)) with
    | some ((p, t) :: more) => if agree ((p, t) :: more) then none else some t
    | _ => none

/-- Take JOINORD where the heads of a static join disagree. -/
def State.checkJoin (s : State) (g h k n opc : Nat) (r : Rec) : State :=
  match s.disagreement h k n opc r with
  | none => s
  | some t => s.nodeFault g h k n t.col t.wave faultJoinOrd 0

/-- The same at every node of a slot: heads may also come to disagree when a purge or a marker's alignment moves tokens up. -/
def State.checkJoins (s : State) (e : Nat × SlotState) : State :=
  match e.2.region with
  | none => s
  | some g => e.2.cfg.store.foldl (fun s n => match s.record (e.1 / 4) (e.1 % 4) n.1 with
    | some (o, r) => s.checkJoin g (e.1 / 4) (e.1 % 4) n.1 o r
    | none => s) s

/-! ### What a firing does -/

/-- What an instruction makes of its operands. -/
inductive Effect where
  /-- One token to every destination after a latency. -/
  | emit (lat : Nat) (t : Token)
  /-- One token to D0 and another to D1. -/
  | pair (lat : Nat) (t0 t1 : Token)
  /-- Nothing is emitted; the operands' flags are staged. -/
  | quiet
  /-- The instruction has seen to its tokens itself. -/
  | done
  /-- A residue error at the node: a check of its unit has failed (R34, R103). -/
  | residue
  /-- A run-time fault with its detail (Table 13-7). -/
  | fault (cause detail : Nat)
  deriving DecidableEq, Repr

/-- The token is wider than its colour was granted (R78). -/
def State.tooWide (s : State) (g : Nat) (f : Fire) (t : Token) : Bool :=
  t.col == f.col && decide ((s.colour g t.col).wid < t.wid)

/-- The activation's result stays in a pipeline for `lat` cycles. -/
def State.pipe (s : State) (f : Fire) (lat : Nat) : State :=
  s.modColour f.g f.col (fun c => c.inPipe (s.cycle + lat))

/-- Send a steered token to one side (R47). -/
def State.steer (s : State) (f : Fire) (lat : Nat) (t : Token) : State :=
  let d := if (f.tp.lanes.headD 0).toNat % 2 = 1 then f.nrec.d0 else f.nrec.d1
  if d.v = 0 then s.stageToken f.g t.col t.flg t.tnt else s.sendOne f.g f.h f.k f.n d 1 (s.cycle + lat) t

/-- Carry out what the instruction makes of its operands. -/
def State.conclude (s : State) (f : Fire) (e : Effect) : State :=
  match e with
  | .emit lat t =>
    if s.tooWide f.g f t then s.nodeFault f.g f.h f.k f.n f.col f.wave faultWidth 0
    else
      let s := s.pipe f lat
      if f.nrec.pm = 3 && f.opc != 0x004 then s.steer f lat t
      else s.sendAll f.g f.h f.k f.n f.nrec false (s.cycle + lat) t
  | .pair lat t0 t1 =>
    let s := s.pipe f lat
    if f.nrec.d0.v = 0 && f.nrec.d1.v = 0 then (s.stageToken f.g t0.col t0.flg t0.tnt).stageToken f.g t1.col t1.flg t1.tnt
    else (s.sendOne f.g f.h f.k f.n f.nrec.d0 1 (s.cycle + lat) t0).sendOne f.g f.h f.k f.n f.nrec.d1 2 (s.cycle + lat) t1
  | .quiet => (s.pipe f 1).stageToken f.g f.col (flagsOf f.operands) false
  | .done => s
  | .residue => s.purgeCorrected f.g [f.col]
  | .fault c d => s.nodeFault f.g f.h f.k f.n f.col f.wave c d

/-- What an instruction asks of its firing beyond the rules that all share. -/
structure FireSpec where
  /-- The instruction's own condition for being ready. -/
  ready : Fire → State → Bool := fun _ _ => true
  /-- A privileged use that the firing may not make (R57). -/
  breach : Fire → State → Bool := fun _ _ => false
  /-- Runs only in a LUT hearth (R9). -/
  lut : Bool := false
  /-- Its operand tokens may differ in WID. -/
  anyWidth : Bool := false
  /-- A width that the instruction does not take (R120, R123). -/
  badWidth : Fire → Bool := fun _ => false
  /-- It has an effect even when no lane qualifies. -/
  always : Bool := false
  /-- It touches the accumulator file, or the stay register (R151). -/
  usesAcc : Bool := false
  usesStay : Fire → State → Bool := fun _ _ => false

/-- The operand tokens differ in width (R60). -/
def Fire.mixedWidth (f : Fire) : Bool :=
  match f.operands with
  | [] => false
  | t :: more => more.any (fun u => u.wid != t.wid)

/-- An operand token breaks SCL = 01 or 10 (R46). -/
def Fire.badScale (f : Fire) : Bool :=
  if f.nrec.scl = 1 then f.tokens.any (fun e => e.1 != 3 && e.2.sc)
  else if f.nrec.scl = 2 then f.tokens.any (fun e => e.1 != 3 && !e.2.sc)
  else false

/-- The first fault of Table 3-16 that a firing meets. -/
def firstFault (p : FireSpec) (f : Fire) (s : State) : Option Nat :=
  if p.breach f s then some faultPriv
  else if p.lut && !lutHearth f.h then some faultLutHearth
  else if (!p.anyWidth && f.mixedWidth) || p.badWidth f then some faultWidth
  else if f.badScale then some faultSclTag
  else none

/-- The firing itself, once its operands are consumed. -/
def State.perform (s : State) (p : FireSpec) (f : Fire) (body : Fire → State → State × Effect) : State :=
  match firstFault p f s with
  | some c => s.nodeFault f.g f.h f.k f.n f.col f.wave c 0
  | none =>
    if f.idle && !p.always then s.conclude f .quiet
    else
      let r := body f s
      r.1.conclude f r.2

/-- The firing that may take place at a node in this cycle but for a spill that its context must wait for. -/
def State.mayFire (s : State) (p : FireSpec) (h k n opc : Nat) (r : Rec) : Option Fire :=
  match s.offered h k n opc r with
  | some f => if p.ready f s then some f else none
  | none => none

/-- A context may touch the accumulators of a hearth: no microtrap moves files, and its file is there, or none is and it has none
elsewhere. DEDUCED (log 124): with nothing to move, the unowned file is claimed at once and no microtrap is counted. -/
def State.hasAcc (s : State) (h m : Nat) : Bool :=
  let t := (s.hearth h).accs
  (s.hearth h).spills.all (fun x => x.2.1) &&
  match (Tab.get {} t m).place with
  | .live => true
  | .none => t.all (fun e => e.2.place != .live)
  | _ => false

/-- The same for the stay register (log 124). -/
def State.hasStay (s : State) (h m : Nat) : Bool :=
  let t := (s.hearth h).stays
  (s.hearth h).spills.all (fun x => !x.2.1) &&
  match (Tab.get {} t m).place with
  | .live => true
  | .none => t.all (fun e => e.2.place != .live)
  | _ => false

/-- The microtraps of R151 that a firing still needs: accumulators (false) or stay register (true). -/
def State.needs (s : State) (p : FireSpec) (f : Fire) : List Bool :=
  let m := (s.region f.g).ctx
  (if p.usesAcc && !s.hasAcc f.h m then [false] else []) ++
  (if p.usesStay f s && !s.hasStay f.h m then [true] else [])

/-- The firing that may take place at a node in this cycle. -/
def State.canFire (s : State) (p : FireSpec) (h k n opc : Nat) (r : Rec) : Option Fire :=
  match s.mayFire p h k n opc r with
  | some f => if (s.needs p f).isEmpty then some f else none
  | none => none

/-- A node instruction at the node of the running step: it fires when it is ready, and otherwise nothing happens. -/
def fireNode (opc : Nat) (r : Rec) (p : FireSpec) (body : Fire → State → State × Effect) (s : State) :
    Host.Outcome State Fault Refusal :=
  match s.cur with
  | .node h k n =>
    match s.canFire p h k n opc r with
    | none => .next s
    | some f =>
      .next ((((s.consume f).noteFiring f).perform p f body).checkJoin f.g h k n opc r)
  | _ => .fault .misplaced

/-- A later emission of a node whose trigger waits at the head of its queue (R108, R169, R318). -/
def State.heldFire (s : State) (p : FireSpec) (h k n opc : Nat) (r : Rec) (body : Fire → State → State × Effect) : State :=
  match s.canFire p h k n opc r with
  | none => s
  | some f => ((s.noteFiring f).perform p f body).checkJoin f.g h k n opc r

/-- The same for an instruction that leaves its operands where they are until it says otherwise. -/
def fireHeld (opc : Nat) (r : Rec) (p : FireSpec) (body : Fire → State → State × Effect) (s : State) :
    Host.Outcome State Fault Refusal :=
  match s.cur with
  | .node h k n =>
    .next (s.heldFire p h k n opc r body)
  | _ => .fault .misplaced

/-! ### Plain computations -/

/-- Emit a new payload computed lane by lane, keeping port A's lanes where the predicate does not qualify. -/
def Fire.result (f : Fire) (lat fmt : Nat) (out : List Word) (raised : BitVec 5) : Effect :=
  .emit lat (f.token fmt (f.blend out) raised 0)

/-- The same with a predicted residue (R34, R103), unless R98 clamped an element. -/
def Fire.predicted (f : Fire) (lat fmt : Nat) (out : List Word) (clamped : Bool) (res : Int) : Effect :=
  .emit lat (if clamped then f.token fmt (f.blend out) 0 0 else { f.token fmt (f.blend out) 0 0 with res := mod63 res })

end Sys2Proof.Machine
end

