-- ==== Sys2Proof/Machine/Trine.lean ====
section
/-! DEFINITION. The trine unit: contraction descriptors (R140, R141), the walk (R142, R143), the sum of a group (R30),
the accumulators it changes (R149), and the fault of a contraction cut short (R146). -/

namespace Sys2Proof.Machine

/-! ### Descriptors (Table 8-1) -/

def cdxV (d : Nat) : Bool := bit d 511
def cdxSpn (d : Nat) : Nat := bits d 510 509
def cdxAcc (d : Nat) : Bool := bit d 508
def cdxStay (d : Nat) : Bool := bit d 507
def cdxFl (d : Nat) : Bool := bit d 506

/-- Extent of index p, q, s or t (codes 0 to 3). -/
def cdxExt (d c : Nat) : Nat := bits d (447 - 16 * c) (432 - 16 * c)

/-- Entry e of the map whose entry 0 begins at bit `lo`. -/
def mapEntry (d lo e : Nat) : Nat := bits d (lo + 2 * e + 1) (lo + 2 * e)

/-- Entries below the rank, entry 0 first. -/
def mapOf (d rank lo : Nat) : List Nat := (List.range rank).map (mapEntry d lo)

def omap (d : Nat) : List Nat := mapOf d (bits d 505 504) 498
def amap (d : Nat) : List Nat := mapOf d (bits d 497 496) 490
def bmap (d : Nat) : List Nat := mapOf d (bits d 489 488) 482
def smap (d : Nat) : List Nat := mapOf d (bits d 481 480) 474

/-- Entries of a map at or above its rank are 00. -/
def highClear (d rank lo : Nat) : Bool := (List.range 3).all (fun e => e < rank || mapEntry d lo e == 0)

/-- No index twice. -/
def distinct : List Nat → Bool
  | [] => true
  | c :: t => !t.contains c && distinct t

/-- Extent of entry e of a map; one at or above the rank has extent 1. -/
def entryExt (d : Nat) (m : List Nat) (e : Nat) : Nat := match m[e]? with
  | some c => cdxExt d c
  | none => 1

/-- Rows and columns of the flattened output (R142). -/
def outRows (d : Nat) : Nat :=
  if cdxFl d then entryExt d (omap d) 2 else entryExt d (omap d) 2 * entryExt d (omap d) 1
def outCols (d : Nat) : Nat :=
  if cdxFl d then entryExt d (omap d) 1 * entryExt d (omap d) 0 else entryExt d (omap d) 0

/-- The contracted indices in code order. -/
def contracted (d : Nat) : List Nat :=
  (List.range 4).filter (fun c => cdxExt d c != 0 && !(omap d).contains c)

/-- The number of positions Ec. -/
def cdxEc (d : Nat) : Nat := (contracted d).foldl (fun a c => a * cdxExt d c) 1

/-- A descriptor is consistent (R141). -/
def cdxOk (d : Nat) : Bool :=
  cdxV d && bits d 473 448 == 0 && bits d 335 0 == 0 &&
  highClear d (bits d 505 504) 498 && highClear d (bits d 497 496) 490 &&
  highClear d (bits d 489 488) 482 && highClear d (bits d 481 480) 474 &&
  [omap d, amap d, bmap d, smap d].all (fun m => distinct m && m.all (fun c => cdxExt d c != 0)) &&
  (List.range 4).all (fun c => cdxExt d c == 0 || (amap d).contains c || (bmap d).contains c || (smap d).contains c) &&
  decide (outRows d ≤ 512) && decide (outCols d ≤ 768) && decide (cdxEc d ≤ 2 ^ 32 - 1)

/-! ### The walk (R142) -/

/-- What a contraction works through: its descriptor, format, tile and slice. -/
structure Walk where
  d : Nat
  fmt : Nat
  sparse : Bool
  /-- Slot S is in the stay register; slot S streams on port C. -/
  held : Bool
  streamC : Bool
  row0 : Nat
  col0 : Nat
  rows : Nat
  cols : Nat
  /-- First position of the slice and the position after its last. -/
  first : Nat
  stop : Nat
  deriving DecidableEq, Repr

/-- Groups of 32 positions, or units of 64 for the sparse forms. -/
def sliceUnits (d : Nat) (sparse : Bool) : Nat := cdiv (cdxEc d) (if sparse then 64 else 32)

/-- The walk of a contraction node with descriptor `d`. -/
def walkOf (opc : Nat) (r : Rec) (d : Nat) : Walk :=
  let p := r.lit32.toNat
  let sparse := opc == 0x152 || opc == 0x153
  let g := sliceUnits d sparse
  let u := if sparse then 64 else 32
  let n := bits p 20 17 + 1
  let i := bits p 16 13
  let row0 := 32 * bits p 7 4
  let col0 := 32 * bits p 12 8
  { d := d, fmt := r.fmt.toNat, sparse := sparse
    held := (opc == 0x150 || opc == 0x152) && !cdxStay d
    streamC := opc == 0x150 && cdxStay d
    row0 := row0, col0 := col0, rows := min (outRows d - row0) 32, cols := min (outCols d - col0) 32
    first := min (u * (g * i / n)) (cdxEc d), stop := min (u * (g * (i + 1) / n)) (cdxEc d) }

/-- Outputs of the tile. -/
def Walk.outputs (w : Walk) : Nat := w.rows * w.cols

/-- Positions of the slice. -/
def Walk.positions (w : Walk) : Nat := w.stop - w.first

/-- Masks of the slice for one output. -/
def Walk.units (w : Walk) : Nat := cdiv w.positions 64

/-- The accumulator of the n-th output. -/
def Walk.accOf (w : Walk) (n : Nat) : Nat := n / w.cols * 32 + n % w.cols

/-- Index values of the n-th output: o0, o1, o2. -/
def Walk.outVals (w : Walk) (n : Nat) : List Nat :=
  let row := w.row0 + n / w.cols
  let col := w.col0 + n % w.cols
  if cdxFl w.d then
    let e := entryExt w.d (omap w.d) 0
    [col % e, col / e, row]
  else
    let e := entryExt w.d (omap w.d) 1
    [col, row % e, row / e]

/-- Values of the contracted indices at a position, the last index fastest. -/
def posVals (d : Nat) : List Nat → Nat → Tab Nat
  | [], _ => []
  | c :: t, pos => (c, pos % cdxExt d c) :: posVals d t (pos / cdxExt d c)

/-- Value of an index at an output and a position. -/
def Walk.valueOf (w : Walk) (n pos c : Nat) : Nat :=
  match (omap w.d).idxOf? c with
  | some e => (w.outVals n).getD e 0
  | none => Tab.get 0 (posVals w.d (contracted w.d).reverse pos) c

/-- Element offset in the stay register (R143). -/
def Walk.stayOffset (w : Walk) (n pos : Nat) : Nat :=
  let m := smap w.d
  let v := fun e => match m[e]? with
    | some c => w.valueOf n pos c
    | none => 0
  (v 2 * entryExt w.d m 1 + v 1) * entryExt w.d m 0 + v 0

/-- Elements that slot S holds (R143). -/
def stayNeed (d : Nat) : Nat := (smap d).foldl (fun a c => a * cdxExt d c) 1

/-- Elements of each streamed port at a normal end: known at once for a dense walk, the kept elements for a sparse
one. -/
def Contraction.wanted (c : Contraction) (w : Walk) : Nat := if w.sparse then c.kept else w.outputs * w.positions

/-- The lanes those elements take. -/
def Contraction.lanes (c : Contraction) (w : Walk) : Nat := cdiv (c.wanted w) (elemsPerLane w.fmt)

/-- The lanes of masks. -/
def Walk.maskLanes (w : Walk) : Nat := 2 * (w.outputs * w.units)

/-- The walk of a contraction in progress. -/
def Contraction.walk (c : Contraction) : Walk := walkOf c.opc c.nrec c.cdx.toNat

/-! ### Triad-length faults (R146, R147) -/

/-- The detail word of R147: 0 A, 1 B, 2 C, 3 S. -/
def tlenDetail (port got exp : Nat) : Nat := port * 2 ^ 126 + got % 2 ^ 48 * 2 ^ 48 + exp % 2 ^ 48

/-- The streamed port with the fewest lanes, its lanes, and the lanes it should have. -/
def Contraction.least (c : Contraction) : Nat × Nat × Nat :=
  let w := c.walk
  let ps := [(0, c.la, c.lanes w), (1, c.lb, c.lanes w)] ++
    (if w.streamC then [(2, c.lc, c.lanes w)] else if w.sparse then [(2, c.lc, w.maskLanes)] else [])
  ps.foldl (fun b x => if x.2.1 < b.2.1 then x else b) (0, c.la, c.lanes w)

/-- The contraction of a colour that is still short of its end, in the region's hearths. -/
def State.unfinished (s : State) (g col : Nat) : Option (Nat × Nat × Contraction) :=
  s.slots.findSome? (fun e =>
    if e.2.region == some g then
      match e.2.contraction with
      | some c => if c.col = col && !c.done then some (e.1 / 4, e.1 % 4, c) else none
      | none => none
    else none)

/-- Its TLEN fault when the colour ends first (Table 8-4). -/
def State.cutShort (s : State) (g : Nat) (x : Nat × Nat × Contraction) : State :=
  let l := x.2.2.least
  s.nodeFault g x.1 x.2.1 x.2.2.node x.2.2.col x.2.2.wave faultTlen (tlenDetail l.1 l.2.1 l.2.2)

/-! ### The sum of a group (R30) -/

/-- A product of a group: its value, the flags raised for it, and the product of its significands' residues (R34). -/
structure Product where
  v : Val
  flg : BitVec 5
  res : Nat
  deriving DecidableEq, Repr

/-- A value is zero. -/
def Val.isZero : Val → Bool
  | .fin _ m _ => m == 0
  | _ => false

/-- A value is an infinity. -/
def Val.isInf : Val → Bool
  | .inf _ => true
  | _ => false

/-- Product of three operands, with NV where a signalling NaN or 0 × ∞ in any order is met, beside a NaN too. -/
def tripleProduct (a b c : Val) : Product :=
  let vs := [a, b, c]
  let f := nanFlags vs ||| (if vs.any Val.isZero && vs.any Val.isInf then flagNV else 0)
  if vs.any Val.isNan then { v := .nan false, flg := f, res := 0 }
  else
    match a, b, c with
    | .fin na ma ea, .fin nb mb eb, .fin nc mc ec =>
      { v := .fin ((na != nb) != nc) (ma * mb * mc) (ea + eb + ec), flg := f, res := (ma % 63) * (mb % 63) * (mc % 63) }
    | _, _, _ => { v := if vs.any Val.isZero then .nan false else .inf ((a.neg != b.neg) != c.neg), flg := f, res := 0 }

/-- The lowest exponent of a group's finite non-zero products. -/
def lowestExp (ps : List Product) : Int :=
  match ps.filterMap (fun p => match p.v with
    | .fin _ m e => if m = 0 then none else some e
    | _ => none) with
  | [] => 0
  | e :: t => t.foldl min e

/-- A signed sum over a group's finite products of what `x` makes of a product's significand and of its shift above the lowest. -/
def signedSum (ps : List Product) (x : Product → Nat → Nat → Nat) : Int :=
  let lo := lowestExp ps
  ps.foldl (fun a p => match p.v with
    | .fin n m e => if m = 0 then a else if n then a - (x p m (e - lo).toNat : Int) else a + (x p m (e - lo).toNat : Int)
    | _ => a) 0

/-- The residue predicted for a group's exact sum (R34): Σ res(sig_a) × res(sig_b) × res(sig_c) × 2^(k mod 6). -/
def predictedSum (ps : List Product) : Int := signedSum ps (fun p _ k => p.res * 2 ^ (k % 6)) % 63

/-- The residue of the adder's exact sum of the group. -/
def adderResidue (ps : List Product) : Int := signedSum ps (fun _ m k => m * 2 ^ k) % 63

/-- Step 4: a finite product truncated to whole units of 2^q. -/
def truncated (q : Int) : Val → Int
  | .fin n m e => if n then -(shiftInt m (e - q) : Int) else (shiftInt m (e - q) : Int)
  | _ => 0

/-- The group sum s_g with the flags raised in it, as an FP32 encoding. -/
def groupSum (ps : List Product) : Nat × BitVec 5 :=
  let vs := ps.map (fun p => p.v)
  let pos := vs.contains (.inf false)
  let neg := vs.contains (.inf true)
  let f := ps.foldl (fun f p => f ||| p.flg) 0 ||| (if pos && neg then flagNV else 0)
  if vs.any (fun v => v.isNan) || (pos && neg) then (quietNan 2, f)
  else if pos || neg then (infBits 2 neg, f)
  else
    let leads := vs.filterMap (fun v => match v with
      | .fin _ m e => if m = 0 then none else some (e + (bitLen m : Int) - 1)
      | _ => none)
    match leads with
    | [] => (if !vs.isEmpty && vs.all (fun v => v.neg) then 0x80000000 else 0, f)
    | l :: t =>
      let q := t.foldl max l - 48
      let sum := vs.foldl (fun a v => a + truncated q v) (0 : Int)
      let r := roundFloat 2 0 0 false (decide (sum < 0)) sum.natAbs q false
      (r.1, f ||| r.2)

/-- FP32 addition under RNE (R30 step 6, R161). -/
def addFp32 (a b : Nat) : Nat × BitVec 5 := roundWith 2 0 0 false (addVal 0 (decodeFloat 2 a) (decodeFloat 2 b))

/-! ### Accumulators (R149) -/

def accVal (a : AccFile) (i : Nat) : Nat := (Tab.get 0 a.vals i : Word).toNat
def accAf (a : AccFile) (i : Nat) : BitVec 5 := Tab.get 0 a.af i
def accTnt (a : AccFile) (i : Nat) : Bool := a.taint.contains i

/-- Set one accumulator with its flags and taint. -/
def AccFile.put (a : AccFile) (i v : Nat) (f : BitVec 5) (t : Bool) : AccFile :=
  { a with vals := Tab.set a.vals i (BitVec.ofNat 32 v), af := Tab.set a.af i f
           taint := if t then insertRising a.taint i else a.taint.filter (fun j => j != i) }

def fp32Nan (x : Nat) : Bool := (decodeFloat 2 x).isNan
def fp32Inf (x : Nat) : Bool := match decodeFloat 2 x with
  | .inf _ => true
  | _ => false

/-- Add to an accumulator, ORing flags and taint: the file, the flags of the addition, and whether the accumulator
became NaN or infinite from finite. -/
def AccFile.add (a : AccFile) (i x : Nat) (f : BitVec 5) (t : Bool) : AccFile × BitVec 5 × Bool × Bool :=
  let old := accVal a i
  let r := addFp32 old x
  (a.put i r.1 (accAf a i ||| f ||| r.2) (accTnt a i || t), r.2,
   fp32Nan r.1 && !fp32Nan old, fp32Inf r.1 && !fp32Nan old && !fp32Inf old)

def State.accFile (s : State) (h m : Nat) : AccFile := Tab.get {} (s.hearth h).accs m
def State.setAcc (s : State) (h m : Nat) (a : AccFile) : State :=
  s.modHearth h (fun x => { x with accs := Tab.set x.accs m { a with place := .live } })
def State.stayFile (s : State) (h m : Nat) : StayFile := Tab.get {} (s.hearth h).stays m
def State.setStay (s : State) (h m : Nat) (a : StayFile) : State :=
  s.modHearth h (fun x => { x with stays := Tab.set x.stays m { a with place := .live } })

/-- Element of the stay register as a value. -/
def StayFile.value (y : StayFile) (fmt off : Nat) : Val :=
  let n := elemsPerLane fmt
  decodeElem fmt y.scw (elem fmt (Tab.get 0 y.lanes (off / n)) (off % n))

/-! ### The walk in progress -/

/-- A contraction with the accumulators it changes and what it has counted. -/
structure Trine where
  c : Contraction
  acc : AccFile
  nan : Nat
  ovf : Nat
  /-- Groups closed in the step. -/
  closed : Nat
  /-- A group's predicted residue differs from its adder's (R34). -/
  bad : Bool := false
  deriving DecidableEq, Repr

/-- A group sum reaches its accumulator. -/
def Trine.reach (t : Trine) (g : GroupSum) : Trine :=
  let r := t.acc.add g.acc g.sum g.flg g.tnt
  let nan := r.2.2.1 && !t.c.nans.contains g.acc
  let ovf := r.2.2.2 && !t.c.ovfs.contains g.acc
  { t with acc := r.1
           c := { t.c with flg := t.c.flg ||| r.2.1
                           nans := if nan then g.acc :: t.c.nans else t.c.nans
                           ovfs := if ovf then g.acc :: t.c.ovfs else t.c.ovfs }
           nan := t.nan + b2n nan, ovf := t.ovf + b2n ovf }

/-- The value c of a position. -/
def Walk.third (w : Walk) (y : StayFile) (n pos : Nat) (e : StreamElem) : Val :=
  if w.streamC then decodeElem w.fmt e.scw e.x
  else if w.held then y.value w.fmt (w.stayOffset n pos)
  else .fin false 1 0

/-- The products of a group: position by position, with kept elements of A and B (and of C where it streams). -/
def Walk.products (w : Walk) (y : StayFile) (n : Nat) :
    Nat → List Bool → List StreamElem → List StreamElem → List StreamElem → List Product
  | _, [], _, _, _ => []
  | pos, k :: ks, ea, eb, ec =>
    if k then
      match ea, eb with
      | a :: ea, b :: eb =>
        tripleProduct (decodeElem w.fmt a.scw a.x) (decodeElem w.fmt b.scw b.x)
          (w.third y n pos (ec.headD { x := 0, scw := 0, flg := 0, tnt := false })) ::
        w.products y n (pos + 1) ks ea eb ec.tail
      | _, _ => []
    else { v := .fin false 0 0, flg := 0, res := 0 } :: w.products y n (pos + 1) ks ea eb ec.tail

/-- The positions of the next group that are kept; none while a mask is awaited. -/
def Contraction.keep (c : Contraction) (w : Walk) : Option (List Bool) :=
  let n := min 32 (w.stop - c.pos)
  if !w.sparse then some (List.replicate n true)
  else
    match c.masks with
    | m :: _ => if c.pos % 64 = 0 && c.masks.length < 2 then none else some ((List.range n).map (fun i => bit m.w.toNat i))
    | [] => none

/-- Mask lanes left after a group: a unit that ends with its low group drops the high lane. -/
def Contraction.masksAfter (c : Contraction) (w : Walk) : List MaskLane :=
  if !w.sparse then c.masks
  else if c.pos % 64 = 0 && w.stop ≤ c.pos + 32 then c.masks.drop 2 else c.masks.drop 1

def orFlags (es : List StreamElem) : BitVec 5 := es.foldl (fun f e => f ||| e.flg) 0

/-- Sum the next group, if everything it needs has arrived. -/
def Trine.group (w : Walk) (y : StayFile) (t : Trine) : Option Trine :=
  let c := t.c
  if c.done || w.outputs ≤ c.out then none
  else
    match c.keep w with
    | none => none
    | some ks =>
      let n := (ks.filter (fun k => k)).length
      if c.ea.length < n || c.eb.length < n || (w.streamC && c.ec.length < n) then none
      else
        let ps := w.products y c.out c.pos ks c.ea c.eb c.ec
        let used := c.ea.take n ++ c.eb.take n ++ (if w.streamC then c.ec.take n else [])
        let ms := c.masks.take (c.masks.length - (c.masksAfter w).length)
        let g := groupSum ps
        let i := w.accOf c.out
        let acc := if c.pos = w.first && !cdxAcc w.d then t.acc.put i 0 0 false else t.acc
        let sum : GroupSum :=
          { acc := i, sum := g.1
            flg := g.2 ||| orFlags used ||| ms.foldl (fun f m => f ||| m.flg) 0
            tnt := used.any (fun e => e.tnt) || ms.any (fun m => m.tnt) }
        let atStop := decide (w.stop ≤ c.pos + 32)
        let atEnd := atStop && c.out + 1 == w.outputs
        let c' := { c with
          ea := c.ea.drop n, eb := c.eb.drop n, ec := if w.streamC then c.ec.drop n else c.ec
          masks := c.masksAfter w, flg := c.flg ||| g.2
          out := if atStop then c.out + 1 else c.out, pos := if atStop then w.first else c.pos + 32
          last := if atEnd then some sum else none }
        let t' := { t with c := c', acc := acc, closed := t.closed + 1
                           bad := t.bad || predictedSum ps != adderResidue ps }
        some (if atEnd then t' else t'.reach sum)

/-- Sum groups while they are complete. -/
def Trine.run (w : Walk) (y : StayFile) : Nat → Trine → Trine
  | 0, t => t
  | i + 1, t => match t.group w y with
    | some t' => Trine.run w y i t'
    | none => t

end Sys2Proof.Machine
end

