-- ==== Sys2Proof/Machine/Control.lean ====
section
/-! DEFINITION. The control and tag instructions (R79 to R95), SPAWN (R260) and MARK (R318). -/

namespace Sys2Proof.Machine

/-- The record's literal as a number. -/
def Fire.lit (f : Fire) : Nat := f.nrec.lit32.toNat

/-- A token moved on unchanged, with the flags, taint and SC of the firing. -/
def Fire.moved (f : Fire) (t : Token) : Token :=
  { t with ctx := f.k, sc := f.scOut, flg := flagsOf f.operands, tnt := taintOf f.operands, sender := none, recorded := false }

/-- A predicate token (R93). -/
def Fire.predicate (f : Fire) (bs : List Bool) (raised : BitVec 5) : Token :=
  f.token 11 (bs.map (fun b => if b then 1 else 0)) raised 0

/-! ### Moving tokens (R81 to R84) -/

/-- `PASS`, R81. -/
def execPass (r : Rec) (s : State) : Host.Outcome State Fault Refusal :=
  fireNode 0x001 r {} (fun f s => (s, .emit 1 f.passed)) s

/-- CONST's token (R84): A's tag, WID, FLG and TNT, with the literal in every lane. -/
def constToken (f : Fire) : Token :=
  { f.token f.nrec.fmt.toNat (List.replicate f.wid f.nrec.lit32) 0 0 with sc := f.nrec.scl == 3 }

/-- `CONST`, R84. -/
def execConst (r : Rec) (s : State) : Host.Outcome State Fault Refusal :=
  fireNode 0x002 r {} (fun f s => (s, .emit 1 (constToken f))) s

/-- `STEER`, R81: bit 0 of the predicate's lane 0 chooses the side (R47). -/
def execSteer (r : Rec) (s : State) : Host.Outcome State Fault Refusal :=
  fireNode 0x003 r {} (fun f s => (s, .emit 1 f.passed)) s

/-- The arm that MERGE takes. -/
def mergeToken (f : Fire) : Token := f.moved (if armOf f.tp = 0 then f.ta else f.tb)

/-- `MERGE`, R82. -/
def execMerge (r : Rec) (s : State) : Host.Outcome State Fault Refusal :=
  fireNode 0x004 r {} (fun f s => (s, .emit 1 (mergeToken f))) s

/-- The token that MERGEU found. -/
def mergeuToken (f : Fire) : Token := match f.a with
  | some t => f.moved t
  | none => f.moved f.tb

/-- `MERGEU`, R81. -/
def execMergeu (r : Rec) (s : State) : Host.Outcome State Fault Refusal :=
  fireNode 0x005 r {} (fun f s => (s, .emit 1 (mergeuToken f))) s

/-- `GATE`, R81. -/
def execGate (r : Rec) (s : State) : Host.Outcome State Fault Refusal :=
  fireNode 0x006 r {} (fun f s => (s, .emit 1 f.passed)) s

/-- `SYNC`, R83. -/
def execSync (r : Rec) (s : State) : Host.Outcome State Fault Refusal :=
  fireNode 0x007 r {} (fun f s => (s, .pair 1 (f.moved f.ta) (f.moved f.tb))) s

/-- SEL's lanes: A where C's bit 0 is set, else B. -/
def selLanes (c a b : List Word) : List Word :=
  List.zipWith (fun (x : Word) (y : Word × Word) => if x.toNat % 2 = 1 then y.1 else y.2) c (a.zip b)

/-- `SEL`, R83. -/
def execSel (r : Rec) (s : State) : Host.Outcome State Fault Refusal :=
  fireNode 0x008 r {} (fun f s =>
    (s, .emit 1 (f.token f.ta.fmt (f.blend (selLanes f.tc.lanes f.ta.lanes f.tb.lanes)) 0 f.ta.scw))) s

/-! ### Waves (R85) -/

/-- A WAVE or WEXIT may take place (R71). -/
def waveOk (isWave : Bool) (f : Fire) (s : State) : Bool :=
  (s.colour f.g f.col).waveReady (s.slot f.h f.k).waves f.col f.wave isWave

/-- A on the wave that the loop gives it. -/
def waveFire (isWave : Bool) (f : Fire) (s : State) : State × Effect :=
  (s.countWave f.g f.h f.k f.col f.wave isWave,
   .emit 1 { f.passed with wave := (s.colour f.g f.col).waveOut f.wave isWave })

def waveSpec (isWave : Bool) : FireSpec := { ready := waveOk isWave }

/-- `WAVE`, R85. -/
def execWave (r : Rec) (s : State) : Host.Outcome State Fault Refusal :=
  fireNode 0x009 r (waveSpec true) (waveFire true) s

/-- `WEXIT`, R85. -/
def execWexit (r : Rec) (s : State) : Host.Outcome State Fault Refusal :=
  fireNode 0x00A r (waveSpec false) (waveFire false) s

/-! ### Colours (R86 to R88) -/

/-- A kernel's overflow area for a region (R249). -/
def State.ovsz (s : State) (g : Nat) : Nat := match (s.region g).kernel with
  | some e => (s.kernel e).ovsz
  | none => 0

/-- The horizon of a region's domain (R192). -/
def State.horizon (s : State) (g : Nat) : Nat := match (s.region g).kernel with
  | some e => (s.kernel e).horizon
  | none => 0

/-- Some colour of the region is Free (R64). -/
def colourFree (f : Fire) (s : State) : Bool := decide (lowestFree 0 (s.region f.g).cols < 4096)

/-- What a firing asks of an allocation. -/
def Fire.want (f : Fire) (s : State) (wid ts km1 vm1 : Nat) : Colour :=
  let c := s.colour f.g f.col
  { wid := wid, ts := ts, pcol := f.col, pwave := f.wave, sx := colOf f.h, sy := rowOf f.h, snode := f.n
    km1 := km1, vm1 := vm1, depth := (s.region f.g).depth, pser := c.ser, copyRec := some f.nrec, origin := c.origin }

/-- CALLOC's timestamp operand (R86). -/
def callocTs (f : Fire) : Nat :=
  match f.b with
  | none => 0
  | some b => (b.lanes.headD 0).toNat + 2 ^ 32 * (if 2 ≤ b.wid then ((b.lanes.getD 1 0).toNat % 65536) else 0)

/-- CALLOC's payload: A's lanes, filled with zero lanes to the granted width. -/
def widen (w : Nat) (ls : List Word) : List Word := (List.range w).map (fun i => ls.getD i 0)

/-- The width that CALLOC grants. -/
def callocWidth (f : Fire) : Nat := if f.lit % 64 = 0 then f.ta.wid else f.lit % 64

/-- CALLOC's effect (R86, R192). -/
def callocFire (f : Fire) (s : State) : State × Effect :=
  let w := callocWidth f
  let ts := callocTs f
  if ts != 0 && decide (ts < s.horizon f.g) then (s, .fault faultTslate 0)
  else
    match (s.region f.g).allocate (s.ovsz f.g) (f.want s w ts (bits f.lit 11 6) (bits f.lit 15 12)) false with
    | .wait => (s, .done)
    | .exhausted => (s, .fault faultColExh 0)
    | .granted n rg =>
      let out : Token := { f.passed with col := n, wave := 0, wid := w, lanes := widen w f.ta.lanes
                                         res := if w = f.ta.wid then f.ta.res else tokenResidue f.ta.fmt (widen w f.ta.lanes) }
      ((s.setRegion f.g rg).modColour f.g n (fun c => { c with copy := some out }), .emit 2 out)

/-- `CALLOC`, R86. -/
def execCalloc (r : Rec) (s : State) : Host.Outcome State Fault Refusal :=
  fireNode 0x00B r { ready := colourFree, badWidth := fun f => decide (32 < callocWidth f) } callocFire s

/-- Data tokens of a colour at a node; a CRET hold is none until its colour's commit releases it (R88). -/
def NodeState.holdsColour (x : NodeState) (c : Nat) : Bool :=
  (x.qa ++ x.qb ++ x.qc ++ x.qp ++ x.starts).any (fun t => t.col == c && t.mark == .data) ||
  x.jdq.any (fun e => e.2.col == c && e.2.mark == .data) ||
  x.holds.any (fun e => (e.kind != .cret || e.ready) && e.tok.col == c)

/-- A surplus of colour c in a slot: a waiting token or a CNTF count (R78, R91), a contraction or a block of c
(R146, R163). -/
def SlotState.surplus (x : SlotState) (c : Nat) : Bool :=
  x.cfg.nodes.any (fun e => e.2.holdsColour c) || x.frames.any (fun f => f.col == c) ||
  (match x.contraction with | some t => t.col == c | none => false) ||
  (match x.transpose with | some t => t.tag.1 == c | none => false)

/-- A surplus of colour c anywhere in the region (R78). -/
def State.surplus (s : State) (g c : Nat) : Bool :=
  s.slots.any (fun e => e.2.region == some g && e.2.surplus c)

/-- End a colour: Ended, or PCOUNT where a surplus is left (Table 4-2), or the TLEN of a contraction cut short
(Table 8-4). -/
def endColour (f : Fire) (s : State) : State × Effect :=
  match s.unfinished f.g f.col with
  | some x => (s.cutShort f.g x, .done)
  | none =>
    if s.surplus f.g f.col then (s, .fault faultPcount 0)
    else (s.modColour f.g f.col (fun c => { c with st := .ended }), .quiet)

/-- `CFREE`, R87. -/
def execCfree (r : Rec) (s : State) : Host.Outcome State Fault Refusal := fireNode 0x00C r {} endColour s

/-- Record that `col` of region g received from colour c of region `from'` (R342); a full table leaves the region
untracked (R343). -/
def Region.recordSender (r : Region) (col from' c : Nat) : Region :=
  if r.senders.length < 256 then { r with senders := r.senders ++ [{ col := col, region := from', scol := c }] }
  else match r.untracked with
    | some _ => r
    | none => { r with untracked := some ((r.cols.filter (fun e => e.2.active)).map (fun e => e.1)) }

/-- The activation `col` depends on another colour of a region (R189, condition 3). -/
def State.dependOn (s : State) (g col from' c ser : Nat) : State :=
  if from' = g ∧ c = col then s else s.modColour g col (fun x => if x.producers.contains (from', c, ser) then x else { x with producers := x.producers ++ [(from', c, ser)] })

/-- CBIND's effect (R88). -/
def cbindFire (f : Fire) (s : State) : State × Effect :=
  let c := (f.tc.lanes.headD 0).toNat % 4096
  if (s.colour f.g c).st != .live then (s, .fault faultColour 0)
  else
    let s := if c = f.col then s else
      (s.modRegion f.g (fun r => r.recordSender c f.g f.col)).dependOn f.g c f.g f.col (s.colour f.g f.col).ser
    (s, .emit 1 { f.passed with col := c, wave := 0 })

/-- `CBIND`, R88. -/
def execCbind (r : Rec) (s : State) : Host.Outcome State Fault Refusal :=
  fireNode 0x00D r {} cbindFire s

/-- An unreserved delay-matching entry is free. -/
def unreservedFree (f : Fire) (s : State) : Bool := decide (s.unreservedUsed f.h < Config.unreserved)

/-- Add a hold at the firing's node. -/
def State.hold (s : State) (f : Fire) (x : Hold) : State :=
  s.modNode f.h f.k f.n (fun v => { v with holds := v.holds ++ [x] })

/-- CRET's effect (R88): the token waits for the commit of its colour. -/
def cretFire (f : Fire) (s : State) : State × Effect :=
  let c := s.colour f.g f.col
  if c.group.isSome then (s, .fault faultColour 0)
  else
    ((s.pipe f 1).hold f
      { kind := .cret, tok := { f.passed with col := c.pcol, wave := c.pwave, since := s.cycle }, nrec := f.nrec, due := s.cycle
        ready := false, col := f.col, wave := f.wave, pser := c.pser }, .done)

/-- `CRET`, R88. -/
def execCret (r : Rec) (s : State) : Host.Outcome State Fault Refusal :=
  fireNode 0x00E r { ready := unreservedFree } cretFire s

/-! ### Half-lanes (R89) -/

def low16 (w : Word) : Nat := w.toNat % 65536
def high16 (w : Word) : Nat := w.toNat / 65536

/-- `PACK`, R89. -/
def execPack (r : Rec) (s : State) : Host.Outcome State Fault Refusal :=
  fireNode 0x00F r {} (fun f s =>
    (s, .emit 1 (f.token f.ta.fmt
      (List.zipWith (fun a b => BitVec.ofNat 32 (low16 a + 65536 * low16 b)) f.ta.lanes f.tb.lanes) 0 f.ta.scw))) s

/-- `UNPACK`, R89. -/
def execUnpack (r : Rec) (s : State) : Host.Outcome State Fault Refusal :=
  fireNode 0x010 r {} (fun f s =>
    (s, .pair 1 (f.token f.ta.fmt (f.ta.lanes.map (fun w => BitVec.ofNat 32 (low16 w))) 0 f.ta.scw)
                (f.token f.ta.fmt (f.ta.lanes.map (fun w => BitVec.ofNat 32 (high16 w))) 0 f.ta.scw))) s

/-! ### Entry, end and count (R88, R90, R91) -/

/-- An activation that has been purged: it never commits (R189). -/
def State.isGone (s : State) (p : Nat × Nat × Nat) : Bool := (s.region p.1).gone.contains p.2

/-- INJECT's effect (R88): the sender is recorded for rollback. A token whose activation was purged while it was on its way or
waited here brings the notice of that purge with it, so that the receiver is purged too (R189, R342;
DEDUCED, log 129). -/
def injectFire (f : Fire) (s : State) : State × Effect :=
  if (s.colour f.g f.col).st != .live then (s, .fault faultColour 0)
  else
    let s := match f.ta.sender with
      | none => s
      | some (g', c, ser) =>
        let t := (s.modRegion f.g (fun r => r.recordSender f.col g' c)).dependOn f.g f.col g' c ser
        if s.isGone (g', c, ser) then
          t.modRegion f.g (fun r => { r with notices := r.notices ++ [{ source := g', col := c, arrive := s.cycle, corrects := false }] })
        else t
    (s, .emit 1 f.passed)

/-- `INJECT`, R88. -/
def execInject (r : Rec) (s : State) : Host.Outcome State Fault Refusal := fireNode 0x011 r {} injectFire s

/-- `SINK`, R90: whatever the predicate holds. -/
def execSink (r : Rec) (s : State) : Host.Outcome State Fault Refusal :=
  fireNode 0x012 r { always := true } (fun _ s => (s, .quiet)) s

/-- The count slot of CNTF: node, colour and row OWAVE mod K (R91). -/
def countSlot (fs : List FrameSlot) (n col row wave : Nat) : FrameSlot :=
  match fs.find? (fun f => f.node == n && f.col == col && f.row == row) with
  | some f => f
  | none => { col := col, row := row, node := n, wave := wave, a := none, b := none, c := none, p := none
              flg := 0, tnt := false, count := 0 }

/-- Write a frame slot back; one that holds nothing is free. -/
def putSlot (fs : List FrameSlot) (f : FrameSlot) : List FrameSlot :=
  let rest := fs.filter (fun x => !(x.node == f.node && x.col == f.col && x.row == f.row))
  if f.tokens.isEmpty && f.count = 0 then rest else rest ++ [f]

/-- CNTF's effect (R91). -/
def cntfFire (f : Fire) (s : State) : State × Effect :=
  let c := s.colour f.g f.col
  let x := countSlot (s.slot f.h f.k).frames f.n f.col (c.owave % (c.km1 + 1)) f.wave
  let flg := x.flg ||| f.ta.flg
  let tnt := x.tnt || f.ta.tnt
  if x.count + 1 = f.lit then
    (s.modSlot f.h f.k (fun v => { v with frames := putSlot v.frames { x with count := 0, flg := 0, tnt := false } }),
     .emit 1 { f.passed with flg := flg, tnt := tnt })
  else
    ((s.pipe f 1).modSlot f.h f.k (fun v => { v with frames := putSlot v.frames { x with count := x.count + 1, flg := flg, tnt := tnt } }),
     .done)

/-- `CNTF`, R91. -/
def execCntf (r : Rec) (s : State) : Host.Outcome State Fault Refusal := fireNode 0x013 r {} cntfFire s

/-! ### SPAWN, TRAP and MARK -/

/-- Stage an effect in the firing's activation (R190, R335). -/
def State.stageEffect (s : State) (f : Fire) (x : Staged) : State :=
  s.modColour f.g f.col (fun c => { c with staged := c.staged ++ [x] })

/-- A 55-bit virtual address from lanes 0 and 1 of a token. -/
def laneAddress (t : Token) : Nat := (t.lanes.getD 0 0).toNat + 2 ^ 32 * ((t.lanes.getD 1 0).toNat % 2 ^ 23)

/-- SPAWN's effect at firing (R260). -/
def spawnFire (f : Fire) (s : State) : State × Effect :=
  (s.stageEffect f (.spawn (laneAddress f.ta) (bit f.lit 0) (bit f.lit 1)), .emit 1 f.passed)

/-- `SPAWN`, R260. -/
def execSpawn (r : Rec) (s : State) : Host.Outcome State Fault Refusal := fireNode 0x014 r { badWidth := fun f => decide (f.ta.wid < 2) } spawnFire s

/-- A qualifying lane of A is not zero (R92). -/
def trapped (f : Fire) : Bool := (List.zip f.qual f.ta.lanes).any (fun x => x.1 && x.2 != 0)

/-- `TRAP`, R92. -/
def execTrap (r : Rec) (s : State) : Host.Outcome State Fault Refusal :=
  fireNode 0x015 r {} (fun f s => (s, if trapped f then .fault faultTrap f.lit else .emit 1 f.passed)) s

/-- A marker under a tag (R306). -/
def markerToken (k col wave id : Nat) (m : Mark) : Token :=
  { ctx := k, col := col, wave := wave, wid := 1, fmt := 1, mark := m, lanes := [BitVec.ofNat 32 (id % 65536)]
    res := residue [BitVec.ofNat 32 (id % 65536)] }

/-- The node has made no emission for its head trigger. -/
def firstEmission (f : Fire) (s : State) : Bool := (s.node f.h f.k f.n).emitted == 0

/-- The node has made an emission for its head trigger. -/
def laterEmission (f : Fire) (s : State) : Bool := (s.node f.h f.k f.n).emitted != 0

/-- Set a node's emission count. -/
def State.setEmitted (s : State) (f : Fire) (i : Nat) : State :=
  s.modNode f.h f.k f.n (fun x => { x with emitted := i })

/-- `MARK`, R318: A is emitted and stays at the head of its queue. -/
def execMark (r : Rec) (s : State) : Host.Outcome State Fault Refusal :=
  fireHeld 0x016 r { ready := firstEmission } (fun f s => (s.setEmitted f 1, .emit 1 f.passed)) s

/-- Room for a marker at every destination (R307). -/
def markerReady (f : Fire) (s : State) : Bool :=
  let ts := s.endsOf f.g f.h f.k f.n f.nrec.d0 ++ s.endsOf f.g f.h f.k f.n f.nrec.d1
  laterEmission f s && ts.all (fun t => s.markerRoom t.h t.k t.node t.port (sameQueue ts t))

/-- The marker that MARK emits (R318). -/
def markMarker (f : Fire) : Token :=
  markerToken f.k f.col f.wave (f.lit % 65536) (if bit f.lit 16 then .snapshot else .barrier)

/-- MARK's second firing: the marker, and A is consumed. -/
def markMarkerFire (f : Fire) (s : State) : State × Effect :=
  ((s.setEmitted f 0).consume f, .emit 1 (markMarker f))

/-- `MARK_MARKER_EMISSION`, R318. -/
def execMarkMarkerEmission (r : Rec) (s : State) : Host.Outcome State Fault Refusal :=
  fireHeld 0x016 r { ready := markerReady } markMarkerFire s

/-! ### Predicates (R93) -/

/-- An element counts as non-zero for PRED. -/
def elemTrue (fmt scw x : Nat) : Bool :=
  if fmt = 8 || fmt = 9 then
    match decodeBlock fmt scw x with
    | .fin _ 0 _ => false
    | _ => true
  else if fmt = 2 || fmt = 3 || fmt = 4 then x % 2 ^ signBit fmt != 0
  else x != 0

/-- `PRED`, R93. -/
def execPred (r : Rec) (s : State) : Host.Outcome State Fault Refusal :=
  fireNode 0x017 r {} (fun f s =>
    (s, .emit 1 (f.predicate (f.ta.lanes.map (fun w =>
      (laneElems r.fmt.toNat w).any (elemTrue r.fmt.toNat f.ta.scw))) 0))) s

/-- The predicate bits of a payload. -/
def predBits (ls : List Word) : List Bool := ls.map (fun w => w.toNat % 2 == 1)

/-- Two predicates combined lane by lane. -/
def predCombine (op : Bool → Bool → Bool) (f : Fire) (s : State) : State × Effect :=
  (s, .emit 1 (f.predicate (List.zipWith op (predBits f.ta.lanes) (predBits f.tb.lanes)) 0))

/-- `PAND`, R93. -/
def execPand (r : Rec) (s : State) : Host.Outcome State Fault Refusal := fireNode 0x018 r {} (predCombine (· && ·)) s

/-- `POR`, R93. -/
def execPor (r : Rec) (s : State) : Host.Outcome State Fault Refusal := fireNode 0x019 r {} (predCombine (· || ·)) s

/-- `PXOR`, R93. -/
def execPxor (r : Rec) (s : State) : Host.Outcome State Fault Refusal := fireNode 0x01A r {} (predCombine (· != ·)) s

/-- `PNOT`, R93. -/
def execPnot (r : Rec) (s : State) : Host.Outcome State Fault Refusal :=
  fireNode 0x01B r {} (fun f s => (s, .emit 1 (f.predicate ((predBits f.ta.lanes).map (!·)) 0))) s

/-- VOTE's bit: any, all or odd parity. -/
def voteBit (mode : Nat) (bs : List Bool) : Bool :=
  match mode with
  | 0 => bs.any (·)
  | 1 => bs.all (·)
  | _ => (bs.filter (·)).length % 2 == 1

/-- `VOTE`, R93. -/
def execVote (r : Rec) (s : State) : Host.Outcome State Fault Refusal :=
  fireNode 0x01C r {} (fun f s =>
    (s, .emit 2 (f.predicate (List.replicate f.wid (voteBit (f.lit % 4) (predBits f.ta.lanes))) 0))) s

/-! ### Flags, delay and tag (R81, R94, R95) -/

/-- FLAGS's token: its FLG is zero. -/
def flagsToken (f : Fire) : Token :=
  if f.lit % 2 = 0 then { f.token 0 (List.replicate f.wid (BitVec.ofNat 32 f.ta.flg.toNat)) 0 0 with flg := 0 }
  else { f.passed with flg := 0 }

/-- `FLAGS`, R94. -/
def execFlags (r : Rec) (s : State) : Host.Outcome State Fault Refusal :=
  fireNode 0x01D r {} (fun f s => (s.stageToken f.g f.col f.ta.flg false, .emit 1 (flagsToken f))) s

/-- `DELAY`, R81: A waits n cycles in an unreserved delay-matching entry. -/
def execDelay (r : Rec) (s : State) : Host.Outcome State Fault Refusal :=
  fireNode 0x01E r { ready := unreservedFree } (fun f s =>
    ((s.pipe f (f.lit % 256)).hold f
      { kind := .delay, tok := { f.passed with since := s.cycle }, nrec := f.nrec, due := s.cycle + f.lit % 256
        ready := false, col := f.col, pser := 0 }, .done)) s

/-- TSGET's lanes 0 and 1 (R95). -/
def tsgetLanes (mode : Nat) (c : Colour) (f : Fire) : List Nat :=
  match mode with
  | 0 => [c.ts % 2 ^ 32, c.ts / 2 ^ 32]
  | 1 => [f.col + 2 ^ 12 * f.wave + 2 ^ 20 * c.wid, c.owave + 2 ^ 8 * c.nwave + 2 ^ 16 * c.km1]
  | _ => [c.pcol + 2 ^ 12 * c.pwave, 0]

/-- `TSGET`, R95. -/
def execTsget (r : Rec) (s : State) : Host.Outcome State Fault Refusal :=
  fireNode 0x01F r {} (fun f s =>
    let ls := tsgetLanes (f.lit % 4) (s.colour f.g f.col) f
    (s, .emit 2 (f.token 0 ((List.range f.wid).map (fun i => BitVec.ofNat 32 (ls.getD i 0))) 0 0))) s

end Sys2Proof.Machine
end

