-- ==== Sys2Proof/Machine/Integer.lean ====
section
/-! DEFINITION. The integer, address and comparison instructions (R96 to R110) and the later emissions of RANGE. -/

namespace Sys2Proof.Machine

/-! ### Elements -/

/-- Element width of a format (R96). -/
def intWidth (fmt : Nat) : Nat := elemWidth fmt

/-- An element under a signedness. -/
def readElem (signed : Bool) (w x : Nat) : Int := if signed then signedElem w x else x

/-- Write an exact result at width w (R98). -/
def writeElem (sat signed : Bool) (w : Nat) (x : Int) : Nat := wrapInt w (if sat then clampInt signed w x else x)

/-- One lane of a two-operand instruction, element by element. -/
def lane2 (fmt : Nat) (op : Nat → Nat → Nat) (a b : Word) : Word :=
  laneOf fmt (List.zipWith op (laneElems fmt a) (laneElems fmt b))

/-- One lane of a one-operand instruction. -/
def lane1 (fmt : Nat) (op : Nat → Nat) (a : Word) : Word := laneOf fmt ((laneElems fmt a).map op)

/-- Every lane of A and B. -/
def lanes2 (op : Word → Word → Word) (f : Fire) : List Word := List.zipWith op f.ta.lanes f.tb.lanes

/-- An instruction on A and B that raises nothing (R99). -/
def binary (lat : Nat) (op : Fire → Word → Word → Word) (f : Fire) (s : State) : State × Effect :=
  (s, f.result lat f.nrec.fmt.toNat (lanes2 (op f) f) 0)

/-- An instruction on A alone. -/
def unary (lat : Nat) (op : Fire → Word → Word) (f : Fire) (s : State) : State × Effect :=
  (s, f.result lat f.nrec.fmt.toNat (f.ta.lanes.map (op f)) 0)

/-- The record's FMT. -/
def Fire.fmt (f : Fire) : Nat := f.nrec.fmt.toNat

/-- An exact operation on elements whose signedness FMT gives (R97). -/
def byFmt (sat : Bool) (op : Int → Int → Int) (f : Fire) (a b : Word) : Word :=
  lane2 f.fmt (fun x y => writeElem sat (fmtSigned f.fmt) (intWidth f.fmt) (op (intElem f.fmt x) (intElem f.fmt y))) a b

/-- An exact operation on elements whose signedness the opcode gives (R97). -/
def bySign (signed : Bool) (op : Nat → Int → Int → Int) (f : Fire) (a b : Word) : Word :=
  let w := intWidth f.fmt
  lane2 f.fmt (fun x y => wrapInt w (op w (readElem signed w x) (readElem signed w y))) a b

/-! ### Residues (R103, Table 5-3)

A predicted residue comes from the operands' residues and from what the unit discards, never from the payload that it emits.
DEDUCED (log 93): Table 5-3's residues of signed factors are those of the signed values, without which MULH and MAD would
mispredict every negative operand. -/

/-- The weight W_k = 2^((k+1)w) modulo 63 summed over the elements of a lane pair for which `op` holds. -/
def weighed (fmt : Nat) (op : Nat → Nat → Bool) (a b : Word) : Int :=
  ((List.zipWith op (laneElems fmt a) (laneElems fmt b)).mapIdx (fun k c =>
    if c then ((2 ^ ((k + 1) * intWidth fmt) % 63 : Nat) : Int) else 0)).foldl (fun a x => a + x) 0

/-- Carries out of the elements of a lane pair. -/
def carries (fmt : Nat) (a b : Word) : Int := weighed fmt (fun x y => decide (2 ^ intWidth fmt ≤ x + y)) a b

/-- Borrows of the elements of a lane pair: a_k < b_k read unsigned. -/
def borrows (fmt : Nat) (a b : Word) : Int := weighed fmt (fun x y => decide (x < y)) a b

/-- ADD's residue. -/
def addResidue (f : Fire) : Int :=
  (f.ta.res : Int) + f.qualified f.tb - f.sumQualified (List.zipWith (carries f.fmt) f.ta.lanes f.tb.lanes)

/-- SUB's residue. -/
def subResidue (f : Fire) : Int :=
  (f.ta.res : Int) - f.qualified f.tb + f.sumQualified (List.zipWith (borrows f.fmt) f.ta.lanes f.tb.lanes)

/-- NEG's residue: a SUB from 0. -/
def negResidue (f : Fire) : Int :=
  f.unqualified f.ta - f.qualified f.ta + f.sumQualified (f.ta.lanes.map (fun a => borrows f.fmt 0 a))

/-- NOT's residue: a lane of ones is 3 modulo 63. -/
def notResidue (f : Fire) : Int :=
  f.unqualified f.ta + f.sumQualified (f.ta.lanes.map (fun _ => 3)) - f.qualified f.ta

/-- The residue of a lane's value under a signedness, from the lane's own residue. -/
def valueResidue (signed : Bool) (w : Word) (res : Nat) : Int := (res : Int) - (if signed && bit w.toNat 31 then 4 else 0)

/-- The residues of a token's lanes as values. -/
def valueResidues (signed : Bool) (t : Token) : List Int := List.zipWith (valueResidue signed) t.lanes t.laneResidues

/-- The upper half of an exact 64-bit result. -/
def upperHalf (x : Int) : Int := x / (2 ^ 32 : Nat)

/-- MUL's and MAD's residue for w = 32: the exact result without its upper half. -/
def mulResidue (f : Fire) (third : List Int) (high : List Int) : Int :=
  let sg := fmtSigned f.fmt
  let ps := List.zipWith (fun (x : Int) (y : Int) => x * y) (valueResidues sg f.ta) (valueResidues sg f.tb)
  f.unqualified f.ta +
    f.sumQualified (List.zipWith (fun (x : Int) (h : Int) => x - 4 * h) (List.zipWith (fun (x : Int) (c : Int) => x + c) ps third) high)

/-- MULH's and MULHU's residue for w = 32: 16 is the inverse of 4. -/
def highResidue (signed : Bool) (f : Fire) : Int :=
  let ps := List.zipWith (fun (x : Int) (y : Int) => x * y) (valueResidues signed f.ta) (valueResidues signed f.tb)
  let exact := List.zipWith (fun (a b : Word) => readElem signed 32 a.toNat * readElem signed 32 b.toNat) f.ta.lanes f.tb.lanes
  f.unqualified f.ta + f.sumQualified (List.zipWith (fun (p : Int) (x : Int) =>
    16 * (p - x % (2 ^ 32 : Nat)) + (if signed && decide (x < 0) then 4 else 0)) ps exact)

/-- R98 clamps an element of a qualifying lane: `op` gives the exact results of a lane pair. -/
def clamps (f : Fire) (sat : Bool) (op : Word → Word → List Int) : Bool :=
  sat && (List.zipWith (fun (q : Bool) (x : List Int) =>
    q && x.any (fun v => clampInt (fmtSigned f.fmt) (intWidth f.fmt) v != v)) f.qual
    (List.zipWith op f.ta.lanes f.tb.lanes)).contains true

/-- The exact results of a lane pair under FMT's signedness. -/
def exactPair (fmt : Nat) (op : Int → Int → Int) (a b : Word) : List Int :=
  List.zipWith (fun x y => op (intElem fmt x) (intElem fmt y)) (laneElems fmt a) (laneElems fmt b)

/-- AND and XOR of the operands over the qualifying lanes, as residues, once the check of both over all lanes has passed. -/
def bitResidues (f : Fire) : Option (Int × Int) :=
  let n := List.zipWith (fun a b => a &&& b) f.ta.lanes f.tb.lanes
  let x := List.zipWith (fun a b => a ^^^ b) f.ta.lanes f.tb.lanes
  if (residue x + 2 * residue n) % 63 = (f.ta.res + f.tb.res) % 63 then
    some (f.sumQualified (n.map (fun w => (w.toNat : Int))), f.sumQualified (x.map (fun w => (w.toNat : Int))))
  else none

/-- A bitwise instruction on A and B: a failed check is a residue error at the node (R103). -/
def bitwise (op : Word → Word → Word) (res : Fire → Int → Int → Int) (f : Fire) (s : State) : State × Effect :=
  match bitResidues f with
  | none => (s, .residue)
  | some (n, x) => (s, f.predicted 1 f.fmt (lanes2 op f) false (f.unqualified f.ta + res f n x))

/-- The identity of a division: a ≡ q × b + r for every element with b ≠ 0, over the exact quotient and remainder.
DEDUCED (log 119): the unit checks the quotient that it forms, before R101 clamps or wraps it. -/
def divides (signed : Bool) (f : Fire) : Bool :=
  (List.zipWith (fun (a b : Word) => (List.zipWith (fun (x y : Nat) =>
      let v := readElem signed (intWidth f.fmt) x
      let d := readElem signed (intWidth f.fmt) y
      decide (d = 0) || decide (v % 63 = (Int.tdiv v d * d + Int.tmod v d) % 63)) (laneElems f.fmt a) (laneElems f.fmt b)).all (fun c => c))
    f.ta.lanes f.tb.lanes).all (fun c => c)

/-- A checked instruction: the residue is generated once the identity holds. -/
def checked (op : Fire → Word → Word → Word) (signed : Bool) (f : Fire) (s : State) : State × Effect :=
  if divides signed f then binary 12 op f s else (s, .residue)

/-- A sum or a difference with its predicted residue. -/
def summed (sat : Fire → Bool) (op : Int → Int → Int) (res : Fire → Int) (f : Fire) (s : State) : State × Effect :=
  (s, f.predicted 1 f.fmt (lanes2 (byFmt (sat f) op f) f) (clamps f (sat f) (exactPair f.fmt op)) (res f))

/-- A residue that Table 5-3 predicts at w = 32 and generates at other widths. -/
def Fire.predicted32 (f : Fire) (out : List Word) (clamped : Bool) (res : Int) : Effect :=
  f.predicted 3 f.fmt out (clamped || intWidth f.fmt != 32) res

/-! ### Arithmetic (R100) -/

/-- `ADD`, R100. -/
def execAdd (r : Rec) (s : State) : Host.Outcome State Fault Refusal := fireNode 0x040 r {} (summed Fire.sat (· + ·) addResidue) s

/-- `SUB`, R100. -/
def execSub (r : Rec) (s : State) : Host.Outcome State Fault Refusal := fireNode 0x041 r {} (summed Fire.sat (· - ·) subResidue) s

/-- The exact products of the lanes of A and B, plus what C adds. -/
def exactProducts (f : Fire) (third : List Int) : List Int :=
  List.zipWith (fun (x : Word × Word) (c : Int) => intElem f.fmt x.1.toNat * intElem f.fmt x.2.toNat + c) (f.ta.lanes.zip f.tb.lanes) third

/-- MUL's effect. -/
def mulFire (f : Fire) (s : State) : State × Effect :=
  let none' := f.ta.lanes.map (fun _ => (0 : Int))
  (s, f.predicted32 (lanes2 (byFmt f.sat (· * ·) f) f) (clamps f f.sat (exactPair f.fmt (· * ·)))
    (mulResidue f none' ((exactProducts f none').map upperHalf)))

/-- `MUL`, R100. -/
def execMul (r : Rec) (s : State) : Host.Outcome State Fault Refusal := fireNode 0x042 r {} mulFire s

/-- The high half of a product. -/
def highHalf (w : Nat) (a b : Int) : Int := (a * b) / (2 ^ w : Nat)

/-- `MULH`, R100. -/
def execMulh (r : Rec) (s : State) : Host.Outcome State Fault Refusal :=
  fireNode 0x043 r {} (fun f s => (s, f.predicted32 (lanes2 (bySign true highHalf f) f) false (highResidue true f))) s

/-- `MULHU`, R100. -/
def execMulhu (r : Rec) (s : State) : Host.Outcome State Fault Refusal :=
  fireNode 0x044 r {} (fun f s => (s, f.predicted32 (lanes2 (bySign false highHalf f) f) false (highResidue false f))) s

/-- One lane of MAD. -/
def madLane (f : Fire) (a b c : Word) : Word :=
  let w := intWidth f.fmt
  laneOf f.fmt (List.zipWith (fun (x : Nat × Nat) z =>
      writeElem f.sat (fmtSigned f.fmt) w (intElem f.fmt x.1 * intElem f.fmt x.2 + intElem f.fmt z))
    ((laneElems f.fmt a).zip (laneElems f.fmt b)) (laneElems f.fmt c))

/-- Three operands lane by lane. -/
def lanes3 (op : Word → Word → Word → Word) (f : Fire) : List Word :=
  List.zipWith (fun (x : Word × Word) c => op x.1 x.2 c) (f.ta.lanes.zip f.tb.lanes) f.tc.lanes

/-- R98 clamps an element of a qualifying lane of a MAD. -/
def madClamps (f : Fire) : Bool :=
  f.sat && (List.zipWith (fun (q : Bool) (x : (Word × Word) × Word) =>
    q && (List.zipWith (fun v c => v + intElem f.fmt c) (exactPair f.fmt (· * ·) x.1.1 x.1.2) (laneElems f.fmt x.2)).any
      (fun v => clampInt (fmtSigned f.fmt) (intWidth f.fmt) v != v)) f.qual ((f.ta.lanes.zip f.tb.lanes).zip f.tc.lanes)).contains true

/-- MAD's effect. -/
def madFire (f : Fire) (s : State) : State × Effect :=
  (s, f.predicted32 (lanes3 (madLane f) f) (madClamps f)
    (mulResidue f (valueResidues (fmtSigned f.fmt) f.tc)
      ((exactProducts f (f.tc.lanes.map (fun c => intElem f.fmt c.toNat))).map upperHalf)))

/-- `MAD`, R100. -/
def execMad (r : Rec) (s : State) : Host.Outcome State Fault Refusal := fireNode 0x045 r {} madFire s

/-! ### Division (R101) -/

/-- Quotient of an element pair. -/
def quotient (sat signed : Bool) (w : Nat) (a b : Int) : Int :=
  if b = 0 then (2 ^ w : Nat) - 1
  else if signed && a == -(2 ^ (w - 1) : Nat) && b == -1 then (if sat then (2 ^ (w - 1) : Nat) - 1 else -(2 ^ (w - 1) : Nat))
  else Int.tdiv a b

/-- Remainder of an element pair. -/
def remainder (signed : Bool) (w : Nat) (a b : Int) : Int :=
  if b = 0 then a
  else if signed && a == -(2 ^ (w - 1) : Nat) && b == -1 then 0
  else a - Int.tdiv a b * b

/-- `DIV`, R101. -/
def execDiv (r : Rec) (s : State) : Host.Outcome State Fault Refusal :=
  fireNode 0x046 r {} (checked (fun f => bySign true (quotient f.sat true) f) true) s

/-- `DIVU`, R101. -/
def execDivu (r : Rec) (s : State) : Host.Outcome State Fault Refusal :=
  fireNode 0x047 r {} (checked (bySign false (quotient false false)) false) s

/-- `REM`, R101. -/
def execRem (r : Rec) (s : State) : Host.Outcome State Fault Refusal :=
  fireNode 0x048 r {} (checked (bySign true (remainder true)) true) s

/-- `REMU`, R101. -/
def execRemu (r : Rec) (s : State) : Host.Outcome State Fault Refusal :=
  fireNode 0x049 r {} (checked (bySign false (remainder false)) false) s

/-! ### Sign, bounds and saturating forms (R100) -/

/-- A one-operand exact operation. -/
def byFmt1 (op : Int → Int) (f : Fire) (a : Word) : Word :=
  lane1 f.fmt (fun x => writeElem f.sat (fmtSigned f.fmt) (intWidth f.fmt) (op (intElem f.fmt x))) a

/-- `NEG`, R100. -/
def execNeg (r : Rec) (s : State) : Host.Outcome State Fault Refusal :=
  fireNode 0x04A r {} (fun f s => (s, f.predicted 1 f.fmt (f.ta.lanes.map (byFmt1 (fun a => 0 - a) f))
    (f.sat && (List.zipWith (fun (q : Bool) (a : Word) => q && (laneElems f.fmt a).any (fun x =>
      clampInt (fmtSigned f.fmt) (intWidth f.fmt) (0 - intElem f.fmt x) != 0 - intElem f.fmt x)) f.qual f.ta.lanes).contains true)
    (negResidue f))) s

/-- `ABS`, R100. -/
def execAbs (r : Rec) (s : State) : Host.Outcome State Fault Refusal :=
  fireNode 0x04B r {} (unary 1 (byFmt1 (fun a => (a.natAbs : Int)))) s

/-- `MIN`, R100. -/
def execMin (r : Rec) (s : State) : Host.Outcome State Fault Refusal :=
  fireNode 0x04C r {} (binary 1 (bySign true (fun _ a b => min a b))) s

/-- `MAX`, R100. -/
def execMax (r : Rec) (s : State) : Host.Outcome State Fault Refusal :=
  fireNode 0x04D r {} (binary 1 (bySign true (fun _ a b => max a b))) s

/-- `MINU`, R100. -/
def execMinu (r : Rec) (s : State) : Host.Outcome State Fault Refusal :=
  fireNode 0x04E r {} (binary 1 (bySign false (fun _ a b => min a b))) s

/-- `MAXU`, R100. -/
def execMaxu (r : Rec) (s : State) : Host.Outcome State Fault Refusal :=
  fireNode 0x04F r {} (binary 1 (bySign false (fun _ a b => max a b))) s

/-- `ADDS`, R100: saturates always. -/
def execAdds (r : Rec) (s : State) : Host.Outcome State Fault Refusal :=
  fireNode 0x05E r {} (summed (fun _ => true) (· + ·) addResidue) s

/-- `SUBS`, R100. -/
def execSubs (r : Rec) (s : State) : Host.Outcome State Fault Refusal :=
  fireNode 0x05F r {} (summed (fun _ => true) (· - ·) subResidue) s

/-! ### Logic, shifts and fields (R102) -/

/-- `AND`, R102. -/
def execAnd (r : Rec) (s : State) : Host.Outcome State Fault Refusal := fireNode 0x050 r {} (bitwise (fun a b => a &&& b) (fun _ n _ => n)) s

/-- `OR`, R102. -/
def execOr (r : Rec) (s : State) : Host.Outcome State Fault Refusal := fireNode 0x051 r {} (bitwise (fun a b => a ||| b) (fun _ n x => x + n)) s

/-- `XOR`, R102. -/
def execXor (r : Rec) (s : State) : Host.Outcome State Fault Refusal := fireNode 0x052 r {} (bitwise (fun a b => a ^^^ b) (fun _ _ x => x)) s

/-- `NOT`, R102. -/
def execNot (r : Rec) (s : State) : Host.Outcome State Fault Refusal := 
  fireNode 0x053 r {} (fun f s => (s, f.predicted 1 f.fmt (f.ta.lanes.map (fun a => ~~~a)) false (notResidue f))) s

/-- `ANDN`, R102. -/
def execAndn (r : Rec) (s : State) : Host.Outcome State Fault Refusal :=
  fireNode 0x054 r {} (bitwise (fun a b => a &&& ~~~b) (fun f n _ => f.qualified f.ta - n)) s

/-- a × 2^s before R98; a shift by the width or more is decided by a's sign. -/
def shlElem (sat signed : Bool) (w : Nat) (a : Int) (n : Nat) : Nat :=
  if n < w then writeElem sat signed w (a * (2 ^ n : Nat))
  else if !sat || a = 0 then 0
  else if a < 0 then wrapInt w (intLow signed w) else wrapInt w (intHigh signed w)

/-- `SHL`, R102. -/
def execShl (r : Rec) (s : State) : Host.Outcome State Fault Refusal :=
  fireNode 0x055 r {} (binary 1 (fun f => lane2 f.fmt (fun x n =>
    shlElem f.sat (fmtSigned f.fmt) (intWidth f.fmt) (intElem f.fmt x) n))) s

/-- `SHR`, R102. -/
def execShr (r : Rec) (s : State) : Host.Outcome State Fault Refusal :=
  fireNode 0x056 r {} (binary 1 (fun f => lane2 f.fmt (fun x n => if n < intWidth f.fmt then x >>> n else 0))) s

/-- `SRA`, R102: arithmetic whatever FMT says. -/
def execSra (r : Rec) (s : State) : Host.Outcome State Fault Refusal :=
  fireNode 0x057 r {} (binary 1 (fun f => lane2 f.fmt (fun x n =>
    wrapInt (intWidth f.fmt) (signedElem (intWidth f.fmt) x / (2 ^ (min n (intWidth f.fmt - 1)) : Nat))))) s

/-- An element rotated left. -/
def rotl (w x n : Nat) : Nat := (x <<< (n % w)) % 2 ^ w + x >>> (w - n % w)

/-- `ROL`, R102. -/
def execRol (r : Rec) (s : State) : Host.Outcome State Fault Refusal :=
  fireNode 0x058 r {} (binary 1 (fun f => lane2 f.fmt (rotl (intWidth f.fmt)))) s

/-- `CLZ`, R102. -/
def execClz (r : Rec) (s : State) : Host.Outcome State Fault Refusal :=
  fireNode 0x059 r {} (unary 1 (fun f => lane1 f.fmt (fun x => intWidth f.fmt - bitLen x))) s

/-- Set bits of a number. -/
def popCount (w x : Nat) : Nat := ((List.range w).filter (fun i => bit x i)).length

/-- `POPC`, R102. -/
def execPopc (r : Rec) (s : State) : Host.Outcome State Fault Refusal :=
  fireNode 0x05A r {} (unary 1 (fun f => lane1 f.fmt (popCount (intWidth f.fmt)))) s

/-- An element with bit i moved to bit w − 1 − i. -/
def reverseBits (w x : Nat) : Nat := (List.range w).foldl (fun a i => a + b2n (bit x i) * 2 ^ (w - 1 - i)) 0

/-- `BREV`, R102. -/
def execBrev (r : Rec) (s : State) : Host.Outcome State Fault Refusal :=
  fireNode 0x05B r {} (unary 1 (fun f => lane1 f.fmt (reverseBits (intWidth f.fmt)))) s

/-- BFX of an element. -/
def fieldOf (signed : Bool) (w pos len x : Nat) : Nat :=
  let v := (x >>> pos) % 2 ^ len
  if signed then wrapInt w (signedElem len v) else v

/-- `BFX`, R102. -/
def execBfx (r : Rec) (s : State) : Host.Outcome State Fault Refusal :=
  fireNode 0x05C r {} (unary 1 (fun f => lane1 f.fmt
    (fieldOf (fmtSigned f.fmt) (intWidth f.fmt) (bits f.lit 4 0) (bits f.lit 10 5)))) s

/-- BFI of an element pair. -/
def insertField (w pos len a b : Nat) : Nat :=
  let m := (2 ^ len - 1) * 2 ^ pos
  (a - (a &&& m) + ((b * 2 ^ pos) &&& m)) % 2 ^ w

/-- `BFI`, R102. -/
def execBfi (r : Rec) (s : State) : Host.Outcome State Fault Refusal :=
  fireNode 0x05D r {} (binary 1 (fun f => lane2 f.fmt
    (insertField (intWidth f.fmt) (bits f.lit 4 0) (bits f.lit 10 5)))) s

/-! ### Comparisons (R104) -/

/-- A comparison's predicate: SC is 0. -/
def compare (op : Word → Word → Bool) (f : Fire) (s : State) : State × Effect :=
  (s, .emit 1 { f.predicate (List.zipWith op f.ta.lanes f.tb.lanes) 0 with sc := false })

/-- `CMPEQ`, R104. -/
def execCmpeq (r : Rec) (s : State) : Host.Outcome State Fault Refusal := fireNode 0x060 r {} (compare (fun a b => a == b)) s

/-- `CMPNE`, R104. -/
def execCmpne (r : Rec) (s : State) : Host.Outcome State Fault Refusal := fireNode 0x061 r {} (compare (fun a b => a != b)) s

/-- `CMPLT`, R104. -/
def execCmplt (r : Rec) (s : State) : Host.Outcome State Fault Refusal := fireNode 0x062 r {} (compare (fun a b => a.slt b)) s

/-- `CMPLE`, R104. -/
def execCmple (r : Rec) (s : State) : Host.Outcome State Fault Refusal := fireNode 0x063 r {} (compare (fun a b => a.sle b)) s

/-- `CMPLTU`, R104. -/
def execCmpltu (r : Rec) (s : State) : Host.Outcome State Fault Refusal := fireNode 0x064 r {} (compare (fun a b => a.ult b)) s

/-- `CMPLEU`, R104. -/
def execCmpleu (r : Rec) (s : State) : Host.Outcome State Fault Refusal := fireNode 0x065 r {} (compare (fun a b => a.ule b)) s

/-! ### Index and position (R106, R107) -/

/-- A signed 16-bit field. -/
def signed16 (x : Nat) : Int := signedElem 16 x

/-- A lane of an integer modulo 2^32. -/
def laneInt (x : Int) : Word := BitVec.ofInt 32 x

/-- `IDX`, R106. -/
def execIdx (r : Rec) (s : State) : Host.Outcome State Fault Refusal :=
  fireNode 0x068 r {} (fun f s => (s, f.result 3 f.fmt
    (f.ta.lanes.mapIdx (fun i a => laneInt ((a.toNat * bits f.lit 15 0 : Nat) + (i : Int) * signed16 (bits f.lit 31 16)))) 0)) s

/-- `IDX2`, R106. -/
def execIdx2 (r : Rec) (s : State) : Host.Outcome State Fault Refusal :=
  fireNode 0x069 r {} (binary 3 (fun f a b => BitVec.ofNat 32 (a.toNat * bits f.lit 31 16 + b.toNat * bits f.lit 15 0))) s

/-- Ring slot and wrap generation of a position (R107). -/
def wrapPosition (sink win p : Nat) : Nat :=
  if p < sink then p
  else sink + (p - sink) % win + 65536 * (((p - sink) / win + 1) % 65536)

/-- `WRAP`, R107. -/
def execWrap (r : Rec) (s : State) : Host.Outcome State Fault Refusal :=
  fireNode 0x06A r {} (unary 3 (fun f a => BitVec.ofNat 32 (wrapPosition (bits f.lit 31 16) (bits f.lit 15 0) a.toNat))) s

/-! ### RANGE (R108) -/

/-- Emission j of a RANGE. -/
def rangeLanes (f : Fire) (j : Nat) : List Word :=
  (List.range f.wid).map (fun i =>
    laneInt (((f.ta.lanes.headD 0).toNat : Int) + ((j * f.wid + i : Nat) : Int) * signed16 (bits f.lit 31 16)))

/-- One emission: the last consumes A. -/
def rangeFire (f : Fire) (s : State) : State × Effect :=
  let j := (s.node f.h f.k f.n).emitted
  let s := if j + 1 ≥ bits f.lit 15 0 then (s.setEmitted f 0).consume f else s.setEmitted f (j + 1)
  (s, .emit 1 (f.token f.fmt (rangeLanes f j) 0 0))

/-- `RANGE`, R108: the first emission. -/
def execRange (r : Rec) (s : State) : Host.Outcome State Fault Refusal :=
  fireHeld 0x06B r { ready := firstEmission } rangeFire s

/-- `RANGE_EMISSION`, R108. -/
def execRangeEmission (r : Rec) (s : State) : Host.Outcome State Fault Refusal :=
  fireHeld 0x06B r { ready := laterEmission } rangeFire s

/-! ### Moving lanes (R109) -/

/-- A lane instruction's token: FMT, SC and SCW of A, whatever SCL says (R109). -/
def laneToken (f : Fire) (out : List Word) : Token := { f.token f.ta.fmt out 0 f.ta.scw with sc := f.ta.sc }

/-- `SHUF`, R109. -/
def execShuf (r : Rec) (s : State) : Host.Outcome State Fault Refusal :=
  fireNode 0x06C r {} (fun f s => (s, .emit 1 (laneToken f
    (f.tb.lanes.map (fun b => if b.toNat % 32 < f.wid then f.ta.lanes.getD (b.toNat % 32) 0 else 0))))) s

/-- `LANEX`, R109. -/
def execLanex (r : Rec) (s : State) : Host.Outcome State Fault Refusal :=
  fireNode 0x06D r {} (fun f s => (s, .emit 1 (laneToken f [f.ta.lanes.getD (f.lit % 32) 0]))) s

/-- `LANEI`, R109: B may have any width. -/
def execLanei (r : Rec) (s : State) : Host.Outcome State Fault Refusal :=
  fireNode 0x06E r { anyWidth := true } (fun f s => (s, .emit 1 (laneToken f (f.ta.lanes.set (f.lit % 32) (f.tb.lanes.headD 0))))) s

/-- `BCAST`, R109. -/
def execBcast (r : Rec) (s : State) : Host.Outcome State Fault Refusal :=
  fireNode 0x06F r {} (fun f s => (s, .emit 1 (laneToken f
    (List.replicate (if f.lit % 64 = 0 then f.wid else f.lit % 64) (f.ta.lanes.headD 0))))) s

/-! ### Reductions (R110) -/

/-- The elements of A as integers. -/
def allElems (f : Fire) : List Int := (elemsOf f.fmt f.ta.lanes).map (intElem f.fmt)

/-- The least or greatest of a non-empty list. -/
def pickInt (op : Int → Int → Int) : List Int → Int
  | [] => 0
  | x :: t => t.foldl op x

/-- A reduction's token: WID 1, FMT 0 or 1 by the input's signedness. -/
def reduceToken (f : Fire) (x : Nat) : Token := f.token (if fmtSigned f.fmt then 0 else 1) [BitVec.ofNat 32 x] 0 0

/-- `RSUM`, R110. -/
def execRsum (r : Rec) (s : State) : Host.Outcome State Fault Refusal :=
  fireNode 0x070 r {} (fun f s =>
    (s, .emit 4 (reduceToken f (writeElem f.sat (fmtSigned f.fmt) 32 ((allElems f).foldl (· + ·) 0))))) s

/-- `RMIN`, R110. -/
def execRmin (r : Rec) (s : State) : Host.Outcome State Fault Refusal :=
  fireNode 0x071 r {} (fun f s => (s, .emit 4 (reduceToken f (wrapInt 32 (pickInt min (allElems f)))))) s

/-- `RMAX`, R110. -/
def execRmax (r : Rec) (s : State) : Host.Outcome State Fault Refusal :=
  fireNode 0x072 r {} (fun f s => (s, .emit 4 (reduceToken f (wrapInt 32 (pickInt max (allElems f)))))) s

end Sys2Proof.Machine
end

