-- ==== Sys2Proof/Machine/Tensor.lean ====
section
/-! DEFINITION. Tensors: the identifier table (R125, R126), the validity of an entry (R128), the layouts (R129) and
scale planes (R130), and the instructions of the tensor group (R135 to R138). -/

namespace Sys2Proof.Machine

/-! ### Entries (Table 7-1) -/

def tdBase (e : Nat) : Nat := bits e 511 457
def tdV (e : Nat) : Bool := bit e 456
def tdD (e : Nat) : Bool := bit e 455
def tdRp (e : Nat) : Bool := bit e 454
def tdFmt (e : Nat) : Nat := bits e 453 450
def tdLay (e : Nat) : Nat := bits e 449 447
def tdRank (e : Nat) : Nat := bits e 446 445
def tdScb (e : Nat) : Nat := bits e 439 385
def tdProd (e : Nat) : Nat := bits e 384 330
def tdExt0 (e : Nat) : Nat := bits e 319 288
def tdExt1 (e : Nat) : Nat := bits e 287 256
def tdExt2 (e : Nat) : Nat := bits e 255 224
def tdStr1 (e : Nat) : Nat := bits e 223 176
def tdStr2 (e : Nat) : Nat := bits e 175 128
def tdRcnt (e : Nat) : Nat := bits e 127 112

/-- Physical address of a context's entry (R125). -/
def State.tidAddr (s : State) (m t : Nat) : Nat := (s.context m).tidBaseNow * 2 ^ 20 + 64 * t

/-- The committed entry of an identifier that is in range. -/
def State.tidEntry (s : State) (m t : Nat) : Option Nat :=
  if t < (s.context m).tidCntNow then some (s.fetchLe (s.tidAddr m t) 64) else none

/-- Write the masked bits of an entry (R127). A write of a part of it leaves the poison of its granule (R345). -/
def State.writeTid (s : State) (m t : Nat) (mask v : BitVec 512) : State :=
  let a := s.tidAddr m t
  let old := BitVec.ofNat 512 (s.fetchLe a 64)
  s.put a (leBytes 64 ((old &&& ~~~mask) ||| (v &&& mask)).toNat) (s.tainted a 64 && mask != BitVec.allOnes 512)

/-- A mask of bits hi to lo of an entry. -/
def maskBits (hi lo : Nat) : BitVec 512 := BitVec.ofNat 512 ((2 ^ (hi + 1 - lo) - 1) * 2 ^ lo)

/-! ### Validity (R128) -/

/-- Alignments that the layout asks for. -/
def layoutOk (e : Nat) : Bool :=
  if tdLay e ≤ 1 then
    tdBase e % 4 == 0 && tdStr1 e % 4 == 0 && tdStr2 e % 4 == 0 && (tdLay e == 0 || decide (2 ≤ tdRank e))
  else
    tdBase e % 64 == 0 && (tdLay e != 3 || decide (2 ≤ tdRank e)) &&
    (tdLay e != 4 || (tdRank e == 3 && tdFmt e != 8 && tdFmt e != 9))

/-- An entry that a pass may begin with. DEDUCED (log 96): an entry that the host has written with a reserved code of FMT or LAY is none;
its reserved bits are ignored. -/
def tdValid (e : Nat) : Bool :=
  tdV e && tdRank e != 0 && decide (tdFmt e ≤ 0xA) && decide (tdLay e ≤ 4) &&
  decide (1 ≤ tdExt0 e) && decide (1 ≤ tdExt1 e) && decide (1 ≤ tdExt2 e) &&
  (decide (2 ≤ tdRank e) || tdExt1 e == 1) && (tdRank e == 3 || tdExt2 e == 1) &&
  layoutOk e && ((tdFmt e != 8 && tdFmt e != 9) || tdScb e % 64 == 0)

/-! ### Layouts (R129, R130) -/

/-- Bit offset from BASE of element (k, i, j), Table 7-2. -/
def elemBit (e k i j : Nat) : Nat :=
  let w := elemWidth (tdFmt e)
  let n0 := cdiv (tdExt0 e) 32
  let n1 := cdiv (tdExt1 e) 32
  let n2 := cdiv (tdExt2 e) 32
  let u := 8 * (128 * w)
  match tdLay e with
  | 0 => 8 * (k * tdStr2 e + i * tdStr1 e) + j * w
  | 1 => 8 * (k * tdStr2 e + j * tdStr1 e) + i * w
  | 2 => ((k * n1 + i / 32) * n0 + j / 32) * u + (i % 32 * 32 + j % 32) * w
  | 3 => ((k * n0 + j / 32) * n1 + i / 32) * u + (j % 32 * 32 + i % 32) * w
  | _ => ((i / 32 * n0 + j / 32) * n2 + k / 32) * (32 * u) + ((i % 32 * 32 + j % 32) * 32 + k % 32) * w

/-- Virtual address of the byte in which an element begins. -/
def elemAddr (e k i j : Nat) : Nat := tdBase e + elemBit e k i j / 8

/-- Virtual address of an element's scale word (R130). -/
def scaleAddr (e k i j : Nat) : Nat :=
  tdScb e + 2 * ((k * cdiv (tdExt1 e) 32 + i / 32) * cdiv (tdExt0 e) 32 + j / 32)

/-- Elements of a tensor. -/
def tdCount (e : Nat) : Nat := tdExt0 e * tdExt1 e * tdExt2 e

/-! ### Fields (R136) -/

/-- High and low bit of a field code's field. -/
def fieldBits (code : Nat) : Nat × Nat :=
  match code with
  | 0 => (511, 457)
  | 1 => (439, 385)
  | 2 => (319, 288)
  | 3 => (287, 256)
  | 4 => (255, 224)
  | 5 => (223, 176)
  | 6 => (175, 128)
  | _ => (384, 330)

/-- Width of a field code's value (Table 7-5). -/
def fieldWidth (code : Nat) : Nat :=
  match code with
  | 7 => 10
  | 9 => 32
  | c => (fieldBits c).1 + 1 - (fieldBits c).2

/-- A code and range of Table 7-1: FMT, LAY and RANK. -/
def shapeCodesOk (fmt lay rank : Nat) : Bool := decide (fmt ≤ 0xA) && decide (lay ≤ 4) && rank != 0

/-- An entry image breaks no code, range or reserved bit of Table 7-1. DEDUCED (log 20): the range 1 to 2^32 − 1 of
the row of EXT0 is that of every extent. -/
def imageOk (e : Nat) : Bool :=
  shapeCodesOk (tdFmt e) (tdLay e) (tdRank e) && bits e 444 440 == 0 && bits e 329 320 == 0 && bits e 111 0 == 0 &&
  tdExt0 e != 0 && tdExt1 e != 0 && tdExt2 e != 0

/-- A value breaks neither Table 7-1 nor Table 7-5 for a field code. -/
def fieldOk (code v : Nat) : Bool :=
  decide (v < 2 ^ fieldWidth code) &&
  (match code with
   | 2 | 3 | 4 => v != 0
   | 7 => shapeCodesOk (bits v 3 0) (bits v 6 4) (bits v 8 7)
   | _ => true)

/-- The bits that TDSET writes, and their values. -/
def fieldWrite (code v : Nat) : BitVec 512 × BitVec 512 :=
  if code = 7 then
    (maskBits 456 456 ||| maskBits 453 445,
     BitVec.ofNat 512 (bits v 9 9 * 2 ^ 456 + bits v 3 0 * 2 ^ 450 + bits v 6 4 * 2 ^ 447 + bits v 8 7 * 2 ^ 445))
  else (maskBits (fieldBits code).1 (fieldBits code).2, BitVec.ofNat 512 (v * 2 ^ (fieldBits code).2))

/-- The value that TDQ reads. -/
def fieldRead (code e : Nat) : Nat :=
  match code with
  | 7 => tdFmt e + 16 * tdLay e + 128 * tdRank e + 512 * b2n (tdV e)
  | 9 => b2n (tdV e) + 2 * b2n (tdD e) + 4 * b2n (tdRp e) + 65536 * tdRcnt e
  | c => bits e (fieldBits c).1 (fieldBits c).2

/-! ### Instructions (R135, R137) -/

/-- The identifier: from B, or from A or the literal for the forms with port A only. -/
def tidOf (f : Fire) (twoPorts : Bool) : Nat :=
  if twoPorts then (f.tb.lanes.headD 0).toNat % 4096
  else if f.nrec.lit = 2 then f.lit % 4096 else (f.ta.lanes.headD 0).toNat % 4096

/-- The module context of the firing. -/
def Fire.context (f : Fire) (s : State) : Nat := (s.region f.g).ctx

/-- The token of a writing instruction: the identifier. -/
def tidToken (f : Fire) (t : Nat) : Token := f.token 1 [BitVec.ofNat 32 t] 0 0

/-- Lanes 0 and 1 as one number, lane 1 only where the field is wide. -/
def wideValue (a : Token) (wide : Bool) : Nat :=
  (a.lanes.getD 0 0).toNat + (if wide then 2 ^ 32 * (a.lanes.getD 1 0).toNat else 0)

/-- Stage a write to an entry and emit the identifier, once every check has passed. -/
def tdWrite (twoPorts : Bool) (bad : Fire → Bool) (write : Fire → BitVec 512 × BitVec 512)
    (f : Fire) (s : State) : State × Effect :=
  let t := tidOf f twoPorts
  let m := f.context s
  if (s.context m).tidCntNow ≤ t then (s, .fault faultTidRange t)
  else if bad f then (s, .fault faultTidBad t)
  else (s.stageEffect f (.tensor m t (write f).1 (write f).2), .emit 2 (tidToken f t))

/-- The 64 bytes of a 16-lane token as a number. -/
def imageOf (a : Token) : Nat := leNat (bytesOf a.lanes)

/-- `TDLD`, R137. -/
def execTdld (r : Rec) (s : State) : Host.Outcome State Fault Refusal :=
  fireNode 0x140 r { anyWidth := true, badWidth := fun f => f.ta.wid != 16 }
    (tdWrite true (fun f => !imageOk (imageOf f.ta))
      (fun f => (maskBits 511 0, BitVec.ofNat 512 (imageOf f.ta) &&& ~~~(maskBits 454 454 ||| maskBits 127 112)))) s

/-- TDSET's field code. -/
def Fire.code (f : Fire) : Nat := f.nrec.fmt.toNat

/-- TDSET's value. -/
def tdsetValue (f : Fire) : Nat := wideValue f.ta (decide (32 < fieldWidth f.code))

/-- `TDSET`, R137. -/
def execTdset (r : Rec) (s : State) : Host.Outcome State Fault Refusal :=
  fireNode 0x141 r { anyWidth := true, badWidth := fun f => decide (32 < fieldWidth f.code) && decide (f.ta.wid < 2) }
    (tdWrite true (fun f => !fieldOk f.code (tdsetValue f))
      (fun f => fieldWrite f.code (tdsetValue f))) s

/-- `TDDROP`, R137. -/
def execTddrop (r : Rec) (s : State) : Host.Outcome State Fault Refusal :=
  fireNode 0x142 r { anyWidth := true }
    (tdWrite false (fun _ => false) (fun _ => (maskBits 455 455, maskBits 455 455))) s

/-- `TDKEEP`, R137. -/
def execTdkeep (r : Rec) (s : State) : Host.Outcome State Fault Refusal :=
  fireNode 0x143 r { anyWidth := true }
    (tdWrite false (fun _ => false) (fun _ => (maskBits 455 454, 0))) s

/-- `TDREG`, R137. -/
def execTdreg (r : Rec) (s : State) : Host.Outcome State Fault Refusal :=
  fireNode 0x144 r { anyWidth := true, badWidth := fun f => decide (f.ta.wid < 2) }
    (tdWrite true (fun f => wideValue f.ta true % 64 != 0 || decide (2 ^ 55 ≤ wideValue f.ta true))
      (fun f => fieldWrite 8 (wideValue f.ta true))) s

/-- The entry of an identifier that is in range lies in a poisoned granule (R345). -/
def State.tidTaint (s : State) (m t : Nat) : Bool := decide (t < (s.context m).tidCntNow) && s.tainted (s.tidAddr m t) 64

/-- TDQ's effect (R138). Its latency is 4 when the die's cache holds the entry, and otherwise variable (log 4). -/
def tdqFire (f : Fire) (s : State) : State × Effect :=
  let v := match s.tidEntry (f.context s) (tidOf f false) with
    | some e => fieldRead f.code e
    | none => 0
  let t := f.token 1 [BitVec.ofNat 32 v, BitVec.ofNat 32 (v / 2 ^ 32)] 0 0
  let bad := s.tidTaint (f.context s) (tidOf f false)
  let (d, s) := s.resultDelay f 3
  (s.inFlight f d, .emit d { t with tnt := t.tnt || bad })

/-- `TDQ`, R138. -/
def execTdq (r : Rec) (s : State) : Host.Outcome State Fault Refusal :=
  fireNode 0x145 r { anyWidth := true } tdqFire s

end Sys2Proof.Machine
end

