-- ==== Sys2Proof/Machine/Requests.lean ====
section
/-! DEFINITION. Memory requests: bindings (R166), the checks of an access (R167, Table 9-2), withholding (R168), damper
entries (R335, R336), the ordering buffer and its chains (R170), the issue of a request, its reply (R171) and its
timeout (R329, R361). -/

namespace Sys2Proof.Machine

/-! ### Bindings (Table 9-1) -/

def agbV (b : Nat) : Bool := bit b 511
def agbLoc (b : Nat) : Bool := bit b 510
def agbVirt (b : Nat) : Bool := bit b 509
def agbWpe (b : Nat) : Bool := bit b 508
def agbRt (b : Nat) : Nat := bits b 507 504
def agbWpn (b : Nat) : Nat := bits b 503 498
def agbTid (b : Nat) : Nat := bits b 497 486
def agbBase (b : Nat) : Nat := bits b 485 431
def agbLimit (b : Nat) : Nat := bits b 430 399
def agbStart (b : Nat) : Nat := bits b 398 367
def agbStr (b d : Nat) : Int := signedElem 32 (bits b (366 - 32 * d) (335 - 32 * d))
def agbN (b d : Nat) : Nat := bits b (270 - 16 * d) (255 - 16 * d)

/-- The binding that a record names. -/
def State.binding (s : State) (g : Nat) (r : Rec) : Nat := (Tab.get 0 (s.region g).cfg.agb (r.lit32.toNat % 16) : BitVec 512).toNat

/-! ### Withholding (R168) -/

/-- An access fault: cause, address and detail word. -/
structure Denied where
  cause : Nat
  addr : Nat
  detail : Nat
  /-- A dropped tensor with a producer is waited for: context and identifier (R132). -/
  recompute : Option (Nat × Nat) := none
  /-- No fault: a table entry that the translation reads lies in a prepared granule, and the access waits (R320, R190). -/
  wait : Bool := false
  deriving DecidableEq, Repr

def denied (cause addr : Nat) : Denied := { cause := cause, addr := addr, detail := cause }

def causeAgbInv : Nat := 1
def causeTidInv : Nat := 2
def causeDropped : Nat := 3
def causeRecompute : Nat := 4
def causeAlign : Nat := 5
def causeLimit : Nat := 6
def causeTrun : Nat := 10
def causeTmo : Nat := 11

/-- Address tokens that a node has consumed under a colour. -/
def NodeState.counted (x : NodeState) (col : Nat) : Nat := Tab.get 0 x.elems col

/-- Count one more. -/
def State.countElem (s : State) (f : Fire) : State :=
  s.modNode f.h f.k f.n (fun x => { x with elems := Tab.set x.elems f.col (x.counted f.col + 1) })

/-- The node withholds its access; the tokens stay where they are. -/
def State.withhold (s : State) (f : Fire) (d : Denied) : State :=
  s.modNode f.h f.k f.n (fun x =>
    let w : WithheldAccess :=
      { cause := d.cause, addr := d.addr, elem := x.counted f.col, detail := d.detail, col := f.col, wave := f.wave
        found := s.cycle, sent := false, recompute := d.recompute, resumed := false }
    { x with withheld := some w })

/-- A node's withheld wait is over: the head token is checked again. -/
def State.unwithhold (s : State) (f : Fire) : State :=
  s.modNode f.h f.k f.n (fun x => { x with withheld := none })

/-! ### Where an access goes (R167, Table 9-2) -/

/-- The parts of an access: virtual address, physical address and length, each within one granule of a virtual range;
or one part for an untranslated range. -/
abbrev Parts := List (Nat × Nat × Nat)

/-- Translate every granule through a unit's caches (cause TRANS). -/
def State.translateAll (s : State) (u m : Nat) : List (Nat × Nat) → Except Denied (List (Nat × Nat × Nat × Nat))
  | [] => .ok []
  | (va, n) :: t =>
    if s.walkWaits u m va then .error { cause := causeTrans, addr := va, detail := 0, wait := true }
    else match s.leafFor u m va with
    | .error (l, r) => .error { cause := causeTrans, addr := va, detail := transDetail l r }
    | .ok (_, leaf, size) =>
      match s.translateAll u m t with
      | .error d => .error d
      | .ok ps => .ok ((va, leafAddr leaf size va, n, leaf) :: ps)

/-- A virtual range: TRANS, then WRITE, then SPACE. -/
def State.virtParts (s : State) (u m va n : Nat) (write : Bool) : Except Denied Parts :=
  match s.translateAll u m (pieces va n) with
  | .error d => .error d
  | .ok ps =>
    match ps.find? (fun p => write && !bit p.2.2.2 1) with
    | some p => .error (denied causeWrite p.1)
    | none =>
      match ps.find? (fun p => match rangeTier p.2.1 p.2.2.1 with
        | none => true
        | some t => t == .registers) with
      | some p => .error (denied causeSpace p.2.1)
      | none => .ok (ps.map (fun p => (p.1, p.2.1, p.2.2.1)))

/-- The endpoint of a mesh route entry serves a physical range. -/
def endpointOk (e pa n : Nat) : Bool :=
  bit e 63 &&
  (match bits e 46 43 with
   | 1 =>
     let b := bankBase (hearthAt (bits e 62 61) (bits e 60 54) (bits e 53 47))
     decide (bits e 53 47 < 96 ∧ b ≤ pa ∧ pa + n ≤ b + 0x10000) && rangeTier pa n == some .t0
   | 2 => rangeTier pa n == some .t1 && dieOfAddr pa == bits e 62 61
   | 3 => rangeTier pa n == some .t2
   | 6 => rangeTier pa n == some .t3
   | _ => false)

/-- What an access asks for. -/
structure Ask where
  /-- The offset and the byte count. -/
  o : Nat
  n : Nat
  write : Bool
  /-- The alignment of the offset. -/
  align : Nat
  /-- LDS and STS need LOC = 1. -/
  local' : Bool
  /-- The base that replaces the binding's (LDT, STT). -/
  base : Nat
  deriving DecidableEq, Repr

/-- The checks from ALIGN to SPACE, and the parts (Table 9-2). -/
def State.reach (s : State) (g h : Nat) (b : Nat) (a : Ask) : Except Denied Parts :=
  let base := if agbLoc b then 0 else a.base
  if a.o % a.align ≠ 0 then .error (denied causeAlign (base + a.o))
  else if a.o + a.n > agbLimit b then .error (denied causeLimit (base + a.o))
  else if agbLoc b then .ok [(a.o, bankBase h + a.o, a.n)]
  else
    let ps :=
      if agbVirt b then s.virtParts (sectorUnit h) (s.region g).ctx (base + a.o) a.n a.write
      else if endpointOk (Tab.get 0 (s.region g).cfg.mesh (agbRt b) : BitVec 64).toNat (base + a.o) a.n then
        .ok [(base + a.o, base + a.o, a.n)]
      else .error (denied causeSpace (base + a.o))
    match ps with
    | .error d => .error d
    | .ok ps => if a.local' then .error (denied causeSpace (base + a.o)) else .ok ps

/-- The accesses of several lanes, each checked in turn. -/
def State.reachAll (s : State) (g h b : Nat) : List Ask → Except Denied (List Parts)
  | [] => .ok []
  | a :: t =>
    match s.reach g h b a with
    | .error d => .error d
    | .ok p =>
      match s.reachAll g h b t with
      | .error d => .error d
      | .ok ps => .ok (p :: ps)

/-- Virtual ranges whose leaves an access uses (R323). -/
def leavesOf (b : Nat) (write : Bool) (ps : Parts) : List (Nat × Nat × Bool) :=
  if agbVirt b then ps.map (fun p => (p.1, p.2.2, write)) else []

/-- Some part lies in T3. -/
def inT3 (ps : Parts) : Bool := ps.any (fun p => tierOf p.2.1 == some .t3)

/-- The physical address of the byte at a distance into the parts. -/
def partAddr : Parts → Nat → Nat
  | [], _ => 0
  | (_, pa, n) :: t, i => if i < n then pa + i else partAddr t (i - n)

/-- A lane read at a distance into the parts: `n` bytes. -/
def laneAtPart (ps : Parts) (i n : Nat) : LaneRead := .mem ((List.range n).map (fun j => (partAddr ps (i + j), none)))

/-! ### Messages of accesses (R54, R184) -/

/-- The hearth whose bank window holds an address. -/
def bankOf (pa : Nat) : Nat := pa / 0x40000000 * 12288 + pa % 0x40000000 / 0x10000

/-- The endpoint that serves a physical address (Table 3-6): its kind, die, column and row. -/
def endpointAt (pa : Nat) : Nat × Nat × Nat × Nat :=
  match tierOf pa with
  | some .t0 => (1, dieOfAddr pa, colOf (bankOf pa), rowOf (bankOf pa))
  | some .t1 => (2, dieOfAddr pa, 0, 0)
  | some .t2 => (3, 0, 0, 0)
  | _ => (6, 0, 0, 0)

/-- An address of a hearth's own bank: no message is sent for it. -/
def ownBank (h pa : Nat) : Bool := decide (bankBase h ≤ pa) && decide (pa < bankBase h + 0x10000)

/-- Runs of consecutive bytes at one endpoint, 32 words at most. -/
def addrRuns : List Nat → List (Nat × Nat)
  | [] => []
  | a :: t =>
    match addrRuns t with
    | [] => [(a, 1)]
    | (b, n) :: r => if b = a + 1 ∧ n < 128 ∧ endpointAt a = endpointAt b then (a, n + 1) :: r else (a, 1) :: (b, n) :: r

/-- The message of an access from a hearth's node to the endpoint of an address, with `data` bytes in flits behind it. -/
def accessMessage (cls h n m tag pa body data now : Nat) : MeshMessage :=
  let e := endpointAt pa
  { ddie := e.2.1, dx := e.2.2.1, dy := e.2.2.2, dkind := e.1, cls := cls, len := 1 + cdiv data 32, flits := 1 + cdiv data 32
    sdie := dieOf h, sx := colOf h, sy := rowOf h, mctx := m, snode := n, reqt := tag % 65536, addr := pa % 2 ^ 52, body := body, arrive := now }

/-- The reply of an endpoint to a hearth's node. -/
def replyMessage (h n m tag pa body data now : Nat) : MeshMessage :=
  let e := endpointAt pa
  { ddie := dieOf h, dx := colOf h, dy := rowOf h, dkind := 0, cls := 3, len := 1 + cdiv data 32, flits := 1 + cdiv data 32
    sdie := e.2.1, sx := e.2.2.1, sy := e.2.2.2, mctx := m, snode := n, reqt := tag % 65536, addr := pa % 2 ^ 52, body := body, arrive := now }

/-- The BODY of a load (Table 9-8). -/
def loadBody (n : Nat) (notes crit pf : Bool) : Nat := cdiv n 4 - 1 + 64 * b2n notes + 128 * b2n crit + 256 * b2n pf

/-- The BODY of a store or commit write (Table 9-9). -/
def writeBody (n : Nat) (last : Bool) : Nat := cdiv n 4 - 1 + 64 * b2n last

/-- The BODY of a reply (Table 9-11). -/
def replyBody (n : Nat) (tnt : Bool) (stat res : Nat) : Nat := cdiv n 4 - 1 + 64 * b2n tnt + 128 * stat + 2048 * res

/-- Send a message: it comes to its interface in this cycle; the latency of the access is that of its request (log 90). -/
def State.sendMessage (s : State) (x : MeshMessage) : State :=
  let (i, s) := s.fresh
  { s with messages := Tab.set s.messages i x } |>.push [.event .meshMessageReceive (.flight i)]

def State.sendMessages (s : State) (xs : List MeshMessage) : State := xs.foldl (fun s x => s.sendMessage x) s

/-! ### Damper entries (R335, R336) -/

/-- An entry of a firing. -/
def entryFor (f : Fire) (tnt : Bool) (kind pa : Nat) (mask : BitVec 32) (data : BitVec 256) : DamperEntry :=
  { id := 0, tnt := tnt, kind := kind, slot := f.k, region := f.g, col := f.col, pa := pa, mask := mask, data := data
    born := 0, st := .held, resent := 0, sentAt := 0 }

/-- The mask of `n` bytes from byte `i`. -/
def byteMask (i n : Nat) : BitVec 32 := BitVec.ofNat 32 ((2 ^ n - 1) * 2 ^ i)

/-- Entries of consecutive bytes at a physical address, split at 32-byte boundaries. -/
def byteEntries (f : Fire) (tnt : Bool) : Nat → Nat → List Byte → List DamperEntry
  | 0, _, _ => []
  | i + 1, pa, bs =>
    if bs.isEmpty then []
    else
      let n := min bs.length (32 - pa % 32)
      entryFor f tnt 0 (pa / 32 * 32) (byteMask (pa % 32) n) (BitVec.ofNat 256 (leNat (bs.take n) * 2 ^ (8 * (pa % 32)))) ::
        byteEntries f tnt i (pa + n) (bs.drop n)

/-- Entries of a write over its parts. -/
def storeEntries (f : Fire) (tnt : Bool) : Parts → List Byte → List DamperEntry
  | [], _ => []
  | (_, pa, n) :: t, bs => byteEntries f tnt (n + 1) pa (bs.take n) ++ storeEntries f tnt t (bs.drop n)

/-- An atomic lane's entry: bits 95:0 of the class-2 BODY (Table 9-10). -/
def atomicEntry (f : Fire) (tnt : Bool) (pa op fmt b new : Nat) : DamperEntry :=
  entryFor f tnt 1 pa (byteMask (pa % 32) 4)
    (BitVec.ofNat 256 (new * 2 ^ 64 + b * 2 ^ 32 + (if fmt = 0 then 16 else 0) + op))

/-- The byte that an entry of KIND 0 holds for an address. -/
def DamperEntry.byteAt (e : DamperEntry) (a : Nat) : Option Byte :=
  if e.kind = 0 && e.pa ≤ a && a < e.pa + 32 && e.mask.getLsbD (a - e.pa) then
    some (BitVec.ofNat 8 (e.data.toNat / 2 ^ (8 * (a - e.pa))))
  else none

/-- The byte that the newest entry of an activation in a damper holds. DEDUCED (log 29): only store entries hold bytes
that a load reads. -/
def ownByte (fw : List Forward) (es : List DamperEntry) (g col a : Nat) : Option Byte :=
  es.foldl (fun b e =>
    if e.region = g && e.col = col then
      match ({ e with pa := forwardAddr fw e.pa } : DamperEntry).byteAt (forwardAddr fw a) with
      | some x => some x
      | none => b
    else b) none

/-- Entries in a damper that take one of its 256 places; logged ones do not (R338). -/
def damperUsed (es : List DamperEntry) : Nat := (es.filter (fun e => !e.inLog)).length

/-- Entries promised to requests of a hearth that have not issued. -/
def State.promised (s : State) (h : Nat) : Nat :=
  (List.range 4).foldl (fun a k => (s.slot h k).cfg.buffer.foldl (fun a q => if q.issued then a else a + q.writes.length) a) 0

/-- No activation of the domain with a smaller timestamp is unfinished, and no other activation of the region is in
oldest-only mode (R340). -/
def State.isOldest (s : State) (g col : Nat) : Bool :=
  let c := s.colour g col
  let e := (s.region g).kernel
  (c.ts == 0 ||
    s.regions.all (fun r => !(e.isSome && r.2.kernel == e) && r.1 != g ||
      r.2.cols.all (fun x => !(x.2.held && x.2.ts != 0 && decide (x.2.ts < c.ts))))) &&
  (s.region g).cols.all (fun x => x.1 == col || x.2.oldest.isEmpty)

/-- A damper has room for the entries of a firing (R335), and an activation in oldest-only mode is the oldest. -/
def State.damperRoom (s : State) (g h col need : Nat) : Bool :=
  need == 0 ||
  (decide (damperUsed (s.hearth h).damper + s.promised h + need ≤ Config.damperEntries) &&
   (!(s.colour g col).oldest.contains h || s.isOldest g col))

/-! ### The ordering buffer (R170) -/

/-- The last request of a colour's wave that issued in a slot. -/
def chainOf (cs : List Chain) (col w : Nat) : Option Chain := cs.find? (fun c => c.col == col && c.wave == w)

/-- A request's links let it issue. -/
def linksAllow (c : Colour) (cs : List Chain) (q : Request) : Bool :=
  if q.seq = 63 then true
  else
    match chainOf cs q.col q.wave with
    | none =>
      q.pred == 63 &&
      (!c.loop || q.wave == (c.lwave + 1) % 256 ||
        (match chainOf cs q.col ((q.wave + 255) % 256) with
         | some p => p.ended
         | none => false))
    | some p => q.pred == p.seq || (q.pred == 62 && p.succ == q.seq)

/-- An earlier request of the same node has not issued: of its tag, or for an unlinked node of any tag (R170). -/
def earlierWaits (buf : List Request) (q : Request) : Bool :=
  buf.any (fun x => !x.issued && x.id < q.id && x.node == q.node && (q.seq == 63 || (x.col == q.col && x.wave == q.wave)))

/-- An earlier linked access of the activation has not performed: the accesses of a chain perform in chain order (MSEQ-ORDER). A
linked load whose latency is fixed does not issue before they have: DEDUCED (log 99). -/
def earlierLoads (buf : List Request) (q : Request) : Bool :=
  q.seq != 63 && buf.any (fun x => x.issued && x.seq != 63 && x.id != q.id && x.col == q.col && x.answer == .atReply &&
    (!q.issued || decide (x.order < q.order)))

/-- A load whose latency is fixed, from the own bank (R183). -/
def Request.fixed (q : Request) : Bool := q.lat != 0 && q.answer == .atReply

/-- Room in the queues that a request's token enters; a token that leaves at issue or at the reply needs it at issue. -/
def State.tokenRoom (s : State) (g h k : Nat) (q : Request) : Bool := s.roomAll (s.bothTargets g h k q.node q.nrec)

/-- A request waits behind one of its node that a timeout has withheld (R329). -/
def behindHeld (buf : List Request) (q : Request) : Bool := buf.any (fun x => x.held && x.node == q.node && x.id < q.id)

/-- A request may issue in this cycle. -/
def State.mayIssue (s : State) (g h k : Nat) (q : Request) : Bool :=
  let x := (s.slot h k).cfg
  !q.issued && !q.held && (s.region g).st == .running && (s.region g).residence == .resident &&
  !(s.context (s.region g).ctx).halting && s.firing g && !behindHeld x.buffer q &&
  linksAllow (s.colour g q.col) x.chains q && !earlierWaits x.buffer q && !(q.fixed && earlierLoads x.buffer q) && s.tokenRoom g h k q

/-- Record an issue in the chain. -/
def chainAfter (cs : List Chain) (q : Request) : List Chain :=
  if q.seq = 63 then cs
  else
    let old := chainOf cs q.col q.wave
    cs.filter (fun c => !(c.col == q.col && c.wave == q.wave)) ++
      [{ col := q.col, wave := q.wave, seq := q.seq, succ := q.succ
         ended := q.succ == 63 || (match old with
           | some p => p.ended
           | none => false) }]

/-- Replace or remove a request. -/
def State.setRequest (s : State) (h k : Nat) (q : Request) : State :=
  s.modSlot h k (fun x => { x with cfg := { x.cfg with buffer := x.cfg.buffer.map (fun y => if y.id = q.id then q else y) } })

def State.dropRequest (s : State) (h k id : Nat) : State :=
  s.modSlot h k (fun x => { x with cfg := { x.cfg with buffer := x.cfg.buffer.filter (fun y => y.id != id) } })

/-! ### Issue -/

/-- A request uses its leaves: the sector's caches are filled, and A and D set (R323). -/
def touchLeaves (u m : Nat) : State → List (Nat × Nat × Bool) → State
  | s, [] => s
  | s, (va, n, w) :: t => touchLeaves u m (s.touchAll u m va n w) t

/-- Where a request's data reads go through leaves with K = 1 (R326). -/
def critOf (s : State) (u m : Nat) (q : Request) : List Nat :=
  if q.reads.isEmpty then []
  else q.leaves.filterMap (fun l => match s.leafFor u m l.1 with
    | .ok (_, leaf, size) => if bit leaf 2 then some (leafAddr leaf size l.1) else none
    | .error _ => none)

/-- Give numbers to entries as they enter a damper. -/
def numberEntries (now : Nat) : Nat → List DamperEntry → List DamperEntry
  | _, [] => []
  | i, e :: t => { e with id := i, born := now } :: numberEntries now (i + 1) t

/-- The bytes of its own damper that a lane sees at issue. -/
def LaneRead.seen (fw : List Forward) (es : List DamperEntry) (g col : Nat) : LaneRead → LaneRead
  | .keep w => .keep w
  | .mem bs => .mem (bs.map (fun b => (b.1, ownByte fw es g col b.1)))

/-- Granules that lanes read. -/
def readGranules (fw : List Forward) (rs : List LaneRead) : List Nat :=
  rs.flatMap (fun r => match r with
    | .keep _ => []
    | .mem bs => bs.map (fun b => forwardAddr fw b.1 / 64))

/-- Every lane that a request reads, an LDT's scale word among them. -/
def Request.lanes (q : Request) : List LaneRead := q.reads ++ q.scw.toList

/-- Bytes that lanes read from memory. -/
def readAddrs (rs : List LaneRead) : List Nat :=
  rs.flatMap (fun r => match r with
    | .keep _ => []
    | .mem bs => bs.filterMap (fun b => if b.2.isNone then some b.1 else none))

/-- A load reads own bytes that lie in the commit log: its latency is variable (R340). -/
def State.readsLog (s : State) (g h : Nat) (q : Request) : Bool :=
  let es := (s.hearth h).damper
  let young := es.filter (fun e => !e.inLog)
  q.seq != 63 && q.lanes.any (fun r => match r with
    | .keep _ => false
    | .mem bs => bs.any (fun b => (ownByte s.forwards es g q.col b.1).isSome && (ownByte s.forwards young g q.col b.1).isNone))

/-- Another run of the activation has staged another scale word for the block (R174). -/
def State.mixes (s : State) (g col : Nat) (m : Option (Nat × Nat)) : Bool :=
  match m with
  | none => false
  | some (pa, v) =>
    (s.colour g col).blocks.any (fun b => forwardAddr s.forwards b.1 == forwardAddr s.forwards pa && b.2 != v)

/-- The write pointer of a die. -/
def State.pointer (s : State) (d n : Nat) : Nat := Tab.get 0 s.pointers (64 * d + n)

/-- The pointer stands elsewhere than an STS through it needs (R174). -/
def State.pointerOff (s : State) (h : Nat) (q : Request) : Bool :=
  match q.pointer with
  | none => false
  | some (n, o, _) => s.pointer (dieOf h) n != o

/-- Advance the pointer of an STS. -/
def State.advance (s : State) (h : Nat) (q : Request) : State :=
  match q.pointer with
  | none => s
  | some (n, _, b) =>
    { s with pointers := Tab.set s.pointers (64 * dieOf h + n) ((s.pointer (dieOf h) n + b) % 2 ^ 48) }

/-- Granules that a request writes through leaves with NR = 1 (R268). -/
def State.nrGranules (s : State) (u m : Nat) (q : Request) : List Nat :=
  q.leaves.filterMap (fun l => if !l.2.2 then none else match s.leafFor u m l.1 with
    | .ok (_, leaf, size) => if bit leaf 63 then some (leafAddr leaf size l.1 / 64) else none
    | .error _ => none)

/-- A physical address lies within a FENCE's scope (R179). -/
def State.inScope (s : State) (g h scope pa : Nat) : Bool :=
  match scope with
  | 0 => decide (bankBase h ≤ pa ∧ pa < bankBase h + 0x10000)
  | 1 => (s.region g).hearths.any (fun j => decide (bankBase j ≤ pa ∧ pa < bankBase j + 0x10000))
  | 2 => (tierOf pa == some .t0 || tierOf pa == some .t1) && dieOfAddr pa == dieOf h
  | 3 => tierOf pa != some .t3
  | _ => true

/-- What a FENCE waits for: the writes within its scope that its commit domain has committed and that have not performed (R179). -/
def State.fenced (s : State) (g h : Nat) (a : Answer) : List Nat :=
  match a with
  | .fenced scope =>
    s.hearths.flatMap (fun x => (x.2.damper.filter (fun d =>
      d.order != 0 && (s.region d.region).kernel == (s.region g).kernel && s.inScope g h scope (forwardAddr s.forwards d.pa))).map
        (fun d => d.id))
  | _ => []

/-- A request as it stands once it has issued: what it sees of its activation's own stores, its entries, the granules that it reads
twice, and the writes that a FENCE waits for. -/
def State.issuedForm (s : State) (g h : Nat) (q : Request) : Request :=
  let u := sectorUnit h
  let m := (s.region g).ctx
  let seen := fun (r : LaneRead) => r.seen s.forwards (s.hearth h).damper g q.col
  let nr := s.nrGranules u m q
  { q with issued := true, issuedAt := s.cycle, order := s.nextId, reads := q.reads.map seen, scw := q.scw.map seen
           writes := (numberEntries s.cycle s.nextId q.writes).map (fun e => { e with nr := nr.contains (e.pa / 64) })
           crit := critOf s u m q, after := s.fenced g h q.answer }

/-- What an issue does to memory's side: leaves, damper, pointer, read set, staged scale words and chain. -/
def State.enter (s : State) (g h k : Nat) (q : Request) : State × Request :=
  let q' := s.issuedForm g h q
  let s := touchLeaves (sectorUnit h) (s.region g).ctx s q.leaves
  let s := { s with nextId := s.nextId + q.writes.length + 1 }
  let s := s.modHearth h (fun x => { x with damper := x.damper ++ q'.writes })
  let s := s.advance h q
  let s := s.modColour g q.col (fun c =>
    { c with reads := if q.tracked then (readGranules s.forwards q.lanes).foldl insertRising c.reads else c.reads
             blocks := c.blocks ++ q.mix.toList
             taint := c.taint || q.writes.any (fun e => e.tnt) })
  (s.modSlot h k (fun x => { x with cfg := { x.cfg with chains := chainAfter x.cfg.chains q } }), q')

/-- The bytes that a request reads at the endpoints, run by run. -/
def Request.runs (q : Request) (h : Nat) : List (Nat × Nat) := addrRuns ((readAddrs q.lanes).filter (fun a => !ownBank h a))

/-- The load messages of a request that has issued (R184). -/
def Request.messages (q : Request) (h m now : Nat) : List MeshMessage :=
  (q.runs h).map (fun r => accessMessage 0 h q.node m q.id r.1 (loadBody r.2 (!q.tracked) (q.crit.any (fun c => c / 64 == r.1 / 64)) false) 0 now) ++
  (q.hint.filter (fun p => !ownBank h p.2.1)).map (fun p => accessMessage 0 h q.node m q.id p.2.1 (loadBody p.2.2 true false true) 0 now)

/-- The replies of a request's endpoints (R184): STAT 3 where a compare-and-swap found another word. -/
def State.replies (s : State) (q : Request) (h m : Nat) (failed : Bool) (res : BitVec 6) : List MeshMessage :=
  (q.runs h).map (fun r =>
    let tnt := (List.range r.2).any (fun i => s.critTaint q.crit (r.1 + i))
    replyMessage h q.node m q.id r.1 (replyBody r.2 tnt (if tnt then 1 else if failed then 3 else 0) res.toNat) r.2 s.cycle)

/-- Issue a request: WPORD and SCWMIX are found here (Table 9-7). -/
def State.issue (s : State) (g h k : Nat) (q : Request) : State :=
  if s.pointerOff h q then s.nodeFault g h k q.node q.col q.wave faultWpOrd 0
  else if s.mixes g q.col q.mix then s.nodeFault g h k q.node q.col q.wave faultScwMix 0
  else
    let log := s.readsLog g h q
    let (s, q) := s.enter g h k q
    let t := match q.answer with
      | .atIssue =>
        ((s.dropRequest h k q.id).modColour g q.col (fun c => c.inPipe (s.cycle + q.lat))).sendAll g h k q.node q.nrec false
          (s.cycle + q.lat) q.tok
      | _ =>
        if q.lat = 0 || log then
          let (d, s) := s.freeDelay
          s.setRequest h k { q with due := s.cycle + d }
        else s.setRequest h k { q with due := s.cycle + q.lat }
    t.sendMessages (q.messages h (s.region g).ctx s.cycle)

/-- A request enters the ordering buffer, and issues at once if it may. -/
def State.submitRequest (s : State) (g h k : Nat) (q : Request) : State :=
  let (i, s) := s.fresh
  let q := { q with id := i }
  let s := s.modSlot h k (fun x => { x with cfg := { x.cfg with buffer := x.cfg.buffer ++ [q] } })
  if s.mayIssue g h k q then s.issue g h k q else s

/-- A request of a slot. -/
def State.request (s : State) (h k id : Nat) : Option Request := (s.slot h k).cfg.buffer.find? (fun q => q.id == id)

/-- `REQUEST_ISSUE`, R170. -/
def execRequestIssue (s : State) : Host.Outcome State Fault Refusal :=
  match s.cur with
  | .request h k id =>
    match (s.slot h k).region, s.request h k id with
    | some g, some q => .next (if s.mayIssue g h k q then s.issue g h k q else s)
    | _, _ => .next s
  | _ => .fault .misplaced

/-! ### Replies (R171) -/

/-- A lane as its read performs; granules at `crit` are read twice (R326). -/
def State.laneNow (s : State) (crit : List Nat) : LaneRead → Word
  | .keep w => w
  | .mem bs => BitVec.ofNat 32 (leNat (bs.map (fun b => match b.2 with
      | some x => x
      | none => s.critByte crit b.1)))

/-- A lane's read meets poison. -/
def State.lanePoison (s : State) (crit : List Nat) : LaneRead → Bool
  | .keep _ => false
  | .mem bs => bs.any (fun b => b.2.isNone && s.critTaint crit b.1)

/-- Lanes of a compare-and-swap whose old word is not b: their entries take no effect (R177). -/
def failedLanes (rs : List LaneRead) (ws : List Word) (es : List DamperEntry) : List Nat :=
  let olds := (rs.zip ws).filterMap (fun x => match x.1 with
    | .keep _ => none
    | .mem _ => some x.2)
  (olds.zip es).filterMap (fun x => if x.1.toNat = x.2.data.toNat / 2 ^ 32 % 2 ^ 32 then none else some x.2.id)

/-- The writes that a FENCE waits for have all performed (R179). -/
def State.fencePassed (s : State) (q : Request) : Bool :=
  s.hearths.all (fun x => x.2.damper.all (fun d => !q.after.contains d.id))

/-- The reply of a request may be given in this cycle: no granule that it reads is prepared (R190), the earlier loads of its chain have
performed, and where it waits for bank ports they have room (R183). -/
def State.replyReady (s : State) (h k : Nat) (q : Request) : Bool :=
  q.issued && !q.held && decide (q.due ≤ s.cycle) &&
  (match q.answer with
   | .fenced _ => s.fencePassed q
   | _ => (readGranules s.forwards q.lanes).all (fun x => !s.prepared x) && !earlierLoads (s.slot h k).cfg.buffer q &&
     !(readAddrs q.lanes).any s.unreached && (q.fixed || s.portRoom (readAddrs q.lanes)))

/-- The token that a reply gives: its residue is generated at the memory endpoint (R171). -/
def State.replyToken (s : State) (q : Request) : Token :=
  match q.answer with
  | .fenced _ => q.tok
  | _ =>
    let ls := q.reads.map (s.laneNow q.crit)
    { q.tok with lanes := ls, wid := ls.length, res := residue ls
                 tnt := q.tok.tnt || q.lanes.any (s.lanePoison q.crit)
                 scw := match q.scw with
                   | some r => (s.laneNow q.crit r).toNat % 65536
                   | none => q.tok.scw }

/-- A reply as it arrives, with what errors on its way have done to lane 0. -/
def Token.disturbed (t : Token) (noise : Nat) : Token :=
  match t.lanes with
  | w :: ws => { t with lanes := (w ^^^ BitVec.ofNat 32 noise) :: ws }
  | [] => t

/-- Deliver a reply: its receiver checks the residue (R33, R171). -/
def State.reply (s : State) (g h k : Nat) (q : Request) : State :=
  let t := s.replyToken q
  let u := t.disturbed q.noise
  let failed := if q.compare then failedLanes q.reads t.lanes q.writes else []
  let answers := s.replies q h (s.region g).ctx (!failed.isEmpty) t.res
  let s := (((s.usePort (readAddrs q.lanes)).critDone q.crit).dropRequest h k q.id).modSlot h k (fun x => { x with heardAt := some s.cycle })
  let t :=
    if u.res != tokenResidue u.fmt u.lanes then s.purgeCorrected g [q.col]
    else
      let s := s.modHearth h (fun x => { x with damper := x.damper.filter (fun e => !failed.contains e.id) })
      (s.modColour g q.col (fun c => c.inPipe s.cycle)).sendAll g h k q.node q.nrec false s.cycle u
  t.sendMessages answers

/-- `LOAD_REPLY`, R171: the load performs, or a FENCE's writes have performed. -/
def execLoadReply (s : State) : Host.Outcome State Fault Refusal :=
  match s.cur with
  | .request h k id =>
    match (s.slot h k).region, s.request h k id with
    | some g, some q => .next (if s.replyReady h k q then s.reply g h k q else s)
    | _, _ => .next s
  | _ => .fault .misplaced

/-! ### Timeouts (R329, R361) -/

/-- A request has stood unanswered for the limit. -/
def State.timedOut (s : State) (q : Request) : Bool :=
  q.issued && !q.held && decide (q.issuedAt + Config.requestTimeout ≤ s.cycle) &&
  (match q.answer with
   | .fenced _ => false
   | _ => true)

/-- The node returns the request to the withheld state with cause TMO. -/
def State.timeOut (s : State) (h k : Nat) (q : Request) : State :=
  let addr := match q.reads with
    | .mem ((pa, _) :: _) :: _ => pa
    | _ => 0
  (s.setRequest h k { q with held := true }).modNode h k q.node (fun x =>
    let w : WithheldAccess :=
      { cause := causeTmo, addr := addr, elem := x.counted q.col - 1, detail := causeTmo, col := q.col, wave := q.wave
        found := s.cycle, sent := false, recompute := none, resumed := false }
    { x with withheld := some w })

/-- A timeout event for requests to T3 or for the others. -/
def timeoutEvent (t3 : Bool) (s : State) : Host.Outcome State Fault Refusal :=
  match s.cur with
  | .request h k id =>
    match s.request h k id with
    | some q => .next (if q.t3 == t3 && s.timedOut q then s.timeOut h k q else s)
    | none => .next s
  | _ => .fault .misplaced

/-- `REQUEST_TIMEOUT`, R329. -/
def execRequestTimeout (s : State) : Host.Outcome State Fault Refusal := timeoutEvent false s

/-- `LINK_FAULT_TIMEOUT`, R361. -/
def execLinkFaultTimeout (s : State) : Host.Outcome State Fault Refusal := timeoutEvent true s

end Sys2Proof.Machine
end

