-- ==== Sys2Proof/Machine/Memory.lean ====
section
/-! DEFINITION. The memory instructions: AGEN (R169), loads (R173), stores (R174), PREF (R175), atomics (R176, R177),
OPTST (R178), RETW (R304), FENCE (R179), MCAST (R180) and the write pointers (R182). -/

namespace Sys2Proof.Machine

/-! ### What a memory node asks of memory -/

/-- A request as a firing plans it. -/
structure Plan where
  reads : List LaneRead := []
  scw : Option LaneRead := none
  mix : Option (Nat × Nat) := none
  tracked : Bool := false
  writes : List DamperEntry := []
  compare : Bool := false
  leaves : List (Nat × Nat × Bool) := []
  pointer : Option (Nat × Nat × Nat) := none
  tok : Token
  lat : Nat := 1
  answer : Answer := .atIssue
  t3 : Bool := false
  hint : Parts := []
  deriving DecidableEq, Repr

/-- Record destinations that lead nowhere. -/
def deaf (r : Rec) : Rec := { r with d0 := { r.d0 with v := 0 }, d1 := { r.d1 with v := 0 } }

/-- The request of a plan. -/
def requestOf (f : Fire) (p : Plan) (silent : Bool) : Request :=
  { id := 0, node := f.n, col := f.col, wave := f.wave, seq := bits f.lit 31 26, pred := bits f.lit 25 20
    succ := bits f.lit 19 14, issued := false, reads := p.reads, scw := p.scw, mix := p.mix, tracked := p.tracked
    writes := p.writes, compare := p.compare, leaves := p.leaves, pointer := p.pointer, tok := p.tok
    nrec := if silent then deaf f.nrec else f.nrec, lat := p.lat, answer := p.answer, due := 0, issuedAt := 0
    t3 := p.t3, held := false, hint := p.hint }

/-- What distinguishes the memory nodes. -/
structure MemSpec where
  /-- The access, or the fault that withholds it. -/
  plan : Fire → State → State × Except Denied Plan
  /-- It writes memory: the FLG of its operands is staged (R172). -/
  writing : Bool := false
  /-- Lane 0 of the predicate decides for the whole access (R173, R174). -/
  laneZero : Bool := false
  /-- A width that the instruction does not take (Table 9-7). -/
  badWidth : Fire → Bool := fun _ => false
  /-- The token leaves in the firing itself, and not when the request issues (R180). -/
  early : Bool := false

/-- The firing accesses nothing and only sends its links (R170). -/
def MemSpec.silent (p : MemSpec) (f : Fire) : Bool :=
  f.idle || (p.laneZero && (f.nrec.pm == 1 || f.nrec.pm == 2) && !f.qual.headD true)

/-- The operands' flags, staged by a memory-writing node. -/
def State.stageOperands (s : State) (f : Fire) (writing : Bool) : State :=
  if writing then s.stageToken f.g f.col (flagsOf f.operands) false else s

/-- The head token of a memory node is accessed for: it is consumed and counted, and a withheld wait is over. -/
def State.take (s : State) (p : MemSpec) (f : Fire) : State :=
  (((s.unwithhold f).consume f).countElem f).stageOperands f p.writing

/-- A memory node's effect. -/
def memFire (p : MemSpec) (f : Fire) (s : State) : State × Effect :=
  if p.silent f then ((s.take p f).submitRequest f.g f.h f.k (requestOf f { tok := f.token 1 [0] 0 0 } true), .done)
  else
    match p.plan f s with
    | (s, .error d) => if d.wait then (s, .done) else (s.withhold f d, .done)
    | (s, .ok x) =>
      if s.tooWide f.g f x.tok then (s, .fault faultWidth 0)
      else
        let s := (s.take p f).submitRequest f.g f.h f.k (requestOf f x p.early)
        (s, if p.early then .emit x.lat x.tok else .done)

/-- The binding of a firing. -/
def Fire.agb (f : Fire) (s : State) : Nat := s.binding f.g f.nrec

/-- Requests of a slot that wait in its ordering buffer. -/
def waitingRequests (buf : List Request) : Nat := (buf.filter (fun q => !q.issued)).length

/-- What a firing needs of its hearth's damper (R335): the entries of its access, none where it accesses nothing; `none` where its
translation must wait (R320). -/
def MemSpec.needs (p : MemSpec) (f : Fire) (s : State) : Option Nat :=
  if p.silent f || p.badWidth f || f.badScale then some 0
  else match (p.plan f s).2 with
    | .ok x => some x.writes.length
    | .error d => if d.wait then none else some 0

/-- A memory node is ready while its slot's ordering buffer has an entry and its hearth's damper the entries that the firing needs. -/
def MemSpec.ready (p : MemSpec) (f : Fire) (s : State) : Bool :=
  decide (waitingRequests (s.slot f.h f.k).cfg.buffer < 32) &&
  (match p.needs f s with
   | none => false
   | some n => s.damperRoom f.g f.h f.col n)

/-- How a memory node fires. `any` says that its operand tokens may differ in width (R172). -/
def MemSpec.fires (p : MemSpec) (any : Bool) : FireSpec :=
  { ready := p.ready, anyWidth := any, badWidth := p.badWidth, always := true }

/-- A memory instruction at the node of the running step. -/
def memNode (opc : Nat) (p : MemSpec) (any : Bool) (r : Rec) (s : State) : Host.Outcome State Fault Refusal :=
  fireHeld opc r (p.fires any) (memFire p) s

/-- The offset in lane 0 of A. -/
def Fire.offset (f : Fire) : Nat := (f.ta.lanes.headD 0).toNat

/-! ### AGEN (R169) -/

/-- Emissions for one trigger. -/
def agenCount (mode b : Nat) : Nat :=
  match mode with
  | 0 => agbN b 0
  | 1 => agbN b 0 * agbN b 1
  | 2 => agbN b 0 * agbN b 1 * agbN b 2
  | _ => 1

/-- A number modulo 2^32 as a lane. -/
def wordOf (x : Int) : Word := BitVec.ofInt 32 x

/-- Emission j of the modes LIN, STR2 and STR3. -/
def agenOffset (f : Fire) (b j : Nat) : Word :=
  let s := (agbStart b : Int) + (if f.nrec.ary = 1 then (f.offset : Int) else 0)
  let n0 := agbN b 0
  let n1 := if f.code = 0 then 1 else agbN b 1
  let j0 := if f.code = 0 then j else j % n0
  let j1 := if f.code = 0 then 0 else j / n0 % n1
  let j2 := if f.code = 2 then j / (n0 * n1) else 0
  wordOf (s + j0 * agbStr b 0 + j1 * agbStr b 1 + j2 * agbStr b 2)

/-- LINK mode's next offset: none at the end of a list. -/
def linkOffset (f : Fire) (b : Nat) : Option Word :=
  match f.a with
  | some a => some (a.lanes.headD 0)
  | none =>
    let p := f.tb.lanes.getD (bits f.lit 8 4) 0
    if p = 0xFFFFFFFF then none else some (wordOf (p.toNat + agbStr b 0))

/-- An offset token. -/
def offsetToken (f : Fire) (ls : List Word) : Token := f.token 1 ls 0 0

/-- One emission of an AGEN; the last consumes its trigger. -/
def agenFire (f : Fire) (s : State) : State × Effect :=
  let b := f.agb s
  let j := (s.node f.h f.k f.n).emitted
  if j = 0 && !agbV b then (s.withhold f (denied causeAgbInv 0), .done)
  else
    let s := s.unwithhold f
    if f.code = 4 then
        match linkOffset f b with
        | none => (s.consume f, .quiet)
        | some w => ((s.consume f).countElem f, .emit 1 (offsetToken f [w]))
    else
      let ls := if f.code = 3 then f.ta.lanes.map (fun a => wordOf (agbStart b + a.toNat * agbStr b 0)) else [agenOffset f b j]
      let s := if j + 1 ≥ agenCount f.code b then (s.setEmitted f 0).consume f else s.setEmitted f (j + 1)
      (s.countElem f, .emit 1 (offsetToken f ls))

/-- In LINK mode a token at B has no lane K (R169). -/
def linkNarrow (f : Fire) : Bool := f.code == 4 && f.a.isNone && decide (f.tb.wid ≤ bits f.lit 8 4)

/-- How an AGEN fires, for its first emission or for a later one. -/
def agenSpec (ready : Fire → State → Bool) : FireSpec := { ready := ready, anyWidth := true, badWidth := linkNarrow }

/-- `AGEN`, R169: the first emission for a trigger. -/
def execAgen (r : Rec) (s : State) : Host.Outcome State Fault Refusal :=
  fireHeld 0x1C0 r (agenSpec firstEmission) agenFire s

/-- `AGEN_EMISSION`, R169. -/
def execAgenEmission (r : Rec) (s : State) : Host.Outcome State Fault Refusal :=
  fireHeld 0x1C0 r (agenSpec laterEmission) agenFire s

/-! ### Loads (R173) -/

/-- A load's latency: `fixed` through a binding of the own bank, else variable (0). -/
def loadLat (b fixed : Nat) : Nat := if agbLoc b then fixed else 0

/-- The plan of LD, LDN and LDS. -/
def loadPlan (local' tracked : Bool) (fixed : Nat) (f : Fire) (s : State) : State × Except Denied Plan :=
  let b := f.agb s
  let w := bits f.lit 13 9 + 1
  if !agbV b then (s, .error (denied causeAgbInv f.offset))
  else
    match s.reach f.g f.h b { o := f.offset, n := 4 * w, write := false, align := 4, local' := local', base := agbBase b } with
    | .error d => (s, .error d)
    | .ok ps =>
      (s, .ok { reads := (List.range w).map (fun i => laneAtPart ps (4 * i) 4), tracked := tracked
                leaves := leavesOf b false ps, tok := f.token f.nrec.fmt.toNat (List.replicate w 0) 0 0
                lat := loadLat b fixed, answer := .atReply, t3 := inT3 ps })

/-- LD, LDN, which enters no read set, and LDS, from the own bank after 3 cycles. -/
def specLd : MemSpec := { plan := loadPlan false true 4, laneZero := true }
def specLdn : MemSpec := { plan := loadPlan false false 4, laneZero := true }
def specLds : MemSpec := { plan := loadPlan true true 3, laneZero := true }

/-- `LD`, R173. -/
def execLd (r : Rec) (s : State) : Host.Outcome State Fault Refusal := memNode 0x1C1 specLd true r s

/-- `LDN`, R173. -/
def execLdn (r : Rec) (s : State) : Host.Outcome State Fault Refusal := memNode 0x1C8 specLdn true r s

/-- `LDS`, R173. -/
def execLds (r : Rec) (s : State) : Host.Outcome State Fault Refusal := memNode 0x1C4 specLds true r s

/-- A qualifying lane's access, or nothing. -/
def laneAsks (f : Fire) (n : Nat) (write : Bool) (align base : Nat) : List Ask :=
  (f.qual.zip f.ta.lanes).filterMap (fun x =>
    if x.1 then some { o := x.2.toNat, n := n, write := write, align := align, local' := false, base := base } else none)

/-- Lanes of a reply where qualifying lanes read one word each and the others keep A's lane. -/
def laneReads : List Bool → List Word → List Parts → List LaneRead
  | true :: qs, _ :: ws, p :: ps => laneAtPart p 0 4 :: laneReads qs ws ps
  | false :: qs, w :: ws, ps => .keep w :: laneReads qs ws ps
  | _, _, _ => []

/-- The plan of LDX. -/
def ldxPlan (f : Fire) (s : State) : State × Except Denied Plan :=
  let b := f.agb s
  if !agbV b then (s, .error (denied causeAgbInv f.offset))
  else
    match s.reachAll f.g f.h b (laneAsks f 4 false 4 (agbBase b)) with
    | .error d => (s, .error d)
    | .ok pss =>
      (s, .ok { reads := laneReads f.qual f.ta.lanes pss, tracked := true
                leaves := pss.flatMap (leavesOf b false), tok := f.token f.nrec.fmt.toNat f.ta.lanes 0 0
                lat := loadLat b 4, answer := .atReply, t3 := pss.any inT3 })

def specLdx : MemSpec := { plan := ldxPlan }

/-- `LDX`, R173. -/
def execLdx (r : Rec) (s : State) : Host.Outcome State Fault Refusal := memNode 0x1C3 specLdx false r s

/-! ### Tensor passes (R128, R132, R173, R174) -/

/-- Launch the registered producer of a dropped tensor (R132). -/
def State.beginRecompute (s : State) (m t e : Nat) : State :=
  if tdRp e then s
  else
    (s.writeTid m t (maskBits 454 454) (maskBits 454 454)).push
      [.event (.kernelAccept { lra := tdProd e, ctx := m, cid := 0, pair := none, parent := none, after := false
                               at' := false, recompute := some (m, t) }) .module]

/-- Begin a pass: the entry, or the reason why it does not begin. DEDUCED (log 102): a binding whose TID is 0xFFF names no tensor,
and its pass takes TIDINV also where the table holds an entry 0xFFF. DEDUCED (log 123): PROD = 0 is tested
before the producer's own reads (Table 7-3). -/
def State.beginPass (s : State) (g m t addr : Nat) (load : Bool) : State × Except Denied Nat :=
  match s.tidEntry m t with
  | none => (s, .error (denied causeTidInv addr))
  | some e =>
    if t = 0xFFF || !tdValid e then (s, .error (denied causeTidInv addr))
    else if !load || !tdD e then (s, .ok e)
    else if tdProd e = 0 then (s, .error (denied causeDropped addr))
    else if (match (s.region g).kernel with
      | some k => (s.kernel k).recompute == some (m, t)
      | none => false) then (s, .error (denied causeRecompute addr))
    else (s.beginRecompute m t e, .error { denied causeDropped addr with recompute := some (m, t) })

/-- The entry of a node's pass under a colour, begun now if it has none. -/
def passEntry (f : Fire) (load : Bool) (s : State) : State × Except Denied Nat :=
  match Tab.find (s.node f.h f.k f.n).passes f.col with
  | some e => (s, .ok e.toNat)
  | none =>
    match s.beginPass f.g (f.context s) (agbTid (f.agb s)) f.offset load with
    | (s, .error d) => (s, .error d)
    | (s, .ok e) =>
      (s.modNode f.h f.k f.n (fun x => { x with passes := Tab.set x.passes f.col (BitVec.ofNat 512 e) }), .ok e)

/-- The row and the place in it of a bit offset: `m` rows of `n` elements of `w` bits, each row `str` bits after the one before. -/
def rowAt (str w m n x : Nat) : Option (Nat × Nat) :=
  let i := if str = 0 then 0 else min (x / str) (m - 1)
  if x - i * str < n * w then some (i, (x - i * str) / w) else none

/-- The plane, row and place of a bit offset: planes `str2` bits apart are tried from plane k down. -/
def planeAt (str2 str1 w m n x : Nat) : Nat → Option (Nat × Nat × Nat)
  | 0 => (rowAt str1 w m n x).map (fun p => (0, p.1, p.2))
  | k + 1 =>
    match (if (k + 1) * str2 ≤ x then rowAt str1 w m n (x - (k + 1) * str2) else none) with
    | some p => some (k + 1, p.1, p.2)
    | none => planeAt str2 str1 w m n x k

/-- The same, from the last plane that begins at or before the offset. -/
def strided (e m n x : Nat) : Nat × Nat × Nat :=
  (planeAt (8 * tdStr2 e) (8 * tdStr1 e) (elemWidth (tdFmt e)) m n x
    (if tdStr2 e = 0 then 0 else min (x / (8 * tdStr2 e)) (tdExt2 e - 1))).getD (tdExt2 e, 0, 0)

/-- The element whose first bit lies at a bit offset (R129): k, i, j. Where elements of a ROW or COL tensor overlap it is the one with
the greatest k, and then the last row (log 102). -/
def elementAt (e bitOff : Nat) : Option (Nat × Nat × Nat) :=
  let w := elemWidth (tdFmt e)
  let n0 := cdiv (tdExt0 e) 32
  let n1 := cdiv (tdExt1 e) 32
  let n2 := cdiv (tdExt2 e) 32
  let u := 8 * (128 * w)
  let x := bitOff % u / w
  let p : Nat × Nat × Nat :=
    match tdLay e with
    | 0 => strided e (tdExt1 e) (tdExt0 e) bitOff
    | 1 => let q := strided e (tdExt0 e) (tdExt1 e) bitOff
      (q.1, q.2.2, q.2.1)
    | 2 => (bitOff / u / (n0 * n1), bitOff / u / n0 % n1 * 32 + x / 32, bitOff / u % n0 * 32 + x % 32)
    | 3 => (bitOff / u / (n0 * n1), bitOff / u % n1 * 32 + x % 32, bitOff / u / n1 % n0 * 32 + x / 32)
    | _ =>
      let v := bitOff / (32 * u)
      let y := bitOff % (32 * u) / w
      (v % n2 * 32 + y % 32, v / n2 / n0 * 32 + y / 1024, v / n2 % n0 * 32 + y / 32 % 32)
  if p.1 < tdExt2 e && p.2.1 < tdExt1 e && p.2.2 < tdExt0 e && elemBit e p.1 p.2.1 p.2.2 == bitOff then some p else none

/-- The elements of a run are whole elements of the tensor, and of one scale block where the format has blocks
(cause TRUN). -/
def runOk (e o lanes fmt : Nat) : Bool :=
  let w := elemWidth fmt
  fmt == tdFmt e &&
  (List.range (lanes * elemsPerLane fmt)).all (fun i =>
    match elementAt e (8 * o + i * w), elementAt e (8 * o) with
    | some p, some q => (fmt != 8 && fmt != 9) || (p.1 == q.1 && p.2.1 / 32 == q.2.1 / 32 && p.2.2 / 32 == q.2.2 / 32)
    | _, _ => false)

/-- The parts of the scale word of a run's block (R130); formats without blocks have none. -/
def State.scaleParts (s : State) (g h b e o : Nat) (write : Bool) : Except Denied Parts :=
  if tdFmt e != 8 && tdFmt e != 9 then .ok []
  else
    match elementAt e (8 * o) with
    | none => .ok []
    | some (k, i, j) =>
      let va := scaleAddr e k i j
      if agbLoc b then .ok [(va, bankBase h + va % 0x10000, 2)]
      else if agbVirt b then s.virtParts (sectorUnit h) (s.region g).ctx va 2 write
      else if endpointOk (Tab.get 0 (s.region g).cfg.mesh (agbRt b) : BitVec 64).toNat va 2 then .ok [(va, va, 2)]
      else .error (denied causeSpace va)

/-- The parts of a tensor run and of its scale word. -/
def tensorReach (f : Fire) (s : State) (e n : Nat) (write : Bool) : Except Denied (Parts × Parts) :=
  let b := f.agb s
  match s.reach f.g f.h b { o := f.offset, n := n, write := write, align := 4, local' := false, base := tdBase e } with
  | .error d => .error d
  | .ok ps =>
    if !runOk e f.offset (n / 4) f.code then .error (denied causeTrun (tdBase e + f.offset))
    else
      match s.scaleParts f.g f.h b e f.offset write with
      | .error d => .error d
      | .ok sp => .ok (ps, sp)

/-- The plan of LDT. -/
def ldtPlan (f : Fire) (s : State) : State × Except Denied Plan :=
  let b := f.agb s
  let w := bits f.lit 13 9 + 1
  if !agbV b then (s, .error (denied causeAgbInv f.offset))
  else
    match passEntry f true s with
    | (s, .error d) => (s, .error d)
    | (s, .ok e) =>
      match tensorReach f s e (4 * w) false with
      | .error d => (s, .error d)
      | .ok (ps, sp) =>
        (s, .ok { reads := (List.range w).map (fun i => laneAtPart ps (4 * i) 4), tracked := true
                  scw := if sp.isEmpty then none else some (laneAtPart sp 0 2)
                  leaves := leavesOf b false (ps ++ sp), tok := f.token f.code (List.replicate w 0) 0 0
                  lat := 0, answer := .atReply, t3 := inT3 ps })

def specLdt : MemSpec := { plan := ldtPlan }

/-- `LDT`, R173. -/
def execLdt (r : Rec) (s : State) : Host.Outcome State Fault Refusal := memNode 0x1C6 specLdt true r s

/-! ### Stores (R174, R180) -/

/-- The byte count that a store emits. -/
def bytesToken (f : Fire) : Token := f.token 1 [BitVec.ofNat 32 (4 * f.tb.wid)] 0 0

/-- The plan of ST, STS and MCAST with the token that each emits. -/
def storePlan (local' : Bool) (tok : Fire → Token) (f : Fire) (s : State) : State × Except Denied Plan :=
  let b := f.agb s
  let n := 4 * f.tb.wid
  if !agbV b then (s, .error (denied causeAgbInv f.offset))
  else
    match s.reach f.g f.h b { o := f.offset, n := n, write := true, align := 4, local' := local', base := agbBase b } with
    | .error d => (s, .error d)
    | .ok ps =>
      (s, .ok { writes := storeEntries f f.tb.tnt ps (bytesOf f.tb.lanes), leaves := leavesOf b true ps, tok := tok f
                pointer := if local' && agbWpe b then some (agbWpn b, f.offset, n) else none, t3 := inT3 ps })

/-- ST, STS, and MCAST, whose firing sends B on unchanged at once. -/
def specSt : MemSpec := { plan := storePlan false bytesToken, writing := true, laneZero := true }
def specSts : MemSpec := { plan := storePlan true bytesToken, writing := true, laneZero := true }
def specMcast : MemSpec := { plan := storePlan false (fun f => f.moved f.tb), writing := true, early := true }

/-- `ST`, R174. -/
def execSt (r : Rec) (s : State) : Host.Outcome State Fault Refusal := memNode 0x1C2 specSt true r s

/-- `STS`, R174. -/
def execSts (r : Rec) (s : State) : Host.Outcome State Fault Refusal := memNode 0x1C5 specSts true r s

/-- `MCAST`, R180. -/
def execMcast (r : Rec) (s : State) : Host.Outcome State Fault Refusal := memNode 0x1E1 specMcast true r s

/-- The plan of STT. -/
def sttPlan (f : Fire) (s : State) : State × Except Denied Plan :=
  let b := f.agb s
  let n := 4 * f.tb.wid
  if !agbV b then (s, .error (denied causeAgbInv f.offset))
  else
    match passEntry f false s with
    | (s, .error d) => (s, .error d)
    | (s, .ok e) =>
      match tensorReach f s e n true with
      | .error d => (s, .error d)
      | .ok (ps, sp) =>
        (s, .ok { writes := storeEntries f f.tb.tnt ps (bytesOf f.tb.lanes) ++ storeEntries f f.tb.tnt sp (leBytes 2 f.tb.scw)
                  mix := if sp.isEmpty then none else some (partAddr sp 0, f.tb.scw % 65536)
                  leaves := leavesOf b true (ps ++ sp), tok := bytesToken f, t3 := inT3 ps })

def specStt : MemSpec := { plan := sttPlan, writing := true }

/-- `STT`, R174. -/
def execStt (r : Rec) (s : State) : Host.Outcome State Fault Refusal := memNode 0x1C7 specStt true r s

/-! ### PREF and FENCE (R175, R179) -/

/-- The plan of PREF: a hint that fails does nothing. -/
def prefPlan (f : Fire) (s : State) : State × Except Denied Plan :=
  let b := f.agb s
  let parts : Parts :=
    if bit f.lit 4 || !agbV b then []
    else match s.reach f.g f.h b { o := f.offset, n := 4, write := false, align := 4, local' := false, base := agbBase b } with
      | .error _ => []
      | .ok ps => ps
  (s, .ok { leaves := leavesOf b false parts, hint := parts, tok := f.passed })

/-- PREF, and FENCE, which holds A until the writes within its scope have performed. -/
def specPref : MemSpec := { plan := prefPlan }
def specFence : MemSpec :=
  { plan := fun f s => (s, .ok { tok := f.passed, lat := 0, answer := .fenced (bits f.lit 8 6) }) }

/-- `PREF`, R175. -/
def execPref (r : Rec) (s : State) : Host.Outcome State Fault Refusal := memNode 0x1C9 specPref true r s

/-- `FENCE`, R179. -/
def execFence (r : Rec) (s : State) : Host.Outcome State Fault Refusal := memNode 0x1E0 specFence true r s

/-! ### Atomics (R176, R177) -/

/-- Qualifying lanes of a token. -/
def qualLanes (f : Fire) (t : Token) : List Word := (f.qual.zip t.lanes).filterMap (fun x => if x.1 then some x.2 else none)

/-- Entries of an atomic, in lane order. -/
def atomicEntries (f : Fire) (op : Nat) : List Parts → List Word → List Word → List DamperEntry
  | p :: ps, b :: bs, cs =>
    atomicEntry f (f.tb.tnt || (match f.c with
      | some c => c.tnt
      | none => false)) (partAddr p 0) op f.code b.toNat (cs.headD 0).toNat :: atomicEntries f op ps bs cs.tail
  | _, _, _ => []

/-- The plan of an atomic. -/
def atomicPlan (f : Fire) (s : State) : State × Except Denied Plan :=
  let b := f.agb s
  let op := f.opc - 0x1D0
  if !agbV b then (s, .error (denied causeAgbInv f.offset))
  else
    match s.reachAll f.g f.h b (laneAsks f 4 true 4 (agbBase b)) with
    | .error d => (s, .error d)
    | .ok pss =>
      (s, .ok { reads := laneReads f.qual f.ta.lanes pss, tracked := true, compare := op == 8
                writes := atomicEntries f op pss (qualLanes f f.tb) (if op = 8 then qualLanes f f.tc else [])
                leaves := pss.flatMap (leavesOf b true), tok := f.token f.code f.ta.lanes 0 0
                lat := 0, answer := .atReply, t3 := pss.any inT3 })

def specAtomic : MemSpec := { plan := atomicPlan, writing := true }

/-- An atomic at the node of the running step. -/
def atomic (opc : Nat) (r : Rec) (s : State) : Host.Outcome State Fault Refusal := memNode opc specAtomic false r s

/-- `AADD`, R176. -/
def execAadd (r : Rec) (s : State) : Host.Outcome State Fault Refusal := atomic 0x1D0 r s
/-- `AFADD`, R176. -/
def execAfadd (r : Rec) (s : State) : Host.Outcome State Fault Refusal := atomic 0x1D1 r s
/-- `AMIN`, R176. -/
def execAmin (r : Rec) (s : State) : Host.Outcome State Fault Refusal := atomic 0x1D2 r s
/-- `AMAX`, R176. -/
def execAmax (r : Rec) (s : State) : Host.Outcome State Fault Refusal := atomic 0x1D3 r s
/-- `AAND`, R176. -/
def execAand (r : Rec) (s : State) : Host.Outcome State Fault Refusal := atomic 0x1D4 r s
/-- `AOR`, R176. -/
def execAor (r : Rec) (s : State) : Host.Outcome State Fault Refusal := atomic 0x1D5 r s
/-- `AXOR`, R176. -/
def execAxor (r : Rec) (s : State) : Host.Outcome State Fault Refusal := atomic 0x1D6 r s
/-- `AXCHG`, R176. -/
def execAxchg (r : Rec) (s : State) : Host.Outcome State Fault Refusal := atomic 0x1D7 r s
/-- `ACAS`, R177. -/
def execAcas (r : Rec) (s : State) : Host.Outcome State Fault Refusal := atomic 0x1D8 r s
/-- `AINC`, R176. -/
def execAinc (r : Rec) (s : State) : Host.Outcome State Fault Refusal := atomic 0x1D9 r s

/-! ### OPTST (R178) and RETW (R304) -/

/-- The entry for the gradient words of one half of a granule: its words from place `i` on. It keeps the low address bits of its
words. -/
def halfEntry (f : Fire) (tnt : Bool) (pa i : Nat) (ws : List Word) : DamperEntry :=
  entryFor f tnt 2 pa (byteMask (4 * i) (4 * ws.length)) (BitVec.ofNat 256 (leNat (bytesOf ws) * 2 ^ (32 * i)))

/-- Entries of an OPTST: for each granule that the row meets two of gradient words and one of η and δ (R335). Word L of the row lies at
`partAddr ps (4 * L)`. -/
def optEntries (f : Fire) (eta delta : Nat) (ps : Parts) : Nat → Nat → List Word → List DamperEntry
  | 0, _, _ => []
  | i + 1, l, ws =>
    if ws.isEmpty then []
    else
      let a := partAddr ps (4 * l)
      let at' := a % 64 / 4
      let base := a / 64 * 64 + a % 4
      let tnt := f.tb.tnt || f.tc.tnt
      halfEntry f tnt base (min at' 8) (ws.take (8 - at')) ::
      halfEntry f tnt (base + 32) (at' - 8) ((ws.drop (8 - at')).take (8 - (at' - 8))) ::
      entryFor f tnt 3 base (byteMask 0 8) (BitVec.ofNat 256 (eta + 2 ^ 32 * delta)) ::
      optEntries f eta delta ps i (l + (16 - at')) (ws.drop (16 - at'))

/-- The plan of OPTST. -/
def optPlan (f : Fire) (s : State) : State × Except Denied Plan :=
  let b := f.agb s
  if !agbV b then (s, .error (denied causeAgbInv f.offset))
  else
    match s.reach f.g f.h b { o := f.offset, n := 4 * f.tb.wid, write := true, align := 64, local' := false, base := agbBase b } with
    | .error d => (s, .error d)
    | .ok ps =>
      (s, .ok { writes := optEntries f (f.tc.lanes.getD 0 0).toNat (f.tc.lanes.getD 1 0).toNat ps f.tb.wid 0 f.tb.lanes
                leaves := leavesOf b true ps, tok := f.token 1 [BitVec.ofNat 32 f.tb.wid] 0 0, t3 := inT3 ps })

/-- B is not whole granules, or C does not hold η and δ (Table 9-7). -/
def optNarrow (f : Fire) : Bool := decide (f.tb.wid % 16 ≠ 0 ∨ f.tc.wid < 2)

def specOptst : MemSpec := { plan := optPlan, writing := true, badWidth := optNarrow }

/-- `OPTST`, R178. -/
def execOptst (r : Rec) (s : State) : Host.Outcome State Fault Refusal := memNode 0x1DA specOptst true r s

/-- Entries of a RETW, one for each lane. -/
def retEntries (f : Fire) : List Parts → List Word → List DamperEntry
  | p :: ps, b :: bs =>
    entryFor f f.tb.tnt 4 (partAddr p 0) (byteMask (partAddr p 0 % 32) 1) (BitVec.ofNat 256 (b.toNat % 256)) :: retEntries f ps bs
  | _, _ => []

/-- The plan of RETW. -/
def retPlan (f : Fire) (s : State) : State × Except Denied Plan :=
  let b := f.agb s
  if !agbV b then (s, .error (denied causeAgbInv f.offset))
  else
    match s.reachAll f.g f.h b (laneAsks f 1 true 1 (agbBase b)) with
    | .error d => (s, .error d)
    | .ok pss =>
      (s, .ok { writes := retEntries f pss (qualLanes f f.tb), leaves := pss.flatMap (leavesOf b true)
                tok := f.token 1 [BitVec.ofNat 32 pss.length] 0 0, t3 := pss.any inT3 })

def specRetw : MemSpec := { plan := retPlan, writing := true }

/-- `RETW`, R304. -/
def execRetw (r : Rec) (s : State) : Host.Outcome State Fault Refusal := memNode 0x1DB specRetw false r s

/-- How a memory instruction of an opcode fires. -/
def memSpecOf (opc : Nat) : Option (MemSpec × Bool) :=
  match opc with
  | 0x1C1 => some (specLd, true)
  | 0x1C2 => some (specSt, true)
  | 0x1C3 => some (specLdx, false)
  | 0x1C4 => some (specLds, true)
  | 0x1C5 => some (specSts, true)
  | 0x1C6 => some (specLdt, true)
  | 0x1C7 => some (specStt, true)
  | 0x1C8 => some (specLdn, true)
  | 0x1C9 => some (specPref, true)
  | 0x1D0 | 0x1D1 | 0x1D2 | 0x1D3 | 0x1D4 | 0x1D5 | 0x1D6 | 0x1D7 | 0x1D8 | 0x1D9 => some (specAtomic, false)
  | 0x1DA => some (specOptst, true)
  | 0x1DB => some (specRetw, false)
  | 0x1E0 => some (specFence, true)
  | 0x1E1 => some (specMcast, true)
  | _ => none

/-! ### Write pointers (R182) -/

/-- The pointer that a firing names. -/
def Fire.pointer (f : Fire) (s : State) : Nat := s.pointer (dieOf f.h) (f.lit % 64)

/-- `WPTR`, R182. -/
def execWptr (r : Rec) (s : State) : Host.Outcome State Fault Refusal :=
  fireNode 0x1E2 r {} (fun f s =>
    (s, .emit 2 (f.token 1 [BitVec.ofNat 32 (f.pointer s), BitVec.ofNat 32 (f.pointer s / 2 ^ 32)] 0 0))) s

/-- The pointer has reached the threshold. -/
def pointerReached (f : Fire) (s : State) : Bool := decide (f.offset + bits f.lit 31 16 ≤ f.pointer s)

/-- `WPWAIT`, R182: its latency is variable (log 4). -/
def execWpwait (r : Rec) (s : State) : Host.Outcome State Fault Refusal :=
  fireNode 0x1E3 r { ready := pointerReached, anyWidth := true } (fun f s =>
    let (d, s) := s.resultDelay f 0
    (s.inFlight f d, .emit d f.passed)) s

end Sys2Proof.Machine
end

