-- ==== Sys2Proof/Machine/Loader.lean ====
section
/-! DEFINITION. The configuration loader: reading an image (R216, R217), the checks made before anything becomes resident
(R219, Table 11-3), circuits and their link slots (R218), the carve, and putting a configuration in place. -/

namespace Sys2Proof.Machine

/-! ### Reading an image (R216, R217) -/

/-- `i` numbers of `n` bytes each. -/
def numbers (n : Nat) : Nat → List Byte → List Nat
  | 0, _ => []
  | i + 1, bs => leNat (bs.take n) :: numbers n i (bs.drop n)

/-- A hearth block's fields. -/
def blockOf (bs : List Byte) : Block :=
  { header := leNat (bs.take 16), recs := numbers 16 16 (bs.drop 16), circuits := numbers 16 12 (bs.drop 272)
    routes := numbers 4 16 (bs.drop 464), tail := leNat ((bs.drop 528).take 48) }

/-- The hearth blocks. -/
def blocksOf : Nat → List Byte → List Block
  | 0, _ => []
  | i + 1, bs => blockOf (bs.take 576) :: blocksOf i (bs.drop 576)

def headW (hd : Nat) : Nat := bits hd 463 456
def headH (hd : Nat) : Nat := bits hd 455 448
def headCarve (hd : Nat) : Nat := bits hd 447 443

/-- An image from its header and the bytes from offset 0x40 on. -/
def imageFrom (hd : Nat) (bs : List Byte) : Image :=
  { cfgid := bits hd 431 400, w := headW hd, h := headH hd, carve := 2048 * headCarve hd
    agb := numbers 64 16 bs, cdx := numbers 64 16 (bs.drop 0x400), mesh := numbers 8 16 (bs.drop 0x800)
    blocks := blocksOf (headW hd * headH hd) (bs.drop 0x880) }

/-- Node n of a block is present. -/
def Block.present (b : Block) (n : Nat) : Bool := bit b.header n

/-- The record of a node, if it is present. -/
def Block.record (b : Block) (n : Nat) : Option (Nat × Rec × Nat) :=
  if b.present n then
    let v := b.recs.getD n 0
    let w := BitVec.ofNat 96 v
    some (recordOpc w, decodeFields w, v / 2 ^ 96)
  else none

/-- The present records with their node numbers. -/
def Block.records (b : Block) : List (Nat × Nat × Rec × Nat) :=
  (List.range 16).filterMap (fun n => (b.record n).map (fun x => (n, x)))

/-- Dynamic joins of a hearth (R66). -/
def Block.joins (b : Block) : Nat := (b.records.filter (fun x => isDynamic x.2.1 x.2.2.1)).length

/-- The largest count of dynamic joins in one hearth of an image. -/
def Image.joins (i : Image) : Nat := i.blocks.foldl (fun a b => max a b.joins) 0

/-- A block with its place in the rectangle. -/
def Image.placed (i : Image) : List (Nat × Nat × Block) := i.blocks.mapIdx (fun j b => (j % i.w, j / i.w, b))

/-- The block of a hearth at (x, y) from the origin. -/
def Image.blockAt (i : Image) (x y : Nat) : Option Block := if x < i.w && y < i.h then i.blocks[y * i.w + x]? else none

/-! ### Circuits (R218) -/

/-- The links from (x, y) to (tx, ty), each by the hearth it leaves and its direction: first along x, then along y. -/
def pathLinks (d x y tx ty : Nat) : List (Nat × Nat) :=
  (if x ≤ tx then (List.range (tx - x)).map (fun i => (hearthAt d (x + i) y, 0))
   else (List.range (x - tx)).map (fun i => (hearthAt d (x - i) y, 1))) ++
  (if y ≤ ty then (List.range (ty - y)).map (fun i => (hearthAt d tx (y + i), 2))
   else (List.range (y - ty)).map (fun i => (hearthAt d tx (y - i), 3)))

/-- Far ends of a circuit-port entry, from the origin. -/
def circuitFar (e : Nat) : List (Nat × Nat) :=
  if !bit e 127 then [] else (bits e 99 93, bits e 92 86) :: (if bit e 126 then [(bits e 85 79, bits e 78 72)] else [])

/-- Far end of a predicate-route entry. -/
def routeFar (e : Nat) : List (Nat × Nat) := if bit e 31 then [(bits e 30 24, bits e 23 17)] else []

/-- A link in one direction and slot; slot 16 is the predicate network. -/
def linkKey (l : Nat × Nat) (slot : Nat) : Nat := (l.1 * 4 + l.2) * 17 + slot

/-- Link slots of a circuit from hearth (x, y) of a rectangle with origin (ox, oy); common links count once. -/
def circuitUses (d ox oy x y e : Nat) : List Nat :=
  let owned := (List.range 16).filter (fun s => bit e (100 + s))
  ((circuitFar e).flatMap (fun t =>
    ((pathLinks d (ox + x) (oy + y) (ox + t.1) (oy + t.2)).mapIdx (fun j l =>
      owned.map (fun s => linkKey l ((s + 2 * j) % 16)))).flatten)).foldl insertRising []

/-- Links of a predicate route. -/
def routeUses (d ox oy x y e : Nat) : List Nat :=
  ((routeFar e).flatMap (fun t =>
    (pathLinks d (ox + x) (oy + y) (ox + t.1) (oy + t.2)).map (fun l => linkKey l 16))).foldl insertRising []

/-- What each circuit and route of an image uses, with the hearth it begins in. -/
def Image.uses (i : Image) (d ox oy : Nat) : List (Nat × List Nat) :=
  i.placed.flatMap (fun p =>
    (p.2.2.circuits.map (circuitUses d ox oy p.1 p.2.1) ++ p.2.2.routes.map (routeUses d ox oy p.1 p.2.1)).map
      (fun u => (hearthAt d (ox + p.1) (oy + p.2.1), u)))

/-- Link slots of the configurations that other context slots hold on a die. -/
def State.usesOfOthers (s : State) (d k : Nat) : List Nat :=
  (s.slots.filter (fun e => dieOf (e.1 / 4) == d && e.1 % 4 != k)).flatMap (fun e =>
    match e.2.region with
    | none => []
    | some g =>
      let r := s.region g
      let x := colOf (e.1 / 4) - r.x
      let y := rowOf (e.1 / 4) - r.y
      e.2.cfg.circuits.flatMap (fun c => circuitUses d r.x r.y x y (c.2 : BitVec 128).toNat) ++
      e.2.cfg.routes.flatMap (fun c => routeUses d r.x r.y x y (c.2 : BitVec 32).toNat))

/-- The hearth of the first circuit or route that meets a link slot in use. -/
def collision : List Nat → List (Nat × List Nat) → Option Nat
  | _, [] => none
  | used, (h, u) :: t => if u.any (fun k => used.contains k) then some h else collision (used ++ u) t

/-- Hearths that a circuit or route passes, its ends among them. -/
def passedHearths (d ox oy x y : Nat) (far : List (Nat × Nat)) : List Nat :=
  far.flatMap (fun t =>
    hearthAt d (ox + t.1) (oy + t.2) :: hearthAt d (ox + x) (oy + y) ::
      (pathLinks d (ox + x) (oy + y) (ox + t.1) (oy + t.2)).map (fun l => l.1))

/-- Hearths that an image uses. -/
def Image.usedHearths (i : Image) (d ox oy : Nat) : List Nat :=
  (i.placed.flatMap (fun p =>
    (if p.2.2.header % 65536 != 0 then [hearthAt d (ox + p.1) (oy + p.2.1)] else []) ++
    (p.2.2.circuits.flatMap (fun e => passedHearths d ox oy p.1 p.2.1 (circuitFar e))) ++
    (p.2.2.routes.flatMap (fun e => passedHearths d ox oy p.1 p.2.1 (routeFar e))))).foldl insertRising []

/-! ### The checks (R219, Table 11-3) -/

/-- A failed load: its status, the failing hearth where the condition is one of a hearth, and the R58 report. -/
structure LoadFail where
  status : Nat
  hearth : Option Nat := none
  reason : Nat := 0
  node : Nat := 0
  deriving DecidableEq, Repr

/-- Where an image is to lie. -/
structure Site where
  die : Nat
  x : Nat
  y : Nat
  k : Nat
  /-- A callee lies within its region (R227). -/
  within : Option Nat
  /-- The loading node's own region. -/
  own : Option Nat
  /-- The region record of the load itself, and regions it has moved to Loading. -/
  mine : List Nat
  deriving DecidableEq, Repr

/-- The header checks of stage 1. -/
def State.headOk (s : State) (p : Site) (va hd : Nat) : Bool :=
  va % 64 == 0 && bits hd 511 480 == 0x4B584931 && bits hd 479 464 == 1 && bits hd 442 432 == 0 && bits hd 399 0 == 0 &&
  decide (1 ≤ headW hd) && decide (1 ≤ headH hd) && decide (p.x + headW hd ≤ 128) && decide (p.y + headH hd ≤ 96) &&
  decide (headCarve hd ≤ 16) &&
  (match p.within with
   | none => true
   | some g => decide (headW hd ≤ (s.region g).w) && decide (headH hd ≤ (s.region g).h))

/-- A read of committed memory by the Stoker, the loader or an engine waits: a table entry on its walk or a granule that it reads is
prepared (R190, R320). -/
def State.readWaits (s : State) (u m va n : Nat) : Bool :=
  (pieces va n).any (fun p => s.walkWaits u m p.1) ||
  (match s.locateAll u m false (pieces va n) with
   | .error _ => false
   | .ok ps => ps.any (fun p => s.prepared (forwardAddr s.forwards p.2.1 / 64)))

/-- Stage 1: the header, or IMGFLT or CFGBAD. -/
def State.loadHead (s : State) (m va : Nat) (p : Site) : Except LoadFail Nat :=
  match s.readVirt s.agent m va 64 with
  | .error _ => .error { status := 9 }
  | .ok (bs, _) => if s.headOk p va (leNat bs) then .ok (leNat bs) else .error { status := 3 }

/-- The rest of an image. -/
def State.loadRest (s : State) (m va hd : Nat) : Except LoadFail Image :=
  match s.readVirt s.agent m (va + 64) (0x880 + headW hd * headH hd * 576) with
  | .error _ => .error { status := 9 }
  | .ok (bs, _) => .ok (imageFrom hd bs)

/-- Bytes of an image whose header is `hd`. -/
def imageBytes (hd : Nat) : Nat := 0x8C0 + headW hd * headH hd * 576

/-- Bytes of the image at an address, as its header says; the header alone where it cannot be read. -/
def State.imageSize (s : State) (m va : Nat) : Nat := match s.readVirt s.agent m va 64 with
  | .ok (bs, _) => imageBytes (leNat bs)
  | .error _ => 64

/-- The read of an image waits on a prepared granule (R190). -/
def State.imageWaits (s : State) (m va : Nat) : Bool := s.readWaits s.agent m va (s.imageSize m va)

/-- An image has been read: its translations were used (R323). -/
def State.imageRead (s : State) (m va : Nat) : State := s.readUsed s.agent m va (s.imageSize m va)

/-- What a load has read that ends so: only the header of an image whose header fails (stage 1), else the whole image. -/
def State.loadRead (s : State) (m va : Nat) (p : Site) : State := match s.loadHead m va p with
  | .error _ => s.readUsed s.agent m va 64
  | .ok _ => s.imageRead m va

/-- A hearth of the site at (x, y) from its origin. -/
def Site.hearth (p : Site) (x y : Nat) : Nat := hearthAt p.die (p.x + x) (p.y + y)

/-- The first record that fails R58, with its hearth. -/
def illOf (p : Site) (i : Image) : Option LoadFail :=
  i.placed.findSome? (fun b => b.2.2.records.findSome? (fun x =>
    (recordReason x.2.1 x.2.2.1 x.2.2.2).map (fun why =>
      { status := 1, hearth := some (p.hearth b.1 b.2.1), reason := why, node := x.1 : LoadFail })))

/-- A valid binding's own fields (R166). -/
def agbOk (b : Nat) : Bool :=
  !agbV b || (bits b 222 0 == 0 && !(agbLoc b && agbVirt b) && agbLimit b != 0 && agbN b 0 != 0 && agbN b 1 != 0 && agbN b 2 != 0)

/-- Carves above 16 KiB that evicted regions keep in a hearth (R237). -/
def State.keptCarves (s : State) (h : Nat) : List (Nat × Nat) :=
  s.regions.filterMap (fun e =>
    if e.2.residence == .evicted then
      match Tab.find e.2.image h with
      | some x => if 0x4000 < x.carveSize then some (x.carveStart, x.carveSize) else none
      | none => none
    else none)

/-- The highest free run for a carve in a hearth (R219): carves of other slots and kept ones stand in its way. -/
def State.carveFor (s : State) (h k size : Nat) : Option Nat :=
  let taken := s.keptCarves h ++ (List.range 4).filterMap (fun j =>
    let x := s.slot h j
    if j = k || x.carveSize = 0 then none else some (x.carveStart, x.carveSize))
  ((List.range 17).map (fun i => 0x10000 - 2048 * i)).find? (fun top =>
    decide (0x8000 + size ≤ top) && taken.all (fun t => decide (top ≤ t.1) || decide (t.1 + t.2 ≤ top - size))) |>.map (fun top => top - size)

/-- Where a hearth's carve lies once the image is in place. -/
def State.carveAt (s : State) (p : Site) (h size : Nat) : Option Nat :=
  match p.within with
  | some _ => some (s.slot h p.k).carveStart
  | none => s.carveFor h p.k size

/-- AGBBAD. -/
def State.agbBad (s : State) (p : Site) (i : Image) : Option LoadFail :=
  if !i.agb.all agbOk then some { status := 2 }
  else
    i.placed.findSome? (fun b =>
      match s.carveAt p (p.hearth b.1 b.2.1) i.carve with
      | none => none
      | some c =>
        if i.agb.any (fun e => agbV e && agbLoc e && decide (c < agbLimit e)) then
          some { status := 2, hearth := some (p.hearth b.1 b.2.1) : LoadFail }
        else none)

/-- A mesh route entry's form. -/
def meshOk (e : Nat) : Bool :=
  bits e 26 0 == 0 && (!bit e 63 || decide (bits e 46 43 ≤ 6)) && (bits e 46 43 == 0 || bits e 32 27 == 0)

/-- A far end lies in the rectangle, and not at the near end. -/
def farOk (i : Image) (x y : Nat) (t : Nat × Nat) : Bool := decide (t.1 < i.w) && decide (t.2 < i.h) && !(t.1 == x && t.2 == y)

/-- A circuit-port entry's form. -/
def circuitOk (i : Image) (x y e : Nat) : Bool :=
  bits e 71 0 == 0 &&
  (!bit e 127 || (bits e 115 100 != 0 && (bit e 126 || bits e 85 72 == 0) && (circuitFar e).all (farOk i x y)))

/-- A predicate-route entry's form. -/
def routeOk (i : Image) (x y e : Nat) : Bool := bits e 6 0 == 0 && (routeFar e).all (farOk i x y)

/-- A destination has the port entry, mesh entry or route that it needs. -/
def destServed (i : Image) (b : Block) (n : Nat) (d : Dest) : Bool :=
  d.v == 0 ||
  (match d.oport.toNat with
   | 12 => true
   | 13 => let e := i.mesh.getD d.node.toNat 0; bit e 63 && bits e 46 43 == 0
   | 14 => bit (b.routes.getD n 0) 31
   | 15 => true
   | p => bit (b.circuits.getD p 0) 127)

/-- A hearth block's own conditions of CFGBAD. -/
def blockOk (i : Image) (x y : Nat) (b : Block) : Bool :=
  b.header / 65536 == 0 && b.tail == 0 &&
  (List.range 16).all (fun n => b.present n || b.recs.getD n 0 == 0) &&
  b.circuits.all (circuitOk i x y) && b.routes.all (routeOk i x y) &&
  b.records.all (fun r => destServed i b r.1 r.2.2.1.d0 && destServed i b r.1 r.2.2.1.d1)

/-- CFGBAD conditions beyond the header. -/
def State.cfgBad (s : State) (p : Site) (i : Image) : Option LoadFail :=
  if !i.mesh.all meshOk || !i.cdx.all (fun d => !cdxV d || cdxOk d) then some { status := 3 }
  else match i.placed.find? (fun b => !blockOk i b.1 b.2.1 b.2.2) with
    | some b => some { status := 3, hearth := some (p.hearth b.1 b.2.1) }
    | none =>
      match p.within with
      | none => none
      | some g =>
        (i.placed.find? (fun b => decide ((s.region g).jmax < b.2.2.joins))).map (fun b =>
          { status := 3, hearth := some (p.hearth b.1 b.2.1) })

/-- SLOTBAD. -/
def State.slotBad (s : State) (p : Site) (i : Image) : Option LoadFail :=
  (collision (s.usesOfOthers p.die p.k) (i.uses p.die p.x p.y)).map (fun h => { status := 4, hearth := some h })

/-- JDQ reservations of the records that other slots of a hearth hold. -/
def State.jdqOthers (s : State) (h k : Nat) : Nat :=
  (List.range 4).foldl (fun a j =>
    if j = k then a else (s.slot h j).cfg.store.foldl (fun a e => a + (decodeFields e.2).jdq.toNat) a) 0

/-- JDQBAD. -/
def State.jdqBad (s : State) (p : Site) (i : Image) : Option LoadFail :=
  (i.placed.find? (fun b =>
    decide (96 < b.2.2.records.foldl (fun a r => a + r.2.2.1.jdq.toNat) (s.jdqOthers (p.hearth b.1 b.2.1) p.k)))).map
    (fun b => { status := 5, hearth := some (p.hearth b.1 b.2.1) })

/-- CARVEBAD. -/
def State.carveBad (s : State) (p : Site) (i : Image) : Option LoadFail :=
  match p.within with
  | some g => if (s.region g).carve < i.carve then some { status := 6 } else none
  | none =>
    (i.placed.find? (fun b => (s.carveFor (p.hearth b.1 b.2.1) p.k i.carve).isNone)).map (fun b =>
      { status := 6, hearth := some (p.hearth b.1 b.2.1) })

/-- A hearth is fenced, by itself or with its die. -/
def State.isFenced (s : State) (h : Nat) : Bool := (s.hearth h).fenced || s.fencedDies.contains (dieOf h)

/-- FENCED. -/
def State.fencedBad (s : State) (p : Site) (i : Image) : Option LoadFail :=
  ((i.usedHearths p.die p.x p.y).find? s.isFenced).map (fun h => { status := 7, hearth := some h })

/-- Two rectangles of one die overlap. -/
def Region.meets (r : Region) (d x y w h : Nat) : Bool :=
  r.die == d && (decide (r.x < x + w) && decide (x < r.x + r.w)) && (decide (r.y < y + h) && decide (y < r.y + r.h))

/-- BUSY: a region of the slot that is neither Unbound nor Resident, or the loading node's own. -/
def State.busyBad (s : State) (p : Site) (i : Image) : Option LoadFail :=
  if p.within.isSome then none
  else
    let rs := s.regions.filter (fun e => e.2.slot == p.k && e.2.meets p.die p.x p.y i.w i.h && e.2.st != .unbound && e.2.residence != .evicted &&
      !p.mine.contains e.1 && (p.own == some e.1 || e.2.st != .resident))
    (i.placed.find? (fun b => rs.any (fun e => e.2.holds (p.hearth b.1 b.2.1)))).map (fun b =>
      { status := 8, hearth := some (p.hearth b.1 b.2.1) })

/-- Stage 2 in table order. -/
def State.checkRest (s : State) (p : Site) (i : Image) : Except LoadFail Unit :=
  match illOf p i <|> s.agbBad p i <|> s.cfgBad p i <|> s.slotBad p i <|> s.jdqBad p i <|> s.carveBad p i <|>
      s.fencedBad p i <|> s.busyBad p i with
  | some f => .error f
  | none => .ok ()

/-- The image that passes every check after its header. -/
def State.loadFrom (s : State) (m va hd : Nat) (p : Site) : Except LoadFail Image :=
  match s.loadRest m va hd with
  | .error f => .error f
  | .ok i =>
    match s.checkRest p i with
    | .error f => .error f
    | .ok _ => .ok i

/-- The image that passes every check. -/
def State.loadImage (s : State) (m va : Nat) (p : Site) : Except LoadFail Image :=
  match s.loadHead m va p with
  | .error f => .error f
  | .ok hd => s.loadFrom m va hd p

/-! ### Putting a configuration in place -/

/-- Non-zero numbers as a table. -/
def tableOf (w : Nat) (xs : List Nat) : Tab (BitVec w) :=
  (xs.mapIdx (fun i x => (i, x))).filterMap (fun e => if e.2 = 0 then none else some (e.1, BitVec.ofNat w e.2))

/-- The records that become resident. -/
def Block.store (b : Block) : Tab (BitVec 96) :=
  (List.range 16).filterMap (fun n => if b.present n then some (n, BitVec.ofNat 96 (b.recs.getD n 0)) else none)

/-- Fresh node state (R73): E starts at WGT + 1. -/
def freshNodes (store : Tab (BitVec 96)) : Tab NodeState :=
  store.filterMap (fun e =>
    let w := (decodeFields e.2).wgt.toNat
    if w = 0 then none else some (e.1, { weight := w + 1 }))

/-- A slot's configuration from a block; without one it holds nothing. -/
def freshConfig (b : Option Block) : SlotConfig :=
  match b with
  | none => {}
  | some b => { store := b.store, circuits := tableOf 128 b.circuits, routes := tableOf 32 b.routes, nodes := freshNodes b.store }

/-- The same records, tables and routes with fresh node state, queues and ordering buffer (R227). -/
def SlotConfig.cleared (x : SlotConfig) : SlotConfig :=
  { store := x.store, circuits := x.circuits, routes := x.routes, nodes := freshNodes x.store }

/-- What every hearth of a region holds of an image. -/
def configOf (i : Image) : RegionConfig :=
  { cfgid := i.cfgid, w := i.w, h := i.h, agb := tableOf 512 i.agb, cdx := tableOf 512 i.cdx, mesh := tableOf 64 i.mesh }

/-- Write an image's records and tables into the slots of a region. -/
def State.installBlocks (s : State) (g : Nat) (i : Image) : State :=
  let r := s.region g
  let s := s.modRegion g (fun r => { r with cfg := configOf i })
  r.hearths.foldl (fun s h =>
    s.modSlot h r.slot (fun x => { x with cfg := freshConfig (i.blockAt (colOf h - r.x) (rowOf h - r.y)) })) s

/-- Take a region's hearths from it: records, tables, carve and reservations are freed. -/
def State.clearSlots (s : State) (g : Nat) : State :=
  { s with slots := s.slots.map (fun e =>
      if e.2.region == some g then
        (e.1, { lfsr := e.2.lfsr, firedAt := e.2.firedAt : SlotState })
      else e) }

/-- A file whose image is dropped is nowhere: it reads +0, with AF, AT and ACOL clear (R151). -/
def Hearth.forgetImage (x : Hearth) (m : Nat) : Hearth :=
  if (Tab.get {} x.accs m).place == .image then { x with accs := Tab.drop x.accs m } else x

/-- The image of a region that is released is dropped. -/
def State.dropImage (s : State) (g : Nat) : State :=
  let r := s.region g
  ({ s with hearths := s.hearths.map (fun e => if r.image.any (fun x => x.1 == e.1) then (e.1, e.2.forgetImage r.ctx) else e) } : State).modRegion g
    (fun r => { r with residence := .absent, image := [], imageFlights := [] })

/-- A region becomes Unbound (R215). -/
def State.unbind (s : State) (g : Nat) : State :=
  (s.clearSlots g).modRegion g (fun r => { r with st := .unbound, kernel := none, calls := [], tailg := none, drain := none, snapshot := none })

/-- A checked image becomes resident in a region whose rectangle it has. -/
def State.becomeResident (s : State) (g : Nat) (i : Image) : State :=
  let r := s.region g
  let s := r.hearths.foldl (fun s h =>
    s.modSlot h r.slot (fun x =>
      { x with region := some g, carveStart := (s.carveFor h r.slot i.carve).getD 0x10000, carveSize := i.carve })) s
  (s.installBlocks g i).modRegion g (fun r => { r with st := .resident, cfgid := i.cfgid, carve := i.carve, depth := 0 })

end Sys2Proof.Machine
end

