-- ==== Sys2Proof/Machine/Planes.lean ====
section
/-! DEFINITION. Where frame runs, ember planes and colour tables lie as bytes: the addresses of R67, R226 and R249, the contents of
a plane in T1 (R225), and what a restore from there finds. -/

namespace Sys2Proof.Machine

/-! ### Frame runs (R67) -/

/-- The bytes of a run's slots. -/
def Colour.slotsSize (c : Colour) (jmax : Nat) : Nat := (c.km1 + 1) * jmax * slotBytes c.wid

/-- The region's part of its kernel's overflow area (R249). -/
def State.overflowPart (s : State) (g : Nat) : Nat := match (s.region g).kernel with
  | some e => (s.kernel e).ova + (s.region g).index * (s.kernel e).ovsz
  | none => 0

/-! ### What lies at a granule (R346) -/

/-- Two physical ranges meet. -/
def meets64 (granule a n : Nat) : Bool := decide (a < 64 * granule + 64) && decide (64 * granule < a + n)

/-- Split a virtual range into the pieces of its 64 KiB pages. -/
def pagePieces (va n : Nat) : List (Nat × Nat) :=
  (List.range (if n = 0 then 0 else (va + n - 1) / 65536 - va / 65536 + 1)).map (fun i =>
    let lo := max va (65536 * (va / 65536 + i))
    (lo, min (va + n) (65536 * (va / 65536 + i) + 65536) - lo))

/-- A virtual range of a context meets a granule of physical memory. -/
def State.rangeMeets (s : State) (m va n granule : Nat) : Bool :=
  (pagePieces va n).any (fun p => match s.locate s.agent m p.1 false with
    | .ok (pa, _) => meets64 granule pa p.2
    | .error _ => false)

/-- The granule holds bytes of the frame slots of a colour of the region. -/
def State.slotsMeet (s : State) (g : Nat) (c : Colour) (granule : Nat) : Bool :=
  let r := s.region g
  let n := c.slotsSize r.jmax
  if c.ovf then s.rangeMeets r.ctx (c.slotAddr 0 (s.overflowPart g) r.jmax 0 0) n granule
  else r.hearths.any (fun h => meets64 granule (bankBase h + c.slotAddr (s.slot h r.slot).carveStart 0 r.jmax 0 0) n)

/-- The activation whose frame slots hold bytes of a granule: region and colour. -/
def State.slotsAt (s : State) (granule : Nat) : Option (Nat × Nat) :=
  s.regions.findSome? (fun e => (e.2.cols.find? (fun c => c.2.active && s.slotsMeet e.1 c.2 granule)).map (fun c => (e.1, c.1)))

/-- The region whose colour table holds bytes of a granule. -/
def State.tableAt (s : State) (granule : Nat) : Option Nat :=
  (s.regions.find? (fun e => match e.2.kernel with
    | some k => s.rangeMeets e.2.ctx ((s.kernel k).cta + e.2.index * 98304) 98304 granule
    | none => false)).map (fun e => e.1)

/-! ### Planes (R225, R226) -/

/-- A token record: its 16-byte header and the payload, padded to a multiple of 16. -/
def tokenRecord (hdr loc nix rem : Nat) (ls : List Word) : List Byte :=
  let bs := leBytes 16 (hdr + loc * 2 ^ 88 + nix * 2 ^ 92 + rem * 2 ^ 96) ++ bytesOf ls
  bs ++ List.replicate (roundUp bs.length 16 - bs.length) 0

/-- The record of a held token, of the kinds that have a LOC code. -/
def holdRecord (now n : Nat) (x : Hold) : List (List Byte) :=
  match x.kind with
  | .delay => [tokenRecord x.tok.header 2 n (x.due - now) x.tok.lanes]
  | .cret => [tokenRecord x.tok.header 3 n 0 x.tok.lanes]
  | _ => []

/-- The records of a node's tokens, in the order in which they would leave. -/
def nodeRecords (now n : Nat) (x : NodeState) : List (List Byte) :=
  (x.starts ++ x.qa ++ x.qb ++ x.qc ++ x.qp).map (fun t => tokenRecord t.header 0 n 0 t.lanes) ++
  x.jdq.map (fun t => tokenRecord t.2.header 1 n 0 t.2.lanes) ++ x.holds.flatMap (holdRecord now n)

/-- The token records of a plane. -/
def Plane.records (p : Plane) : List (List Byte) :=
  p.cfg.nodes.flatMap (fun e => nodeRecords p.frozenAt e.1 e.2) ++
  p.stages.map (fun f => tokenRecord f.2.tok.header 4 f.2.tok.node (f.2.arrive - p.frozenAt) f.2.tok.lanes) ++
  p.arrivals.map (fun t => tokenRecord t.header 5 t.node 0 t.lanes)

/-- The records that fit into an area of `room` bytes, and those that go on in the extension. -/
def fitRecords (room : Nat) : List (List Byte) → List (List Byte) × List (List Byte)
  | [] => ([], [])
  | b :: t => if b.length ≤ room then let r := fitRecords (room - b.length) t
      (b :: r.1, r.2) else ([], b :: t)

/-- Bytes that the spec leaves open (log 34). -/
def State.openBytes (s : State) (n : Nat) : List Byte × State := if n = 0 then ([], s) else let (v, s) := s.freeWord
  (leBytes n v, s)

/-- Open bytes where something is held, and zeros where nothing is. -/
def State.openIf (s : State) (held : Bool) (n : Nat) : List Byte × State := if held then s.openBytes n else (List.replicate n 0, s)

/-- NMASK of a configuration (R217): the nodes that have a record. -/
def SlotConfig.nmask (x : SlotConfig) : Nat := x.store.foldl (fun a e => a ||| 2 ^ e.1) 0

/-- The call whose callee runs in the configuration that plane `d` covers: at depth d − 1 (R410). -/
def Region.coveredCall (r : Region) (d : Nat) : Option Call := if d < 2 then none else r.calls[r.calls.length - (d - 1)]?

/-- The header of a plane (Table 11-5, R410): CFGID, NMASK, the call colour, the result hold, the counts of token records in the plane
and in the extension. Their places in the 64 bytes: DEDUCED (log 34). -/
def State.planeHeader (s : State) (p : Plane) (cfg : RegionConfig) (call : Option Call) : List Byte × State :=
  let (hold, s) := s.openIf (call.any (fun c => c.result.isSome)) 52
  let rs := fitRecords 2432 p.records
  (leBytes 4 cfg.cfgid ++ leBytes 2 p.cfg.nmask ++ leBytes 2 ((call.map (fun c => c.col)).getD 0) ++ hold ++ leBytes 2 rs.1.length ++
    leBytes 2 rs.2.length, s)

/-- Unissued requests of a plane's ordering buffer, of 32 entries of 16 bytes. -/
def Plane.unissued (p : Plane) : Nat := min 32 (p.cfg.buffer.filter (fun q => !q.issued)).length

/-- Some record of a plane reserves delay-matching entries. -/
def Plane.reserves (p : Plane) : Bool := p.cfg.store.any (fun e => (decodeFields e.2).jdq != 0)

/-- The 6 KiB of a plane (Table 11-5), over the configuration that it covers, of a slot with its carve. The bits of its node state, of
requests and of reservations are open; entries lie as in a configuration image (R217): DEDUCED (log 34). -/
def State.planeImage (s : State) (p : Plane) (cfg : RegionConfig) (call : Option Call) (carve size : Nat) : List Byte × State :=
  let (hd, s) := s.planeHeader p cfg call
  let (ns, s) := s.openBytes 256
  let (ob, s) := s.openBytes (16 * p.unissued)
  let (rs, s) := s.openIf p.reserves 56
  let table := fun (n bytes : Nat) (f : Nat → Nat) => (List.range n).flatMap (fun i => leBytes bytes (f i))
  let area := (fitRecords 2432 p.records).1.flatten
  (hd ++ table 16 16 (fun n => (Tab.get 0 p.cfg.store n).toNat) ++ table 12 16 (fun i => (Tab.get 0 p.cfg.circuits i).toNat) ++
    table 16 4 (fun n => (Tab.get 0 p.cfg.routes n).toNat) ++ table 16 8 (fun i => (Tab.get 0 cfg.mesh i).toNat) ++ ns ++
    ob ++ List.replicate (512 - ob.length) 0 ++ leBytes 4 carve ++ leBytes 4 size ++ rs ++
    table 16 64 (fun i => (Tab.get 0 cfg.agb i).toNat) ++ table 16 64 (fun i => (Tab.get 0 cfg.cdx i).toNat) ++ List.replicate 128 0 ++
    area ++ List.replicate (2432 - area.length) 0, s)

/-- The 64 KiB slot of depth d of a hearth in the region's plane spill area; none without a kernel (R226). -/
def State.spillSlot (s : State) (g h d : Nat) : Option Nat :=
  let r := s.region g
  r.kernel.map (fun e => (s.kernel e).psa + (r.index * (s.kernel e).pss + (d - 1) * (r.h * r.w) + (rowOf h - r.y) * r.w +
    (colOf h - r.x)) * 65536)

/-- Write bytes of a spill slot. Where its page cannot be reached nothing is written: DESIGN CHOICE (log 11). -/
def State.spillWrite (s : State) (m va : Nat) (bs : List Byte) : State := match s.writeVirt s.agent m va bs false with
  | .ok t => t
  | .error _ => s

/-- A plane of a slot, counted from the newest, with the depth that it has and the configuration that it covers. -/
def State.planeOf (s : State) (h k i : Nat) : Option (Nat × Plane × RegionConfig) :=
  match (s.slot h k).region, (s.slot h k).planes[i]? with
  | some g, some p =>
    let n := (s.slot h k).planes.length
    let calls := (s.region g).calls
    some (n - i, p, (calls[calls.length - n + i]?.map (fun c => c.saved)).getD {})
  | _, _ => none

/-- Change a plane of a slot. -/
def State.modPlane (s : State) (h k i : Nat) (f : Plane → Plane) : State :=
  s.modSlot h k (fun x => { x with planes := x.planes.mapIdx (fun j p => if j = i then f p else p) })

/-- The records of a plane that do not fit in it lie in its extension in T1. -/
def State.spillExtension (s : State) (h k i : Nat) : State :=
  match (s.slot h k).region, s.planeOf h k i with
  | some g, some (d, p, _) =>
    let rs := (fitRecords 2432 p.records).2
    match s.spillSlot g h d with
    | some va =>
      if rs.isEmpty then s
      else (s.spillWrite (s.region g).ctx (va + 0x1800) rs.flatten).modPlane h k i (fun p => { p with extended := rs.map List.length })
    | none => s
  | _, _ => s

/-- A plane that lies in T1 stands in its spill slot. -/
def State.spillPlane (s : State) (h k i : Nat) : State :=
  match (s.slot h k).region, s.planeOf h k i with
  | some g, some (d, p, cfg) =>
    match s.spillSlot g h d with
    | some va =>
      if p.place != .t1 then s
      else
        let x := s.slot h k
        let (bs, s) := s.planeImage p cfg ((s.region g).coveredCall d) x.carveStart x.carveSize
        (s.spillWrite (s.region g).ctx va bs).modPlane h k i
          (fun p => { p with spilled := (fitRecords 2432 p.records).1.map List.length })
    | none => s
  | _, _ => s

/-- The LOC code of each record, from the bytes of an area and the records' lengths, is one that a plane may hold. -/
def recordsSound (bs : List Byte) : Nat → List Nat → Bool
  | _, [] => true
  | o, n :: t => decide ((bs.getD (o + 11) 0).toNat % 16 < 6) && recordsSound bs (o + n) t

/-- An area of a spill slot holds a record that no restore takes: LOC 6 or 7, or a reserved code (R225). -/
def State.spillBad (s : State) (m va : Nat) (lengths : List Nat) : Bool :=
  if lengths.isEmpty then false
  else match s.readVirt s.agent m va (lengths.foldl (fun a b => a + b) 0) with
    | .ok (bs, _) => !recordsSound bs 0 lengths
    | .error _ => false

/-- A restore from T1 meets such a record: in a plane that has moved up, or in the extension of one that is restored. -/
def State.restoreBad (s : State) (h k i : Nat) (moved : Bool) : Bool :=
  match (s.slot h k).region, s.planeOf h k i with
  | some g, some (d, p, _) =>
    match s.spillSlot g h d with
    | some va =>
      if moved then s.spillBad (s.region g).ctx (va + 0xE80) p.spilled else s.spillBad (s.region g).ctx (va + 0x1800) p.extended
    | none => false
  | _, _ => false

end Sys2Proof.Machine
end

