-- ==== Sys2Proof/Machine/RegionOps.lean ====
section
/-! DEFINITION. The region and its ember planes (chapter 11): CFGLD (R222), CALLG (R223), RETG (R228), TAILG (R229), and the
events that follow them: the load, the cover, the callee's start, the rekindle, the resume and the plane moves (R224 to
R227, R409). -/

namespace Sys2Proof.Machine

/-- A frame boundary (R218). -/
def State.boundary (s : State) : Bool := s.cycle % 16 == 0

/-- A rectangle overlaps a region of the slot that is Loading. -/
def State.loadingMeets (s : State) (k d x y w h : Nat) : Bool :=
  s.regions.any (fun e => e.2.slot == k && e.2.st == .loading && e.2.meets d x y w h)

/-! ### CFGLD (R222) -/

/-- The status token of a load. -/
def statusToken (t : Token) (k : Nat) (f : LoadFail) (hearth : Nat) : Token :=
  let ls : List Word := [BitVec.ofNat 32 (f.status + 2 ^ 8 * f.reason + 2 ^ 12 * k + 2 ^ 14 * f.node), BitVec.ofNat 32 hearth]
  { t with wid := 2, fmt := 1, lanes := ls, scw := 0, res := residue ls }

/-- End a load: its status token waits at the node. A condition that is no hearth's leaves lane 1 open (log 31). -/
def State.endLoad (s : State) (l : Load) (f : LoadFail) : State :=
  let r := match f.hearth with
    | some h => (h, s)
    | none => if f.status = 0 then (0, s) else s.freeWord
  let s := r.2
  if l.dropped then s
  else
    (s.modNode l.h l.k l.n (fun x => { x with holds := x.holds ++
      [{ kind := .status, tok := statusToken l.tok l.k f r.1, nrec := l.nrec, due := s.cycle, ready := true
         col := l.tok.col, pser := 0 }] })).push [.event .deferredTokenSend (.node l.h l.k l.n)]

/-- The site of a load. -/
def Load.site (l : Load) (own : Option Nat) : Site :=
  { die := dieOf l.origin, x := colOf l.origin, y := rowOf l.origin, k := l.k, within := none, own := own
    mine := l.region :: l.prior }

/-- Remove the first load of a node. -/
def dropLoad (ls : List Load) (h k n : Nat) : List Load :=
  match ls with
  | [] => []
  | l :: t => if l.h = h && l.k = k && l.n = n then t else l :: dropLoad t h k n

/-- Replace the first load of a node. -/
def setLoad (ls : List Load) (x : Load) : List Load :=
  match ls with
  | [] => []
  | l :: t => if l.h = x.h && l.k = x.k && l.n = x.n then x :: t else l :: setLoad t x

/-- Resident regions of the slot that meet a rectangle. -/
def State.residentMeets (s : State) (k d x y w h : Nat) : List Nat :=
  (s.regions.filter (fun e => e.2.slot == k && e.2.st == .resident && e.2.residence == .resident && e.2.meets d x y w h)).map (fun e => e.1)

/-- Move the rectangle of a load to Loading (Table 11-1). -/
def State.startLoad (s : State) (l : Load) : State :=
  let d := dieOf l.origin
  let prior := s.residentMeets l.k d (colOf l.origin) (rowOf l.origin) l.w l.height
  let m := match (s.slot l.h l.k).region with
    | some g => (s.region g).ctx
    | none => 0
  let (g, s) := s.fresh
  let (wait, s) := s.freeDelay
  let s := prior.foldl (fun s p => s.modRegion p (fun r => { r with st := .loading })) s
  let s := s.setRegion g { st := .loading, ctx := m, slot := l.k, die := d, x := colOf l.origin, y := rowOf l.origin
                           w := l.w, h := l.height }
  { s with loads := setLoad s.loads { l with region := g, prior := prior, due := s.cycle + wait } }

/-- The load ends: every check passes and the configuration becomes resident, or nothing changes. -/
def State.finishLoad (s : State) (l : Load) : State :=
  let s := { s with loads := dropLoad s.loads l.h l.k l.n }
  let own := (s.slot l.h l.k).region
  match s.loadFrom (s.region l.region).ctx l.va l.head (l.site own) with
  | .error f =>
    let s := s.imageRead (s.region l.region).ctx l.va
    let s := l.prior.foldl (fun s p => s.modRegion p (fun r => if r.st == .loading then { r with st := .resident } else r)) s
    ({ s with regions := Tab.drop s.regions l.region }).endLoad l f
  | .ok i =>
    let s := l.prior.foldl (fun s p => s.unbind p) (s.imageRead (s.region l.region).ctx l.va)
    (s.becomeResident l.region i).endLoad l { status := 0, hearth := some 0 }

/-- A load of a node that waits begins when no other holds its rectangle; a running one ends when it is due. -/
def State.advanceLoad (s : State) (h k n : Nat) : State :=
  match s.loads.find? (fun l => l.h == h && l.k == k && l.n == n) with
  | none => s
  | some l =>
    if l.due = 0 then
      if s.loadingMeets k (dieOf l.origin) (colOf l.origin) (rowOf l.origin) l.w l.height then s else s.startLoad l
    else if l.due ≤ s.cycle && !s.imageWaits (s.region l.region).ctx l.va then s.finishLoad l else s

/-- CFGLD's effect. -/
def cfgldFire (f : Fire) (s : State) : State × Effect :=
  let b := (f.tb.lanes.headD 0).toNat
  let va := laneAddress f.ta
  let p : Site := { die := dieOf f.h, x := bits b 13 7, y := bits b 20 14, k := f.k, within := none, own := some f.g, mine := [] }
  let l : Load :=
    { h := f.h, k := f.k, n := f.n, nrec := f.nrec, tok := f.token 1 [0, 0] 0 0, va := va, head := 0
      origin := hearthAt p.die p.x p.y, w := 1, height := 1, due := 0, region := 0, prior := [], dropped := false }
  let head := s.loadHead (f.context s) va p
  let s := (s.pipe f 1).readUsed s.agent (f.context s) va 64
  match head with
  | .error e => (s.endLoad l e, .done)
  | .ok hd =>
    if bits b 6 0 != 0 || bits b 31 21 != 0 then (s.endLoad l { status := 3 }, .done)
    else
      (({ s with loads := s.loads ++ [{ l with head := hd, w := headW hd, height := headH hd }] } : State).advanceLoad f.h f.k f.n, .done)

/-- `CFGLD`, R222: it never faults, so its operands may differ in width. -/
def execCfgld (r : Rec) (s : State) : Host.Outcome State Fault Refusal :=
  fireNode 0x280 r { anyWidth := true, ready := fun f s => !s.readWaits s.agent (f.context s) (laneAddress f.ta) 64 } cfgldFire s

/-! ### What a change of configuration waits for -/

/-- A request of the slot is outstanding in the region, or a load of one of its nodes is (R224, R228, R229). -/
def State.outstanding (s : State) (g : Nat) : Bool :=
  let r := s.region g
  s.slots.any (fun e => e.2.region == some g && e.2.cfg.buffer.any (fun q => q.issued)) ||
  s.loads.any (fun l => l.k == r.slot && r.holds l.h)

/-- A contraction of the slot is in progress, or a TXPR block is part-received (R224). -/
def State.contracting (s : State) (g : Nat) : Bool :=
  s.slots.any (fun e => e.2.region == some g && (e.2.contraction.isSome || e.2.transpose.any (fun t => t.out.isEmpty)))

/-- The call whose callee runs at the current depth. -/
def Region.currentCall (r : Region) : Option Call := (r.calls.drop (r.calls.length - r.depth)).head?

/-- Depth under which a colour counts: a call colour with its callee's (log 32). -/
def Region.depthOf (r : Region) (c : Nat) : Nat :=
  if r.calls.any (fun x => x.col == c) then (Tab.get {} r.cols c).depth + 1 else (Tab.get {} r.cols c).depth

/-- Every colour of the current depth but `c` is Free. -/
def Region.depthFree (r : Region) (c : Option Nat) : Bool :=
  r.cols.all (fun e => !e.2.held || e.2.depth != r.depth || c == some e.1)

/-- The base colour of the current depth: the call colour, or at depth 0 a group colour (R229). -/
def Region.isBase (r : Region) (c : Nat) : Bool :=
  if r.depth = 0 then (Tab.get {} r.cols c).group.isSome
  else match r.currentCall with
    | some x => x.col == c
    | none => false

/-! ### CALLG (R223) -/

/-- The read of a directory entry would wait on a prepared granule (R190). -/
def State.directoryWaits (s : State) (g cfgn : Nat) : Bool :=
  match (s.region g).kernel with
  | some e => s.readWaits s.agent (s.region g).ctx ((s.kernel e).dira + 16 * cfgn) 16
  | none => false

/-- The lowest hearth of a region with a CALLG that could fire in this cycle. -/
def State.lowestCall (s : State) (g : Nat) : Option Nat :=
  let r := s.region g
  if r.st != .running then none
  else r.hearths.find? (fun h => (s.slot h r.slot).cfg.store.any (fun e =>
    recordOpc e.2 == 0x281 && (match (decodeRecord e.2).bind Instr.record with
      | some (o, x) => match s.offered h r.slot e.1 o x with
        | some f => colourFree f s && !s.directoryWaits g (bits f.lit 31 24)
        | none => false
      | none => false)))

/-- Another CALLG of the slot, in a hearth with a lower index, was ready in this cycle, whether or not it has fired. -/
def State.lowerCall (s : State) (f : Fire) : Bool := (s.region f.g).firstCall.any (fun h => decide (h < f.h))

/-- A directory entry has been read: its translation was used (R323). -/
def State.directoryRead (s : State) (g cfgn : Nat) : State :=
  match (s.region g).kernel with
  | some e => if (s.kernel e).dirm1 < cfgn then s else s.readUsed s.agent (s.region g).ctx ((s.kernel e).dira + 16 * cfgn) 16
  | none => s

/-- A CALLG may fire. -/
def callReady (f : Fire) (s : State) : Bool :=
  (s.region f.g).st == .running && colourFree f s && !s.lowerCall f && !s.directoryWaits f.g (bits f.lit 31 24)

/-- A directory entry: the image's address and its CFGID, or the detail of a CALLBAD. -/
def State.directory (s : State) (g cfgn : Nat) : Except Nat (Nat × Nat) :=
  let k := match (s.region g).kernel with
    | some e => s.kernel e
    | none => {}
  if k.dirm1 < cfgn then .error 0
  else match s.readVirt s.agent (s.region g).ctx (k.dira + 16 * cfgn) 16 with
    | .error _ => .error 9
    | .ok (bs, _) =>
      let e := leNat bs
      if bits e 63 0 = 0 then .error 0 else .ok (bits e 63 0, bits e 95 64)

/-- The depth limit (R227). -/
def State.depthLimit (s : State) (g : Nat) : Nat := match (s.region g).kernel with
  | some e => min 64 (s.kernel e).psn
  | none => 1

/-- CALLG's effect. -/
def callgFire (f : Fire) (s : State) : State × Effect :=
  let r := s.region f.g
  if s.depthLimit f.g ≤ r.depth then (s, .fault faultCallDepth 0)
  else match s.directory f.g (bits f.lit 31 24) with
    | .error d => (s.directoryRead f.g (bits f.lit 31 24), .fault faultCallBad d)
    | .ok (va, cfgid) =>
      let s := s.directoryRead f.g (bits f.lit 31 24)
      match r.allocate (s.ovsz f.g) (f.want s f.ta.wid (s.colour f.g f.col).ts 0 0) false with
      | .wait => (s, .done)
      | .exhausted => (s, .fault faultColExh 0)
      | .granted n rg =>
        let c : Call :=
          { h := f.h, n := f.n, nrec := f.nrec, operand := f.ta, col := n, cfgn := bits f.lit 31 24, va := va, cfgid := cfgid
            ex := bits f.lit 23 17, ey := bits f.lit 16 10, enode := bits f.lit 9 6, saved := {}, result := none, done := false
            dead := false, again := none }
        let s := s.setRegion f.g { rg with calls := c :: rg.calls, st := .callPending }
        ((s.modColour f.g n (fun x => { x with copy := some { f.passed with col := n, wave := 0 } })).pipe f 1, .done)

/-- `CALLG`, R223. -/
def execCallg (r : Rec) (s : State) : Host.Outcome State Fault Refusal := fireNode 0x281 r { ready := callReady } callgFire s

/-! ### RETG (R228) and TAILG (R229) -/

/-- RETG's effect. -/
def retgFire (f : Fire) (s : State) : State × Effect :=
  let r := s.region f.g
  if r.depth = 0 || !r.isBase f.col then (s, .fault faultCallBad 0)
  else
    match endColour f s with
    | (s, .quiet) =>
      (s.modRegion f.g (fun r => { r with calls := r.calls.map (fun c =>
          if c.col = f.col then { c with result := some f.passed } else c) }), .quiet)
    | x => x

/-- `RETG`, R228. -/
def execRetg (r : Rec) (s : State) : Host.Outcome State Fault Refusal := fireNode 0x282 r {} retgFire s

/-- The site of a callee or of a TAILG's configuration. -/
def Region.site (r : Region) (g : Nat) : Site :=
  { die := r.die, x := r.x, y := r.y, k := r.slot, within := some g, own := none, mine := [] }

/-- The detail of a CALLBAD that a load's failure causes (Table 13-7). -/
def LoadFail.detail (f : LoadFail) : Nat := f.status + 256 * f.reason

/-- The entry node is present in the image (R227). -/
def Image.hasEntry (i : Image) (ex ey n : Nat) : Bool := match i.blockAt ex ey with
  | some b => b.present n
  | none => false

/-- TAILG may fire: every other colour of the depth is Free and no request is outstanding. -/
def tailReady (f : Fire) (s : State) : Bool :=
  (s.region f.g).depthFree (some f.col) && !s.outstanding f.g && !s.directoryWaits f.g (bits f.lit 31 24) &&
  (match s.directory f.g (bits f.lit 31 24) with
   | .ok (va, _) => !s.imageWaits (s.region f.g).ctx va
   | .error _ => true)

/-- TAILG's effect. -/
def tailgFire (f : Fire) (s : State) : State × Effect :=
  let r := s.region f.g
  if !r.isBase f.col then (s, .fault faultCallBad 0)
  else match s.unfinished f.g f.col with
    | some x => (s.cutShort f.g x, .done)
    | none =>
      if s.surplus f.g f.col then (s, .fault faultPcount 0)
      else match s.directory f.g (bits f.lit 31 24) with
        | .error d => (s.directoryRead f.g (bits f.lit 31 24), .fault faultCallBad d)
        | .ok (va, _) =>
          let t := (s.directoryRead f.g (bits f.lit 31 24)).loadRead r.ctx va (r.site f.g)
          match s.loadImage r.ctx va (r.site f.g) with
          | .error e => (t, .fault faultCallBad e.detail)
          | .ok i =>
            if !i.hasEntry (bits f.lit 23 17) (bits f.lit 16 10) (bits f.lit 9 6) then (t, .fault faultCallBad 0)
            else
              let w : TailSwap :=
                { image := i, ex := bits f.lit 23 17, ey := bits f.lit 16 10, enode := bits f.lit 9 6
                  tok := { f.passed with col := f.col, wave := 0 } }
              ((t.modRegion f.g (fun r => { r with tailg := some w, st := .loadingInPlace })).pipe f 1, .done)

/-- `TAILG`, R229. -/
def execTailg (r : Rec) (s : State) : Host.Outcome State Fault Refusal := fireNode 0x283 r { ready := tailReady } tailgFire s

/-! ### Starting a configuration (R227, R42) -/

/-- A start token goes to every source node of the configuration in place. -/
def State.sendStarts (s : State) (g : Nat) (t : Token) : State :=
  { s with slots := s.slots.map (fun e =>
      if e.2.region == some g then
        let sources := e.2.cfg.store.filter (fun r => (decodeFields r.2).ary == 0)
        (e.1, { e.2 with cfg := { e.2.cfg with nodes := sources.foldl (fun ns r =>
          Tab.modify {} ns r.1 (fun x => { x with starts := x.starts ++ [{ t with since := s.cycle }] })) e.2.cfg.nodes } })
      else e) }

/-- The start token of a callee. -/
def callStart (k col : Nat) : Token := { ctx := k, col := col, wave := 0, wid := 1, fmt := 1, lanes := [0], res := residue [0] }

/-- The message that brings the argument of a call to its entry (R54, class 5): it reaches the entry's interface in this cycle. -/
def callMessage (r : Region) (g h n : Nat) (t : Token) (now : Nat) : MeshMessage :=
  { ddie := dieOf h, dx := colOf h, dy := rowOf h, dkind := 0, cls := 5, len := 1 + cdiv (4 * t.wid) 32, flits := 1 + cdiv (4 * t.wid) 32
    sdie := r.die, sx := r.x, sy := r.y, mctx := r.ctx, snode := n, body := t.header, arrive := now, source := some g, token := some t }

/-- The argument of a call goes to port A of its entry (R227). -/
def State.enterPort (s : State) (g h k n : Nat) (t : Token) : State :=
  let u := { t with ctx := k, node := n, port := 0, rid := 0, sender := none }
  let (i, s) := s.fresh
  { s with messages := Tab.set s.messages i (callMessage (s.region g) g h t.node u s.cycle) }
  |>.push [.event .meshMessageReceive (.flight i)]

/-- A mesh token that an interface has kept enters its node's port in cycle `at'` (R227). -/
def State.enterMesh (s : State) (g h k at' : Nat) (t : Token) : State :=
  let (i, s) := s.fresh
  { s with flights := Tab.set s.flights i { tok := { t with ctx := k }, region := g, h := h, k := k, expect := t.rid, arrive := at', way := .mesh } }

/-- Start the configuration in place: start tokens, and the argument at its entry. -/
def State.startEntry (s : State) (g ex ey n : Nat) (t : Token) : State :=
  let r := s.region g
  (s.sendStarts g (callStart r.slot t.col)).enterPort g (hearthAt r.die (r.x + ex) (r.y + ey)) r.slot n t

/-! ### Planes (R224 to R226, R409) -/

/-- Planes of a slot on the die. -/
def SlotState.onDie (x : SlotState) : Nat := (x.planes.filter (fun p => p.place == .onDie)).length

/-- Planes of a slot on their way up. -/
def SlotState.movingUp (x : SlotState) : Nat := (x.planes.filter (fun p => match p.moving with
  | some (.onDie, _) => true
  | _ => false)).length

/-- Planes of a hearth on the die. -/
def State.diePlanes (s : State) (h : Nat) : Nat := (List.range 4).foldl (fun a k => a + (s.slot h k).onDie) 0

/-- Planes of other slots on their way up. -/
def State.otherUps (s : State) (h k : Nat) : Nat :=
  (List.range 4).foldl (fun a j => if j = k then a else a + (s.slot h j).movingUp) 0

/-- A hearth has room for one more plane of a slot. -/
def State.planeRoom (s : State) (h k lim : Nat) : Bool :=
  decide ((s.slot h k).onDie < lim) && decide (s.diePlanes h + s.otherUps h k < 4)

/-- The cover conditions (R224). -/
def State.coverReady (s : State) (g : Nat) : Bool :=
  let r := s.region g
  r.st == .callPending && r.residence == .resident && s.boundary && !s.outstanding g && !s.contracting g &&
  r.hearths.all (fun h => s.planeRoom h r.slot r.planeLim)

/-- Abandon move-ups that would leave no room for the new plane (R409). -/
def SlotState.abandon (x : SlotState) (lim used : Nat) : SlotState :=
  if x.onDie + x.movingUp < lim && used + x.movingUp < 4 then x
  else
    { x with planes := x.planes.map (fun p => match p.moving with
        | some (.onDie, _) => { p with moving := none }
        | _ => p) }

/-- Copy the slot's state in one hearth into a new plane. -/
def State.coverSlot (s : State) (g h k lim : Nat) : State :=
  let fs := s.flights.filter (fun f => f.2.region == g && f.2.h == h)
  let used := s.diePlanes h + s.otherUps h k
  let s := s.modSlot h k (fun x =>
    let x := x.abandon lim used
    { x with planes := { place := .onDie, cfg := { x.cfg with output := x.transpose }, stages := fs, arrivals := [], frozenAt := s.cycle
                         moving := none } :: x.planes
             cfg := {}, transpose := none, lift := false })
  ({ s with flights := s.flights.filter (fun f => !(f.2.region == g && f.2.h == h)) } : State).spillExtension h k 0

/-- The callee is the configuration that the region holds (R227). -/
def State.heldCallee (s : State) (g : Nat) (c : Call) : Bool :=
  let r := s.region g
  c.cfgid == c.saved.cfgid &&
  (match s.loadHead r.ctx c.va (r.site g) with
   | .ok hd => headW hd == r.w && headH hd == r.h
   | .error _ => false)

/-- The region covers: every slot is copied in 24 cycles, and the callee is put in place in 8 more or is loaded. -/
def State.cover (s : State) (g : Nat) : State :=
  let r := s.region g
  match r.calls with
  | [] => s
  | c :: more =>
    let c := { c with saved := r.cfg }
    let s := r.hearths.foldl (fun s h => s.coverSlot g h r.slot r.planeLim) s
    let x := if s.heldCallee g c then (8, s) else s.freeDelay
    x.2.modRegion g (fun r => { r with st := .covering, calls := c :: more, until_ := x.2.cycle + 24 + x.1 })

/-- `COVER`, R224. -/
def execCover (s : State) : Host.Outcome State Fault Refusal :=
  match s.cur with
  | .region g => .next (if s.coverReady g then s.cover g else s)
  | _ => .fault .misplaced

/-! ### Rekindling -/

/-- Move cycles of a saved configuration on by the time it was frozen. -/
def SlotConfig.later (x : SlotConfig) (d : Nat) : SlotConfig :=
  { x with nodes := x.nodes.map (fun e => (e.1, { e.2 with holds := e.2.holds.map (fun y => { y with due := y.due + d }) }))
           portUsed := x.portUsed.map (fun u => { u with presented := u.presented + d, leave := u.leave + d })
           buffer := x.buffer.map (fun q => { q with due := q.due + d, issuedAt := q.issuedAt + d })
           output := x.output.map (fun t => { t with due := t.due + d }) }

/-- Put flights back, as many cycles later as they were frozen. -/
def thawFlights (fs : Tab Flight) (d : Nat) (ts : Tab Flight) : Tab Flight :=
  ts.foldl (fun fs f => Tab.set fs f.1 { f.2 with arrive := f.2.arrive + d }) fs

/-- Restore the top plane of one hearth for a caller that goes on in cycle `at'`: its records return to their places, its stages move
on, and the mesh tokens kept for it arrive. -/
def State.thawSlot (s : State) (g h k at' : Nat) : State :=
  match (s.slot h k).planes with
  | [] => s
  | p :: more =>
    let d := at' - p.frozenAt
    let s := s.modSlot h k (fun x =>
      { x with cfg := { p.cfg.later d with output := none }, transpose := (p.cfg.later d).output, planes := more, lift := true })
    let s := { s with flights := thawFlights s.flights d p.stages }
    p.arrivals.foldl (fun s t => s.enterMesh g h k at' t) s

/-- Restore the caller's configuration in every hearth. -/
def State.thaw (s : State) (g at' : Nat) (c : Call) : State :=
  let r := s.region g
  r.hearths.foldl (fun s h => s.thawSlot g h r.slot at') (s.modRegion g (fun r => { r with cfg := c.saved }))

/-- The next frame boundary. -/
def nextBoundary (c : Nat) : Nat := (c / 16 + 1) * 16

/-- CALLBAD while covering: the plane is rekindled at once and the fault is taken at the CALLG (R231). -/
def State.callBad (s : State) (g : Nat) (c : Call) (detail : Nat) : State :=
  let s := (s.thaw g s.cycle c).modRegion g (fun r => { r with st := .running, calls := r.calls.tail })
  s.nodeFault g c.h (s.region g).slot c.n c.operand.col c.operand.wave faultCallBad detail

/-- Put the callee in place: the held configuration with its node state cleared, or the image that passes the checks. -/
def State.placeCallee (s : State) (g : Nat) (c : Call) : Except LoadFail State :=
  let r := s.region g
  if s.heldCallee g c then
    let s := s.readUsed s.agent r.ctx c.va 64
    .ok (r.hearths.foldl (fun s h => s.modSlot h r.slot (fun x =>
      { x with cfg := match x.planes with
          | p :: _ => p.cfg.cleared
          | [] => {} })) s)
  else
    match s.loadImage r.ctx c.va (r.site g) with
    | .error f => .error f
    | .ok i => .ok ((s.imageRead r.ctx c.va).installBlocks g i)

/-- A present record stands at the entry. -/
def State.entryPresent (s : State) (g ex ey n : Nat) : Bool :=
  let r := s.region g
  decide (ex < r.cfg.w) && decide (ey < r.cfg.h) &&
  (Tab.find (s.slot (hearthAt r.die (r.x + ex) (r.y + ey)) r.slot).cfg.store n).isSome

/-- The callee starts at the boundary after it is in place (R227); a call given up meanwhile is rekindled at once, and a
purged call colour is waited for until it is reissued (R230). -/
def State.startCallee (s : State) (g : Nat) : State :=
  match (s.region g).calls with
  | [] => s
  | c :: more =>
    if c.dead then (s.thaw g s.cycle c).modRegion g (fun r => { r with st := .running, calls := more })
    else if c.again.isSome || (s.colour g c.col).st != .live || s.imageWaits (s.region g).ctx c.va then s
    else match s.placeCallee g c with
    | .error f => (s.loadRead (s.region g).ctx c.va ((s.region g).site g)).callBad g c f.detail
    | .ok t =>
      if !t.entryPresent g c.ex c.ey c.enode then (s.loadRead (s.region g).ctx c.va ((s.region g).site g)).callBad g c 0
      else
        match (t.colour g c.col).copy with
        | none => t
        | some a => (t.modRegion g (fun r => { r with st := .running, depth := r.depth + 1 })).startEntry g c.ex c.ey c.enode a

/-- A transition of the region is due at this boundary. -/
def State.regionDue (s : State) (g : Nat) (st : RegionState) : Bool :=
  (s.region g).st == st && (s.region g).residence == .resident && s.boundary && decide ((s.region g).until_ ≤ s.cycle)

/-- `CALLEE_START`, R227. -/
def execCalleeStart (s : State) : Host.Outcome State Fault Refusal :=
  match s.cur with
  | .region g => .next (if s.regionDue g .covering then s.startCallee g else s)
  | _ => .fault .misplaced

/-- The top plane lies on the die in every hearth and is not moving. -/
def State.topOnDie (s : State) (g : Nat) : Bool :=
  let r := s.region g
  r.hearths.all (fun h => match (s.slot h r.slot).planes with
    | p :: _ => p.place == .onDie && p.moving.isNone
    | [] => false)

/-- The rekindle conditions (R228, R230). -/
def State.rekindleReady (s : State) (g : Nat) : Bool :=
  let r := s.region g
  (match r.currentCall with
   | none => false
   | some c => r.st == .running && r.residence == .resident && s.boundary && !s.outstanding g && s.topOnDie g && r.depthFree none &&
       ((c.done && c.result.isSome) || (c.dead && !(Tab.get {} r.cols c.col).held)))

/-- `REKINDLE`, R228: the callee's state goes and the plane is copied back in 24 cycles, of which this is the first. -/
def execRekindle (s : State) : Host.Outcome State Fault Refusal :=
  match s.cur with
  | .region g =>
    .next (if s.rekindleReady g then
      let r := s.region g
      (r.hearths.foldl (fun s h => s.modSlot h r.slot (fun x => { x with cfg := {} })) s).modRegion g
        (fun r => { r with st := .rekindling, until_ := s.cycle + 23 })
    else s)
  | _ => .fault .misplaced

/-- The returned token (R228). -/
def Call.returned (c : Call) : Option Token :=
  if c.dead || !c.done then none
  else c.result.map (fun t =>
    { c.operand with wid := t.wid, fmt := t.fmt, sc := t.sc, scw := t.scw, res := t.res, lanes := t.lanes
                     flg := t.flg ||| c.operand.flg, tnt := t.tnt || c.operand.tnt, sender := none, recorded := false })

/-- The plane is restored and released, and PLANE_DEPTH falls by one; the returned token waits at the CALLG, which emits it when the
caller resumes at the next frame boundary. -/
def State.resumeCaller (s : State) (g : Nat) (c : Call) : State :=
  let r := s.region g
  let at' := nextBoundary s.cycle
  let calls := r.calls.tail
  let old := s
  let s := (s.thaw g at' c).modRegion g (fun r => { r with st := .resuming, depth := r.depth - 1, calls := calls, until_ := at' })
  let bad := (r.hearths.filter (fun h => old.restoreBad h r.slot 0 false)).map (fun h =>
    (.event (.uncorrectableError (.plane h r.slot)) .module : Turn))
  let ups := r.hearths.map (fun h => (.event .planeMoveUp (.slot h r.slot) : Turn)) ++ bad
  match c.returned with
  | none => s.push ups
  | some t =>
    let s := s.modNode c.h r.slot c.n (fun x => { x with holds := x.holds ++
      [{ kind := .returned, tok := { t with ctx := r.slot }, nrec := c.nrec, due := at', ready := true, col := t.col, pser := 0 }] })
    (s.modColour g t.col (fun x => x.inPipe at')).push ups

/-- A plane is restored whole. -/
def State.restoreDue (s : State) (g : Nat) : Bool :=
  (s.region g).st == .rekindling && (s.region g).residence == .resident && decide ((s.region g).until_ ≤ s.cycle)

/-- `CALLER_RESUME`, R228: the plane is restored whole, or the caller resumes at its boundary. -/
def execCallerResume (s : State) : Host.Outcome State Fault Refusal :=
  match s.cur with
  | .region g =>
    .next (match (s.region g).currentCall with
      | some c =>
        if s.restoreDue g then s.resumeCaller g c
        else if s.regionDue g .resuming then s.modRegion g (fun r => { r with st := .running }) else s
      | none => if s.regionDue g .resuming then s.modRegion g (fun r => { r with st := .running }) else s)
  | _ => .fault .misplaced

/-- `TAILG_SWAP`, R229. -/
def execTailgSwap (s : State) : Host.Outcome State Fault Refusal :=
  match s.cur with
  | .region g =>
    .next (match (s.region g).tailg with
      | some w =>
        if s.regionDue g .loadingInPlace then
          let s := { s with flights := s.flights.filter (fun f => f.2.region != g) }
          let name := if (s.region g).depth = 0 then w.image.cfgid else (s.region g).cfgid
          let s := (s.installBlocks g w.image).modRegion g (fun r => { r with st := .running, tailg := none, cfgid := name })
          s.startEntry g w.ex w.ey w.enode w.tok
        else s
      | none => s)
  | _ => .fault .misplaced

/-! ### Plane moves (R226) -/

/-- Homes of a hearth's state-die plane room (R238): one for each context that has accumulator or stay values there. -/
def Hearth.homes (x : Hearth) : List Nat :=
  (List.range 8).filter (fun m => (Tab.get {} x.accs m).place == .home || (Tab.get {} x.stays m).place == .home)

/-- Places taken in a hearth's plane room of the state die: planes there or on their way there, and homes. -/
def State.statePlanes (s : State) (h : Nat) : Nat :=
  (s.hearth h).homes.length + (List.range 4).foldl (fun a k => a + ((s.slot h k).planes.filter (fun p =>
    (p.place == .stateDie && (match p.moving with
      | some (.t1, _) => false
      | _ => true)) || (match p.moving with
      | some (.stateDie, _) => true
      | _ => false))).length) 0

/-- Change the last plane of a list that meets a condition: the oldest, for the newest stands first. -/
def changeLast (p : Plane → Bool) (f : Plane → Plane) (ps : List Plane) : List Plane :=
  match ps with
  | [] => []
  | x :: t => if p x && !t.any p then f x :: t else x :: changeLast p f t

/-- Change the first plane that meets a condition. -/
def changeFirst (p : Plane → Bool) (f : Plane → Plane) (ps : List Plane) : List Plane :=
  match ps with
  | [] => []
  | x :: t => if p x then f x :: t else x :: changeFirst p f t

/-- A plane stands somewhere and is not moving. -/
def Plane.rests (x : Plane) (p : PlanePlace) : Bool := x.place == p && x.moving.isNone

/-- The slot of a hearth with the oldest plane that rests in a place. -/
def State.oldestPlane (s : State) (h : Nat) (p : PlanePlace) : Option Nat :=
  ((List.range 4).foldl (fun (b : Option (Nat × Nat)) k =>
    match ((s.slot h k).planes.filter (fun x => x.rests p)).getLast? with
    | none => b
    | some x =>
      match b with
      | some (t, _) => if x.frozenAt < t then some (x.frozenAt, k) else b
      | none => some (x.frozenAt, k)) none).map (fun x => x.2)

/-- A move has reached its end. -/
def Plane.arrive (x : Plane) (now : Nat) : Plane := match x.moving with
  | some (p, t) => if t ≤ now then { x with place := p, moving := none } else x
  | none => x

/-- A move of a plane of a slot has ended: one that came to T1 is written there, and one that comes from there with a record that no
restore takes has an uncorrectable error (R225, R346). -/
def State.planeMoved (s : State) (h k : Nat) (x : Nat × Plane) : State :=
  match x.2.moving with
  | some (.t1, _) => s.spillPlane h k x.1
  | some (.onDie, _) =>
    if x.2.place == .t1 && s.restoreBad h k x.1 true then s.push [.event (.uncorrectableError (.plane h k)) .module] else s
  | _ => s

/-- The slot of a hearth with the oldest plane at rest on the die that is not the newest of its slot: the newest stays there (R226). -/
def State.oldestSpare (s : State) (h : Nat) : Option Nat :=
  ((List.range 4).foldl (fun (b : Option (Nat × Nat)) k =>
    match ((s.slot h k).planes.tail.filter (fun x => x.rests .onDie)).getLast? with
    | none => b
    | some x =>
      match b with
      | some (t, _) => if x.frozenAt < t then some (x.frozenAt, k) else b
      | none => some (x.frozenAt, k)) none).map (fun x => x.2)

/-- A cover that waits for a plane abandons the move-ups of its slot that would leave no room for it (R409). -/
def State.abandonUps (s : State) (h k : Nat) : State :=
  match (s.slot h k).region with
  | none => s
  | some g =>
    if (s.region g).st != .callPending || (s.slot h k).movingUp = 0 then s
    else s.modSlot h k (fun x => x.abandon (s.region g).planeLim (s.diePlanes h + s.otherUps h k))

/-- Finish the moves of a slot that are due. -/
def State.finishMoves (s : State) (h k : Nat) : State :=
  let due := ((s.slot h k).planes.mapIdx (fun i p => (i, p))).filter (fun x => match x.2.moving with
    | some (_, t) => decide (t ≤ s.cycle)
    | none => false)
  due.foldl (fun s x => s.planeMoved h k x) (s.modSlot h k (fun x => { x with planes := x.planes.map (fun p => p.arrive s.cycle) }))

/-- Some plane of the hearth is moving down. -/
def State.movingDown (s : State) (h : Nat) (to' : PlanePlace) : Bool :=
  (List.range 4).any (fun k => (s.slot h k).planes.any (fun p => match p.moving with
    | some (q, _) => q == to'
    | none => false))

/-- The oldest plane of the state die moves to T1. -/
def State.moveToT1 (s : State) (h : Nat) : State :=
  if s.movingDown h .t1 then s
  else match s.oldestPlane h .stateDie with
    | none => s
    | some k =>
      let (d, s) := s.freeDelay
      s.modSlot h k (fun x => { x with planes := changeLast (fun p => p.rests .stateDie) (fun p => { p with moving := some (.t1, s.cycle + d) }) x.planes })

/-- Make room on the die for a cover that waits for it (log 33: with no plane of the slot on the die, the oldest of the
hearth goes that is not the newest of its slot). -/
def State.moveDown (s : State) (h k : Nat) : State :=
  if s.movingDown h .stateDie then s
  else if 4 ≤ s.statePlanes h then s.moveToT1 h
  else
    let j := if (s.slot h k).planes.any (fun p => p.rests .onDie) then some k else s.oldestSpare h
    match j with
    | none => s
    | some j =>
      s.modSlot h j (fun x => { x with planes := changeLast (fun p => p.rests .onDie) (fun p => { p with moving := some (.stateDie, s.cycle + 192) }) x.planes })

/-- A cover of the slot waits for a plane in this hearth. -/
def State.wantsPlane (s : State) (h k : Nat) : Bool :=
  match (s.slot h k).region with
  | none => false
  | some g => (s.region g).st == .callPending && !s.planeRoom h k (s.region g).planeLim

/-- `PLANE_MOVE_DOWN`, R226. -/
def execPlaneMoveDown (s : State) : Host.Outcome State Fault Refusal :=
  match s.cur with
  | .slot h k =>
    let s := (s.abandonUps h k).finishMoves h k
    .next (if s.wantsPlane h k then s.moveDown h k else s)
  | _ => .fault .misplaced

/-- After a rekindle the newest plane off the die begins to move up, once the slot and the die have room. -/
def State.moveUp (s : State) (h k lim : Nat) : State :=
  let x := s.slot h k
  if !x.lift || 0 < x.movingUp || lim ≤ x.onDie || 4 ≤ s.diePlanes h + s.otherUps h k then s
  else match x.planes.find? (fun p => p.place != .onDie && p.moving.isNone) with
    | none => s
    | some p =>
      let y := if p.place == .stateDie then (192, s) else s.freeDelay
      let go := fun (p : Plane) => { p with moving := some (.onDie, y.2.cycle + y.1) }
      y.2.modSlot h k (fun x => { x with lift := false, planes := changeFirst (fun p => p.place != .onDie && p.moving.isNone) go x.planes })

/-- `PLANE_MOVE_UP`, R226: after a rekindle a move begins; a move that is due ends. -/
def execPlaneMoveUp (s : State) : Host.Outcome State Fault Refusal :=
  match s.cur with
  | .slot h k =>
    let busy := (s.slot h k).planes.any (fun p => p.moving.isSome)
    let s := (s.abandonUps h k).finishMoves h k
    .next (match (s.slot h k).region with
      | some g => if busy then s else s.moveUp h k (s.region g).planeLim
      | none => s)
  | _ => .fault .misplaced

end Sys2Proof.Machine
end

