-- ==== Sys2Proof/Machine/ContextOps.lean ====
section
/-! DEFINITION. Contexts (chapter 12): the status registers (R241 to R243), PRIO, YIELD and HALT (R244, R245), the
accumulator-spill microtrap (R151, R238), and the eviction and restore of a region (R235 to R237). -/

namespace Sys2Proof.Machine

/-! ### Status registers (Table 12-1) -/

/-- The kernel that holds a region. -/
def State.holder (s : State) (g : Nat) : Kernel := match (s.region g).kernel with
  | some e => s.kernel e
  | none => {}

/-- The value of SNAP_TMO (R311). -/
def State.snapTmo (s : State) : Nat := b2n s.snapInc * 2 ^ 31 + b2n s.snapOvf * 2 ^ 30 + min s.snapCnt 0xFFFF

/-- The value of WDOG_ST (R315). -/
def Region.wdogSt (r : Region) : Nat := b2n r.wdogHit * 2 ^ 31 + min r.wdogCnt 0x7FFFFFFF

/-- A status register as region g's colour `col` reads it on die d. -/
def State.statusReg (s : State) (g col d reg : Nat) : Nat :=
  let r := s.region g
  let c := s.context r.ctx
  let k := s.holder g
  match reg with
  | 0x00 => r.ctx
  | 0x01 => c.prio
  | 0x02 => b2n c.priv
  | 0x03 => c.rndDef
  | 0x04 => c.lfsrSeed
  | 0x05 => (s.colour g col).flagsSt.toNat
  | 0x06 => k.flagsK.toNat
  | 0x07 => k.mxcNan
  | 0x08 => k.mxcOvf
  | 0x09 => k.mxcSat
  | 0x0A => r.planeLim
  | 0x0B => r.depth
  | 0x0C => r.wdogLim
  | 0x0D => r.wdogSt
  | 0x0E => c.faultPtr
  | 0x0F => s.strikeStrk + 2 ^ 16 * s.strikeRoll
  | 0x11 => Config.tstrike
  | 0x12 => c.kvThresh
  | 0x13 => c.accSpill
  | 0x14 => s.promoLate
  | 0x15 => s.snapTmo
  | 0x16 => c.tidBase
  | 0x17 => c.tidCnt
  | 0x18 => c.pmax
  | n => if 0x40 ≤ n && n ≤ 0x7F then s.pointer d (n - 0x40) else 0

/-- RDSR's effect (R242): its latency is variable (log 4). -/
def rdsrFire (f : Fire) (s : State) : State × Effect :=
  let v := s.statusReg f.g f.col (dieOf f.h) (f.lit % 256)
  let (d, s) := s.resultDelay f 0
  (s.inFlight f d, .emit d (f.token 1 [BitVec.ofNat 32 v, BitVec.ofNat 32 (v / 2 ^ 32)] 0 0))

/-- `RDSR`, R242. -/
def execRdsr (r : Rec) (s : State) : Host.Outcome State Fault Refusal := fireNode 0x288 r {} rdsrFire s

/-- The firing's context is not privileged. -/
def Fire.plain (f : Fire) (s : State) : Bool := !(s.context (f.context s)).priv

/-- The value that WRSR writes: lane 1 counts for the pointers, and for RND_DEF and TID_CNT, which judge the whole value
(R243). -/
def wrsrValue (f : Fire) : Nat :=
  let reg := f.lit % 256
  (f.ta.lanes.getD 0 0).toNat +
    (if (0x40 ≤ reg || reg == 0x03 || reg == 0x17) && 2 ≤ f.ta.wid then 2 ^ 32 * (f.ta.lanes.getD 1 0).toNat else 0)

/-- WRSR's effect (R243): the write is staged. -/
def wrsrFire (f : Fire) (s : State) : State × Effect :=
  let reg := f.lit % 256
  (s.stageEffect f (.register f.h f.k reg (wrsrValue f)), .emit 1 f.passed)

/-- `WRSR`, R243. -/
def execWrsr (r : Rec) (s : State) : Host.Outcome State Fault Refusal :=
  fireNode 0x289 r { breach := fun f s => regPrivileged (f.lit % 256) && f.plain s
                     badWidth := fun f => decide (0x40 ≤ f.lit % 256) && f.ta.wid != 2 } wrsrFire s

/-! ### PRIO, YIELD, HALT (R244, R245) -/

/-- PRIO's effect: the change is staged. CTX_PMAX is judged when it applies. -/
def prioFire (f : Fire) (s : State) : State × Effect :=
  let own := f.context s
  let x : Staged :=
    if bit f.lit 7 then .priority (bits f.lit 6 4) (bits f.lit 2 0)
    else .priority own (min (bits f.lit 2 0) (s.context own).pmax)
  (s.stageEffect f x, .emit 1 f.passed)

/-- `PRIO`, R244. -/
def execPrio (r : Rec) (s : State) : Host.Outcome State Fault Refusal :=
  fireNode 0x285 r { breach := fun f s => bit f.lit 7 && f.plain s } prioFire s

/-- `YIELD`, R244: the slot ranks last for the N cycles that follow. -/
def execYield (r : Rec) (s : State) : Host.Outcome State Fault Refusal :=
  fireNode 0x286 r {} (fun f s =>
    (s.modSlot f.h f.k (fun x => { x with yieldUntil := s.cycle + f.lit % 65536 + 1 }), .emit 1 f.passed)) s

/-- `YIELD_EXPIRY`, R244: the slot's rank returns. -/
def execYieldExpiry (s : State) : Host.Outcome State Fault Refusal :=
  match s.cur with
  | .slot h k =>
    .next (if (s.slot h k).yieldUntil ≤ s.cycle then s.modSlot h k (fun x => { x with yieldUntil := 0 }) else s)
  | _ => .fault .misplaced

/-- The context that HALT names. -/
def haltTarget (f : Fire) (s : State) : Nat := if bit f.lit 3 then f.context s else bits f.lit 2 0

/-- `HALT`, R245. -/
def execHalt (r : Rec) (s : State) : Host.Outcome State Fault Refusal :=
  fireNode 0x28A r { breach := Fire.plain } (fun f s => (s.stageEffect f (.halt (haltTarget f s)), .quiet)) s

/-! ### Homes and the microtrap (R151, R238) -/

/-- The context whose file a hearth holds live. -/
def Hearth.owner (x : Hearth) (stay : Bool) : Option Nat :=
  if stay then (x.stays.find? (fun e => e.2.place == .live)).map (fun e => e.1)
  else (x.accs.find? (fun e => e.2.place == .live)).map (fun e => e.1)

/-- The place of a context's file. -/
def Hearth.placeOf (x : Hearth) (m : Nat) (stay : Bool) : FilePlace :=
  if stay then (Tab.get {} x.stays m).place else (Tab.get {} x.accs m).place

/-- Put a context's file somewhere. -/
def Hearth.setPlace (x : Hearth) (m : Nat) (stay : Bool) (p : FilePlace) : Hearth :=
  if stay then { x with stays := Tab.modify {} x.stays m (fun f => { f with place := p }) }
  else { x with accs := Tab.modify {} x.accs m (fun f => { f with place := p }) }

/-- A context is Evicted in a hearth: a region of it that lies there is (R235). -/
def State.evictedContext (s : State) (h m : Nat) : Bool :=
  s.regions.any (fun e => e.2.ctx == m && e.2.residence == .evicted && e.2.holds h)

/-- The Evicted context with the lowest priority among those with a home in a hearth. -/
def State.homeVictim (s : State) (h : Nat) : Option Nat :=
  ((s.hearth h).homes.filter (s.evictedContext h)).foldl (fun (b : Option Nat) m =>
    match b with
    | some n => if (s.context m).prio < (s.context n).prio then some m else b
    | none => some m) none

/-- The region of a context that a hearth lies in. -/
def State.contextRegion (s : State) (h m : Nat) : Option Nat :=
  (s.regions.find? (fun e => e.2.ctx == m && e.2.kernel.isSome && e.2.holds h)).map (fun e => e.1)

/-- The T1 home of a context in a hearth (R238): the last 6 KiB of its depth-1 spill slot. -/
def State.t1HomeAt (s : State) (h m : Nat) : Option Nat :=
  match s.contextRegion h m with
  | some g => (s.spillSlot g h 1).map (fun va => va + 0xE800)
  | none => none

/-- Bytes of a file in a home: 4 KiB of accumulators, then 2 KiB of stay. -/
def Hearth.homeBytes (x : Hearth) (m : Nat) (stay : Bool) : List Byte :=
  if stay then (List.range 512).flatMap (fun i => leBytes 4 (Tab.get 0 (Tab.get {} x.stays m).lanes i).toNat)
  else (List.range 1024).flatMap (fun i => leBytes 4 (Tab.get 0 (Tab.get {} x.accs m).vals i).toNat)

/-- Write what a context has in its T1 home there. -/
def State.writeT1Home (s : State) (h m : Nat) : State :=
  match s.t1HomeAt h m with
  | none => s
  | some va =>
    let part := fun (s : State) (stay : Bool) =>
      if (s.hearth h).placeOf m stay == .t1Home then s.spillWrite m (if stay then va + 4096 else va) ((s.hearth h).homeBytes m stay) else s
    part (part s false) true

/-- Words of a table from bytes, those that are zero left out. -/
def wordTab (bs : List Byte) : Tab Word :=
  ((lanesOf (bs.length / 4) bs).mapIdx (fun i w => (i, w))).filter (fun e => e.2 != 0)

/-- The values of a file come back from its T1 home as they stand there. -/
def State.readT1Home (s : State) (h m : Nat) (stay : Bool) : State :=
  match (s.t1HomeAt h m).bind (fun va => (s.readVirt s.agent m (if stay then va + 4096 else va) (if stay then 2048 else 4096)).toOption) with
  | none => s
  | some (bs, _) => s.modHearth h (fun x =>
      if stay then { x with stays := Tab.modify {} x.stays m (fun f => { f with lanes := wordTab bs }) }
      else { x with accs := Tab.modify {} x.accs m (fun f => { f with vals := wordTab bs }) })

/-- Move a home to its T1 home. -/
def Hearth.homeToT1 (x : Hearth) (m : Nat) : Hearth :=
  let x := if x.placeOf m false == .home then x.setPlace m false .t1Home else x
  if x.placeOf m true == .home then x.setPlace m true .t1Home else x

/-- The oldest resting state-die plane of a hearth goes to T1 at once, for a home: it stands in its spill slot then (R225, R226). -/
def State.planeToT1 (s : State) (h : Nat) : Option State :=
  (s.oldestPlane h .stateDie).map (fun k =>
    let i := (s.slot h k).planes.length - 1 - ((s.slot h k).planes.reverse.takeWhile (fun p => !p.rests .stateDie)).length
    (s.modPlane h k i (fun p => { p with place := .t1 })).spillPlane h k i)

/-- Make a home for a context in a hearth: where its values go, and the cycles that it adds. Where all four places are homes and none
belongs to an Evicted context, the values go to the T1 home: DESIGN CHOICE (log 108). -/
def State.makeHome (s : State) (h m : Nat) : FilePlace × Nat × State :=
  if (s.hearth h).homes.contains m || s.statePlanes h < 4 then (.home, 0, s)
  else match s.planeToT1 h with
    | some s => (.home, s.freeDelay)
    | none =>
      match s.homeVictim h with
      | some v => (.home, ((s.modHearth h (fun x => x.homeToT1 v)).writeT1Home h v).freeDelay)
      | none => (.t1Home, s.freeDelay)

/-- Cycles to bring back a file. -/
def State.refillTime (s : State) (h m : Nat) (stay : Bool) : Nat × State :=
  let n := if stay then 64 else 128
  match (s.hearth h).placeOf m stay with
  | .home => (n, s)
  | .t1Home =>
    let (d, s) := (s.readT1Home h m stay).freeDelay
    (n + d, s)
  | _ => (0, s)

/-- Begin a microtrap: the owner's values go to its home, the toucher's come back. -/
def State.beginSpill (s : State) (h m : Nat) (stay : Bool) : State :=
  let n := if stay then 64 else 128
  let out := (s.hearth h).owner stay
  let a := match out with
    | some o =>
      let x := s.makeHome h o
      (n + x.2.1, (x.2.2.modHearth h (fun y => y.setPlace o stay x.1)).writeT1Home h o)
    | none => (0, s)
  let b := a.2.refillTime h m stay
  (b.2.modHearth h (fun x => { x with spills := x.spills ++ [(m, stay, s.cycle + a.1 + b.1)] })).modContext m
    (fun c => { c with accSpill := satAdd c.accSpill 1 })

/-- A file that was nowhere begins at +0 with AF, AT and ACOL clear. -/
def Hearth.claim (x : Hearth) (m : Nat) (stay : Bool) : Hearth :=
  if x.placeOf m stay == .none then
    (if stay then { x with stays := Tab.set x.stays m { place := .live } } else { x with accs := Tab.set x.accs m { place := .live } })
  else x.setPlace m stay .live

/-- End a microtrap. -/
def State.endSpill (s : State) (h m : Nat) (stay : Bool) : State :=
  s.modHearth h (fun x => { x.claim m stay with spills := x.spills.filter (fun e => !(e.1 == m && e.2.1 == stay)) })

/-- `ACCUMULATOR_SPILL`, R151: a microtrap begins, or a running one ends. -/
def execAccumulatorSpill (s : State) : Host.Outcome State Fault Refusal :=
  match s.cur with
  | .touch h m stay =>
    let here := if stay then s.hasStay h m else s.hasAcc h m
    .next (match (s.hearth h).spills.find? (fun e => e.2.1 == stay) with
      | some (n, _, t) => if t ≤ s.cycle then s.endSpill h n stay else s
      | none => if here then s else s.beginSpill h m stay)
  | _ => .fault .misplaced

/-! ### Eviction and restore (R235 to R237) -/

/-- The freeze conditions (R236): a pending call or a TAILG that has fired does not hinder them. -/
def State.mayFreeze (s : State) (g : Nat) : Bool :=
  let r := s.region g
  (r.st == .running || r.st == .resident || r.st == .callPending || r.st == .loadingInPlace) && s.boundary && !s.outstanding g && !s.contracting g

/-- The accumulator part of an image (R238): the live file, the home, or +0. -/
def Hearth.saveAcc (x : Hearth) (m : Nat) : Hearth :=
  match x.placeOf m false with
  | .none => { x with accs := Tab.modify {} x.accs m (fun f => { f with place := .image, vals := [] }) }
  | _ => x.setPlace m false .image

/-- Context images that a hearth's state die holds, that of region g apart. -/
def State.imagesIn (s : State) (h g : Nat) : Nat :=
  (s.regions.filter (fun e => e.1 != g && e.2.holds h && !e.2.image.isEmpty)).length

/-- Every hearth of a region has one of its four image slots free, or holds the image of region `g'` that it swaps with (R237). -/
def State.imageRoom (s : State) (g g' : Nat) : Bool := (s.region g).hearths.all (fun h => decide (s.imagesIn h g' < 4))

/-- Freeze a region into its image: it takes 832 cycles to leave. -/
def State.freezeRegion (s : State) (g : Nat) : State :=
  let r := s.region g
  let image := (s.slots.filter (fun e => e.2.region == some g)).map (fun e => (e.1 / 4, e.2))
  let fs := s.flights.filter (fun f => f.2.region == g)
  let s : State :=
    { s with
      flights := s.flights.filter (fun f => f.2.region != g)
      slots := s.slots.map (fun e => if e.2.region == some g then
        (e.1, { region := some g, carveStart := e.2.carveStart, carveSize := e.2.carveSize : SlotState }) else e)
      hearths := s.hearths.map (fun e => if r.holds e.1 then (e.1, e.2.saveAcc r.ctx) else e) }
  s.modRegion g (fun r => { r with image := image, imageFlights := fs, imageAt := s.cycle, until_ := s.cycle + 832 })

/-- The slot is free, and so is a carve of 16 KiB or less. -/
def State.finishEvict (s : State) (g : Nat) : State :=
  (s.clearSlots g).modRegion g (fun r => { r with residence := .evicted })

/-- A region that is being evicted: it freezes at a boundary, and is gone 832 cycles later. -/
def State.advanceEvict (s : State) (g : Nat) : State :=
  let r := s.region g
  if r.residence != .evicting then s
  else if r.image.isEmpty then (if s.mayFreeze g && s.imageRoom g g then s.freezeRegion g else s)
  else if r.until_ ≤ s.cycle then s.finishEvict g else s

/-- `CONTEXT_EVICT`, R235 to R237. -/
def execContextEvict (s : State) : Host.Outcome State Fault Refusal :=
  match s.cur with
  | .region g => .next (s.advanceEvict g)
  | _ => .fault .misplaced

/-- Rewrite the slot number of a token's header. -/
def Token.inSlot (t : Token) (k : Nat) : Token := { t with ctx := k }

/-- The tokens of a node, with the slot number rewritten. -/
def NodeState.inSlot (x : NodeState) (k : Nat) : NodeState :=
  let f := fun (t : Token) => t.inSlot k
  { x with qa := x.qa.map f, qb := x.qb.map f, qc := x.qc.map f, qp := x.qp.map f
           jdq := x.jdq.map (fun e => (e.1, f e.2)), starts := x.starts.map f, owed := x.owed.map f
           holds := x.holds.map (fun y => { y with tok := f y.tok }) }

/-- A configuration's tokens, with the slot number rewritten. -/
def SlotConfig.inSlot (x : SlotConfig) (k : Nat) : SlotConfig :=
  { x with nodes := x.nodes.map (fun e => (e.1, e.2.inSlot k))
           buffer := x.buffer.map (fun q => { q with tok := q.tok.inSlot k }) }

/-- A restored slot: cycles move on by the time it was away, planes keep their frozen cycles. -/
def SlotState.restored (x : SlotState) (g k d start : Nat) : SlotState :=
  { x with region := some g, cfg := (x.cfg.later d).inSlot k, carveStart := start
           planes := x.planes.map (fun p => { p with cfg := p.cfg.inSlot k
                                                     stages := p.stages.map (fun f => (f.1, { f.2 with k := k, tok := f.2.tok.inSlot k })) })
           frames := x.frames.map (fun f => { f with a := f.a.map (·.inSlot k), b := f.b.map (·.inSlot k)
                                                     c := f.c.map (·.inSlot k), p := f.p.map (·.inSlot k) })
           yieldUntil := if x.yieldUntil = 0 then 0 else x.yieldUntil + d }

/-- Where the carve of a restored region lies in a hearth: reserved whole above 16 KiB, else placed afresh. -/
def State.restoreCarve (s : State) (h k : Nat) (x : SlotState) : Option Nat :=
  if 0x4000 < x.carveSize then some x.carveStart else s.carveFor h k x.carveSize

/-- Every hearth of a region has the slot free and room for its carve. -/
def State.mayRestore (s : State) (g k : Nat) : Bool :=
  let r := s.region g
  r.image.all (fun e => (s.slot e.1 k).region.isNone && (s.restoreCarve e.1 k e.2).isSome)

/-- The accumulator part goes into the live file if it is unowned, otherwise into a home. While a microtrap moves files, the live
file is the toucher's (DEDUCED, log 131). DEDUCED (log 126): ACOL keeps the slot that it had. -/
def State.restoreAcc (s : State) (h m : Nat) : State :=
  if (s.hearth h).placeOf m false != .image then s
  else if ((s.hearth h).owner false).isNone && (s.hearth h).spills.all (fun x => x.2.1) then s.modHearth h (fun x => x.setPlace m false .live)
  else
    let x := s.makeHome h m
    (x.2.2.modHearth h (fun y => y.setPlace m false x.1)).writeT1Home h m

/-- Begin a restore into slot k: the slot is taken. -/
def State.startRestore (s : State) (g k : Nat) : State :=
  let r := s.region g
  let s := r.image.foldl (fun s e =>
    let start := (s.restoreCarve e.1 k e.2).getD 0x10000
    s.modSlot e.1 k (fun _ => { region := some g, carveStart := start, carveSize := e.2.carveSize })) s
  s.modRegion g (fun r => { r with residence := .restoring, slot := k, until_ := s.cycle + 832 })

/-- Depth of the configuration that stands in a slot: as many planes lie below it. -/
def State.standing (s : State) (h k : Nat) : Nat := (s.slot h k).planes.length

/-- Keep a mesh token for a covered depth (R227). -/
def SlotState.keepArrival (x : SlotState) (i : Nat) (t : Token) : SlotState :=
  { x with planes := x.planes.mapIdx (fun j p => if j = i then { p with arrivals := p.arrivals ++ [t] } else p) }

/-- A mesh token that was held for an evicted region: one of a covered depth goes on into its plane (R227, R236). -/
def State.keepOrEnter (s : State) (g h k : Nat) (t : Token) : State :=
  let n := s.standing h k
  let d := (s.region g).depthOf t.col
  if d < n then s.modSlot h k (fun x => x.keepArrival (n - 1 - d) t) else s.enterMesh g h k s.cycle t

/-- The image is in place: everything returns to where it was, and firing goes on. -/
def State.finishRestore (s : State) (g : Nat) : State :=
  let r := s.region g
  let d := s.cycle - r.imageAt
  let s := r.image.foldl (fun s e =>
    (s.modSlot e.1 r.slot (fun now => { e.2.restored g r.slot d now.carveStart with shown := [] })).restoreAcc e.1 r.ctx) s
  let fs := r.imageFlights.map (fun f => (f.1, { f.2 with k := r.slot, tok := f.2.tok.inSlot r.slot }))
  let kept := fs.filter (fun f => f.2.way == .mesh)
  let s : State := { s with flights := thawFlights s.flights d (fs.filter (fun f => f.2.way != .mesh)) }
  let s := s.modRegion g (fun r => { r with residence := .resident, image := [], imageFlights := [], copyShown := [] })
  kept.foldl (fun s f => s.keepOrEnter g f.2.h r.slot f.2.tok) s

/-- A region that is being restored comes back at the boundary after its image is in place. -/
def State.advanceRestore (s : State) (g : Nat) : State :=
  if (s.region g).residence == .restoring && s.boundary && decide ((s.region g).until_ ≤ s.cycle) then s.finishRestore g else s

/-- A swap (R237): both images move in the same 832 cycles; the returning region takes the slot of the leaving one, whose own image
moves until then. -/
def State.advanceSwap (s : State) (out g : Nat) : State :=
  let r := s.region out
  if r.residence == .evicting && r.image.isEmpty && (s.region g).residence == .evicted && s.mayFreeze out && s.imageRoom out g then
    let t := (s.freezeRegion out).finishEvict out
    if t.mayRestore g r.slot then t.startRestore g r.slot else s
  else s

/-- `CONTEXT_SWAP`, R235, R237. -/
def execContextSwap (s : State) : Host.Outcome State Fault Refusal :=
  match s.cur with
  | .swap out g => .next (s.advanceSwap out g)
  | _ => .fault .misplaced

end Sys2Proof.Machine
end

