-- ==== Sys2Proof/Machine/Registers.lean ====
section
/-! DEFINITION. The module registers as the host sees them (R373, Tables 21-4 to 21-8, R270, R352, R363, R366) and the
snapshot copies of R312. Only registers that do not read zero are listed. -/

namespace Sys2Proof.Machine

/-- Start of the module-register range. -/
def regBase : Nat := 0x100000000

/-- BOOT_ST (R366): DIEOK is 0 until the boot ROM's phase has ended, its reset value. -/
def State.bootSt (s : State) : Nat :=
  s.phase * 2 ^ 28 + s.bootErr * 2 ^ 24 +
  (if s.phase = 0 then 0 else (List.range 4).foldl (fun a d => if s.fencedDies.contains d then a else a + 2 ^ d) 0) * 2 ^ 20 + s.master * 2 ^ 18

/-- Code of a link state (R352). -/
def LinkState.code : LinkState → Nat
  | .disabled => 0 | .down => 1 | .detect => 2 | .train => 3 | .config => 4 | .active => 5 | .recovery => 6 | .fenced => 7

/-- Code of a kernel state (Table 13-4). -/
def KernelState.code : KernelState → Nat
  | .free => 0 | .waiting => 1 | .held => 2 | .ready => 3 | .bound => 4 | .running => 5 | .draining => 6 | .faulting => 7
  | .complete => 8 | .visible => 9 | .withdrawn => 10 | .halted => 11

/-- Code of a queue state (R271). -/
def QueueState.code : QueueState → Nat
  | .disabled => 0 | .idle => 1 | .running => 2 | .waiting => 3 | .stopped => 4

/-- The queue block (R270) as a number of 40 bytes. -/
def Queue.block (q : Queue) : Nat :=
  q.done + q.tailn * 2 ^ 64 + q.appn * 2 ^ 128 + q.last * 2 ^ 192 + q.fetch * 2 ^ 256 + b2n q.host * 2 ^ 312 +
  q.st.code * 2 ^ 313 + q.ctx * 2 ^ 316 + b2n q.en * 2 ^ 319

/-- The registers of a context (Table 21-5): offset, bytes, value. -/
def Context.registers (c : Context) : List (Nat × Nat × Nat) :=
  [(0x00, 4, b2n c.priv), (0x04, 4, c.pmax), (0x08, 4, c.prio), (0x0C, 4, c.rndDef), (0x10, 4, c.tidBase), (0x14, 4, c.tidCnt),
   (0x18, 4, c.accSpill), (0x1C, 4, c.lfsrSeed), (0x20, 8, c.faultPtr), (0x28, 4, c.kvThresh)]

/-- A dependence-table entry as the host reads it (Table 21-7). -/
def Kernel.registers (k : Kernel) : List (Nat × Nat × Nat) :=
  if k.st == .free then []
  else
    [(0x00, 8, k.seq), (0x08, 8, k.lra % 2 ^ 55), (0x10, 4, k.rtag), (0x14, 1, k.st.code), (0x15, 1, k.ctx), (0x16, 1, k.deps.length),
     (0x17, 1, b2n k.hold + 2 * k.verdict + 8 * b2n k.first)]

/-- A hearth block (Table 21-8). -/
def State.hearthRegisters (s : State) (h : Nat) : List (Nat × Nat × Nat) :=
  let x := s.hearth h
  let slots := (List.range 4).foldl (fun a k => if (s.slot h k).region.isSome then a + 2 ^ k else a) 0
  (0x00, 4, damperUsed x.damper + slots * 2 ^ 9 + s.diePlanes h * 2 ^ 13 + b2n (s.isFenced h) * 2 ^ 16) ::
  (0x08, 4, x.strikes) :: (0x0C, 4, x.uncorrectable) ::
  (List.range 4).map (fun k => (0x04 + k, 1, match (s.slot h k).region with
    | some g => (s.region g).ctx + 128
    | none => 0))

/-- The topology table's bit of every fenced hearth, as 8-byte words (R369). -/
def State.topology (s : State) : List (Nat × Nat × Nat) :=
  ((s.hearths.filter (fun (e : Nat × Hearth) => e.2.fenced)).map (fun (e : Nat × Hearth) => e.1)).foldl (fun (t : List (Nat × Nat × Nat)) h =>
    let a := 0x6000 + dieOf h * 0x600 + h % 12288 / 64 * 8
    if t.any (fun (e : Nat × Nat × Nat) => e.1 == a) then t.map (fun (e : Nat × Nat × Nat) => if e.1 = a then (a, 8, e.2.2 + 2 ^ (h % 64)) else e)
    else t ++ [(a, 8, 2 ^ (h % 64))]) []

/-- Shift registers to their block. -/
def inBlock (base : Nat) (rs : List (Nat × Nat × Nat)) : List (Nat × Nat × Nat) := rs.map (fun r => (base + r.1, r.2.1, r.2.2))

/-- Hearths whose block may not read zero. -/
def State.namedHearths (s : State) : List Nat :=
  let named := ((s.hearths.map (fun e => e.1) ++ s.slots.map (fun e => e.1 / 4)) : List Nat).foldl insertRising []
  named ++ s.fencedDies.flatMap (fun d => ((List.range Config.hearthsPerDie).map (fun i => Config.hearthsPerDie * d + i)).filter (fun h => !named.contains h))

/-- Every register that does not read zero: address, bytes, value. Reserved bits read zero (R4). -/
def State.registers (s : State) : List (Nat × Nat × Nat) :=
  ((inBlock regBase
    ([(0x0000, 4, s.bootSt), (0x0108, 8, s.snapCyc), (0x0200, 8, if s.xlinvBusy.isSome then 2 ^ 63 else 0), (0x0300, 4, s.strikeStrk + 2 ^ 16 * s.strikeRoll),
      (0x0304, 4, s.snapTmo), (0x0308, 4, s.promoLate), (0x030C, 4, Config.tstrike), (0x8000, 8, s.jrnlBase), (0x8008, 4, s.jrnlSize),
      (0x8010, 8, s.jrnlNext), (0x9000, 4, s.pwrLim), (0xA0F0, 4, b2n s.attDone)] ++
     s.attReport.mapIdx (fun i b => (0xA100 + i, 1, b.toNat)) ++
     (List.range 8).flatMap (fun m => inBlock (0x1000 + 0x40 * m) (s.context m).registers) ++
     s.contexts.map (fun e => (0x2000 + 8 * e.1, 8, e.2.ptroot.toNat)) ++
     s.links.flatMap (fun e => [(0x3000 + 8 * e.1, 4, e.2.st.code), (0x3004 + 8 * e.1, 4, b2n e.2.enable + 2 * b2n e.2.fence)]) ++
     s.pairs.flatMap (fun e => inBlock (0x4000 + 32 * e.1)
       [(0, 8, e.2.sqbase), (8, 8, e.2.cqbase), (16, 4, e.2.sizes), (20, 4, e.2.ctx + 128 * b2n e.2.en)]) ++
     s.topology ++
     s.engines.flatMap (fun e => inBlock (0x300000 + 0x40 * e.1)
       [(0, 4, e.2.queue + 16 * b2n e.2.busy), (8, 8, e.2.granules), (16, 8, e.2.entries)]) ++
     s.queues.map (fun e => (0x400000 + 0x40 * e.1, 40, e.2.block)) ++
     s.kernels.flatMap (fun e => inBlock (0x1000000 + 32 * e.1) e.2.registers) ++
     s.namedHearths.flatMap (fun h => inBlock (0x10000000 + 0x40 * h) (s.hearthRegisters h)))).map
    (fun r => (r.1, r.2.1, r.2.2 % 2 ^ (8 * r.2.1)))).filter (fun r => r.2.2 != 0)

/-- A byte of the module-register range as the host reads it: of a register or of its snapshot copy, and zero at a reserved address, at
a reserved bit and of a register that only writes. -/
def State.registerByte (s : State) (a : Nat) : Byte :=
  BitVec.ofNat 8 ((s.registers.map (fun r => (r.1, r.2.2)) ++ s.snapCopies).foldl
    (fun x r => if r.1 ≤ a then x ||| (r.2 >>> (8 * (a - r.1)) % 256) else x) 0)

/-- A trigger latches every copy in the same cycle (R312). -/
def State.latch (s : State) : State :=
  let s := { s with snapCyc := s.cycle }
  { s with snapCopies := s.registers.map (fun r => (r.1 + 0x800000, r.2.2)) }

end Sys2Proof.Machine
end

