-- ==== Sys2Proof/Machine/BarrierOps.lean ====
section
/-! DEFINITION. Barriers, snapshots and the watchdog (chapter 17): markers at their nodes (R306, R307), DRAIN (R308), SNAP
and marker snapshots (R309 to R313), WDOG and QUIESCE (R315, R316). -/

namespace Sys2Proof.Machine

/-! ### A node of a depth (R225) -/

/-- Change the state of every node, in planes too. -/
def SlotState.mapNodes (x : SlotState) (f : NodeState → NodeState) : SlotState :=
  let go := fun (c : SlotConfig) => { c with nodes := c.nodes.map (fun e => (e.1, f e.2)) }
  { x with cfg := go x.cfg, planes := x.planes.map (fun p => { p with cfg := go p.cfg }) }

/-- Change one node of a table. -/
def SlotConfig.modNode (c : SlotConfig) (n : Nat) (f : NodeState → NodeState) : SlotConfig := { c with nodes := Tab.modify {} c.nodes n f }

/-- Change a node of the configuration of depth d: in place, or in the plane that covers it. -/
def SlotState.modNodeAt (x : SlotState) (d n : Nat) (f : NodeState → NodeState) : SlotState :=
  if d < x.planes.length then
    { x with planes := x.planes.mapIdx (fun i p => if i = x.planes.length - 1 - d then { p with cfg := p.cfg.modNode n f } else p) }
  else { x with cfg := x.cfg.modNode n f }

/-- The configuration of depth d of a region runs in its hearths. -/
def Region.inPlace (r : Region) (d : Nat) : Bool :=
  r.residence == .resident && r.depth == d && (r.st == .running || r.st == .callPending)

/-- Change a node of a region's configuration of depth d, wherever that stands: in its slot, in a plane, or in the region's image. -/
def State.modNodeAt (s : State) (g h d n : Nat) (f : NodeState → NodeState) : State :=
  let r := s.region g
  match Tab.find r.image h with
  | some x => s.modRegion g (fun r => { r with image := Tab.set r.image h (x.modNodeAt d n f) })
  | none => s.modSlot h r.slot (fun x => x.modNodeAt d n f)

/-- The node runs a contraction that is not complete: a marker at the head of a streamed port ends it with TLEN, and aligns only
between contractions (R307). -/
def State.contractingAt (s : State) (h k n : Nat) : Bool := (s.slot h k).contraction.any (fun c => c.node == n && !c.done)

/-! ### Markers at a node (R307) -/

/-- ID of a marker. -/
def Token.markerId (t : Token) : Nat := (t.lanes.headD 0).toNat % 65536

/-- Present nodes of a region's slot: hearth, node, opcode, record. -/
def State.presentNodes (s : State) (g : Nat) : List (Nat × Nat × Nat × Rec) :=
  let k := (s.region g).slot
  s.slots.flatMap (fun e =>
    if e.2.region == some g then
      e.2.cfg.store.filterMap (fun x => (s.record (e.1 / 4) k x.1).map (fun y => (e.1 / 4, x.1, y.1, y.2)))
    else [])

/-- Ports of a node that some present record names through output ports 0 to 12 or 14. -/
def State.connected (s : State) (g h n : Nat) : List Nat :=
  let k := (s.region g).slot
  ((s.presentNodes g).flatMap (fun x =>
    (s.endsOf g x.1 k x.2.1 x.2.2.2.d0 ++ s.endsOf g x.1 k x.2.1 x.2.2.2.d1).filterMap (fun t =>
      if t.h = h && t.node = n then some t.port else none))).foldl insertRising []

/-- A node ends the way of markers. -/
def terminalNode (opc : Nat) (r : Rec) : Bool :=
  let gone := fun (d : Dest) => d.v == 0 || d.oport == 15
  (gone r.d0 && gone r.d1) || [0x012, 0x00C, 0x282, 0x283, 0x284].contains opc

/-- Room for the markers of both destinations where they go on. -/
def State.markersFit (s : State) (g h k n : Nat) (r : Rec) : Bool :=
  let ts := s.endsOf g h k n r.d0 ++ s.endsOf g h k n r.d1
  ts.all (fun t => s.markerRoom t.h t.k t.node t.port (sameQueue ts t))

/-- Send a marker of a node behind everything the node has sent: through every valid destination. -/
def State.sendMarker (s : State) (g h k n : Nat) (r : Rec) (t : Token) : State :=
  let c := max (s.cycle + 1) (s.node h k n).sentAt
  (s.sendOne g h k n r.d0 3 c t).sendOne g h k n r.d1 4 c t

/-- The marker at the head of a port's queue. -/
def markerHead (x : NodeState) (p : Nat) : Option Token := match x.queue p with
  | t :: _ => if t.mark == .data then none else some t
  | [] => none

/-- The first marker that waits on a port, at its queue's head or behind other tokens. -/
def firstMarker (x : NodeState) (p : Nat) : Option Token := (x.queue p).find? (fun t => t.mark != .data)

/-- The first markers of a node's ports disagree in kind or in ID, wherever they stand: the one on the lowest-lettered port. -/
def markerClash (x : NodeState) (ps : List Nat) : Option Token :=
  match ps.filterMap (firstMarker x) with
  | [] => none
  | t :: more => if more.any (fun u => u.mark != t.mark || u.markerId != t.markerId) then some t else none

/-- Every connected port has a barrier marker at its head, and they agree: the lowest-lettered one. -/
def barrierAligned (x : NodeState) (ps : List Nat) : Option Token :=
  match ps.filterMap (markerHead x) with
  | [] => none
  | t :: more =>
    if more.length + 1 = ps.length && t.mark == .barrier && more.all (fun u => u.mark == t.mark && u.markerId == t.markerId) then some t
    else none

/-- Number of a node in the lists of a drain and a snapshot. -/
def nodeKey (h n : Nat) : Nat := 16 * h + n

/-- A terminal has absorbed a barrier of the running drain. -/
def Drain.absorb (d : Drain) (h n id : Nat) : Drain :=
  if d.id = id then { d with absorbed := insertRising d.absorbed (nodeKey h n) } else d

/-- Barrier alignment may take place at a node, or a clash must be reported. -/
def State.barrierDue (s : State) (g h k n : Nat) : Bool :=
  match s.record h k n with
  | none => false
  | some (o, r) =>
    let x := s.node h k n
    let ps := s.connected g h n
    s.firing g && !s.contractingAt h k n && ((markerClash x ps).isSome ||
      ((barrierAligned x ps).isSome && (terminalNode o r || s.markersFit g h k n r)))

/-- The node consumes its barriers and forwards one, or absorbs them. -/
def State.alignBarrier (s : State) (g h k n : Nat) : State :=
  match s.record h k n with
  | none => s
  | some (o, r) =>
    let x := s.node h k n
    let ps := s.connected g h n
    match markerClash x ps with
    | some t => s.nodeFault g h k n t.col t.wave faultJoinOrd 0
    | none =>
      match barrierAligned x ps with
      | none => s
      | some t =>
        let s := s.modNode h k n (fun x => ps.foldl (fun x p => x.pop p s.cycle) x)
        let s := s.modSlot h k (fun x => { x with firedAt := some s.cycle })
        if terminalNode o r then s.modRegion g (fun r => { r with drain := r.drain.map (fun d => d.absorb h n t.markerId) })
        else s.sendMarker g h k n r (markerToken k t.col t.wave t.markerId .barrier)

/-- `BARRIER_ALIGN`, R307. -/
def execBarrierAlign (s : State) : Host.Outcome State Fault Refusal :=
  match s.cur with
  | .node h k n =>
    .next (match (s.slot h k).region with
      | some g => if s.barrierDue g h k n then s.alignBarrier g h k n else s
      | none => s)
  | _ => .fault .misplaced

/-! ### DRAIN (R308) -/

/-- Every source node of the region's slot owes a marker. -/
def State.oweMarkers (s : State) (g : Nat) (t : Token) : State :=
  (s.presentNodes g).foldl (fun s x =>
    if x.2.2.2.ary = 0 then s.modNode x.1 (s.region g).slot x.2.1 (fun y => { y with owed := y.owed ++ [t] }) else s) s

/-- DRAIN's effect. -/
def drainFire (f : Fire) (s : State) : State × Effect :=
  let id := (f.ta.lanes.headD 0).toNat % 65536
  let d : Drain :=
    { h := f.h, n := f.n, nrec := f.nrec, id := id, tok := f.token 1 [0] 0 0, absorbed := [], lost := false, reissued := false
      depth := (s.region f.g).depth }
  (((s.modRegion f.g (fun r => { r with drain := some d })).oweMarkers f.g (markerToken f.k f.col f.wave id .barrier)).pipe f 1, .done)

/-- `DRAIN`, R308. -/
def execDrain (r : Rec) (s : State) : Host.Outcome State Fault Refusal :=
  fireNode 0x284 r { ready := fun f s => (s.region f.g).drain.isNone } drainFire s

/-- Terminals of the region's slot that a marker can reach. -/
def State.terminals (s : State) (g : Nat) : List Nat :=
  (s.presentNodes g).filterMap (fun x =>
    if terminalNode x.2.2.1 x.2.2.2 && !(s.connected g x.1 x.2.1).isEmpty then some (nodeKey x.1 x.2.1) else none)

/-- A request of the region's slot is outstanding. -/
def State.requestOut (s : State) (g : Nat) : Bool :=
  s.slots.any (fun e => e.2.region == some g && e.2.cfg.buffer.any (fun q => q.issued))

/-- A drain has ended: its STATUS. It completes only where its configuration runs. -/
def State.drainStatus (s : State) (g : Nat) (d : Drain) : Option Nat :=
  if d.lost then some 1
  else if (s.region g).inPlace d.depth && (s.terminals g).all (fun t => d.absorbed.contains t) && !s.requestOut g then some (if d.reissued then 2 else 0)
  else none

/-- A status token waits at a node of depth d and leaves as R418 states, once that depth runs. -/
def State.holdStatus (s : State) (g h d n : Nat) (r : Rec) (t : Token) (l : Nat) : State :=
  let ls : List Word := [BitVec.ofNat 32 l]
  let t := { t with wid := 1, fmt := 1, lanes := ls, res := residue ls, scw := 0 }
  (s.modNodeAt g h d n (fun x => { x with holds := x.holds ++
    [{ kind := .status, tok := t, nrec := r, due := s.cycle, ready := true, col := t.col, pser := 0 }] })).push
    (if (s.region g).inPlace d then [.event .deferredTokenSend (.node h (s.region g).slot n)] else [])

/-- `DRAIN_COMPLETE`, R308. -/
def execDrainComplete (s : State) : Host.Outcome State Fault Refusal :=
  match s.cur with
  | .region g =>
    .next (match (s.region g).drain with
      | none => s
      | some d =>
        match s.drainStatus g d with
        | none => s
        | some st =>
          (s.modRegion g (fun r => { r with drain := none })).holdStatus g d.h d.depth d.n d.nrec d.tok (st + 2 ^ 16 * d.id))
  | _ => .fault .misplaced

/-! ### Snapshots (R309 to R313) -/

/-- A hearth's 8 KiB of a snapshot area. -/
def Region.snapAddr (r : Region) (area h : Nat) : Nat := area + ((rowOf h - r.y) * r.w + (colOf h - r.x)) * 8192

/-- Write to a snapshot area as an engine does (R194), through the distributor's caches (R324). -/
def State.snapWrite (s : State) (m va : Nat) (bs : List Byte) : State := match s.writeVirt s.agent m va bs false with
  | .ok s => s
  | .error _ => s

/-- Write the header of a hearth's area. -/
def State.snapHeader (s : State) (g h : Nat) (x : Snapshot) (complete : Bool) : State :=
  let r := s.region g
  s.snapWrite r.ctx (r.snapAddr x.area h)
    (leBytes 4 x.id ++ leBytes 4 (b2n complete + 2 * b2n (x.full.contains h)) ++ leBytes 8 (Tab.get 0 x.count h) ++ leBytes 8 x.started ++
     leBytes 40 0)

/-- Append a record to a hearth's area; one that does not fit is not written and sets the overflow bit. -/
def State.snapRecord (s : State) (g h : Nat) (bs : List Byte) : State :=
  match (s.region g).snapshot with
  | none => s
  | some x =>
    let at' := 64 + Tab.get 0 x.written h
    if 8192 < at' + bs.length then
      let x := { x with full := insertRising x.full h }
      (s.modRegion g (fun r => { r with snapshot := some x })).snapHeader g h x false
    else
      let r := s.region g
      let x := { x with written := Tab.set x.written h (Tab.get 0 x.written h + bs.length), count := Tab.set x.count h (Tab.get 0 x.count h + 1) }
      ((s.modRegion g (fun r => { r with snapshot := some x })).snapWrite r.ctx (r.snapAddr x.area h + at') bs).snapHeader g h x false

/-- The identifier is that of the snapshot in progress. -/
def State.snapping (s : State) (g id : Nat) : Bool := match (s.region g).snapshot with
  | some x => x.id == id
  | none => false

/-- The node-state record of a node (Table 11-5): its layout is open (log 34). -/
def State.nodeRecordOut (s : State) (g h n : Nat) : State :=
  let (v, s) := s.freeWord
  s.snapRecord g h (tokenRecord (v % 2 ^ 80) 7 n 0 [])

/-- Every node has received its markers: headers get the complete bit, and SNAP's status waits (R311). -/
def State.snapComplete (s : State) (g : Nat) (x : Snapshot) : Bool :=
  (s.presentNodes g).all (fun y =>
    x.aligned.contains (nodeKey y.1 y.2.1) || (y.2.2.2.ary != 0 && (s.connected g y.1 y.2.1).isEmpty))

/-- End a complete snapshot. -/
def State.endSnapshot (s : State) (g : Nat) : State :=
  match (s.region g).snapshot with
  | none => s
  | some x =>
    if !(s.region g).inPlace x.depth || !s.snapComplete g x then s
    else
      let r := s.region g
      let s := r.hearths.foldl (fun s h => s.snapHeader g h x true) s
      let s := { s with snapInc := false, snapOvf := !x.full.isEmpty }
      let s := s.modRegion g (fun r => { r with snapshot := none })
      if x.dropped then s else s.holdStatus g x.h x.depth x.n x.nrec x.tok (if x.full.isEmpty then 0 else 2)

/-- Count a node as aligned. -/
def State.snapAligned (s : State) (g h n : Nat) : State :=
  s.modRegion g (fun r => { r with snapshot := r.snapshot.map (fun x => { x with aligned := insertRising x.aligned (nodeKey h n) }) })

/-- `DRAIN_SOURCE_MARKER`, R308, R313: a source node emits the marker it owes. -/
def execDrainSourceMarker (s : State) : Host.Outcome State Fault Refusal :=
  match s.cur with
  | .node h k n =>
    .next (match (s.slot h k).region, s.record h k n, (s.node h k n).owed with
      | some g, some (_, r), t :: more =>
        if s.firing g && s.markersFit g h k n r then
          let s := (s.modNode h k n (fun x => { x with owed := more })).sendMarker g h k n r t
          if t.mark == .snapshot && s.snapping g t.markerId then ((s.nodeRecordOut g h n).snapAligned g h n).endSnapshot g else s
        else s
      | _, _, _ => s)
  | _ => .fault .misplaced

/-- A snapshot marker has come to a connected port (R309): until the markers align, the node fires no data and no head of it moves on. -/
def State.takeSnapMarker (s : State) (g h k n p : Nat) : State :=
  let ps := s.connected g h n
  s.modNode h k n (fun x =>
    let m := if ps.contains p then insertRising x.marked p else x.marked
    { x with marked := m, stopped := !m.isEmpty })

/-- `SNAPSHOT_FIRST_MARKER`, R309. -/
def execSnapshotFirstMarker (s : State) : Host.Outcome State Fault Refusal :=
  match s.cur with
  | .port h k n p =>
    .next (match (s.slot h k).region with
      | some g =>
        if ((s.node h k n).waiting p).any (fun t => t.mark == .snapshot) then s.takeSnapMarker g h k n p else s
      | none => s)
  | _ => .fault .misplaced

/-- Tokens ahead of a queue's marker. -/
def ahead : List Token → List Token
  | [] => []
  | t :: q => if t.mark == .snapshot then [] else t :: ahead q

/-- A queue without its first marker. -/
def unmark : List Token → List Token
  | [] => []
  | t :: q => if t.mark == .snapshot then q else t :: unmark q

/-- Every connected port has a snapshot marker before any barrier, and they agree: the lowest-lettered one. Which tokens stand ahead
of them does not matter (R309). -/
def snapAgreed (x : NodeState) (ps : List Nat) : Option Token :=
  match ps.filterMap (firstMarker x) with
  | [] => none
  | t :: more =>
    if more.length + 1 = ps.length && (t :: more).all (fun u => u.mark == .snapshot && u.markerId == t.markerId) then some t else none

/-- Snapshot markers of a node on every connected port, and room to go on. -/
def State.snapReady (s : State) (g h k n : Nat) : Bool :=
  match s.record h k n with
  | none => false
  | some (o, r) =>
    s.firing g && !s.contractingAt h k n && (snapAgreed (s.node h k n) (s.connected g h n)).isSome && (terminalNode o r || s.markersFit g h k n r)

/-- Write the records of the tokens that wait ahead of a port's marker (LOC 0, or 1 in a JDQ entry). -/
def State.snapPort (s : State) (g h k n p : Nat) : State :=
  let x := s.node h k n
  let ts := (ahead (x.waiting p)).filter (fun t => !t.recorded)
  ts.foldl (fun s t => s.snapRecord g h (tokenRecord t.header (if (x.queue p).contains t then 0 else 1) n 0 t.lanes)) s

/-- A snapshot is over at a node: the tokens that still wait are no channel state of a later one. -/
def NodeState.unrecord (x : NodeState) : NodeState :=
  let f := fun (t : Token) => { t with recorded := false }
  { x with qa := x.qa.map f, qb := x.qb.map f, qc := x.qc.map f, qp := x.qp.map f, jdq := x.jdq.map (fun e => (e.1, f e.2))
           marked := [], stopped := false }

/-- The node forwards the marker, writes its record, and fires again (R309). -/
def State.alignSnapshot (s : State) (g h k n : Nat) : State :=
  match s.record h k n with
  | none => s
  | some (o, r) =>
    let ps := s.connected g h n
    match snapAgreed (s.node h k n) ps with
    | none => s
    | some t =>
      let live := s.snapping g t.markerId
      let s := if live then (ps.foldl (fun s p => s.snapPort g h k n p) s).nodeRecordOut g h n else s
      let s := s.modNode h k n (fun x =>
        (ps.foldl (fun x p => (x.setQueue p (unmark (x.queue p))).refill p s.cycle Config.queueDepth) x).unrecord)
      let s := s.modSlot h k (fun x => { x with firedAt := some s.cycle })
      let s := if terminalNode o r then s else s.sendMarker g h k n r (markerToken k t.col t.wave t.markerId .snapshot)
      if live then (s.snapAligned g h n).endSnapshot g else s

/-- `SNAPSHOT_ALIGN`, R309. -/
def execSnapshotAlign (s : State) : Host.Outcome State Fault Refusal :=
  match s.cur with
  | .node h k n =>
    .next (match (s.slot h k).region with
      | some g => if s.snapReady g h k n then s.alignSnapshot g h k n else s
      | none => s)
  | _ => .fault .misplaced

/-- A node held for an abandoned snapshot goes on: its markers of that ID are gone. -/
def NodeState.release (x : NodeState) (id now : Nat) : NodeState :=
  let keep := fun (t : Token) => !(t.mark == .snapshot && t.markerId == id)
  let x := { x with qa := x.qa.filter keep, qb := x.qb.filter keep, qc := x.qc.filter keep, qp := x.qp.filter keep
                    owed := x.owed.filter keep }
  ((((x.refill 0 now 4).refill 1 now 4).refill 2 now 4).refill 3 now 4).unrecord

/-- `SNAPSHOT_ABANDON`, R311. -/
def execSnapshotAbandon (s : State) : Host.Outcome State Fault Refusal :=
  match s.cur with
  | .region g =>
    .next (match (s.region g).snapshot with
      | none => s
      | some x =>
        if s.cycle < x.started + Config.snapshotLimit then s
        else
          let go := fun (v : SlotState) => v.mapNodes (fun n => n.release x.id s.cycle)
          let s : State :=
            { s with
              slots := s.slots.map (fun e => if e.2.region == some g then (e.1, go e.2) else e)
              snapInc := true, snapOvf := !x.full.isEmpty, snapCnt := min 0xFFFF (s.snapCnt + 1) }
          let s := s.modRegion g (fun r => { r with snapshot := none, abandoned := insertRising r.abandoned x.id
                                                    image := r.image.map (fun e => (e.1, go e.2)) })
          if x.dropped then s else s.holdStatus g x.h x.depth x.n x.nrec x.tok 1)
  | _ => .fault .misplaced

/-- The area that a SNAP names may be written: aligned, mapped, and not in T3 (R313, R349). -/
def snapReach (f : Fire) (s : State) : Except Denied Parts :=
  let a := laneAddress f.ta
  let r := s.region f.g
  if a % 65536 ≠ 0 then .error (denied causeAlign a)
  else match s.virtParts (distributorUnit r.die) r.ctx a (r.w * r.h * 8192) true with
    | .error d => .error d
    | .ok ps => if inT3 ps then .error (denied causeSpace a) else .ok ps

/-- Begin a marker snapshot. -/
def State.beginSnapshot (s : State) (f : Fire) (id : Nat) : State :=
  let r := s.region f.g
  let x : Snapshot :=
    { h := f.h, n := f.n, nrec := f.nrec, id := id, tok := f.token 1 [0] 0 0, area := laneAddress f.ta, started := s.cycle
      aligned := [], written := [], count := [], full := [], dropped := false, depth := r.depth }
  let s := s.modRegion f.g (fun r => { r with snapshot := some x, abandoned := r.abandoned.filter (fun i => i != id) })
  let s := r.hearths.foldl (fun s h => s.snapHeader f.g h x false) s
  s.oweMarkers f.g (markerToken f.k f.col f.wave id .snapshot)

/-- SNAP's effect (R313). -/
def snapFire (f : Fire) (s : State) : State × Effect :=
  let id := ((s.region f.g).snapCount + 1) % 65536
  let count := fun (s : State) => s.modRegion f.g (fun r => { r with snapCount := r.snapCount + 1 })
  if !bit f.lit 0 then ((count ((s.unwithhold f).consume f)).latch, .emit 1 (f.token 1 [0] 0 0))
  else
    match snapReach f s with
    | .error d => (s.withhold f d, .done)
    | .ok _ => ((((count ((s.unwithhold f).consume f)).latch.beginSnapshot f id).endSnapshot f.g).pipe f 1, .done)

/-- A SNAP may fire: MODE 1 waits for the marker snapshot of its slot, and for the translations of its area (R320). -/
def snapFree (f : Fire) (s : State) : Bool :=
  !bit f.lit 0 || ((s.region f.g).snapshot.isNone && (match snapReach f s with
    | .error d => !d.wait
    | .ok _ => true))

/-- `SNAP`, R313. -/
def execSnap (r : Rec) (s : State) : Host.Outcome State Fault Refusal :=
  fireHeld 0x287 r { ready := snapFree, breach := Fire.plain, badWidth := fun f => bit f.lit 0 && decide (f.ta.wid < 2) } snapFire s

/-! ### The watchdog (R314 to R316) -/

/-- WDOG's limit. -/
def wdogLimit (f : Fire) : Nat := if f.nrec.lit = 2 then f.lit else (f.ta.lanes.headD 0).toNat

/-- `WDOG`, R316. -/
def execWdog (r : Rec) (s : State) : Host.Outcome State Fault Refusal :=
  fireNode 0x28B r {} (fun f s =>
    (s.modRegion f.g (fun r => { r with wdogLim := wdogLimit f, wdogCnt := 0 }), .emit 1 f.passed)) s

/-- A waiting token: the cycle it came to its place, hearth, node, colour and wave. -/
abbrev Waiter := Nat × Nat × Nat × Nat × Nat

/-- Tokens waiting at a node, ports A, B, C and P in that order, then the holds (R315). -/
def NodeState.waiters (x : NodeState) (fs : List FrameSlot) (h n now : Nat) : List Waiter :=
  let w := fun (t : Token) => ((t.since, h, n, t.col, t.wave) : Waiter)
  (List.range 4).flatMap (fun p =>
    (x.waiting p).map w ++ (fs.filter (fun f => f.node == n)).filterMap (fun f => (f.port p).map w)) ++
  (x.holds.filter (fun y => y.kind == .delay || y.kind == .cret || (y.ready && decide (y.due ≤ now)))).map (fun y =>
    ((if y.ready then y.due else y.tok.since), h, n, y.tok.col, y.tok.wave))

/-- Waiting tokens of a region's slot, in the order of R315's ties. -/
def State.waiters (s : State) (g : Nat) : List Waiter :=
  s.slots.flatMap (fun e =>
    if e.2.region == some g then
      (List.range 16).flatMap (fun n => (e.2.node n).waiters e.2.frames (e.1 / 4) n s.cycle)
    else [])

/-- The oldest, the first among equals. -/
def oldestWaiter : List Waiter → Option Waiter
  | [] => none
  | x :: t => match oldestWaiter t with
    | none => some x
    | some y => if x.1 ≤ y.1 then some x else some y

/-- The watchdog limit is reached. -/
def Region.starved (r : Region) : Bool := r.st == .running && r.wdogLim != 0 && decide (r.wdogLim ≤ r.wdogCnt) && !r.wdogHit

/-- Take QUIESCE (R315). -/
def State.quiesce (s : State) (g : Nat) : State :=
  let r := s.region g
  let ws := s.waiters g
  let (h, n, c, w) : Nat × Nat × Nat × Nat := match oldestWaiter ws with
    | some x => x.2
    | none => (r.origin, 0, 0, 0)
  let detail := r.wdogLim + min ws.length 0xFFFFFFFF * 2 ^ 32 + r.x * 2 ^ 64 + r.y * 2 ^ 72
  let f := nodeRecord s g h r.slot n c w faultQuiesce detail
  let s := s.modRegion g (fun r => { r with wdogHit := true })
  match r.kernel with
  | none => s
  | some e => s.kernelFault e f

/-- `QUIESCE`, R315. -/
def execQuiesce (s : State) : Host.Outcome State Fault Refusal :=
  match s.cur with
  | .region g => .next (if (s.region g).starved then s.quiesce g else s)
  | _ => .fault .misplaced

end Sys2Proof.Machine
end

