-- ==== Sys2Proof/Machine/Tokens.lean ====
section
/-! DEFINITION. The life of a token between two firings: its arrival and the checks made there (R33, R53, R60, R417),
mesh messages (R54), the way into a frame slot (R68), deferred tokens (R418), DELAY's end (R81), and the counters of a
hearth's choice: weights (R73) and starving slots (R72). -/

namespace Sys2Proof.Machine

/-! ### Arrival -/

/-- The token's own route or its payload is wrong (R33, R53): RID and bit 16 are not looked at on port 12. -/
def Flight.corrupt (f : Flight) : Bool :=
  f.tok.mark == .freeze || (f.way != .local && (f.tok.rid != f.expect || f.tok.rsv)) ||
  f.tok.res != tokenResidue f.tok.fmt f.tok.lanes

/-- The fault that a token takes on arrival at a node (Tables 3-16 and 4-3), after ROUTE and RESIDUE. -/
def State.arrivalFault (s : State) (g : Nat) (f : Flight) : Option Nat :=
  let c := s.colour g f.tok.col
  let has := match s.record f.h f.k f.tok.node with
    | some (_, r) => recHasPort r f.tok.port
    | none => false
  if f.tok.mark != .data then none
  else if !has then some faultArity
  else if f.tok.wid = 0 ∨ 32 < f.tok.wid ∨ c.wid < f.tok.wid then some faultWidth
  else if c.st == .ended then some faultPcount
  else none

/-- A marker is absorbed at a port that no circuit reaches, over the mesh, or when its snapshot was abandoned (R307,
R311). -/
def State.absorbs (s : State) (g : Nat) (f : Flight) : Bool :=
  f.tok.mark != .data &&
  (f.way == .mesh || !(s.connected g f.h f.tok.node).contains f.tok.port ||
   (f.tok.mark == .snapshot && (s.region g).abandoned.contains f.tok.markerId))

/-- Where a token goes at its node: into the queue, into a JDQ entry or an unreserved one (R69, R309), or nowhere yet. -/
def NodeState.receive (x : NodeState) (p : Nat) (t : Token) (jdq : Nat) (extra : Bool) : Option NodeState :=
  if (x.queue p).length < Config.queueDepth && x.jdqOf p == 0 then some (x.setQueue p (x.queue p ++ [t]))
  else if t.mark == .data && (decide (x.jdq.length < jdq) || (x.stopped && extra)) then some { x with jdq := x.jdq ++ [(p, t)] }
  else none

/-- A token that comes to a node held by a snapshot, on a port still without its marker, is channel state (R309). -/
def State.recordChannel (s : State) (g : Nat) (f : Flight) : State × Token :=
  let x := s.node f.h f.k f.tok.node
  if f.tok.mark == .data && x.stopped && !x.marked.contains f.tok.port &&
      (s.connected g f.h f.tok.node).contains f.tok.port && (s.region g).snapshot.isSome then
    (s.snapRecord g f.h (tokenRecord f.tok.header 6 f.tok.node 0 f.tok.lanes), { f.tok with recorded := true })
  else (s, f.tok)

/-- Remove a flight. -/
def State.dropFlight (s : State) (id : Nat) : State := { s with flights := Tab.drop s.flights id }

/-- A token enters its node. Where it finds no place it stays in its interface. -/
def State.enterNode (s : State) (id g : Nat) (f : Flight) : State :=
  match s.record f.h f.k f.tok.node with
  | none => s.dropFlight id
  | some (o, r) =>
  let x := s.node f.h f.k f.tok.node
  let t : Token := { f.tok with since := s.cycle, came := s.cycle }
  match x.receive f.tok.port t r.jdq.toNat (decide (s.unreservedUsed f.h < Config.unreserved)) with
  | none => { s with flights := Tab.set s.flights id { f with arrive := s.cycle + 1 } }
  | some _ =>
    let (s, t) := s.recordChannel g { f with tok := t }
    match x.receive f.tok.port t r.jdq.toNat (decide (s.unreservedUsed f.h < Config.unreserved)) with
    | none => s
    | some x =>
      let s := (s.dropFlight id).setNode f.h f.k f.tok.node x
      if t.mark == .snapshot then s.push [.event .snapshotFirstMarker (.port f.h f.k t.node t.port)]
      else s.checkJoin g f.h f.k t.node o r

/-- A token for a colour that is Free is discarded, and the kernel that holds the region faults (R417). -/
def State.strayToken (s : State) (g : Nat) (f : Flight) : State :=
  match (s.region g).kernel with
  | none => s
  | some e => s.kernelFault e (nodeRecord s g f.h f.k f.tok.node f.tok.col f.tok.wave faultColour 0)

/-- A token arrives at its node. -/
def State.arrive (s : State) (id : Nat) (f : Flight) : State :=
  let g := f.region
  let c := s.colour g f.tok.col
  if c.st == .purging then s.dropFlight id
  else if c.st == .free && f.tok.mark == .data then (s.dropFlight id).strayToken g f
  else if f.corrupt then (s.dropFlight id).purgeCorrected g [f.tok.col]
  else if s.absorbs g f then s.dropFlight id
  else match s.arrivalFault g f with
    | some x => (s.dropFlight id).nodeFault g f.h f.k f.tok.node f.tok.col f.tok.wave x 0
    | none => s.enterNode id g f

/-- `TOKEN_ARRIVAL`, R33. -/
def execTokenArrival (s : State) : Host.Outcome State Fault Refusal :=
  match s.cur with
  | .flight id =>
    .next (match Tab.find s.flights id with
      | some f => if f.arrive ≤ s.cycle then s.arrive id f else s
      | none => s)
  | _ => .fault .misplaced

/-! ### Mesh messages (R54) -/

/-- Fields of a class 6 body (Table 15-8). -/
def bodyOpk (b : Nat) : Nat := bits b 60 57
def bodyNum (b : Nat) : Nat := bits b 56 9
def bodyQid (b : Nat) : Nat := bits b 8 0

/-- Reserved bits or a reserved code in a route flit's BODY (R54, Tables 9-8 to 9-11 and 15-8). -/
def MeshMessage.bodyBad (m : MeshMessage) : Bool :=
  match m.cls with
  | 0 => m.body / 2 ^ 9 != 0
  | 1 => m.body / 2 ^ 7 != 0
  | 2 => m.body / 2 ^ 96 != 0 || bits m.body 31 10 != 0 || decide (12 ≤ bits m.body 3 0)
  | 3 => m.body / 2 ^ 17 != 0 || decide (4 ≤ bits m.body 10 7)
  | 4 | 5 => m.body / 2 ^ 80 != 0
  | _ => m.body / 2 ^ 61 != 0 || decide (5 ≤ bodyOpk m.body)

/-- A message that its interface discards as a mesh error. -/
def MeshMessage.bad (m : MeshMessage) : Bool :=
  decide (7 ≤ m.cls) || decide (7 ≤ m.dkind) || m.len == 0 || decide (7 ≤ m.len) || m.len != m.flits || m.bodyBad

/-- The region of a context that a hearth belongs to: the resident one, or one that is away. -/
def State.homeOf (s : State) (h m : Nat) : Option Nat :=
  match s.slotFor h m with
  | some k => (s.slot h k).region
  | none => (s.regions.find? (fun x => x.2.ctx == m && x.2.holds h && (x.2.residence == .evicted || x.2.residence == .restoring))).map
      (fun x => x.1)

/-- A message's token reaches its region (R54, R227, R236, R417). -/
def State.deliver (s : State) (id g h : Nat) (t : Token) (expect : Nat) : State :=
  let r := s.region g
  let k := r.slot
  let t := { t with ctx := k }
  let c := Tab.get {} r.cols t.col
  let f : Flight := { tok := t, region := g, h := h, k := k, expect := expect, arrive := s.cycle, way := .mesh }
  if c.st == .purging then s
  else if c.st == .free then s.strayToken g f
  else if f.corrupt then s.purgeCorrected g [t.col]
  else if r.residence == .evicted || r.residence == .restoring || (r.residence == .evicting && !r.image.isEmpty) then
    s.modRegion g (fun r => { r with imageFlights := Tab.set r.imageFlights id { f with arrive := r.imageAt } })
  else if r.depthOf t.col < s.standing h k then
    let i := s.standing h k - 1 - r.depthOf t.col
    ((s.modSlot h k (fun x => x.keepArrival i t)).spillPlane h k i).spillExtension h k i
  else ({ s with flights := Tab.set s.flights id f }).push [.event .tokenArrival (.flight id)]

/-- The state of a queue that is performing nothing (R271). -/
def Queue.rest (q : Queue) : QueueState :=
  if !q.en then .disabled else if q.done < q.tailn then .running else .idle

/-- A queue that may have new work starts (R271). -/
def Queue.wake (q : Queue) : Queue := if q.st == .idle then { q with st := q.rest } else q

/-- A good message without a token: an engine that hears of an append or a tail advance starts what has new work (R271, R293). What the
others announce, and what an access and its reply carry, is acted on where its request or its entry says (log 90). -/
def State.takeControl (s : State) (m : MeshMessage) : State :=
  if m.cls = 6 ∧ bodyOpk m.body ≤ 1 ∧ bodyNum m.body ≤ (s.queue (bodyQid m.body)).appn then s.modQueue (bodyQid m.body) Queue.wake else s

/-- `MESH_MESSAGE_RECEIVE`, R54. -/
def execMeshMessageReceive (s : State) : Host.Outcome State Fault Refusal :=
  match s.cur with
  | .flight id =>
    .next (match Tab.find s.messages id with
      | none => s
      | some m =>
        if s.cycle < m.arrive then s
        else
          let s := { s with messages := Tab.drop s.messages id }
          if m.bad then { s with meshErrors := s.meshErrors + 1 }
          else match m.token with
            | none => s.takeControl m
            | some t =>
              let h := hearthAt m.ddie m.dx m.dy
              match (if m.cls = 5 then m.source else s.homeOf h m.mctx) with
              | none => s
              | some g => s.deliver id g h t m.expect)
  | _ => .fault .misplaced

/-! ### Into a frame slot (R68) -/

/-- The slot of a token in a dynamic join, or a fresh one. -/
def frameFor (fs : List FrameSlot) (n row : Nat) (t : Token) : FrameSlot :=
  match fs.find? (fun f => f.node == n && f.col == t.col && f.row == row) with
  | some f => if f.tokens.isEmpty then { f with wave := t.wave } else f
  | none => { col := t.col, row := row, node := n, wave := t.wave, a := none, b := none, c := none, p := none
              flg := 0, tnt := false, count := 0 }

/-- A port's head token may move into its slot: the data head of a dynamic join, whose slot is not taken. A node that waits for a
snapshot marker keeps its tokens where they are (R309). -/
def State.slotEntry (s : State) (h k n p : Nat) : Option (FrameSlot × Token) :=
  match (s.slot h k).region, s.record h k n with
  | some g, some (o, r) =>
    if !isDynamic o r || (s.node h k n).stopped then none
    else match dataHead (s.node h k n) p with
      | none => none
      | some t =>
        let f := frameFor (s.slot h k).frames n (t.wave % ((s.colour g t.col).km1 + 1)) t
        if f.wave = t.wave && (f.port p).isNone then some (f, t) else none
  | _, _ => none

/-- A token moves into its frame slot, where its residue is checked again (R33, R68); it waits there from now on (R315). -/
def State.enterSlot (s : State) (h k n p : Nat) (f : FrameSlot) (t : Token) : State :=
  let s := s.modNode h k n (fun x => x.pop p s.cycle)
  if t.res = tokenResidue t.fmt t.lanes then
    s.modSlot h k (fun x => { x with frames := putSlot x.frames (f.setPort p (some { t with since := s.cycle })) })
  else match (s.slot h k).region with
    | some g => s.purgeCorrected g [t.col]
    | none => s

/-- `FRAME_SLOT_ENTRY`, R68. -/
def execFrameSlotEntry (s : State) : Host.Outcome State Fault Refusal :=
  match s.cur with
  | .port h k n p =>
    .next (match s.slotEntry h k n p with
      | none => s
      | some (f, t) => s.enterSlot h k n p f t)
  | _ => .fault .misplaced

/-! ### Deferred tokens (R418) -/

/-- The first hold that may leave, and those before and after it. -/
def firstReady (now : Nat) : List Hold → Option (Hold × List Hold)
  | [] => none
  | x :: t =>
    if x.ready && x.due ≤ now then some (x, t)
    else (firstReady now t).map (fun r => (r.1, x :: r.2))

/-- A deferred token leaves its node. The result of a contraction ends it (R152). -/
def State.sendDeferred (s : State) (g h k n : Nat) (x : Hold) (rest : List Hold) : State :=
  let s := s.modNode h k n (fun v => { v with holds := rest })
  let s := if x.kind == .result then s.modSlot h k (fun v => { v with contraction := none }) else s
  s.sendAll g h k n x.nrec true s.cycle x.tok

/-- `DEFERRED_TOKEN_SEND`, R418. -/
def execDeferredTokenSend (s : State) : Host.Outcome State Fault Refusal :=
  match s.cur with
  | .node h k n =>
    .next (match (s.slot h k).region, firstReady s.cycle (s.node h k n).holds with
      | some g, some (x, rest) =>
        if s.firing g && s.roomAll (s.bothTargets g h k n x.nrec) then s.sendDeferred g h k n x rest else s
      | _, _ => s)
  | _ => .fault .misplaced

/-- DELAY holds whose count has run out. -/
def NodeState.expire (x : NodeState) (now : Nat) : NodeState :=
  { x with holds := x.holds.map (fun e => if e.kind == .delay && e.due ≤ now then { e with ready := true } else e) }

/-- `DELAY_EXPIRY`, R81: the count of a DELAY has run, and its token leaves as R418 states. -/
def execDelayExpiry (s : State) : Host.Outcome State Fault Refusal :=
  match s.cur with
  | .node h k n =>
    .next (if (s.node h k n).holds.any (fun e => e.kind == .delay && !e.ready && e.due ≤ s.cycle) then
      (s.modNode h k n (fun x => x.expire s.cycle)).push [.event .deferredTokenSend (.node h k n)]
     else s)
  | _ => .fault .misplaced

/-! ### Waves, weights and starving slots -/

/-- `WAVE_RETIRE`, R71. -/
def execWaveRetire (s : State) : Host.Outcome State Fault Refusal :=
  match s.cur with
  | .colour g c => .next (s.retireWave g c)
  | _ => .fault .misplaced

/-- The effective weight E of a node whose queues held `q` tokens over the 1,024 cycles (R73). -/
def weightOf (wgt q : Nat) : Nat := min 8 (wgt + 1 + q / 1024 / 4)

/-- `REWEIGHT`, R73. DEDUCED (log 117): Q counts the cycles before this one. -/
def execReweight (s : State) : Host.Outcome State Fault Refusal :=
  match s.cur with
  | .slot h k =>
    .next (if s.cycle % 1024 = 0 then
      s.modSlot h k (fun x =>
        { x with cfg := { x.cfg with nodes := x.cfg.nodes.map (fun e =>
            let wgt := match Tab.find x.cfg.store e.1 with
              | some w => (decodeFields w).wgt.toNat
              | none => 0
            (e.1, { e.2 with weight := weightOf wgt e.2.qsum, qsum := 0 })) } })
     else s)
  | _ => .fault .misplaced

/-- `STARVING`, R72: the slot's counter stands at 65,536, and the starving cycles begin if no slot of the hearth was
starving. -/
def execStarving (s : State) : Host.Outcome State Fault Refusal :=
  match s.cur with
  | .slot h k =>
    .next (if 65536 ≤ (s.slot h k).starve && (s.hearth h).starving.isNone then
      s.modHearth h (fun x => { x with starving := some 0 })
     else s)
  | _ => .fault .misplaced

end Sys2Proof.Machine
end

