-- ==== Sys2Proof/Machine/QueueOps.lean ====
section
/-! DEFINITION. What the command queues share (chapter 15): messages to the host (R365) and fault records (R259), the
accesses of an engine (R190, R194, R279), the life of an entry from its read to its completion (R273, R276), and the
appends and tail advances that activations stage (R275). -/

namespace Sys2Proof.Machine

/-! ### Messages -/

/-- The 64 bytes of a fault record, byte 0 lowest (Table 13-6). -/
def FaultRecord.image (f : FaultRecord) : Nat :=
  f.cause % 2 ^ 16 + 2 ^ 16 * (f.die % 256) + 2 ^ 24 * (f.x % 256) + 2 ^ 32 * (f.y % 256) + 2 ^ 40 * (f.ctx % 256) +
  2 ^ 48 * (f.slot % 256) + 2 ^ 56 * (f.node % 256) + 2 ^ 64 * (f.col % 4096) + 2 ^ 80 * (f.wave % 256) +
  2 ^ 96 * (f.opc % 2 ^ 16) + 2 ^ 128 * (f.elem % 2 ^ 64) + 2 ^ 192 * (f.addr % 2 ^ 64) + 2 ^ 256 * (f.detail % 2 ^ 128) +
  2 ^ 384 * (f.cycle % 2 ^ 64)

/-- Put a message behind those that wait (R365). -/
def State.message (s : State) (body : Nat) (pair ctx : Option Nat) : State :=
  { s with outgoing := s.outgoing ++ [{ body := body, pair := pair, ctx := ctx }] }

/-- KIND 0: a command was consumed. -/
def State.answer (s : State) (p : Nat) (cid : BitVec 32) (status : Nat) : State :=
  s.message (2 ^ 8 * status + 2 ^ 32 * cid.toNat) (some p) none

/-- KIND 2: a fault message, for a fabric node (QID 0xFFFF) or an engine entry. -/
def State.faultMessage (s : State) (qid rtag : Nat) (f : FaultRecord) (pair ctx : Option Nat) : State :=
  s.message (2 + 2 ^ 16 * qid + 2 ^ 32 * rtag + 2 ^ 64 * (f.image % 2 ^ 448)) pair ctx

/-- KIND 5: a link changed its state. -/
def State.linkMessage (s : State) (l code : Nat) : State := s.message (5 + 2 ^ 64 * l + 2 ^ 72 * code) none none

/-! ### Engine accesses (R190, R194, R279) -/

/-- What an engine's access meets: it is made, it waits on a prepared granule, or it faults with a cause, a detail and an
address. -/
inductive Met (α : Type) where
  | ok (x : α)
  | wait (va : Nat)
  | denied (cause detail va : Nat)

/-- Go on with an access that was made. -/
def Met.bind {α β : Type} (x : Met α) (f : α → Met β) : Met β :=
  match x with
  | .ok y => f y
  | .wait a => .wait a
  | .denied c d a => .denied c d a

/-- What an access gave, changed. -/
def Met.map {α β : Type} (f : α → β) (x : Met α) : Met β := x.bind (fun y => .ok (f y))

/-- Some granule of a physical range is prepared (R190). -/
def State.preparedRange (s : State) (pa n : Nat) : Bool := (granules (forwardAddr s.forwards pa) n).any (fun g => s.prepared g)

/-- A commit's write to a granule of a physical range has passed its commit point and has not been applied: a later write waits for
it, since co is total and no cycle may form (R187). -/
def State.unappliedRange (s : State) (pa n : Nat) : Bool := (granules (forwardAddr s.forwards pa) n).any (fun g => s.unapplied g)

/-- Some translation of a range must wait (R320). -/
def State.rangeWaits (s : State) (u m va n : Nat) : Bool := (pieces va n).any (fun p => s.walkWaits u m p.1)

/-- A part of an access lies in T3 where no link reaches it now: the access waits (R194, R361). -/
def State.linkWaits (s : State) (ps : List (Nat × Nat × Nat)) : Bool := ps.any (fun p => s.unreached p.2.1)

/-- Read bytes at a virtual address of a context through a unit's caches: the state after it, the bytes, and their poison. -/
def State.readThrough (s : State) (u m va n : Nat) : Met (State × List Byte × Bool) :=
  if s.rangeWaits u m va n then .wait va
  else match s.locateAll u m false (pieces va n) with
    | .error ((c, d), a) => .denied c d a
    | .ok ps =>
      let at' := pieceBytes ps
      let crit := s.critPieces u m ps
      let ports := at' ++ at'.filter (fun a => crit.any (fun b => forwardAddr s.forwards b / 64 == forwardAddr s.forwards a / 64))
      if s.linkWaits ps || ps.any (fun p => s.preparedRange p.2.1 p.2.2) || !s.portRoom ports then .wait va
      else
        .ok (((s.touchAll u m va n false).critDone crit).usePort ports, at'.map (s.critByte crit), at'.any (s.critTaint crit))

/-- Write bytes at a virtual address of a context through a unit's caches. -/
def State.writeThrough (s : State) (u m va : Nat) (bs : List Byte) (poison : Bool) : Met State :=
  if s.rangeWaits u m va bs.length then .wait va
  else match s.locateAll u m true (pieces va bs.length) with
    | .error ((c, d), a) => .denied c d a
    | .ok ps =>
      if s.linkWaits ps || ps.any (fun p => s.unappliedRange p.2.1 p.2.2) || !s.portRoom (pieceBytes ps) then .wait va
      else match s.writeVirt u m va bs poison with
        | .error ((c, d), a) => .denied c d a
        | .ok t => .ok (t.usePort (pieceBytes ps))

/-- The same for the engine, distributor or Stoker of the running move. -/
def State.engineRead (s : State) (m va n : Nat) : Met (State × List Byte × Bool) := s.readThrough s.agent m va n

def State.engineWrite (s : State) (m va : Nat) (bs : List Byte) (poison : Bool) : Met State := s.writeThrough s.agent m va bs poison

/-- Accesses of many granules made as one move: the bank ports carry their bytes in this cycle and the next ones (log 109). -/
def State.atLength {α : Type} (s : State) (f : State → Met (State × α)) : Met (State × α) :=
  (f { s with long := some s.traffic }).map (fun x => ({ x.1 with long := none }, x.2))

/-- A read of many granules. -/
def State.longRead (s : State) (m va n : Nat) : Met (State × List Byte × Bool) := s.atLength (fun s => s.engineRead m va n)

/-- A write of many granules. -/
def State.longWrite (s : State) (m va : Nat) (bs : List Byte) (poison : Bool) : Met State :=
  (s.atLength (fun s => (s.engineWrite m va bs poison).map (fun s => (s, ())))).map (fun x => x.1)

/-! ### Engine control (R293) -/

/-- A message of class 6 (Table 15-8) between engines, distributors and hearths: an operation code, a number and a queue. -/
def controlMessage (opk num q die kind index src m now : Nat) : MeshMessage :=
  { ddie := die, dx := index, dkind := kind, cls := 6, sdie := src, mctx := m, body := opk * 2 ^ 57 + num % 2 ^ 48 * 2 ^ 9 + q, arrive := now }

/-- Tell the engine of a queue: an append (0) with its entry number, a tail advance (1) with the new tail, the new DONE (2), or the
interest of a QFENCE (3) in an entry. -/
def State.tellQueue (s : State) (opk num q src : Nat) : State :=
  s.sendMessage (controlMessage opk num q (q / 128) 4 (q / 16 % 8) src (s.queue q).ctx s.cycle)

/-- Tell every die's distributor of a WDRAW (4). -/
def State.tellDies (s : State) (num q : Nat) : State :=
  ((List.range 4).filter (fun d => !s.fencedDies.contains d)).foldl (fun s d =>
    s.sendMessage (controlMessage 4 num q d 5 d (q / 128) (s.queue q).ctx s.cycle)) s

/-! ### Entries -/

/-- Number of a queue's engine in the module: 8 × die + engine (R13). -/
def engineOf (q : Nat) : Nat := q / 16

/-- The kinds that a queue's engine performs (Table 15-4). -/
def performs (q kind : Nat) : Bool :=
  [0x20, 0x21, 0x22, 0x23].contains kind ||
  (match q / 16 % 8 with
   | 0 | 1 | 2 | 3 => [0x01, 0x02, 0x03, 0x04, 0x08, 0x09, 0x0C, 0x0D].contains kind
   | 4 | 5 => [0x05, 0x06].contains kind
   | 6 => [0x10, 0x11, 0x12, 0x13, 0x14].contains kind
   | _ => [0x0A].contains kind)

/-- Statuses that stop their queue (Table 15-3, R298, Table 18-4). -/
def statusStops (status : Nat) : Bool := [0x02, 0x03, 0x04, 0x05, 0x06, 0x07, 0x08, 0x0A, 0x10, 0x18].contains status

def stOk : Nat := 0x00
def stWithdrawn : Nat := 0x01
def stBadKind : Nat := 0x02
def stBadArg : Nat := 0x03
def stBadTid : Nat := 0x04
def stDropped : Nat := 0x05
def stRecompute : Nat := 0x06
def stOvlp : Nat := 0x07
def stAborted : Nat := 0x08
def stPoison : Nat := 0x09
def stTimeout : Nat := 0x0A
def stPartial : Nat := 0x0B
def stBadSeq : Nat := 0x10
def stKvStale : Nat := 0x11
def stPgBad : Nat := 0x18
def stLate : Nat := 0x19
def stLateDropped : Nat := 0x1A

/-- KIND of an entry image (Table 15-2). -/
def imageKind (e : BitVec 512) : Nat := (entryKind e).toNat

/-- Overwrite bytes of a list. -/
def overwrite (bs : List Byte) (i : Nat) (new : List Byte) : List Byte := bs.take i ++ new ++ bs.drop (i + new.length)

/-- The result fields of an entry (Tables 16-3, 18-3 and 20-2): offset and bytes. -/
def resultFields (kind r0 r1 : Nat) : List (Nat × List Byte) :=
  match kind with
  | 0x09 => [(48, leBytes 4 r0), (52, leBytes 4 r1)]
  | 0x0A => [(52, leBytes 3 r0)]
  | 0x0C | 0x0D => [(40, leBytes 8 r0)]
  | 0x10 | 0x11 | 0x12 | 0x13 | 0x14 => [(40, leBytes 2 r0)]
  | _ => []

/-- An entry's bytes as its completion leaves them (R273): STATUS, CMP, CSEQ and the results. A page move's PREV is written once the
move has begun (R331). -/
def completedBytes (bs : List Byte) (c : CurrentEntry) (status : Nat) : List Byte :=
  let k := imageKind c.image
  let none' := status = stBadKind || status = stWithdrawn || ((k = 0x0C || k = 0x0D) && !c.begun)
  let rs := if none' then [] else resultFields k c.r0 c.r1
  let bs := rs.foldl (fun b r => overwrite b r.1 r.2) bs
  let bs := overwrite bs 13 [(bs.getD 13 0) ||| 0x20]
  overwrite (overwrite bs 14 [BitVec.ofNat 8 status]) 56 (leBytes 8 (c.n % 2 ^ 48))

/-- Change the engine of a queue. -/
def State.modEngine (s : State) (q : Nat) (f : Engine → Engine) : State :=
  { s with engines := Tab.modify {} s.engines (engineOf q) f }

/-- Count granules moved by a queue's engine (Table 21-6). -/
def State.countGranules (s : State) (q n : Nat) : State := s.modEngine q (fun e => { e with granules := (e.granules + n) % 2 ^ 64 })

/-- KIND 3: an entry with IRQ completed. -/
def State.irqMessage (s : State) (q n status ctx : Nat) : State :=
  s.message (3 + 2 ^ 8 * status + 2 ^ 64 * q + 2 ^ 128 * n) none (some ctx)

/-- Withhold the queue's entry at an access (R279). -/
def State.withholdEntry (s : State) (q cause detail va : Nat) : State :=
  let u := s.queue q
  let w : WithheldAccess :=
    { cause := cause, addr := va, elem := if u.relink then u.done - 1 else u.done, detail := detail, col := 0, wave := 0
      found := s.cycle, sent := false, recompute := none, resumed := false }
  s.setQueue q { u with withheld := some w, since := none, st := if u.st == .stopped then .stopped else if u.en then .waiting else .disabled }

/-- An access of the engine for the queue waits for its answer; after 2,097,152 cycles it is withheld with cause TMO (R279, R329). -/
def State.waitOn (s : State) (q va : Nat) : State :=
  match (s.queue q).since with
  | some (a, t) =>
    if a = va then (if t + Config.requestTimeout ≤ s.cycle then s.withholdEntry q causeTmo causeTmo va else s)
    else s.modQueue q (fun u => { u with since := some (va, s.cycle) })
  | none => s.modQueue q (fun u => { u with since := some (va, s.cycle) })

/-- NEXT of the entry that has completed is read, as its header now stands: FETCH follows it (R276). An error on the way is tried
again (R346; DEDUCED, log 127). -/
def State.relink (s : State) (q : Nat) : State :=
  let u := s.queue q
  if s.cycle < u.again then s
  else match s.readThrough (engineUnit q) u.ctx u.fetch 8 with
  | .wait a => s.waitOn q a
  | .denied c d a => s.withholdEntry q c d a
  | .ok (s, bs, _) =>
    let v : Queue := { u with fetch := bits (leNat bs) 54 6 * 64, relink := false, since := none, errors := 0 }
    s.setQueue q (if v.st == .running || v.st == .waiting then { v with st := v.rest } else v)

/-- An entry of a queue's engine has completed: the engine stays busy while another queue of it runs one (R274). -/
def State.noteIdle (s : State) (q : Nat) : State :=
  let more := s.queues.find? (fun x => engineOf x.1 == engineOf q && x.2.cur.isSome)
  s.modEngine q (fun e => { e with busy := more.isSome, queue := (more.map (fun x => x.1 % 16)).getD e.queue, entries := (e.entries + 1) % 2 ^ 64 })

/-- DONE rises past the current entry (R273, R276). -/
def State.passEntry (s : State) (q status : Nat) (stop : Bool) : State :=
  let u := s.queue q
  match u.cur with
  | none => s
  | some c =>
    let d := u.done + 1
    let v : Queue := { u with done := d, cur := none, withheld := none, since := none, withdrawn := u.withdrawn.filter (fun x => decide (d ≤ x))
                              withdraws := u.withdraws.filter (fun x => decide (d < x.2.2.2)), relink := decide (d < u.appn) }
    let s := s.setQueue q { v with st := if stop && u.en then .stopped else v.rest }
    let s := (s.noteIdle q).tellQueue 2 d q (q / 128)
    let s := if c.image.getLsbD 110 then s.irqMessage q c.n status u.ctx else s
    if d < u.appn then s.relink q else s

/-- Make the completion write of an entry whose status is known (R273). -/
def State.completionWrite (s : State) (q : Nat) : State :=
  let u := s.queue q
  match u.cur with
  | none => s
  | some c =>
    match c.finish with
    | none => s
    | some status =>
      match s.readThrough (engineUnit q) u.ctx u.fetch 64 with
      | .wait a => s.waitOn q a
      | .denied c d a => s.withholdEntry q c d a
      | .ok (t, bs, poison) =>
        match t.writeThrough (engineUnit q) u.ctx u.fetch (completedBytes bs c status) poison with
        | .wait a => s.waitOn q a
        | .denied c d a => s.withholdEntry q c d a
        | .ok s => s.passEntry q status (statusStops status)

/-- Change the current entry. -/
def State.modEntry (s : State) (q : Nat) (f : CurrentEntry → CurrentEntry) : State :=
  s.modQueue q (fun u => { u with cur := u.cur.map f })

/-- An entry ends with a status. -/
def State.finishEntry (s : State) (q status : Nat) : State :=
  (s.modEntry q (fun c => { c with finish := some status })).completionWrite q

/-- "All appended" in a name of a QFENCE. -/
def allAppended : Nat := 0xFFFFFFFFFFFF

/-- The names of a QFENCE as they stand at its start (R287): queue, and the entry that must have completed. -/
def State.fenceNames (s : State) (c : CurrentEntry) : List (Nat × Nat) :=
  if imageKind c.image != 0x20 then []
  else
    ([16, 24, 32, 40].map (fun i => bits c.image.toNat (8 * i + 63) (8 * i))).filterMap (fun w =>
      let q := bits w 56 48
      let n := bits w 47 0
      if !bit w 63 then none
      else if n = allAppended then (if (s.queue q).appn = 0 then none else some (q, (s.queue q).appn - 1))
      else some (q, n))

/-- A current entry that was never read: its read was withheld, or failed. -/
def unreadEntry (n now : Nat) : CurrentEntry :=
  { image := 0, n := n, started := now, progress := 0, names := [], poison := false, r0 := 0, r1 := 0, switched := none, lastRead := 0
    finish := none, begun := false, busyUntil := now, latch := [], off := 0, buffer := [], coll := {} }

/-- The engine of a running queue reads its next entry (R276), once FETCH has its address. An error on the way is tried again, three
times; then the entry completes with POISON (R346). -/
def State.readEntry (s : State) (q : Nat) : State :=
  let u := s.queue q
  if u.relink then s.relink q
  else if s.cycle < u.again then s
  else if 3 < u.errors then (s.setQueue q { u with cur := some (unreadEntry u.done s.cycle), errors := 0 }).finishEntry q stPoison
  else match s.readThrough (engineUnit q) u.ctx u.fetch 64 with
  | .wait a => s.waitOn q a
  | .denied c d a => s.withholdEntry q c d a
  | .ok (s, bs, _) =>
    let c : CurrentEntry :=
      { image := BitVec.ofNat 512 (leNat bs), n := u.done, started := s.cycle, progress := 0, names := [], poison := false
        r0 := 0, r1 := 0, switched := none, lastRead := 0, finish := none, begun := false, busyUntil := s.cycle + 16
        latch := [], off := 0, buffer := [], coll := {} }
    let c := { c with names := s.fenceNames c }
    (s.setQueue q { u with cur := some c, since := none, errors := 0 }).modEngine q (fun e => { e with busy := true, queue := q % 16 })

/-- The queue's current entry may take a turn: the queue has not stopped it, and nothing of it is withheld. -/
def Queue.serves (u : Queue) : Bool := (u.st == .running || u.st == .waiting) && u.withheld.isNone

/-- NEXT of the entry that has completed is still to be read, whatever the queue's state: the read belongs to that entry (R276, R279). -/
def Queue.relinks (u : Queue) : Bool := u.cur.isNone && u.relink && u.withheld.isNone

/-- An entry must wait (Table 15-1). -/
def State.waitEntry (s : State) (q : Nat) : State := s.modQueue q (fun u => { u with st := if u.en then .waiting else .disabled })

/-- The wait of an entry ends. -/
def State.workEntry (s : State) (q : Nat) : State := s.modQueue q (fun u => if u.st == .waiting then { u with st := .running } else u)

/-- The entry waits for the recompute of a tensor (R132). -/
def State.waitRecompute (s : State) (q m t : Nat) : State :=
  let s := s.withholdEntry q causeDropped causeDropped 0
  s.modQueue q (fun u => { u with withheld := u.withheld.map (fun w => { w with recompute := some (m, t) }) })

/-- What the start of a body comes to: the entry ends with a status, it waits, or its data accesses begin. -/
inductive Start where
  | fail (status : Nat)
  | wait
  | go (c : CurrentEntry)

/-- The entry was withdrawn before its start (R289). -/
def Queue.withdrew (u : Queue) (c : CurrentEntry) : Bool :=
  let r := (decodeHeader c.image).rtag.toNat
  u.withdrawn.contains c.n ||
  (r != 0 && u.withdraws.any (fun x => decide (x.2.2.1 ≤ c.n) && decide (c.n < x.2.2.2) && r &&& x.2.1 == x.1 &&& x.2.1))

/-- Reserved bits of the header are set (Table 15-2). -/
def headerBad (e : EntryHeader) : Bool := e.rsvA != 0 || e.rsvB != 0 || e.rsvC != 0

/-- An access of the entry has gone on: none waits for its answer, unless it is the same that waited before. -/
def State.settleWait (s : State) (q : Nat) (before : Queue) : State :=
  let u := s.queue q
  if u.since.isSome && u.since == before.since && !(u.cur == before.cur) then s.setQueue q { u with since := none } else s

/-- One turn of an entry (R274, R276, R279): the status that was found is written, an entry that its engine does not perform
or that was withdrawn ends, its body is checked in the start of 16 cycles, and then its next access is made. `start` checks
a body; `go` makes one access. -/
def engineTurn (kind : Nat) (e : EntryHeader) (start : State → Nat → CurrentEntry → State × Start)
    (go : State → Nat → CurrentEntry → State) (s : State) : Host.Outcome State Fault Refusal :=
  match s.cur with
  | .queue q =>
    let u := s.queue q
    .next (match u.cur with
      | none => s
      | some c =>
        if !u.serves then s
        else if s.cycle < c.busyUntil then s
        else if c.finish.isSome then s.completionWrite q
        else if c.begun then (go s q c).settleWait q u
        else if !performs q kind then s.finishEntry q stBadKind
        else if u.withdrew c then s.finishEntry q stWithdrawn
        else if headerBad e then s.finishEntry q stBadArg
        else match start s q c with
          | (s, .fail status) => s.finishEntry q status
          | (s, .wait) => s
          | (s, .go c) =>
            let c := { c with begun := true }
            go (s.modEntry q (fun _ => c)) q c)
  | _ => .fault .misplaced

/-- A body without anything to read at its start. -/
def plainStart (check : Nat → Nat → Option Nat) (s : State) (q : Nat) (c : CurrentEntry) : State × Start :=
  (s, match check q c.n with
    | some status => .fail status
    | none => .go c)

/-- `BADKIND`, R59: an entry of unknown KIND has no effect and stops its queue. -/
def execBadkind (_e : EntryHeader) (_kind : BitVec 8) (_body : BitVec 320) (s : State) : Host.Outcome State Fault Refusal :=
  match s.cur with
  | .queue q =>
    let u := s.queue q
    .next (match u.cur with
      | none => s
      | some c =>
        if !u.serves then s
        else if s.cycle < c.busyUntil then s
        else if c.finish.isSome then s.completionWrite q
        else s.finishEntry q stBadKind)
  | _ => .fault .misplaced

/-! ### Appends and tail advances (R275) -/

/-- The link write into the header of the last appended entry. -/
def State.linkWrite (s : State) (q a : Nat) : Met State :=
  let u := s.queue q
  if u.last = 0 then .ok s
  else match s.readThrough (engineUnit q) u.ctx u.last 16 with
    | .wait a => .wait a
    | .denied c d x => .denied c d x
    | .ok (s, bs, poison) =>
      let h := leNat bs
      let h := h - bits h 54 6 * 64 + bits a 54 6 * 64 ||| 2 ^ 111
      s.writeThrough (engineUnit q) u.ctx u.last (leBytes 16 h) poison

/-- The queue's fields after an append. -/
def Queue.appended (u : Queue) (a : Nat) : Queue :=
  { u with fetch := if u.appn = u.done then a else u.fetch, last := a, appn := u.appn + 1 }

/-- The queue's fields after a tail advance. -/
def Queue.advanced (u : Queue) (n : Nat) : Queue :=
  { u with tailn := if n = 0 then u.appn else min u.appn (u.tailn + n) }.wake

/-- Apply one append or tail advance: whether it took effect, or the link write's fault. -/
def State.applyQueue (s : State) (q : Nat) (append : Bool) (x : Nat) : Met State :=
  if append then
    match s.linkWrite q x with
    | .ok s => .ok ((s.modQueue q (fun u => u.appended x)).tellQueue 0 (s.queue q).appn q (q / 128))
    | .wait a => .wait a
    | .denied c d a => .denied c d a
  else
    let s := s.modQueue q (fun u => u.advanced x)
    .ok (s.tellQueue 1 (s.queue q).tailn q (q / 128))

/-- The wait of a link write (R275): the entry number that the append will take counts as element counter. -/
def State.linkDenied (s : State) (q cause detail va : Nat) : State :=
  let w : WithheldAccess :=
    { cause := cause, addr := va, elem := (s.queue q).appn, detail := detail, col := 0, wave := 0, found := s.cycle
      sent := false, recompute := none, resumed := false }
  s.modQueue q (fun u => { u with linkFault := some w })

/-- A link write waits for its answer; after 2,097,152 cycles it is withheld with cause TMO (R275, R329, R361). -/
def State.linkWaiting (s : State) (q va : Nat) : State :=
  match (s.queue q).linkSince with
  | some (a, t) =>
    if a = va then (if t + Config.requestTimeout ≤ s.cycle then (s.modQueue q (fun u => { u with linkSince := none })).linkDenied q causeTmo causeTmo va else s)
    else s.modQueue q (fun u => { u with linkSince := some (va, s.cycle) })
  | none => s.modQueue q (fun u => { u with linkSince := some (va, s.cycle) })

/-- Apply what waits at a queue, in order, until a link write stops it. -/
def drainQueue (q : Nat) : List (Bool × Nat × Nat × Nat) → State → State
  | [], s => s.modQueue q (fun u => { u with blocked := [] })
  | x :: t, s =>
    match s.applyQueue q x.1 x.2.1 with
    | .ok s => drainQueue q t (s.modQueue q (fun u => { u with linkSince := none }))
    | .wait a => (s.modQueue q (fun u => { u with blocked := x :: t })).linkWaiting q a
    | .denied c d a => (s.modQueue q (fun u => { u with blocked := x :: t })).linkDenied q c d a

/-- Go on with the applies of a queue, unless a faulting link write waits for RESUME. -/
def State.drainQueue (s : State) (q : Nat) : State :=
  if (s.queue q).linkFault.isSome then s else Machine.drainQueue q (s.queue q).blocked s

/-- Put an apply behind those that wait, and go on. -/
def State.queueEffect (s : State) (q : Nat) (append : Bool) (x g c : Nat) : State :=
  (s.modQueue q (fun u => { u with blocked := u.blocked ++ [(append, x, g, c)] })).drainQueue q

/-- An apply of the activation still waits at some queue. -/
def State.queueWaits (s : State) (g c : Nat) : Bool := s.queues.any (fun e => e.2.blocked.any (fun x => x.2.2 == (g, c)))

end Sys2Proof.Machine
end

