-- ==== Sys2Proof/Machine/Stoker.lean ====
section
/-! DEFINITION. Kernels and groups (chapters 13 and 14): acceptance (R246 to R250), the journal (R371), dependences (R252,
R253), completion records (R257, R258), the division of an index space into groups and their handout (R261 to R265, R419),
and the completion of a kernel (R254, R133). -/

namespace Sys2Proof.Machine

/-! ### The launch record (R246 to R249) -/

/-- A 64-bit word of the launch record at a byte offset. -/
def recWord (raw at' : Nat) : Nat := bits raw (8 * at' + 63) (8 * at')

/-- A level's word, a dependence's word, an area's word. -/
def levelWord (raw i : Nat) : Nat := recWord raw (0x40 + 8 * i)
def depWord (raw i : Nat) : Nat := recWord raw (0x80 + 8 * i)
def areaWord (raw i : Nat) : Nat := recWord raw (0xC0 + 8 * i)

def lrMagic (raw : Nat) : Nat := bits raw 511 480
def lrTag (raw : Nat) : Nat := bits raw 479 448
def lrCtx (raw : Nat) : Nat := bits raw 447 445
def lrPlim (raw : Nat) : Nat := bits raw 443 441
def lrPsn (raw : Nat) : Nat := bits raw 440 434
def lrRank (raw : Nat) : Nat := bits raw 433 432
def lrDirm1 (raw : Nat) : Nat := bits raw 431 424
def lrRmax (raw : Nat) : Nat := bits raw 423 408
def lrExt (raw d : Nat) : Nat := bits raw (383 - 32 * d) (352 - 32 * d)

/-- The valid levels, from level 0 up to the first invalid one. -/
def lrLevels (raw : Nat) : Nat → Nat → List Level
  | 0, _ => []
  | n + 1, i =>
    let w := levelWord raw i
    if bit w 63 then { dom := bits w 62 60, scp := bits w 59 57, parts := bits w 31 0 } :: lrLevels raw n (i + 1) else []

/-- Number of groups P: the product of PARTS (R261). -/
def partsOf (ls : List Level) : Nat := ls.foldl (fun a l => a * l.parts) 1

/-- No level names a larger domain than the one before it. -/
def domainsShrink : List Level → Bool
  | a :: b :: t => decide (a.dom ≤ b.dom) && domainsShrink (b :: t)
  | _ => true

/-- Reason 1 does not hold: MAGIC and the reserved bits. -/
def lrFormOk (raw : Nat) : Bool :=
  lrMagic raw == 0x4B4C5231 && bits raw 407 384 == 0 && bits raw 287 0 == 0 &&
  (List.range 8).all (fun i => bits (levelWord raw i) 56 32 == 0) &&
  (List.range 8).all (fun i => bits (depWord raw i) 61 35 == 0) &&
  [0, 1, 3, 5, 6].all (fun i => bits (areaWord raw i) 63 55 == 0) && areaWord raw 7 == 0

/-- Reason 3 does not hold. -/
def lrNumbersOk (raw : Nat) : Bool :=
  decide (1 ≤ lrPlim raw ∧ lrPlim raw ≤ 4) && decide (1 ≤ lrPsn raw ∧ lrPsn raw ≤ 64) && lrRank raw != 0 && lrRmax raw != 0 &&
  lrExt raw 0 != 0 && (if 2 ≤ lrRank raw then lrExt raw 1 != 0 else lrExt raw 1 == 1) &&
  (if lrRank raw = 3 then lrExt raw 2 != 0 else lrExt raw 2 == 1)

/-- Reason 4 does not hold (R247, R261). -/
def lrLevelsOk (raw : Nat) : Bool :=
  let ls := lrLevels raw 8 0
  !ls.isEmpty && (List.range 8).all (fun i => !bit (levelWord raw i) 63 || decide (i < ls.length)) &&
  ls.all (fun l => decide (l.dom ≤ 4) && decide (l.scp ≤ 4) && l.parts != 0) && domainsShrink ls &&
  decide (partsOf ls < 2 ^ 32)

/-- Reason 5 does not hold; without a readable image header its shape is not judged. -/
def lrAreasOk (raw : Nat) (head : Option Nat) : Bool :=
  areaWord raw 0 % 65536 == 0 && areaWord raw 1 % 65536 == 0 && areaWord raw 2 % 65536 == 0 && areaWord raw 3 % 65536 == 0 &&
  areaWord raw 5 % 64 == 0 && areaWord raw 6 % 16 == 0 &&
  (match head with
   | some hd => decide (lrPsn raw * headW hd * headH hd ≤ areaWord raw 4)
   | none => true)

/-- Reason 7: a dependence names the kernel itself. -/
def lrNamesSelf (raw : Nat) : Bool :=
  (List.range 8).any (fun i => let w := depWord raw i
    bit w 63 && bits w 34 32 == lrCtx raw && bits w 31 0 == lrTag raw)

/-- What acceptance reads (R250, step 2): the launch record, and where they can be read directory entry 0 and the header of
the image that it names. -/
structure Offer where
  raw : Nat
  entry : Option Nat
  head : Option Nat
  deriving DecidableEq, Repr

/-- A number at a virtual address of a context, if every byte can be read. -/
def State.readNumber (s : State) (m va n : Nat) : Option Nat := match s.readVirt s.agent m va n with
  | .ok (bs, _) => some (leNat bs)
  | .error _ => none

/-- The launch record with AFTER's dependence in the place of dependence 7 (R260). -/
def withAfter (raw : Nat) (after at' : Bool) (m tag : Nat) : Nat :=
  if after then
    let w := 2 ^ 63 + b2n at' * 2 ^ 62 + m * 2 ^ 32 + tag
    raw - recWord raw 0xB8 * 2 ^ 1472 + w * 2 ^ 1472
  else raw

/-- Read what a submission offers. -/
def State.offer (s : State) (a : Submission) : Option Offer :=
  if a.lra % 64 ≠ 0 then none
  else match s.readNumber a.ctx a.lra 256 with
    | none => none
    | some raw =>
      let p := match a.parent with
        | some e => s.kernel e
        | none => {}
      let raw := withAfter raw (a.after && a.parent.isSome) a.at' p.ctx p.rtag
      let entry := s.readNumber (lrCtx raw) (areaWord raw 6) 16
      let head := match entry with
        | some e => if bits e 63 0 = 0 then some 0 else s.readNumber (lrCtx raw) (bits e 63 0) 64
        | none => none
      some { raw := raw, entry := entry, head := head }

/-- The reads that an acceptance makes: context, address, length. -/
def State.offerReads (s : State) (a : Submission) : List (Nat × Nat × Nat) :=
  if a.lra % 64 ≠ 0 then []
  else (a.ctx, a.lra, 256) :: (match s.offer a with
    | none => []
    | some o => (lrCtx o.raw, areaWord o.raw 6, 16) :: (match o.entry with
      | some e => if bits e 63 0 = 0 then [] else [(lrCtx o.raw, bits e 63 0, 64)]
      | none => []))

/-- Some read of an acceptance waits on a prepared granule. -/
def State.offerWaits (s : State) (a : Submission) : Bool := (s.offerReads a).any (fun x => s.readWaits s.agent x.1 x.2.1 x.2.2)

/-- The reason for which a submission is rejected (Table 13-2). -/
def State.rejectReason (s : State) (a : Submission) : Option Offer → Option Nat
  | none => some 8
  | some o =>
    if !lrFormOk o.raw then some 1
    else if lrCtx o.raw != a.ctx && a.parent.isSome && !(s.context a.ctx).priv then some 2
    else if !lrNumbersOk o.raw then some 3
    else if !lrLevelsOk o.raw then some 4
    else if !lrAreasOk o.raw o.head then some 5
    else if (match o.entry with
      | some e => bits e 63 0 == 0
      | none => false) then some 6
    else if lrNamesSelf o.raw then some 7
    else if o.entry.isNone || o.head.isNone then some 8
    else none

/-- The table entry of a launch record. -/
def Offer.kernel (o : Offer) (a : Submission) (n : Nat) : Kernel :=
  let raw := o.raw
  let hd := o.head.getD 0
  { ctx := lrCtx raw, rtag := lrTag raw, seq := n, lra := a.lra, nr := bit raw 444, plim := lrPlim raw, psn := lrPsn raw
    dirm1 := lrDirm1 raw, rmax := lrRmax raw, ext0 := lrExt raw 0, ext1 := lrExt raw 1, ext2 := lrExt raw 2
    levels := lrLevels raw 8 0, cta := areaWord raw 0, ova := areaWord raw 1, ovsz := areaWord raw 2, psa := areaWord raw 3
    pss := areaWord raw 4, cra := areaWord raw 5, dira := areaWord raw 6, pair := a.pair, recompute := a.recompute
    cfgVa := bits (o.entry.getD 0) 63 0, cfgId := bits hd 431 400, cfgW := headW hd, cfgH := headH hd }

/-! ### The journal (R371) -/

/-- Physical address of the entry of a sequence number. -/
def State.journalAddr (s : State) (n : Nat) : Nat := s.jrnlBase + n % 2 ^ s.jrnlSize * 64

/-- An entry is free to be written. -/
def State.journalRoom (s : State) : Bool :=
  decide (s.jrnlNext < 2 ^ s.jrnlSize) || s.fetchLe (s.journalAddr s.jrnlNext + 11) 1 == 2

/-- Write the next entry. -/
def State.journal (s : State) (opc qp ctx st cid arg : Nat) : State :=
  let bs := leBytes 8 s.jrnlNext ++ [BitVec.ofNat 8 opc, BitVec.ofNat 8 qp, BitVec.ofNat 8 ctx, BitVec.ofNat 8 st] ++
    leBytes 4 cid ++ leBytes 8 arg ++ List.replicate 40 0
  let t := s.putPhys (s.journalAddr s.jrnlNext) bs
  { t with jrnlNext := (s.jrnlNext + 1) % 2 ^ 64 }

/-- Move an entry's STATE. -/
def State.journalState (s : State) (n st : Nat) : State := s.putPhys (s.journalAddr n + 11) [BitVec.ofNat 8 st]

/-! ### Records and messages (R257, R258, R365) -/

/-- The completion record's 128 bytes (Table 13-5). -/
def Kernel.record (k : Kernel) (reason : Nat) : List Byte :=
  leBytes 4 k.rtag ++ leBytes 1 k.status ++ leBytes 1 (if k.status = 2 ∨ k.status = 4 then 0 else k.verdict) ++ leBytes 1 k.ctx ++
  leBytes 1 reason ++ leBytes 4 k.flagsK.toNat ++ leBytes 4 k.mxcNan ++ leBytes 4 k.mxcOvf ++ leBytes 4 k.mxcSat ++
  leBytes 4 k.groupsDone ++ leBytes 4 k.reissued ++ leBytes 8 k.seq ++ leBytes 8 k.firstCycle ++ leBytes 8 k.endCycle ++
  leBytes 4 k.laterFaults ++ leBytes 4 0 ++
  leBytes 64 (if k.status = 1 then match k.fault with
    | some f => f.image
    | none => 0
   else 0)

/-- KIND 1: a kernel is Visible, or was rejected. -/
def State.kernelMessage (s : State) (k : Kernel) (reason : Nat) : State :=
  s.message (1 + 2 ^ 8 * k.status + 2 ^ 16 * (if k.status = 2 ∨ k.status = 4 then 0 else k.verdict) + 2 ^ 24 * reason +
    2 ^ 64 * k.cra + 2 ^ 128 * k.rtag + 2 ^ 160 * k.ctx) k.pair (some k.ctx)

/-! ### Dependences (R252, R253) -/

/-- A kernel that no further dependence has to wait for. -/
def Kernel.ended (k : Kernel) : Bool := k.st == .complete || k.st == .visible || k.st == .withdrawn || k.st == .halted

/-- What a resolved dependence on `p` holds. -/
def Kernel.holds (p : Kernel) (at' : Bool) : Bool := !(p.status == 0 && (decide (p.verdict < 2) || at'))

/-- The newest entry with a context and a request tag (R252). -/
def State.newest (s : State) (m tag : Nat) : Option Nat :=
  (s.kernels.foldl (fun (b : Option (Nat × Nat)) e =>
    if e.2.st != .free && e.2.ctx == m && e.2.rtag == tag then
      match b with
      | some (_, q) => if q < e.2.seq then some (e.1, e.2.seq) else b
      | none => some (e.1, e.2.seq)
    else b) none).map (fun x => x.1)

/-- Resolve one dependence on an entry, at once or later. -/
def Kernel.dependOn (k : Kernel) (p : Kernel) (e : Nat) (at' : Bool) : Kernel :=
  if p.ended then { k with hold := k.hold || p.holds at' } else { k with deps := k.deps ++ [(e, p.seq, at')] }

/-- A kernel whose dependences are all resolved. -/
def Kernel.readied (k : Kernel) : Kernel :=
  if k.st == .waiting && k.deps.isEmpty then { k with st := if k.hold then .held else .ready } else k

/-- Resolve the dependences of a launch record against the table; AFTER's names the spawning kernel itself. -/
def State.resolveAll (s : State) (k : Kernel) (a : Submission) (raw : Nat) : Kernel :=
  ((List.range 8).foldl (fun (k : Kernel) i =>
    let w := depWord raw i
    if !bit w 63 then k
    else
      let p := if i = 7 && a.after && a.parent.isSome then a.parent else s.newest (bits w 34 32) (bits w 31 0)
      match p with
      | none => k
      | some e => k.dependOn (s.kernel e) e (bit w 62)) { k with st := .waiting }).readied

/-- Resolve what depends on a kernel that has ended. -/
def State.resolveOthers (s : State) (e : Nat) : State :=
  let p := s.kernel e
  { s with kernels := s.kernels.map (fun x =>
      let mine := x.2.deps.filter (fun d => d.1 == e && d.2.1 == p.seq)
      (x.1, ({ x.2 with deps := x.2.deps.filter (fun d => !(d.1 == e && d.2.1 == p.seq))
                        hold := x.2.hold || mine.any (fun d => p.holds d.2.2) } : Kernel).readied)) }

/-! ### Recompute (R132, R133) -/

/-- A node that waited for a recompute goes on, or takes an access fault with cause RECOMPUTE. -/
def NodeState.recomputed (x : NodeState) (m t : Nat) (good : Bool) (now : Nat) : NodeState :=
  match x.withheld with
  | none => x
  | some w =>
    if w.recompute != some (m, t) then x
    else if good then { x with withheld := some { w with recompute := none, resumed := true } }
    else { x with withheld := some { w with recompute := none, cause := causeRecompute, detail := causeRecompute, found := now } }

/-- A queue that waited for a recompute begins its entry again, or ends it with status RECOMPUTE. -/
def State.queueRecomputed (s : State) (q m t : Nat) (good : Bool) : State :=
  let u := s.queue q
  match u.withheld with
  | none => s
  | some w =>
    if w.recompute != some (m, t) then s
    else
      let s := s.setQueue q { u with withheld := none, st := if u.en then .running else .disabled }
      if good then s.modEntry q (fun c => { c with begun := false, progress := 0, poison := false, r0 := 0, r1 := 0 })
      else s.modEntry q (fun c => { c with finish := some stRecompute })

/-- Every user that waits for a tensor's recompute goes on. -/
def State.wakeUsers (s : State) (m t : Nat) (good : Bool) : State :=
  let go := fun (x : SlotState) => x.mapNodes (fun n => n.recomputed m t good s.cycle)
  let s : State :=
    { s with slots := s.slots.map (fun e => (e.1, go e.2))
             regions := s.regions.map (fun e => (e.1, { e.2 with image := e.2.image.map (fun x => (x.1, go x.2)) })) }
  s.queues.foldl (fun s e => s.queueRecomputed e.1 m t good) s

/-- The Stoker acts on the verdict of a producer (R133). -/
def State.endRecompute (s : State) (k : Kernel) : State :=
  match k.recompute with
  | none => s
  | some (m, t) =>
    if k.status = 0 ∧ k.verdict < 2 then
      let e := s.fetchLe (s.tidAddr m t) 64
      let n := min (tdRcnt e + 1) 0xFFFF
      (s.writeTid m t (maskBits 455 454 ||| maskBits 127 112) (BitVec.ofNat 512 (n * 2 ^ 112))).wakeUsers m t true
    else (s.writeTid m t (maskBits 454 454) 0).wakeUsers m t false

/-! ### Acceptance (R250) -/

/-- The lowest-numbered free table entry. -/
def freeEntry : Nat → Tab Kernel → Nat
  | i, [] => i
  | i, (k, c) :: t => if i < k then i else if k = i && c.st != .free then freeEntry (i + 1) t else if k = i then i else freeEntry i t

/-- Some entry of the 4,096 is free. -/
def State.tableRoom (s : State) : Bool := decide (freeEntry 0 s.kernels < 4096)

/-- The journal entry and the message of a rejected kernel, after its record. -/
def State.rejected (s : State) (k : Kernel) (reason : Nat) : State := ((s.journalState k.seq 2).kernelMessage k reason).endRecompute k

/-- Write the record of a rejected kernel, and report it. The record waits where its write does; a CRA that cannot be translated gets
none. -/
def State.reportReject (s : State) (x : Accepted) (k : Kernel) (reason : Nat) : State :=
  match s.engineWrite k.ctx k.cra (k.record reason) false with
  | .ok s => s.rejected k reason
  | .wait _ => { s with accepted := s.accepted ++ [{ x with bad := some (k, reason) }] }
  | .denied _ _ _ => s.rejected k reason

/-- Report a rejected kernel: its record, its journal entry and its message. -/
def State.reject (s : State) (x : Accepted) (o : Option Offer) (reason : Nat) : State :=
  let a := x.sub
  match o with
  | some o => s.reportReject x { o.kernel a x.seq with status := 4, endCycle := s.cycle } reason
  | none => s.rejected { ctx := a.ctx, seq := x.seq, lra := a.lra, pair := a.pair, recompute := a.recompute, status := 4, endCycle := s.cycle } reason

/-- Groups whose range is empty are Done at acceptance (R261). -/
def Kernel.nonEmpty (k : Kernel) : Nat := min (k.ext0 * k.ext1 * k.ext2) (partsOf k.levels)

/-- Step 3: the kernel takes the lowest-numbered free table entry, and its dependences are resolved; it waits while none is free. -/
def State.takeEntry (s : State) (x : Accepted) (k : Kernel) (raw : Nat) : State :=
  if s.tableRoom then
    let k := s.resolveAll k x.sub raw
    s.setKernel (freeEntry 0 s.kernels) { k with groupsDone := partsOf k.levels - k.nonEmpty }
  else { s with accepted := s.accepted ++ [{ x with read := some (k, raw) }] }

/-- Steps 2 and 3 of an acceptance: what it reads waits on prepared granules. -/
def State.takeIn (s : State) (x : Accepted) : State :=
  match x.bad, x.read with
  | some (k, reason), _ => s.reportReject x k reason
  | none, some (k, raw) => s.takeEntry x k raw
  | none, none =>
    if s.offerWaits x.sub then { s with accepted := s.accepted ++ [x] }
    else
      let o := s.offer x.sub
      let t := (s.offerReads x.sub).foldl (fun t r => t.readUsed t.agent r.1 r.2.1 r.2.2) s
      match s.rejectReason x.sub o, o with
      | none, some o => t.takeEntry x (o.kernel x.sub x.seq) o.raw
      | some reason, o => t.reject x o reason
      | none, none => t

/-- Accept a submission: the journal comes first (R250). -/
def State.accept (s : State) (a : Submission) : State :=
  (s.journal (if a.pair.isSome then 0x01 else 0x80) (a.pair.getD 0xFF) a.ctx 0 a.cid a.lra).takeIn
    { sub := a, seq := s.jrnlNext, read := none }

/-- Submissions of the journal that wait go on. -/
def State.goOnAccepted (s : State) : State :=
  if s.accepted.isEmpty then s else s.accepted.foldl State.takeIn { s with accepted := [] }

/-- A SPAWN of an activation has not been accepted or rejected (R260). -/
def State.spawnWaits (s : State) (g c : Nat) : Bool :=
  s.waiting.any (fun a => a.spawner == some (g, c)) || s.accepted.any (fun x => x.sub.spawner == some (g, c))

/-- `KERNEL_ACCEPT`, R250, R371: a submission that finds no journal entry waits. -/
def execKernelAccept (a : Submission) (s : State) : Host.Outcome State Fault Refusal :=
  match s.cur with
  | .module => .next (if s.journalRoom then s.accept a else { s with waiting := s.waiting ++ [a] })
  | _ => .fault .misplaced

/-! ### Groups (R261 to R265, R419) -/

/-- Groups in one unit of level `i`. -/
def Kernel.unitSize (k : Kernel) (i : Nat) : Nat := partsOf (k.levels.drop (i + 1))

/-- The unit of group p at level `i`. -/
def Kernel.unitOf (k : Kernel) (i p : Nat) : Nat := p / k.unitSize i

/-- The shallowest level whose domain is one of `ds`. -/
def Kernel.shallowest (k : Kernel) (ds : List Nat) : Option Nat :=
  let i := (k.levels.takeWhile (fun l => !ds.contains l.dom)).length
  if i < k.levels.length then some i else none

/-- The deepest level whose domain is region or hearth. -/
def Kernel.deepest (k : Kernel) : Option Nat := ((List.range k.levels.length).reverse).find? (fun i => match k.levels[i]? with
  | some l => decide (3 ≤ l.dom)
  | none => false)

/-- The deepest level whose domain is region or hearth, where it is hearth: groups of its units may be live together. -/
def Kernel.togetherLevel (k : Kernel) : Option Nat := match k.deepest with
  | none => none
  | some i => match k.levels[i]? with
    | some l => if l.dom = 4 then some i else none
    | none => none

/-- The i-th group whose range is not empty. -/
def Kernel.nth (k : Kernel) (i : Nat) : Nat :=
  let n := k.ext0 * k.ext1 * k.ext2
  let p := partsOf k.levels
  if p ≤ n then i else cdiv (p * (i + 1)) n - 1

/-- A group is Pending. -/
def Kernel.isPending (k : Kernel) (p : Nat) : Bool := match Tab.find k.groups p with
  | none => true
  | some .again => true
  | some _ => false

/-- Some group has never been handed out. -/
def Kernel.fresh (k : Kernel) : Bool := decide (k.groups.length < k.nonEmpty)

/-- Some group is Pending. -/
def Kernel.anyPending (k : Kernel) : Bool := k.fresh || k.groups.any (fun e => e.2 == .again)

/-- The lowest of the groups numbered `nth i` from `i` on that meets a condition. -/
def scanGroups (p : Nat → Bool) (nth : Nat → Nat) : Nat → Nat → Option Nat
  | 0, _ => none
  | n + 1, i => if p (nth i) then some (nth i) else scanGroups p nth n (i + 1)

/-- The first Pending group that meets a condition: reissued groups first (R264). -/
def Kernel.firstPending (k : Kernel) (p : Nat → Bool) : Option Nat :=
  match k.groups.find? (fun e => e.2 == .again && p e.1) with
  | some e => some e.1
  | none => if k.fresh then scanGroups (fun g => (Tab.find k.groups g).isNone && p g) k.nth k.nonEmpty 0 else none

/-- Dies that are not fenced, in ascending order. -/
def State.liveDies (s : State) : List Nat := (List.range 4).filter (fun d => !s.fencedDies.contains d)

/-- Where a unit goes when the dies of a list have been fenced one after the other: it moves only when its own die is lost (R267). -/
def unitDie (u : Nat) : List (Nat × List Nat) → Nat → Nat
  | [], d => d
  | (x, l) :: t, d => unitDie u t (if x = d then l.getD (u % l.length) 0 else d)

/-- The die that Table 14-1 and R267 give a group, if a level names the die. -/
def State.groupDie (s : State) (k : Kernel) (p : Nat) : Option Nat :=
  match k.shallowest [1] with
  | none => none
  | some i =>
    let u := k.unitOf i p
    let l := if k.first then k.dies else s.liveDies
    some (unitDie u k.fences (l.getD (u % l.length) 0))

/-- A group may run on a die. -/
def State.dieAllows (s : State) (k : Kernel) (p d : Nat) : Bool := match s.groupDie k p with
  | none => true
  | some x => x == d

/-- Groups of a region that are Live or will be again. -/
def Region.busy (r : Region) : List Nat :=
  r.cols.filterMap (fun e => if e.2.st == .live then e.2.group else none) ++ r.reissues.filterMap (fun x => x.entry.group)

/-- The unit that a region must keep to, or may take (R263, R419). -/
def State.unitAllows (s : State) (e g p : Nat) (k : Kernel) : Bool :=
  match k.shallowest [3, 4] with
  | none => true
  | some i => match (s.region g).unit with
    | some u => u == k.unitOf i p
    | none => !(s.regionsOf e).any (fun x => x != g && (s.region x).unit == some (k.unitOf i p))

/-- A group may be live beside those of the region (R263, R264). -/
def State.besideAllows (s : State) (g p : Nat) (k : Kernel) : Bool :=
  let r := s.region g
  r.busy.isEmpty ||
  (match k.togetherLevel with
   | none => false
   | some i => r.busy.all (fun x => k.unitOf i x == k.unitOf i p) && decide (lowestFree 0 r.cols < 4096))

/-- The sector that a group prefers, on the die of a region, has a free region of the kernel that may take the group's unit. -/
def State.sectorTaken (s : State) (e g p : Nat) (k : Kernel) : Bool :=
  match k.shallowest [2] with
  | none => false
  | some i =>
    let want := k.unitOf i p % 48
    let r := s.region g
    sectorOf r.origin != want &&
    (s.regionsOf e).any (fun x => x != g && (s.region x).die == r.die && sectorOf (s.region x).origin == want && (s.region x).busy.isEmpty &&
      s.unitAllows e x p k)

/-- A region may run a Pending group now. -/
def State.mayRun (s : State) (e g p : Nat) : Bool :=
  let k := s.kernel e
  s.dieAllows k p (s.region g).die && s.unitAllows e g p k && s.besideAllows g p k && !s.sectorTaken e g p k

/-- A region stands ready for a start token: its configuration of depth 0 is in place, and its table has been initialised
(R256). -/
def State.takesGroups (s : State) (g : Nat) : Bool :=
  let r := s.region g
  (r.st == .resident || r.st == .running) && r.residence == .resident && r.depth == 0 && r.calls.isEmpty && r.tailg.isNone &&
  decide (r.until_ ≤ s.cycle) && s.election.isNone && (s.context r.ctx).st != .halted && !(s.context r.ctx).halting

/-- Initial LFSR of a hearth (R27). -/
def lfsrInit (seed h : Nat) : BitVec 32 :=
  let x := BitVec.ofNat 32 seed ^^^ BitVec.ofNat 32 (h * 0x00010001)
  if x = 0 then 1 else x

/-- A kernel starts: its first group is handed out (R254, R37, R38, R27, R125). DESIGN CHOICE (log 104): the kernels of a context
share one copy of TID_BASE and TID_CNT that is in force, so a later start changes it for those that run. -/
def State.startKernel (s : State) (e : Nat) : State :=
  let k := s.kernel e
  if k.first then s
  else
    let c := s.context k.ctx
    (s.modContext k.ctx (fun c => { c with tidBaseNow := c.tidBase, tidCntNow := c.tidCnt })).setKernel e
      { k with st := .running, first := true, flagsK := 0, mxcNan := 0, mxcOvf := 0, mxcSat := 0, firstCycle := s.cycle
               dies := s.liveDies, fences := [], seed := c.lfsrSeed }

/-- A region begins to run for its kernel: every hearth loads its LFSR (R27). -/
def State.startRegion (s : State) (e g : Nat) : State :=
  let r := s.region g
  if r.st != .resident then s
  else
    let s := r.hearths.foldl (fun s h => s.modSlot h r.slot (fun x => { x with lfsr := lfsrInit (s.kernel e).seed h })) s
    s.modRegion g (fun r => { r with st := .running })

/-- The start token of group p under a colour (R262). -/
def groupStart (k col p : Nat) : Token :=
  let ls : List Word := [BitVec.ofNat 32 p]
  { ctx := k, col := col, wave := 0, wid := 1, fmt := 1, lanes := ls, res := residue ls }

/-- The group colour that a region allocates (R63). -/
def groupWant (p : Nat) : Colour := { wid := 1, group := some p, origin := some p }

/-- Start a group in a region: its colour, and its start token to every source node. -/
def State.startGroup (s : State) (e g p : Nat) : State :=
  let r := s.region g
  match r.allocate (s.ovsz g) { groupWant p with depth := r.depth } true with
  | .wait => s
  | .exhausted => (s.breakGroups g [p]).kernelFault e (nodeRecord s g r.origin r.slot 0 0 0 faultColExh 0)
  | .granted n rg =>
    let t := groupStart r.slot n p
    ((s.setRegion g rg).modColour g n (fun c => { c with copy := some t })).sendStarts g t

/-- Hand a group to a region. -/
def State.handOut (s : State) (e g p : Nat) : State :=
  let s := (s.startKernel e).startRegion e g
  let k := s.kernel e
  let s := s.setKernel e { k with groups := Tab.set k.groups p (.running g), broken := k.broken.filter (fun q => q != p) }
  let s := match k.shallowest [3, 4] with
    | some i => s.modRegion g (fun r => { r with unit := some (k.unitOf i p) })
    | none => s
  s.startGroup e g p

/-- `GROUP_HANDOUT`, R264. -/
def execGroupHandout (s : State) : Host.Outcome State Fault Refusal :=
  match s.cur with
  | .region g =>
    .next (match (s.region g).kernel with
      | none => s
      | some e =>
        let k := s.kernel e
        if (k.st == .bound || k.st == .running || k.st == .draining) && s.takesGroups g && decide (lowestFree 0 (s.region g).cols < 4096) then
          match k.firstPending (s.mayRun e g) with
          | some p => s.handOut e g p
          | none => s
        else s)
  | _ => .fault .misplaced

/-! ### Completion (R254, R258, R265) -/

/-- A group has no colour left in its region. -/
def Region.groupOver (r : Region) (p : Nat) : Bool :=
  !r.cols.any (fun e => e.2.held && e.2.origin == some p) && !r.reissues.any (fun x => x.entry.origin == some p)

/-- Groups whose colours have all committed are Done (R265). -/
def State.settleGroups (s : State) (e : Nat) : State :=
  let k := s.kernel e
  let done := fun (x : Nat × GroupState) => match x.2 with
    | .running g => !k.broken.contains x.1 && (s.region g).groupOver x.1
    | _ => false
  let n := (k.groups.filter done).length
  s.setKernel e { k with groups := k.groups.map (fun x => match x.2 with
                           | .running g => if done x then (x.1, .done g) else x
                           | _ => x)
                         groupsDone := k.groupsDone + n }

/-- A region keeps its unit until the unit's last group is Done (R263). -/
def State.releaseUnit (s : State) (e g : Nat) : State :=
  let k := s.kernel e
  match (s.region g).unit, k.shallowest [3, 4] with
  | some u, some i =>
    let given := fun (p : Nat) => match Tab.find k.groups p with
      | some (.done _) => true
      | some .abandoned => true
      | _ => false
    let lo := u * k.unitSize i
    let left := scanGroups (fun p => !given p && (k.ext0 * k.ext1 * k.ext2 * p / partsOf k.levels <
        k.ext0 * k.ext1 * k.ext2 * (p + 1) / partsOf k.levels)) (fun j => lo + j) (k.unitSize i) 0
    if left.isNone then s.modRegion g (fun r => { r with unit := none }) else s
  | _, _ => s

/-- No activation of a kernel remains. -/
def State.noActivation (s : State) (e : Nat) : Bool :=
  (s.regionsOf e).all (fun g => let r := s.region g
    r.cols.all (fun c => !c.2.held) && r.reissues.isEmpty)

/-- Pending groups of a kernel that is Faulting or Halted are Abandoned (Table 14-2). -/
def Kernel.abandonPending (k : Kernel) : Kernel :=
  { k with groups := k.groups.map (fun x => if x.2 == .again then (x.1, .abandoned) else x) }

/-- Every write of a kernel's commits has been applied: no activation remains, and T3 has acknowledged (R197). -/
def State.allApplied (s : State) (e : Nat) : Bool := s.noActivation e && (s.kernel e).t3Pending == 0

/-- Running goes to Draining when no group remains to hand out or to reissue (Table 13-4). A group that is lost afterwards is reissued
while the kernel is Draining, which has no way back: DEDUCED (log 49). -/
def Kernel.drained (k : Kernel) : Kernel := if k.st == .running && !k.anyPending then { k with st := .draining } else k

/-- Every group is Done or Abandoned (R265). -/
def Kernel.groupsOver (k : Kernel) : Bool := !k.anyPending && k.groups.all (fun x => match x.2 with
  | .done _ => true
  | .abandoned => true
  | _ => false)

/-- A context is Idle once its last kernel has completed (R234). -/
def State.idleContext (s : State) (m : Nat) : State :=
  if (s.context m).st == .active && !s.kernels.any (fun x => x.2.ctx == m &&
      (x.2.st == .bound || x.2.st == .running || x.2.st == .draining || x.2.st == .faulting)) then
    s.modContext m (fun c => { c with st := .idle })
  else s

/-- A kernel reaches Complete. -/
def State.complete (s : State) (e status : Nat) : State :=
  let s := s.modKernel e (fun k => { k with st := .complete, status := status, endCycle := s.cycle })
  (((s.resolveOthers e).endRecompute (s.kernel e))).idleContext (s.kernel e).ctx

/-- Write the completion record, again in the next cycle where it cannot be written (R258). -/
def State.writeRecord (s : State) (e : Nat) : State :=
  let k := s.kernel e
  match s.engineWrite k.ctx k.cra (k.record 0) false with
  | .ok t => t.modKernel e (fun k => { k with recordWritten := true })
  | _ => s

/-- A region's part in its kernel is over (Table 11-1, last row but one). -/
def State.regionOver (s : State) (g : Nat) : Bool :=
  let r := s.region g
  (r.st == .running || r.st == .resident) && r.depth == 0 && r.calls.isEmpty && r.tailg.isNone &&
  (r.residence == .resident || r.residence == .evicted) && r.cols.all (fun c => !c.2.held) && r.reissues.isEmpty

/-- Detach a region: it stays Resident, and an evicted one is released unless its context is halted (R245, R255). -/
def State.detach (s : State) (g : Nat) : State :=
  let r := s.region g
  if r.residence == .evicted && (s.context r.ctx).st != .halted then
    (s.unbind g).dropImage g
  else s.modRegion g (fun r => { r with st := .resident, kernel := none, unit := none })

/-- Detach the regions whose part is over. -/
def State.detachAll (s : State) (e : Nat) : State :=
  (s.regionsOf e).foldl (fun s g => if s.regionOver g then s.detach g else s) s

/-- The move that a kernel's own state calls for. -/
def State.advanceKernel (s : State) (e : Nat) : State :=
  let k := s.kernel e
  match k.st with
  | .running | .draining =>
    let s := s.settleGroups e
    let s := (s.regionsOf e).foldl (fun s g => s.releaseUnit e g) s
    let s := s.modKernel e Kernel.drained
    if (s.kernel e).st == .draining && (s.kernel e).groupsOver && s.allApplied e then (s.complete e 0).writeRecord e else s
  | .faulting =>
    let s := (s.settleGroups e).modKernel e Kernel.abandonPending
    if s.allApplied e then (s.complete e 1).writeRecord e else s
  | .complete => if k.recordWritten then s else s.writeRecord e
  | .withdrawn => if k.recordWritten then s else s.writeRecord e
  | .halted =>
    let s := if k.recordWritten then s else (s.settleGroups e).modKernel e Kernel.abandonPending
    if k.recordWritten || !s.allApplied e then s
    else (s.modKernel e (fun k => { k with endCycle := s.cycle })).writeRecord e
  | _ => s

/-- The kernel needs its regions no longer. -/
def Kernel.released (k : Kernel) : Bool := (k.ended || (k.st == .draining && k.groupsOver)) && k.t3Pending == 0

/-- `KERNEL_COMPLETE`, R254. -/
def execKernelComplete (s : State) : Host.Outcome State Fault Refusal :=
  match s.cur with
  | .kernel e =>
    .next (let s := s.advanceKernel e
      if (s.kernel e).released then s.detachAll e else s)
  | _ => .fault .misplaced

/-- The record is written and every T3 write of the kernel has been acknowledged (R198). -/
def Kernel.showable (k : Kernel) : Bool :=
  (k.st == .complete || k.st == .withdrawn || k.st == .halted) && k.recordWritten && k.t3Pending == 0

/-- `KERNEL_VISIBLE`, R254, R371. -/
def execKernelVisible (s : State) : Host.Outcome State Fault Refusal :=
  match s.cur with
  | .kernel e =>
    .next (let k := s.kernel e
      if k.showable then ((s.setKernel e { k with st := .visible }).journalState k.seq 1).kernelMessage k 0 else s)
  | _ => .fault .misplaced

end Sys2Proof.Machine
end

