-- ==== Sys2Proof/Machine/Binding.lean ====
section
/-! DEFINITION. The Stoker's binding of regions (R255, R256, R220, R264), the end of a configuration load (R219, R222), and
the return of evicted regions (R235). -/

namespace Sys2Proof.Machine

/-! ### Which kernel, and on which die (R255, R264) -/

/-- A free region of the kernel on die d can take group p. -/
def State.freeTakes (s : State) (e d p : Nat) : Bool :=
  (s.regionsOf e).any (fun g => (s.region g).die == d && (s.region g).busy.isEmpty && s.mayRun e g p)

/-- Die d has a Pending group that no free region of the kernel on it can take. -/
def State.dieWants (s : State) (e d : Nat) : Bool :=
  let k := s.kernel e
  !s.fencedDies.contains d && (k.firstPending (fun p => s.dieAllows k p d && !s.freeTakes e d p)).isSome

/-- The context takes new work. -/
def State.contextOpen (s : State) (m : Nat) : Bool := (s.context m).st != .halted && !(s.context m).halting

/-- A kernel that may be given a region. -/
def State.bindable (s : State) (e : Nat) : Bool :=
  let k := s.kernel e
  (k.st == .ready || k.st == .bound || k.st == .running || (k.st == .draining && k.anyPending)) && decide ((s.regionsOf e).length < k.rmax) && s.contextOpen k.ctx

/-- A region is held by no kernel and stands Resident in its hearths. -/
def Region.idle (r : Region) : Bool := r.st == .resident && r.kernel.isNone && r.residence == .resident

/-- A Resident region that a kernel binds without a load (R220). -/
def Region.matches (r : Region) (k : Kernel) : Bool :=
  r.idle && r.ctx == k.ctx && r.cfgid == k.cfgId && r.cfg.w == k.cfgW && r.cfg.h == k.cfgH

/-- The matching region with the lowest die and origin, on a die that the kernel wants. -/
def State.matchFor (s : State) (e : Nat) : Option Nat :=
  (s.regions.foldl (fun (b : Option (Nat × Nat)) x =>
    if x.2.matches (s.kernel e) && s.dieWants e x.2.die then
      match b with
      | some (_, o) => if x.2.origin < o then some (x.1, x.2.origin) else b
      | none => some (x.1, x.2.origin)
    else b) none).map (fun x => x.1)

/-- The order in which the Stoker considers kernels. -/
def State.bindsBefore (s : State) (a b : Nat) : Bool :=
  let key := fun e => (if (s.matchFor e).isSome then 0 else 1, 7 - min 7 (s.context (s.kernel e).ctx).prio, (s.kernel e).seq)
  let x := key a
  let y := key b
  decide (x.1 < y.1) || (x.1 == y.1 && (decide (x.2.1 < y.2.1) || (x.2.1 == y.2.1 && decide (x.2.2 < y.2.2))))

/-- Insert in that order. -/
def State.insertKernel (s : State) (e : Nat) : List Nat → List Nat
  | [] => [e]
  | x :: t => if s.bindsBefore e x then e :: x :: t else x :: s.insertKernel e t

/-- Kernels that may be given a region, in the order of R255. -/
def State.bindOrder (s : State) : List Nat :=
  ((s.kernels.map (fun x => x.1)).filter s.bindable).foldl (fun l e => s.insertKernel e l) []

/-! ### The slot of a new region -/

/-- The region that occupies a slot of a hearth. -/
def State.occupant (s : State) (h k : Nat) : Option Nat := (s.slot h k).region

/-- Slot k is free in a hearth, or holds the context. -/
def State.slotOpen (s : State) (m k h : Nat) : Bool := match s.occupant h k with
  | none => true
  | some g => (s.region g).ctx == m

/-- Occupants of slot k in a rectangle that belong to other contexts. -/
def State.foreigners (s : State) (m k : Nat) (hs : List Nat) : List Nat :=
  (hs.filterMap (fun h => match s.occupant h k with
    | some g => if (s.region g).ctx = m then none else some g
    | none => none)).foldl insertRising []

/-- A region that may be chosen as victim (R235). DEDUCED: Loading in place counts as Loading (log 107). -/
def State.evictable (s : State) (g : Nat) : Bool :=
  let r := s.region g
  (r.st == .running || r.st == .resident) && r.residence == .resident

/-- How R235 ranks the occupants of a slot number: lower goes first. -/
def State.victimRank (s : State) (gs : List Nat) : Nat × Nat :=
  (gs.foldl (fun a g => min a (s.context (s.region g).ctx).prio) 7, 7 - gs.foldl (fun a g => max a (s.region g).ctx) 0)

/-- The slot number whose occupants are evicted, among those that qualify. -/
def State.victimAmong (s : State) (m : Nat) (hs : List Nat) (ok : Nat → Bool) : Option Nat :=
  ((List.range 4).foldl (fun (b : Option (Nat × Nat × Nat)) k =>
    if ok k then
      let x := s.victimRank (s.foreigners m k hs)
      match b with
      | some (_, p, c) => if x.1 < p || (x.1 = p && x.2 < c) then some (k, x) else b
      | none => some (k, x)
    else b) none).map (fun x => x.1)

/-- The slot number whose occupants are evicted for a new region, if some slot number qualifies. -/
def State.victimSlot (s : State) (m : Nat) (hs : List Nat) : Option Nat :=
  s.victimAmong m hs (fun k => (s.foreigners m k hs).all s.evictable)

/-- The slot for a rectangle: one that is open everywhere, or one whose occupants must go. -/
def State.slotChoice (s : State) (m : Nat) (hs : List Nat) : Option Nat :=
  match (List.range 4).find? (fun k => hs.all (s.slotOpen m k)) with
  | some k => some k
  | none => s.victimSlot m hs

/-- Send occupants away: an idle region is released, a held one begins to leave. -/
def State.expel (s : State) (gs : List Nat) : State :=
  gs.foldl (fun s g => if (s.region g).idle then s.unbind g else s.modRegion g (fun r => { r with residence := .evicting })) s

/-! ### Binding (R255, R256) -/

/-- The fault record of the Stoker at a hearth. -/
def stokerRecord (s : State) (m cause h k n detail : Nat) : FaultRecord :=
  { cause := cause, die := dieOf h, x := colOf h, y := rowOf h, ctx := m, slot := k, node := n, detail := detail, cycle := s.cycle }

/-- The 96 KiB of region j's colour table, in parts of 32 KiB. -/
def tablePieces (k : Kernel) (j : Nat) : List (Nat × Nat) :=
  (List.range 3).map (fun i => (k.cta + j * 98304 + i * 32768, 32768))

/-- Write them zero, or give the fault. -/
def State.clearTable (s : State) (k : Kernel) (j : Nat) : Except (AccessFault × Nat) State :=
  match s.locateAll s.agent k.ctx true (tablePieces k j) with
  | .error f => .error f
  | .ok ps => .ok (ps.foldl (fun s p => (s.touch s.agent k.ctx p.1 false).put p.2.1 (List.replicate p.2.2 0) false) s)

/-- The lowest number that no region of the kernel has. -/
def State.regionIndex (s : State) (e : Nat) : Nat :=
  let used := (s.regionsOf e).map (fun g => (s.region g).index)
  ((List.range (used.length + 1)).find? (fun i => !used.contains i)).getD 0

/-- Dynamic joins of the configuration that a directory entry names; none where it cannot be read (R66). -/
def State.joinsOf (s : State) (k : Kernel) (i : Nat) : Nat :=
  match s.readNumber k.ctx (k.dira + 16 * i) 16 with
  | none => 0
  | some e =>
    if bits e 63 0 = 0 then 0
    else match s.readNumber k.ctx (bits e 63 0) 64 with
      | none => 0
      | some hd => match s.loadRest k.ctx (bits e 63 0) hd with
        | .ok i => i.joins
        | .error _ => 0

/-- What the Stoker reads of a directory entry to count its joins: address and length. -/
def State.joinReads (s : State) (k : Kernel) (i : Nat) : List (Nat × Nat) :=
  (k.dira + 16 * i, 16) :: (match s.readNumber k.ctx (k.dira + 16 * i) 16 with
    | none => []
    | some e => if bits e 63 0 = 0 then [] else [(bits e 63 0, s.imageSize k.ctx (bits e 63 0))])

/-- What the Stoker reads at a binding for Jmax. -/
def State.jmaxReads (s : State) (k : Kernel) : List (Nat × Nat) := (List.range (k.dirm1 + 1)).flatMap (s.joinReads k)

/-- The reads and writes of a binding wait: a granule that it reads is prepared (R190, R320), or one that it clears is still to be
written by a commit (R187). -/
def State.bindWaits (s : State) (k : Kernel) (j : Nat) : Bool :=
  (s.jmaxReads k).any (fun x => s.readWaits s.agent k.ctx x.1 x.2) || (tablePieces k j).any (fun x => s.rangeWaits s.agent k.ctx x.1 x.2) ||
  (match s.locateAll s.agent k.ctx true (tablePieces k j) with
   | .error _ => false
   | .ok ps => ps.any (fun p => s.unappliedRange p.2.1 p.2.2))

/-- Jmax of a region of the kernel (R66). -/
def State.jmaxOf (s : State) (k : Kernel) : Nat := (List.range (k.dirm1 + 1)).foldl (fun a i => max a (s.joinsOf k i)) 0

/-- A kernel's first region makes it Bound, and its context Active (Table 13-4, R234). -/
def State.noteBinding (s : State) (e : Nat) : State :=
  let k := s.kernel e
  (s.setKernel e { k with bound := k.bound + 1, st := if k.st == .ready then .bound else k.st }).modContext k.ctx
    (fun c => if c.st == .idle then { c with st := .active } else c)

/-- Give region g to a kernel: its colour table is cleared in 768 cycles (R256). -/
def State.bindTo (s : State) (e g j wait : Nat) : State :=
  let k := s.kernel e
  let jmax := s.jmaxOf k
  let s := s.readsUsed s.agent k.ctx (s.jmaxReads k)
  let s : State := { s with slots := s.slots.map (fun x => if x.2.region == some g then (x.1, { x.2 with waves := [], starve := 0, shown := [] }) else x) }
  (s.modRegion g (fun r =>
    { r with kernel := some e, index := j, jmax := jmax, depth := 0, planeLim := k.plim, cols := [], serial := 0, calls := []
             tailg := none, reissues := [], senders := [], gone := [], untracked := none, drain := none, snapshot := none, wdogLim := 0x01000000
             wdogCnt := 0, wdogHit := false, notices := [], slow := [], unit := none, tableShown := [], copyShown := [], until_ := s.cycle + max 768 wait })).noteBinding e

/-- Translate the colour-table area first; a fault there is the kernel's (R256). -/
def State.withTable (s : State) (e : Nat) (go : State → Nat → State) : State :=
  let k := s.kernel e
  let j := s.regionIndex e
  match s.clearTable k j with
  | .error ((_, d), va) =>
    s.kernelFault e { cause := faultAccess, die := s.master, x := 0xFF, y := 0xFF, ctx := k.ctx, addr := va, detail := d, cycle := s.cycle }
  | .ok t => go t j

/-- Bind a matching region. -/
def State.bindMatch (s : State) (e g : Nat) : State := s.withTable e (fun s j => s.bindTo e g j 0)

/-- Put a checked image into a rectangle, release what lies there, and bind it. -/
def State.bindNew (s : State) (e : Nat) (p : Site) (i : Image) : State :=
  s.withTable e (fun s j =>
    let s := (s.residentMeets p.k p.die p.x p.y i.w i.h).foldl (fun s g => s.unbind g) (s.imageRead (s.kernel e).ctx (s.kernel e).cfgVa)
    let (g, s) := s.fresh
    let (wait, s) := s.freeDelay
    let s := s.setRegion g { st := .loading, ctx := (s.kernel e).ctx, slot := p.k, die := p.die, x := p.x, y := p.y, w := i.w, h := i.h }
    ((s.becomeResident g i).bindTo e g j wait).modRegion g (fun r => { r with st := .loading }))

/-- A failure that lies in the image (R255). -/
def imageFailure (status : Nat) : Bool := !decide (4 ≤ status ∧ status ≤ 8)

/-- The kernel's own configuration fails a check: BINDBAD. -/
def State.bindBad (s : State) (e origin k : Nat) (f : LoadFail) : State :=
  let at' := if f.status = 1 then f.hearth.getD origin else origin
  s.kernelFault e (stokerRecord s (s.kernel e).ctx faultBindBad at' k (if f.status = 1 then f.node else 0) f.detail)

/-- The image of a kernel at a site. -/
def State.kernelImage (s : State) (k : Kernel) (p : Site) : Except LoadFail Image :=
  match s.loadHead k.ctx k.cfgVa p with
  | .error f => .error f
  | .ok hd => if headW hd = k.cfgW ∧ headH hd = k.cfgH then s.loadFrom k.ctx k.cfgVa hd p else .error { status := 3 }

/-- Every hearth of a rectangle is Unbound in slot k, or lies in a Resident region that no kernel holds. -/
def State.rectOpen (s : State) (k d x y w h : Nat) : Bool :=
  (rectHearths d x y w h).all (fun j => match s.occupant j k with
    | none => true
    | some g => (s.region g).idle) && !s.loadingMeets k d x y w h

/-- How things would stand with the occupants gone: idle ones released, held ones in their images. -/
def State.withoutOccupants (s : State) (gs : List Nat) : State :=
  gs.foldl (fun s g => if (s.region g).idle then s.unbind g else (s.freezeRegion g).finishEvict g) s

/-- Bind a rectangle in slot j: the state after it, after its occupants were told to leave, or after a fault; nothing where it cannot be
had. The checks that depend on the rectangle are made as it will stand when its occupants are gone, so that none leaves in vain.
While occupants leave, the kernel waits for this rectangle and slot. -/
def State.takeRect (s : State) (e d x y j : Nat) : Option State :=
  let k := s.kernel e
  let gs := s.foreigners k.ctx j (rectHearths d x y k.cfgW k.cfgH)
  let t := s.withoutOccupants gs
  if !t.rectOpen j d x y k.cfgW k.cfgH || s.imageWaits k.ctx k.cfgVa then none
  else
    let p : Site := { die := d, x := x, y := y, k := j, within := none, own := none, mine := [] }
    match t.kernelImage k p with
    | .error f => if imageFailure f.status then some ((s.loadRead k.ctx k.cfgVa p).bindBad e (hearthAt d x y) j f) else none
    | .ok i =>
      if gs.all (fun g => (s.region g).idle) then some ((s.expel gs).bindNew e p i)
      else some ((s.expel gs).modKernel e (fun k => { k with claim := some (d, x, y, j) }))

/-- Try one rectangle. A hearth in which the context is Evicted takes no other region of it (Table 12-3). -/
def State.tryRect (s : State) (e d x y : Nat) : Option State :=
  let k := s.kernel e
  let hs := rectHearths d x y k.cfgW k.cfgH
  if hs.any (fun h => s.evictedContext h k.ctx) then none
  else match s.slotChoice k.ctx hs with
  | none => none
  | some j => s.takeRect e d x y j

/-- Try the rectangles of a die in row-major order of their origins. -/
def State.tryDie (s : State) (e d : Nat) : Option State :=
  let k := s.kernel e
  (List.range (97 - k.cfgH)).findSome? (fun y => (List.range (129 - k.cfgW)).findSome? (fun x => s.tryRect e d x y))

/-- The first rectangle that a kernel can have. -/
def State.findRect (s : State) (e : Nat) : Option State := (s.liveDies.filter (s.dieWants e)).findSome? (s.tryDie e)

/-- Give a kernel one region, if it can have one now: the one that its claim names, or, where the claim holds no longer, another. -/
def State.tryKernel (s : State) (e : Nat) : Option State :=
  if s.bindWaits (s.kernel e) (s.regionIndex e) then none
  else match s.matchFor e with
  | some g => some (s.bindMatch e g)
  | none =>
    let k := s.kernel e
    let t := s.modKernel e (fun k => { k with claim := none })
    match k.claim with
    | none => s.findRect e
    | some (d, x, y, j) =>
      let gs := s.foreigners k.ctx j (rectHearths d x y k.cfgW k.cfgH)
      if !s.dieWants e d then t.findRect e
      else if gs.isEmpty then (match t.takeRect e d x y j with
        | some u => some u
        | none => t.findRect e)
      else if gs.all (fun g => (s.region g).residence == .evicting) then none
      else t.findRect e

/-- `BIND_REGION`, R255: one region per cycle, and none while the master is elected (R266). -/
def execBindRegion (s : State) : Host.Outcome State Fault Refusal :=
  match s.cur with
  | .module =>
    .next (if s.election.isSome then s
      else match s.bindOrder.findSome? s.tryKernel with
        | some t => t
        | none => s)
  | _ => .fault .misplaced

/-! ### CONFIG_LOAD -/

/-- The load of a bound region ends: it is Resident, or as it was if its kernel has ended meanwhile. -/
def State.endBinding (s : State) (g : Nat) : State :=
  let r := s.region g
  if r.st == .loading && r.kernel.isSome && decide (r.until_ ≤ s.cycle) then s.modRegion g (fun r => { r with st := .resident }) else s

/-- `CONFIG_LOAD`, R219 and R222: a CFGLD's load begins after a wait or ends, or the load of a bound region ends. -/
def execConfigLoad (s : State) : Host.Outcome State Fault Refusal :=
  match s.cur with
  | .node h k n => .next (s.advanceLoad h k n)
  | .region g => .next (s.endBinding g)
  | _ => .fault .misplaced

/-! ### The return of an evicted region (R235) -/

/-- Its image has left, its kernel has work for it, and its context is not halted. -/
def State.wantsBack (s : State) (g : Nat) : Bool :=
  let r := s.region g
  r.residence == .evicted && r.kernel.isSome && s.contextOpen r.ctx && s.election.isNone && decide (r.until_ ≤ s.cycle)

/-- Occupants of a slot number that a returning region may send away: those that no kernel holds, and held ones only of lower
priority (log 107). -/
def State.weaker (s : State) (g k : Nat) : Bool :=
  let r := s.region g
  (s.foreigners r.ctx k r.hearths).all (fun x => (s.region x).idle || (s.evictable x &&
    decide ((s.context (s.region x).ctx).prio < (s.context r.ctx).prio))) &&
  r.hearths.all (fun h => match s.occupant h k with
    | none => true
    | some x => (s.region x).ctx != r.ctx || (s.region x).idle)

/-- The state with the idle regions of the returning context released that stand in a slot number of its hearths (R255). -/
def State.releaseOwn (s : State) (g k : Nat) : State :=
  ((s.region g).hearths.filterMap (fun h => s.occupant h k)).foldl (fun s x =>
    if (s.region x).idle && (s.region x).ctx == (s.region g).ctx then s.unbind x else s) s

/-- Begin to bring a region back: into the lowest slot that is free everywhere or holds idle regions of its context, or else the occupants of one slot leave, chosen as R255
chooses among those of lower priority (log 107). -/
def State.bringBack (s : State) (g : Nat) : State :=
  match (List.range 4).find? (fun k => (s.releaseOwn g k).mayRestore g k) with
  | some k => if s.boundary then (s.releaseOwn g k).startRestore g k else s
  | none =>
    let r := s.region g
    if (List.range 4).any (fun k => (s.foreigners r.ctx k r.hearths).any (fun x => (s.region x).residence == .evicting)) then s
    else match s.victimAmong r.ctx r.hearths (s.weaker g) with
    | some k => s.expel (s.foreigners r.ctx k r.hearths)
    | none => s

/-- `CONTEXT_RESTORE`, R235, R237. -/
def execContextRestore (s : State) : Host.Outcome State Fault Refusal :=
  match s.cur with
  | .region g => .next (if s.wantsBack g then s.bringBack g else s.advanceRestore g)
  | _ => .fault .misplaced

end Sys2Proof.Machine
end

