-- ==== Sys2Proof/Machine/Special.lean ====
section
/-! DEFINITION. The special functions (R115), SMRG's and ROPE's factors (R123, R124). Each exact result is bracketed
by integer arithmetic on 512 fraction bits (700 for the reduction by π/2), far beyond the 24 bits delivered; which
of the two bracketing values is delivered is the free value `Config.outerNeighbour`. The exact cases of R115 are
exact. -/

namespace Sys2Proof.Machine

/-- Fraction bits of the working precision. -/
def wp : Nat := 512

/-- Function codes of `Config.outerNeighbour`. -/
def fnRcp : Nat := 0
def fnRsq : Nat := 1
def fnExp2 : Nat := 2
def fnLog2 : Nat := 3
def fnSin : Nat := 4
def fnCos : Nat := 5
def fnTanh : Nat := 6
def fnSigm : Nat := 7
def fnSilu : Nat := 8
def fnSinPi : Nat := 9
def fnCosPi : Nat := 10

/-- Sum of z^(2k+1) / (2k+1) with alternating or constant sign: the series of atan and atanh of a fraction in
units of 2^−p. `zz` is z². -/
def atanSeries (p : Nat) (alternate : Bool) (zz : Nat) : Nat → Nat → Nat → Int → Int
  | 0, _, _, acc => acc
  | n + 1, k, pw, acc =>
    let t := pw / (2 * k + 1)
    let acc := if alternate && k % 2 = 1 then acc - (t : Int) else acc + (t : Int)
    atanSeries p alternate zz n (k + 1) (pw * zz / 2 ^ p) acc

/-- atan(1/x) in units of 2^−p. -/
def atanInv (p x : Nat) : Int :=
  let z := 2 ^ p / x
  atanSeries p true (z * z / 2 ^ p) (p / 4 + 4) 0 z 0

/-- π in units of 2^−p (Machin). -/
def piUnits (p : Nat) : Nat := (16 * atanInv (p + 20) 5 - 4 * atanInv (p + 20) 239).toNat / 2 ^ 20

/-- ln 2 in units of 2^−p: 2 atanh(1/3). -/
def ln2Units (p : Nat) : Nat :=
  let z := 2 ^ (p + 20) / 3
  (2 * atanSeries (p + 20) false (z * z / 2 ^ (p + 20)) (p / 3 + 10) 0 z 0).toNat / 2 ^ 20

/-- Taylor sum of e^t for t in units of 2^−p below one. -/
def expSeries (p t : Nat) : Nat → Nat → Nat → Nat → Nat
  | 0, _, _, acc => acc
  | n + 1, k, term, acc => expSeries p t n (k + 1) (term * t / 2 ^ p / (k + 1)) (acc + term)

/-- 2^f for f in units of 2^−p, 0 ≤ f < 1; in the same units. -/
def exp2Frac (p f : Nat) : Nat := expSeries p (f * ln2Units p / 2 ^ p) (p / 4 + 10) 0 (2 ^ p) 0

/-- Alternating Taylor sums of sin (k odd) and cos (k even) for y in units of 2^−p. -/
def trigSeries (p yy : Nat) : Nat → Nat → Bool → Nat → Int → Int
  | 0, _, _, _, acc => acc
  | n + 1, k, neg, term, acc =>
    let acc := if neg then acc - (term : Int) else acc + (term : Int)
    trigSeries p yy n (k + 2) (!neg) (term * yy / 2 ^ p / ((k + 1) * (k + 2))) acc

/-- sin y. -/
def sinUnits (p y : Nat) : Int := trigSeries p (y * y / 2 ^ p) (p / 6 + 10) 1 false y 0

/-- cos y. -/
def cosUnits (p y : Nat) : Int := trigSeries p (y * y / 2 ^ p) (p / 6 + 10) 0 false (2 ^ p) 0

/-- A dyadic m × 2^e in units of 2^−p, rounded down. -/
def toUnits (p m : Nat) (e : Int) : Nat := shiftInt m (e + (p : Int))

/-- An inexact result given in units of 2^−p. -/
def fromUnits (p : Nat) (x : Int) : Exact := .num (decide (x < 0)) x.natAbs (-(p : Int)) true

/-- A magnitude just below m × 2^e. -/
def justBelow (neg : Bool) (m : Nat) (e : Int) : Exact := .num neg (m * 2 ^ 60 - 1) (e - 60) true

/-- A magnitude just above m × 2^e. -/
def justAbove (neg : Bool) (m : Nat) (e : Int) : Exact := .num neg (m * 2 ^ 60) (e - 60) true

/-- Exponent of the leading bit. -/
def leadOf (m : Nat) (e : Int) : Int := e + (bitLen m : Int) - 1

/-- 2^x for an exact dyadic x. -/
def exp2Exact (neg : Bool) (m : Nat) (e : Int) : Exact :=
  if m = 0 then .num false 1 0 false
  else if leadOf m e ≥ 12 then (if neg then .num false 1 (-5000) true else .num false 1 5000 true)
  else
    let scaled := toUnits wp m e
    let frac := scaled % 2 ^ wp
    let whole := scaled / 2 ^ wp
    let exactIn := decide (e ≥ -(wp : Int))
    if frac = 0 && exactIn then .num false 1 (if neg then -(whole : Int) else (whole : Int)) false
    else if neg then .num false (exp2Frac wp (2 ^ wp - frac)) (-(whole : Int) - 1 - (wp : Int)) true
    else .num false (exp2Frac wp frac) ((whole : Int) - (wp : Int)) true

/-- log2 of a positive dyadic. -/
def log2Exact (m : Nat) (e : Int) : Exact :=
  let l := bitLen m
  if m = 2 ^ (l - 1) then exactInt (e + (l : Int) - 1)
  else
    let x := toUnits wp m (-(l : Int) + 1)
    let hi := decide (x ≥ 3 * 2 ^ (wp - 1))
    let ex : Int := e + (l : Int) - 1 + (if hi then 1 else 0)
    let x := if hi then x / 2 else x
    let one : Int := (2 : Int) ^ wp
    let d := (x : Int) - one
    let z := d.natAbs * 2 ^ wp / (x + 2 ^ wp)
    let ln := 2 * atanSeries wp false (z * z / 2 ^ wp) (wp / 4 + 10) 0 z 0
    let lg := ln * one / (ln2Units wp : Int)
    fromUnits wp ((if d < 0 then -lg else lg) + ex * one)

/-- e^−t for a positive dyadic t below 2^12: its significand in units of 2^−wp and a power of two. -/
def expNeg (m : Nat) (e : Int) : Nat × Nat :=
  let y := toUnits (2 * wp) m e / ln2Units wp
  let whole := y / 2 ^ wp
  let frac := y % 2 ^ wp
  (exp2Frac wp (2 ^ wp - frac), whole + 1)

/-- tanh of a non-zero dyadic. -/
def tanhExact (neg : Bool) (m : Nat) (e : Int) : Exact :=
  if leadOf m e < -40 then justBelow neg m e
  else if leadOf m e ≥ 6 then justBelow neg 1 0
  else
    let (q, k) := expNeg m (e + 1)
    let qk := q / 2 ^ k
    let num := (2 ^ wp - qk) * 2 ^ wp
    .num neg (num / (2 ^ wp + qk)) (-(wp : Int)) true

/-- σ(x) = 1 / (1 + e^−x) for a non-zero dyadic. From 64 on, σ(x) lies within 2^−92 of 1. -/
def sigmExact (neg : Bool) (m : Nat) (e : Int) : Exact :=
  if leadOf m e < -60 then (if neg then justBelow false 1 (-1) else justAbove false 1 (-1))
  else if leadOf m e ≥ 6 && !neg then justBelow false 1 0
  else if leadOf m e ≥ 9 then .num false 1 (-600) true
  else
    let (q, k) := expNeg m e
    let one := 2 ^ wp
    let den := one + q / 2 ^ k
    if neg then .num false (q * one / den) (-(wp : Int) - (k : Int)) true
    else .num false (one * one / den) (-(wp : Int)) true

/-- x σ(x) for a non-zero dyadic. -/
def siluExact (neg : Bool) (m : Nat) (e : Int) : Exact :=
  if leadOf m e < -60 then (if neg then justBelow true m (e - 1) else justAbove false m (e - 1))
  else if leadOf m e ≥ 6 && !neg then justBelow false m e
  else if leadOf m e ≥ 9 then .num true 1 (-600) true
  else
    match sigmExact neg m e with
    | .num _ s se _ => .num neg (m * s) (e + se) true
    | x => x

/-- sin and cos of quarter turns: `k` quarter turns plus a remainder, from the remainder's sine and cosine. -/
def quarterTurn (wantCos : Bool) (k : Nat) (s c : Int) : Int :=
  match (if wantCos then k + 1 else k) % 4 with
  | 0 => s
  | 1 => c
  | 2 => -s
  | _ => -c

/-- sin or cos of a dyadic in radians, of magnitude from 2^−40 to 2^128. -/
def radExact (wantCos neg : Bool) (m : Nat) (e : Int) : Exact :=
  let p := 700
  let half := piUnits p / 2
  let x := toUnits p m e
  let k := (x + half / 2) / half
  let r : Int := (x : Int) - ((k * half : Nat) : Int)
  let s := sinUnits p r.natAbs
  let s := if r < 0 then -s else s
  let v := quarterTurn wantCos k s (cosUnits p r.natAbs)
  fromUnits p (if neg && !wantCos then -v else v)

/-- sin x. -/
def sinExact (neg : Bool) (m : Nat) (e : Int) : Exact :=
  if leadOf m e < -40 then justBelow neg m e else radExact false neg m e

/-- cos x. -/
def cosExact (neg : Bool) (m : Nat) (e : Int) : Exact :=
  if leadOf m e < -40 then justBelow false 1 0 else radExact true neg m e

/-- sin(πt) or cos(πt) of a dyadic t in half turns (R124): exact when 2t is an integer. DESIGN CHOICE (log 92): a factor that
is exactly zero is +0, whatever t; the spec gives no sign. -/
def piExact (wantCos neg : Bool) (m : Nat) (e : Int) : Exact :=
  let t := toUnits wp m e % 2 ^ (wp + 1)
  let quarter := 2 ^ (wp - 1)
  let k := (t + quarter / 2) / quarter
  let r : Int := (t : Int) - ((k * quarter : Nat) : Int)
  if r = 0 && decide (e ≥ -(wp : Int)) then
    let one : Int := 1
    let v := quarterTurn wantCos k 0 one
    exactInt (if neg && !wantCos then -v else v)
  else
    let y := r.natAbs * piUnits wp / 2 ^ wp
    let s := sinUnits wp y
    let s := if r < 0 then -s else s
    let v := quarterTurn wantCos k s (cosUnits wp y)
    fromUnits wp (if neg && !wantCos then -v else v)

/-- An input's value as a number, for the free choice of a neighbour: the same number for the same value, however it is
written as m × 2^e (e ≥ −1,200). -/
def inputKey (neg : Bool) (m : Nat) (e : Int) : Nat := (m * 2 ^ (e + 1200).toNat) * 2 + b2n neg

/-- A magnitude above the largest finite one (R115). -/
def aboveMax (fmt m : Nat) (e : Int) (sticky : Bool) : Bool :=
  let fb := fracBits fmt
  let q : Int := (expBias fmt : Int) - (fb : Int)
  let top := 2 ^ (fb + 1) - 1
  if e ≥ q then decide (m * 2 ^ (e - q).toNat > top) || (sticky && decide (m * 2 ^ (e - q).toNat = top))
  else decide (m > top * 2 ^ (q - e).toNat) || (sticky && decide (m = top * 2 ^ (q - e).toNat))

/-- A magnitude below the least subnormal one. -/
def belowLeast (fmt m : Nat) (e : Int) : Bool :=
  decide (leadOf m e < 1 - (expBias fmt : Int) - (fracBits fmt : Int))

/-- Deliver an exact result faithfully (R115): itself where it is representable, else one of its two neighbours.
DESIGN CHOICE (log 120): the direction of the neighbour delivered decides UF. -/
def deliver (fmt fn key : Nat) (sat : Bool) (x : Exact) : Nat × BitVec 5 :=
  match x with
  | .num neg m e sticky =>
    if m = 0 then (b2n neg * 2 ^ signBit fmt, 0)
    else if aboveMax fmt m e sticky then
      ((if sat then maxBits fmt neg else infBits fmt neg), flagOF ||| flagNX)
    else if fn = fnExp2 && belowLeast fmt m e then (0, flagUF ||| flagNX)
    else roundFloat fmt (if Config.outerNeighbour fn fmt key then 5 else 1) 0 sat neg m e sticky
  | y => roundExact fmt 1 0 sat y

/-- What a special function gives on a special value (Table 6-2). -/
def specialValue (fn : Nat) (v : Val) : Option (Exact × BitVec 5) :=
  match v with
  | .nan s => some (.nan, if s then flagNV else 0)
  | .inf n =>
    some (match fn with
      | 0 => (.num n 0 0 false, 0)
      | 1 | 3 => if n then (.nan, flagNV) else if fn = 1 then (.num false 0 0 false, 0) else (.inf false, 0)
      | 2 => if n then (.num false 0 0 false, 0) else (.inf false, 0)
      | 6 => (.num n 1 0 false, 0)
      | 7 => if n then (.num false 0 0 false, 0) else (.num false 1 0 false, 0)
      | 8 => if n then (.num true 0 0 false, 0) else (.inf false, 0)
      | _ => (.nan, flagNV))
  | .fin n m _ =>
    if m = 0 then
      some (match fn with
        | 0 | 1 => (.inf n, flagDZ)
        | 2 | 5 => (.num false 1 0 false, 0)
        | 3 => (.inf true, flagDZ)
        | 7 => (.num false 1 (-1) false, 0)
        | _ => (.num n 0 0 false, 0))
    else if n && (fn = 1 || fn = 3) then some (.nan, flagNV)
    else none

/-- The exact result of a special function on a finite non-zero input. -/
def specialFinite (fn : Nat) (neg : Bool) (m : Nat) (e : Int) : Exact :=
  match fn with
  | 0 =>
    let x := 2 ^ (120 + bitLen m)
    .num neg (x / m) (-e - ((120 + bitLen m : Nat) : Int)) (x % m != 0)
  | 1 =>
    let e' := if e % 2 = 0 then e else e - 1
    let m' := if e % 2 = 0 then m else 2 * m
    let x := 2 ^ (2 * (120 + bitLen m'))
    let r := isqrt (x / m')
    .num false r (-(e' / 2) - ((120 + bitLen m' : Nat) : Int)) (r * r * m' != x)
  | 2 => exp2Exact neg m e
  | 3 => log2Exact m e
  | 4 => sinExact neg m e
  | 5 => cosExact neg m e
  | 6 => tanhExact neg m e
  | 7 => sigmExact neg m e
  | _ => siluExact neg m e

/-- A special function of one element (R115): bits and flags. -/
def specialElem (fn fmt : Nat) (sat : Bool) (x : Nat) : Nat × BitVec 5 :=
  let v := decodeFloat fmt x
  match specialValue fn v with
  | some r => roundWith fmt 1 0 sat r
  | none =>
    match v with
    | .fin n m e => deliver fmt fn (inputKey n m e) sat (specialFinite fn n m e)
    | _ => (quietNan fmt, 0)

/-- FEXP2 in FP32 of an exact difference (R123): the value and its flags. -/
def exp2Factor (d : Exact) : Val × BitVec 5 :=
  match d with
  | .nan => (.nan false, 0)
  | .inf n => if n then (.fin false 0 0, 0) else (.inf false, 0)
  | .num n m e _ =>
    let (b, f) := deliver 2 fnExp2 (inputKey n m e) false (exp2Exact n m e)
    (decodeFloat 2 b, f)

/-- cospi and sinpi of a dyadic, as FP32 values (R124, R299; DEDUCED, log 121, for rows of another format). DESIGN CHOICE (log 92): the flags of the two factors' own
roundings are dropped, since R124 names no flag of theirs as R123 does for SMRG. -/
def cosSinPi (neg : Bool) (m : Nat) (e : Int) : Val × Val :=
  (decodeFloat 2 (deliver 2 fnCosPi (inputKey neg m e) false (piExact true neg m e)).1,
   decodeFloat 2 (deliver 2 fnSinPi (inputKey neg m e) false (piExact false neg m e)).1)

/-- One pair rotated by a factor pair (R124): x c − y s and x s + y c, each rounded once. -/
def rotatePair (fmt : Nat) (mode1 d1 mode2 d2 : Nat) (sat : Bool) (x y c s : Val) :
    (Nat × BitVec 5) × (Nat × BitVec 5) :=
  let (xc, f1) := mulVal x c
  let (ys, f2) := mulVal y s
  let (a, f3) := addVal mode1 xc.toVal ys.toVal.negate
  let (xs, f4) := mulVal x s
  let (yc, f5) := mulVal y c
  let (b, f6) := addVal mode2 xs.toVal yc.toVal
  (roundWith fmt mode1 d1 sat (a, f1 ||| f2 ||| f3), roundWith fmt mode2 d2 sat (b, f4 ||| f5 ||| f6))

end Sys2Proof.Machine
end

