-- ==== Sys2Proof/Machine/Float.lean ====
section
/-! DEFINITION. The floating-point, conversion and special-function instructions (R111 to R124). -/

namespace Sys2Proof.Machine

/-! ### Lanes with draws (R27) -/

/-- Result elements lane by lane. A qualifying lane takes `per` draws; the others take none and raise nothing. -/
def floatLanes (fmt per : Nat) (op : Nat → List Nat → List (Nat × BitVec 5)) : List Bool → Nat → List Nat → List Word × BitVec 5
  | [], _, _ => ([], 0)
  | q :: qs, i, ds =>
    if q then
      let xs := op i (ds.take per)
      let r := floatLanes fmt per op qs (i + 1) (ds.drop per)
      (laneOf fmt (xs.map (fun x => x.1)) :: r.1, xs.foldl (fun a x => a ||| x.2) r.2)
    else
      let r := floatLanes fmt per op qs (i + 1) ds
      (0 :: r.1, r.2)

/-- Elements of lane i of a token. -/
def laneAt (fmt : Nat) (t : Token) (i : Nat) : List Nat := laneElems fmt (t.lanes.getD i 0)

/-- The number of qualifying lanes. -/
def Fire.qualCount (f : Fire) : Nat := (f.qual.filter (fun q => q)).length

/-- Element k of a list. -/
def nth (xs : List Nat) (k : Nat) : Nat := xs.getD k 0

/-- A rounding instruction: each element from those of A, B and C in its position, with its draw. -/
def rounding (lat : Nat) (op : Nat → Nat → Nat → Nat → Nat → Nat → Nat × BitVec 5) (f : Fire) (s : State) : State × Effect :=
  let fmt := f.nrec.fmt.toNat
  let per := elemsPerLane fmt
  let mode := f.mode s
  let (ds, s) := f.draws s (f.qualCount * per)
  let r := floatLanes fmt per (fun i ds => (List.range per).map (fun k =>
    op fmt mode (nth ds k) (nth (laneAt fmt f.ta i) k) (nth (laneAt fmt f.tb i) k) (nth (laneAt fmt f.tc i) k))) f.qual 0 ds
  (s, f.result lat fmt r.1 r.2)

/-- An instruction that does not round: no draw is taken. -/
def exactly (lat : Nat) (op : Nat → Nat → Nat → Nat × BitVec 5) (f : Fire) (s : State) : State × Effect :=
  let fmt := f.nrec.fmt.toNat
  let per := elemsPerLane fmt
  let r := floatLanes fmt per (fun i _ => (List.range per).map (fun k =>
    op fmt (nth (laneAt fmt f.ta i) k) (nth (laneAt fmt f.tb i) k))) f.qual 0 []
  (s, f.result lat fmt r.1 r.2)

/-! ### Arithmetic (R113) -/

/-- Values of elements. -/
def val (fmt x : Nat) : Val := decodeFloat fmt x

/-- `FADD`, R113. -/
def execFadd (r : Rec) (s : State) : Host.Outcome State Fault Refusal :=
  fireNode 0x0C0 r {} (fun f => rounding 3 (fun fmt m d a b _ => roundWith fmt m d f.sat (addVal m (val fmt a) (val fmt b))) f) s

/-- `FSUB`, R113. -/
def execFsub (r : Rec) (s : State) : Host.Outcome State Fault Refusal :=
  fireNode 0x0C1 r {} (fun f => rounding 3 (fun fmt m d a b _ => roundWith fmt m d f.sat (addVal m (val fmt a) (val fmt b).negate)) f) s

/-- `FMUL`, R113. -/
def execFmul (r : Rec) (s : State) : Host.Outcome State Fault Refusal :=
  fireNode 0x0C2 r {} (fun f => rounding 3 (fun fmt m d a b _ => roundWith fmt m d f.sat (mulVal (val fmt a) (val fmt b))) f) s

/-- `FMA`, R113. -/
def execFma (r : Rec) (s : State) : Host.Outcome State Fault Refusal :=
  fireNode 0x0C3 r {} (fun f => rounding 4 (fun fmt m d a b c => roundWith fmt m d f.sat (fmaVal m (val fmt a) (val fmt b) (val fmt c))) f) s

/-- `FNMA`, R113. -/
def execFnma (r : Rec) (s : State) : Host.Outcome State Fault Refusal :=
  fireNode 0x0C4 r {} (fun f => rounding 4 (fun fmt m d a b c => roundWith fmt m d f.sat (fmaVal m (val fmt a).negate (val fmt b) (val fmt c))) f) s

/-- `FMIN`, R113. -/
def execFmin (r : Rec) (s : State) : Host.Outcome State Fault Refusal :=
  fireNode 0x0C5 r {} (fun f => exactly 1 (fun fmt a b => saturate fmt f.sat (minMax fmt false a b)) f) s

/-- `FMAX`, R113. -/
def execFmax (r : Rec) (s : State) : Host.Outcome State Fault Refusal :=
  fireNode 0x0C6 r {} (fun f => exactly 1 (fun fmt a b => saturate fmt f.sat (minMax fmt true a b)) f) s

/-- A sign operation: a NaN gives the canonical one and raises nothing. -/
def signOp (op : Nat → Nat → Nat) (fmt a : Nat) : Nat × BitVec 5 :=
  if (val fmt a).isNan then (quietNan fmt, 0) else (op (2 ^ signBit fmt) a, 0)

/-- `FABS`, R113. -/
def execFabs (r : Rec) (s : State) : Host.Outcome State Fault Refusal :=
  fireNode 0x0C7 r {} (fun f => exactly 1 (fun fmt a _ => saturate fmt f.sat (signOp (fun b x => x % b) fmt a)) f) s

/-- `FNEG`, R113. -/
def execFneg (r : Rec) (s : State) : Host.Outcome State Fault Refusal :=
  fireNode 0x0C8 r {} (fun f => exactly 1 (fun fmt a _ =>
    saturate fmt f.sat (signOp (fun b x => if x ≥ b then x - b else x + b) fmt a)) f) s

/-! ### Comparison and classification (R114) -/

/-- NV of a comparison. -/
def cmpFlags (anyNan : Bool) (a b : Val) : BitVec 5 :=
  if anyNan then (if a.isNan || b.isNan then flagNV else 0) else nanFlags [a, b]

/-- A comparison of FP32 lanes: SC is 0. -/
def fcompare (anyNan : Bool) (op : Val → Val → Bool) (f : Fire) (s : State) : State × Effect :=
  let ps := List.zip f.ta.lanes f.tb.lanes
  let bs := ps.map (fun x => op (val 2 x.1.toNat) (val 2 x.2.toNat))
  let fl := ps.foldl (fun a x => a ||| cmpFlags anyNan (val 2 x.1.toNat) (val 2 x.2.toNat)) 0
  (s, .emit 1 { f.predicate bs fl with sc := false })

/-- `FCMPEQ`, R114. -/
def execFcmpeq (r : Rec) (s : State) : Host.Outcome State Fault Refusal := fireNode 0x0C9 r {} (fcompare false eqVal) s

/-- `FCMPLT`, R114. -/
def execFcmplt (r : Rec) (s : State) : Host.Outcome State Fault Refusal := fireNode 0x0CA r {} (fcompare true ltVal) s

/-- `FCMPLE`, R114. -/
def execFcmple (r : Rec) (s : State) : Host.Outcome State Fault Refusal :=
  fireNode 0x0CB r {} (fcompare true (fun a b => ltVal a b || eqVal a b)) s

/-- `FCMPUN`, R114. -/
def execFcmpun (r : Rec) (s : State) : Host.Outcome State Fault Refusal :=
  fireNode 0x0CC r {} (fcompare false (fun a b => a.isNan || b.isNan)) s

/-- The one-hot class of an element (R114). -/
def classOf (fmt x : Nat) : Nat :=
  let neg := bit x (signBit fmt)
  let ex := (x / 2 ^ fracBits fmt) % (expOnes fmt + 1)
  let fr := x % 2 ^ fracBits fmt
  if ex = expOnes fmt then
    if fr = 0 then (if neg then 1 else 128) else if bit x (fracBits fmt - 1) then 512 else 256
  else if ex = 0 then
    if fr = 0 then (if neg then 8 else 16) else if neg then 4 else 32
  else if neg then 2 else 64

/-- `FCLASS`, R114. -/
def execFclass (r : Rec) (s : State) : Host.Outcome State Fault Refusal :=
  fireNode 0x0CD r {} (fun f s =>
    let fmt := r.fmt.toNat
    (s, .emit 1 (f.token 1 (f.ta.lanes.map (fun w =>
      BitVec.ofNat 32 ((laneElems fmt w).foldr (fun x a => classOf fmt x + 65536 * a) 0))) 0 0))) s

/-- `FDIV`, R113. -/
def execFdiv (r : Rec) (s : State) : Host.Outcome State Fault Refusal :=
  fireNode 0x0CE r {} (fun f => rounding 14 (fun fmt m d a b _ => roundWith fmt m d f.sat (divVal (val fmt a) (val fmt b))) f) s

/-- `FSQRT`, R113. -/
def execFsqrt (r : Rec) (s : State) : Host.Outcome State Fault Refusal :=
  fireNode 0x0CF r {} (fun f => rounding 14 (fun fmt m d a _ _ => roundWith fmt m d f.sat (sqrtVal (val fmt a))) f) s

/-! ### Special functions (R115) -/

/-- A special function of every element. -/
def special (fn : Nat) (f : Fire) (s : State) : State × Effect := exactly 10 (fun fmt a _ => specialElem fn fmt f.sat a) f s

/-- `FRCP`, R115. -/
def execFrcp (r : Rec) (s : State) : Host.Outcome State Fault Refusal := fireNode 0x0D0 r {} (special fnRcp) s
/-- `FRSQ`, R115. -/
def execFrsq (r : Rec) (s : State) : Host.Outcome State Fault Refusal := fireNode 0x0D1 r {} (special fnRsq) s
/-- `FEXP2`, R115. -/
def execFexp2 (r : Rec) (s : State) : Host.Outcome State Fault Refusal := fireNode 0x0D2 r {} (special fnExp2) s
/-- `FLOG2`, R115. -/
def execFlog2 (r : Rec) (s : State) : Host.Outcome State Fault Refusal := fireNode 0x0D3 r {} (special fnLog2) s
/-- `FSIN`, R115. -/
def execFsin (r : Rec) (s : State) : Host.Outcome State Fault Refusal := fireNode 0x0D4 r {} (special fnSin) s
/-- `FCOS`, R115. -/
def execFcos (r : Rec) (s : State) : Host.Outcome State Fault Refusal := fireNode 0x0D5 r {} (special fnCos) s
/-- `FTANH`, R115. -/
def execFtanh (r : Rec) (s : State) : Host.Outcome State Fault Refusal := fireNode 0x0D6 r {} (special fnTanh) s
/-- `FSIGM`, R115. -/
def execFsigm (r : Rec) (s : State) : Host.Outcome State Fault Refusal := fireNode 0x0D7 r {} (special fnSigm) s
/-- `FSILU`, R115. -/
def execFsilu (r : Rec) (s : State) : Host.Outcome State Fault Refusal := fireNode 0x0D8 r {} (special fnSilu) s

/-! ### Conversions (R117) -/

/-- A value as an exact result, with NV for a signalling NaN. -/
def Val.exact (v : Val) : Exact × BitVec 5 :=
  match v with
  | .nan _ => (.nan, nanFlags [v])
  | .inf n => (.inf n, 0)
  | .fin n m e => (.num n m e false, 0)

/-- Elements that a conversion forms in a lane, from the lane's input elements and the draws. -/
def convertLane (conv : Nat → Nat → Nat × BitVec 5) (ni no sel : Nat) (xs ds : List Nat) : List (Nat × BitVec 5) :=
  if no < ni then (List.range no).map (fun k => conv (nth ds k) (nth xs (sel * no + k)))
  else (List.range no).map (fun k =>
    if sel * ni ≤ k && k < sel * ni + ni then conv (nth ds (k - sel * ni)) (nth xs (k - sel * ni)) else (0, 0))

/-- A conversion (R117): conv takes the output format, the mode, a draw and an element. DEDUCED (log 113): the elements outside the
selected group are zeros that the node does not form, and take no draw. -/
def converting (conv : Nat → Nat → Nat → Nat → Nat × BitVec 5) (f : Fire) (s : State) : State × Effect :=
  let fmt := f.nrec.fmt.toNat
  let ofmt := bits f.lit 3 0
  let ni := elemsPerLane fmt
  let no := elemsPerLane ofmt
  let mode := f.mode s
  let per := min ni no
  let (ds, s) := f.draws s (f.qualCount * per)
  let r := floatLanes ofmt per (fun i ds => convertLane (conv ofmt mode) ni no (bits f.lit 5 4) (laneAt fmt f.ta i) ds) f.qual 0 ds
  (s, .emit 2 (f.token ofmt r.1 r.2 0))

/-- `CVTF`, R117. -/
def execCvtf (r : Rec) (s : State) : Host.Outcome State Fault Refusal :=
  fireNode 0x0E0 r {} (fun f => converting (fun o m d x => roundWith o m d f.sat (val r.fmt.toNat x).exact) f) s

/-- `CVTFI`, R117: always saturates. -/
def execCvtfi (r : Rec) (s : State) : Host.Outcome State Fault Refusal :=
  fireNode 0x0E1 r {} (converting (fun o m d x => floatToInt o m d (val r.fmt.toNat x))) s

/-- `CVTIF`, R117. -/
def execCvtif (r : Rec) (s : State) : Host.Outcome State Fault Refusal :=
  fireNode 0x0E2 r {} (fun f => converting (fun o m d x => roundExact o m d f.sat (exactInt (intElem r.fmt.toNat x))) f) s

/-! ### Block formats (R118 to R120) -/

/-- Encode elements in order, one draw each. -/
def encodeAll (fmt scw mode ifmt : Nat) : List Nat → List Nat → List Encoded
  | [], _ => []
  | x :: xs, ds => encodeBlock fmt scw mode (ds.headD 0) (val ifmt x) :: encodeAll fmt scw mode ifmt xs ds.tail

/-- QNTB's effect (R119). -/
def qntbFire (f : Fire) (s : State) : State × Effect :=
  let fmt := f.nrec.fmt.toNat
  let ifmt := f.lit % 16
  let scw := (f.tb.lanes.headD 0).toNat % 65536
  let xs := elemsOf ifmt f.ta.lanes
  let mode := f.mode s
  let (ds, s) := f.draws s xs.length
  let es := encodeAll fmt scw mode ifmt xs ds
  let wid := cdiv (f.wid * elemsPerLane ifmt) (elemsPerLane fmt)
  let s := s.modColour f.g f.col (fun c => c.count (es.foldl (fun a e => a + e.nan) 0) 0 (es.foldl (fun a e => a + e.sat) 0))
  (s, .emit 3 (f.token fmt (packLanes fmt wid (es.map (fun e => e.bits))) (es.foldl (fun a e => a ||| e.flags) 0) scw))

/-- `QNTB`, R119: B may have any width. -/
def execQntb (r : Rec) (s : State) : Host.Outcome State Fault Refusal := fireNode 0x0E3 r { anyWidth := true } qntbFire s

/-- Round decoded elements in order, one draw each. -/
def decodeAll (fmt scw ofmt mode : Nat) (sat : Bool) : List Nat → List Nat → List (Nat × BitVec 5)
  | [], _ => []
  | x :: xs, ds =>
    (match decodeBlock fmt scw x with
     | .nan _ => (quietNan ofmt, 0)
     | v => roundWith ofmt mode (ds.headD 0) sat v.exact) :: decodeAll fmt scw ofmt mode sat xs ds.tail

/-- DQNTB's effect (R120). -/
def dqntbFire (f : Fire) (s : State) : State × Effect :=
  let fmt := f.nrec.fmt.toNat
  let ofmt := f.lit % 16
  let part := bits f.lit 5 4
  let no := elemsPerLane ofmt
  let n := cdiv (f.wid * elemsPerLane fmt) no
  let lanes := min n (32 * part + 32) - 32 * part
  let xs := ((elemsOf fmt f.ta.lanes).drop (32 * part * no)).take (lanes * no)
  let mode := f.mode s
  let (ds, s) := f.draws s xs.length
  let es := decodeAll fmt f.ta.scw ofmt mode f.sat xs ds
  (s, .emit 2 (f.token ofmt (packLanes ofmt lanes (es.map (fun e => e.1))) (es.foldl (fun a e => a ||| e.2) 0) 0))

/-- The part that a DQNTB names begins beyond the lanes of the decoded block (R120). -/
def dqntbBeyond (f : Fire) : Bool :=
  decide (32 * bits f.lit 5 4 ≥ cdiv (f.wid * elemsPerLane f.nrec.fmt.toNat) (elemsPerLane (f.lit % 16)))

/-- `DQNTB`, R120. -/
def execDqntb (r : Rec) (s : State) : Host.Outcome State Fault Refusal := fireNode 0x0E4 r { badWidth := dqntbBeyond } dqntbFire s

/-- The larger magnitude of two dyadics. -/
def largerMag (a b : Nat × Int) : Nat × Int :=
  if a.1 = 0 then b else if b.1 = 0 then a
  else
    let e := min a.2 b.2
    if a.1 * 2 ^ (a.2 - e).toNat ≥ b.1 * 2 ^ (b.2 - e).toNat then a else b

/-- max × 2^k is at least m × 2^e. -/
def reaches (mx : Nat) (k : Int) (m : Nat) (e : Int) : Bool :=
  let l := min k e
  decide (mx * 2 ^ (k - l).toNat ≥ m * 2 ^ (e - l).toNat)

/-- EXPSEL's scale word (R118). -/
def chooseScale (ofmt gap m : Nat) (e : Int) : Nat :=
  if m = 0 then 0
  else
    let mx := blockMax ofmt
    let guess := e + (bitLen m : Int) - (bitLen mx : Int)
    let k := if reaches mx guess m e then guess else guess + 1
    let e1 := (min 254 (max 1 (k + (blockBias ofmt : Int)))).toNat
    e1 * 256 + max 1 (e1 - gap)

/-- The largest finite magnitude among elements. -/
def maxFinite (fmt : Nat) (xs : List Nat) : Nat × Int :=
  xs.foldl (fun a x => match val fmt x with
    | .fin _ m e => largerMag a (m, e)
    | _ => a) (0, 0)

/-- `EXPSEL`, R118. -/
def execExpsel (r : Rec) (s : State) : Host.Outcome State Fault Refusal :=
  fireNode 0x0E5 r {} (fun f s =>
    let m := maxFinite r.fmt.toNat (elemsOf r.fmt.toNat f.ta.lanes)
    (s, .emit 3 (f.token 1 [BitVec.ofNat 32 (chooseScale (f.lit % 16) (bits f.lit 8 4) m.1 m.2)] 0 0))) s

/-! ### Scaling (R121) -/

/-- `SCL`, R121: the output is marked scaled. -/
def execScl (r : Rec) (s : State) : Host.Outcome State Fault Refusal :=
  fireNode 0x0E8 r {} (fun f => rounding 3 (fun fmt m d a b _ => roundWith fmt m d f.sat (mulVal (val fmt a) (val fmt b))) f) s

/-- `USCL`, R121: the mark is cleared. -/
def execUscl (r : Rec) (s : State) : Host.Outcome State Fault Refusal :=
  fireNode 0x0E9 r {} (fun f => rounding 3 (fun fmt m d a b _ => roundWith fmt m d f.sat (mulVal (val fmt a) (val fmt b))) f) s

/-! ### Reductions (R122) -/

/-- FP32 sums in order, each rounded under RNE. -/
def sumInOrder (fmt : Nat) : Val → List Nat → Val × BitVec 5
  | v, [] => (v, 0)
  | v, x :: xs =>
    let r := roundWith 2 0 0 false (addVal 0 v (val fmt x))
    let t := sumInOrder fmt (decodeFloat 2 r.1) xs
    (t.1, r.2 ||| t.2)

/-- A reduction's token: WID 1, element 0. -/
def floatReduced (f : Fire) (lat : Nat) (x : Nat × BitVec 5) : Effect :=
  .emit lat (f.token f.nrec.fmt.toNat [BitVec.ofNat 32 x.1] x.2 0)

/-- `FRSUM`, R122. -/
def execFrsum (r : Rec) (s : State) : Host.Outcome State Fault Refusal :=
  fireNode 0x0F0 r {} (fun f s =>
    let fmt := r.fmt.toNat
    let xs := elemsOf fmt f.ta.lanes
    let mode := f.mode s
    let (ds, s) := f.draws s 1
    let t := sumInOrder fmt (val fmt (xs.headD 0)) xs.tail
    let o := roundWith fmt mode (ds.headD 0) f.sat t.1.exact
    (s, floatReduced f 8 (o.1, o.2 ||| t.2))) s

/-- FMAX or FMIN over elements in order. -/
def pickInOrder (fmt : Nat) (wantMax : Bool) (xs : List Nat) : Nat × BitVec 5 :=
  let first := xs.headD 0
  xs.tail.foldl (fun a x => let r := minMax fmt wantMax a.1 x; (r.1, r.2 ||| a.2)) (minMax fmt wantMax first first)

/-- `FRMAX`, R122. -/
def execFrmax (r : Rec) (s : State) : Host.Outcome State Fault Refusal :=
  fireNode 0x0F1 r {} (fun f s => (s, floatReduced f 4
    (saturate r.fmt.toNat f.sat (pickInOrder r.fmt.toNat true (elemsOf r.fmt.toNat f.ta.lanes))))) s

/-- `FRMIN`, R122. -/
def execFrmin (r : Rec) (s : State) : Host.Outcome State Fault Refusal :=
  fireNode 0x0F2 r {} (fun f s => (s, floatReduced f 4
    (saturate r.fmt.toNat f.sat (pickInOrder r.fmt.toNat false (elemsOf r.fmt.toNat f.ta.lanes))))) s

/-! ### The softmax merge (R123) -/

/-- 1.0. -/
def oneVal : Val := .fin false 1 0

/-- The factor of a partial whose maximum is x, the greater being m. -/
def partialFactor (x m : Val) : Val × BitVec 5 :=
  if eqVal x m then (oneVal, 0)
  else match (addVal 0 x m.negate).1 with
    | .num n k e st => exp2Factor (.num n k e st)
    | _ => (.fin false 0 0, 0)

/-- A lane of the merge: a fa + b fb, exact, then rounded once. -/
def mergeLane (mode d : Nat) (sat : Bool) (a fa b fb : Val) : Nat × BitVec 5 :=
  let p := mulVal a fa
  let q := mulVal b fb
  let t := addVal mode p.1.toVal q.1.toVal
  roundWith 2 mode d sat (t.1, t.2 ||| p.2 ||| q.2)

/-- Lanes 1 onward. -/
def mergeLanes (mode : Nat) (sat : Bool) (fa fb : Val) : List (Word × Word) → List Nat → List (Nat × BitVec 5)
  | [], _ => []
  | (a, b) :: t, ds =>
    mergeLane mode (ds.headD 0) sat (val 2 a.toNat) fa (val 2 b.toNat) fb :: mergeLanes mode sat fa fb t ds.tail

/-- SMRG's effect. Every lane takes a draw (R27), lane 0 too, whose value needs no rounding. DEDUCED (log 91): lane 0 is the
maximum itself, an infinite one too, whatever SAT says, since two empty partials merge to −∞. -/
def smrgFire (f : Fire) (s : State) : State × Effect :=
  let a0 := (f.ta.lanes.headD 0).toNat
  let b0 := (f.tb.lanes.headD 0).toNat
  let ma := val 2 a0
  let mb := val 2 b0
  let mode := f.mode s
  let (ds, s) := f.draws s f.wid
  if ma.isNan || mb.isNan then
    (s, .emit 12 (f.token 2 (List.replicate f.wid (BitVec.ofNat 32 (quietNan 2))) (nanFlags [ma, mb]) 0))
  else
    let mx := (minMax 2 true a0 b0).1
    let fa := partialFactor ma (val 2 mx)
    let fb := partialFactor mb (val 2 mx)
    let es := mergeLanes mode f.sat fa.1 fb.1 (f.ta.lanes.zip f.tb.lanes).tail ds.tail
    (s, .emit 12 (f.token 2 (BitVec.ofNat 32 mx :: es.map (fun e => BitVec.ofNat 32 e.1))
      (es.foldl (fun x e => x ||| e.2) (fa.2 ||| fb.2)) 0))

/-- `SMRG`, R123. -/
def execSmrg (r : Rec) (s : State) : Host.Outcome State Fault Refusal :=
  fireNode 0x0F3 r { badWidth := fun f => decide (f.wid < 2) } smrgFire s

/-! ### Rotation (R124) -/

/-- One pair rotated by t half-turns; a t that is no number gives NaN in both and raises NV. -/
def ropePair (fmt mode d1 d2 : Nat) (sat neg : Bool) (x y t : Nat) : (Nat × BitVec 5) × (Nat × BitVec 5) :=
  match val 2 t with
  | .fin n m e =>
    let cs := cosSinPi n m e
    rotatePair fmt mode d1 mode d2 sat (val fmt x) (val fmt y) cs.1 (if neg then cs.2.negate else cs.2)
  | _ => ((quietNan fmt, flagNV), (quietNan fmt, flagNV))

/-- Pairs of elements in order; each element takes a draw, and an odd last one passes unchanged. -/
def ropePairs (fmt mode : Nat) (sat neg : Bool) (bs : List Word) : Nat → List Nat → List Nat → List (Nat × BitVec 5)
  | j, x :: y :: t, ds =>
    let r := ropePair fmt mode (nth ds 0) (nth ds 1) sat neg x y (bs.getD (j % bs.length) 0).toNat
    r.1 :: r.2 :: ropePairs fmt mode sat neg bs (j + 1) t (ds.drop 2)
  | _, [x], _ => [(x, 0)]
  | _, [], _ => []

/-- `ROPE`, R124: B may have any width. DESIGN CHOICE (log 92): an odd last FP32 lane passes unchanged, is no result element that
the node forms, and takes no draw. -/
def execRope (r : Rec) (s : State) : Host.Outcome State Fault Refusal :=
  fireNode 0x0F4 r { anyWidth := true } (fun f s =>
    let fmt := r.fmt.toNat
    let xs := elemsOf fmt f.ta.lanes
    let mode := f.mode s
    let (ds, s) := f.draws s (xs.length / 2 * 2)
    let es := ropePairs fmt mode f.sat (bit f.lit 0) f.tb.lanes 0 xs ds
    (s, .emit 6 (f.token fmt (packLanes fmt f.wid (es.map (fun e => e.1))) (es.foldl (fun a e => a ||| e.2) 0) 0))) s

end Sys2Proof.Machine
end

