-- ==== Sys2Proof/Machine/Dies.lean ====
section
/-! DEFINITION. What takes work away: the loss of a region (R215, R265), the reissue of groups (R267, R268), heartbeats, fences
and the election (R266), and the halt of a context (R245). -/

namespace Sys2Proof.Machine

/-! ### The loss of a region -/

/-- The widest level whose unit shared memory that is lost (R267): SCP region, or SCP die where the whole die is lost. -/
def Kernel.sharedLevel (k : Kernel) (wholeDie : Bool) : Option Nat :=
  let hit := fun (l : Level) => l.scp == 3 || (wholeDie && l.scp == 2)
  let i := (k.levels.takeWhile (fun l => !hit l)).length
  if i < k.levels.length then some i else none

/-- The widest unit that shares memory with a lost group holds another group (R267). -/
def Kernel.shares (k : Kernel) (wholeDie : Bool) (p x : Nat) : Bool := match k.sharedLevel wholeDie with
  | some i => k.unitOf i x == k.unitOf i p
  | none => false

/-- A Lost group is reissued (R265, R268). -/
def Kernel.reissues (k : Kernel) (p : Nat) : Bool := !(k.st == .faulting || k.st == .halted || k.nr || k.nrGroups.contains p)

/-- A Lost group becomes Pending with the other groups of its unit, or Abandoned (R265, R267, R268). -/
def Kernel.loseGroup (k : Kernel) (wholeDie : Bool) (p : Nat) : Kernel :=
  if k.nr || k.nrGroups.contains p then { k with groups := Tab.set k.groups p .abandoned, verdict := 2 }
  else if k.st == .faulting || k.st == .halted then { k with groups := Tab.set k.groups p .abandoned }
  else
    let back := fun (x : Nat × GroupState) => match x.2 with
      | .done _ => k.shares wholeDie p x.1
      | _ => false
    let runs := fun (x : Nat × GroupState) => match x.2 with
      | .running _ => k.shares wholeDie p x.1
      | _ => false
    { k with groups := Tab.set (k.groups.map (fun x => if back x || runs x then (x.1, .again) else x)) p .again
             groupsDone := k.groupsDone - (k.groups.filter back).length, reissued := satAdd k.reissued 1 }

/-- A group runs in one of some regions. -/
def GroupState.runsIn (x : GroupState) (gs : List Nat) : Bool := match x with
  | .running g => gs.contains g
  | _ => false

/-- Groups that run in other regions and return to Pending with those that some regions lose. -/
def Kernel.recalled (k : Kernel) (wholeDie : Bool) (gs : List Nat) : List (Nat × Nat) :=
  let lost := (k.groups.filter (fun x => x.2.runsIn gs && k.reissues x.1)).map (fun x => x.1)
  k.groups.filterMap (fun x => match x.2 with
    | .running y => if !gs.contains y && lost.any (fun p => k.shares wholeDie p x.1) then some (x.1, y) else none
    | _ => none)

/-- The groups that run in some regions are Lost, all of them before any is reissued or abandoned. -/
def Kernel.loseAll (k : Kernel) (wholeDie : Bool) (gs : List Nat) : Kernel :=
  let lost := (k.groups.filter (fun x => x.2.runsIn gs)).map (fun x => x.1)
  lost.foldl (fun k p => k.loseGroup wholeDie p) { k with groups := k.groups.map (fun x => if x.2.runsIn gs then (x.1, .lost) else x) }

/-- A group that returns to Pending leaves nothing uncommitted in its region: DEDUCED (log 105). -/
def State.recallGroup (s : State) (x : Nat × Nat) : State :=
  let r := s.region x.2
  (s.purge x.2 ((r.cols.filter (fun c => c.2.origin == some x.1)).map (fun c => c.1)) false false).modRegion x.2
    (fun r => { r with reissues := r.reissues.filter (fun y => y.entry.origin != some x.1) })

/-- The groups of a kernel that run in some regions are Lost. -/
def State.loseGroups (s : State) (e : Nat) (gs : List Nat) (wholeDie : Bool) : State :=
  (((s.kernel e).recalled wholeDie gs).foldl State.recallGroup s).modKernel e (fun k => k.loseAll wholeDie gs)

/-- The kernels that hold some regions. -/
def State.holders (s : State) (gs : List Nat) : List Nat := (gs.filterMap (fun g => (s.region g).kernel)).foldl insertRising []

/-- Loads that nodes of a region have in progress go with it. -/
def State.loseLoads (s : State) (g : Nat) : State :=
  let r := s.region g
  let mine := s.loads.filter (fun l => l.k == r.slot && r.holds l.h)
  let s := { s with loads := s.loads.filter (fun l => !(l.k == r.slot && r.holds l.h)) }
  mine.foldl (fun s l =>
    let s := l.prior.foldl (fun s p => s.modRegion p (fun r => if r.st == .loading then { r with st := .resident } else r)) s
    if l.due = 0 then s else { s with regions := Tab.drop s.regions l.region }) s

/-- What is left of a region that is lost: it is Unbound, and nothing is on its way to it. -/
def State.emptyRegion (s : State) (g : Nat) : State :=
  let s := s.loseLoads g
  let s := { s with flights := s.flights.filter (fun f => f.2.region != g) }
  ((s.unbind g).dropImage g).modRegion g (fun r =>
    { r with cols := [], reissues := [], image := [], imageFlights := [], notices := [], gone := [], senders := [], untracked := none, slow := []
             unit := none, depth := 0, residence := .absent })

/-- Regions are lost together (R215, R265): their uncommitted activations leave nothing, their groups are Lost, and they are Unbound. -/
def State.loseRegions (s : State) (gs : List Nat) (wholeDie : Bool) : State :=
  let s := gs.foldl (fun s g => s.dropRegion g) s
  let s := (s.holders gs).foldl (fun s e => s.loseGroups e gs wholeDie) s
  gs.foldl State.emptyRegion s

/-! ### Dies and the master (R266) -/

/-- The regions of a die that are not Unbound. -/
def State.regionsOn (s : State) (d : Nat) : List Nat :=
  (s.regions.filter (fun x => x.2.die == d && x.2.st != .unbound)).map (fun x => x.1)

/-- A queue of a fenced die (R271). -/
def Queue.cut (u : Queue) : Queue := { u with en := false, st := .disabled, cur := none, withheld := none }

/-- Fence a die. A fence of the master begins an election, which ends within 2,048 cycles. -/
def State.fenceDie (s : State) (d : Nat) : State :=
  if s.fencedDies.contains d then s
  else
    let s : State := { s with fencedDies := insertRising s.fencedDies d }
    let s : State := { s with kernels := s.kernels.map (fun k =>
      if k.2.first then (k.1, { k.2 with fences := k.2.fences ++ [(d, s.liveDies)] }) else k) }
    let s := s.loseRegions (s.regionsOn d) true
    let s := { s with queues := s.queues.map (fun q => if q.1 / 128 = d then (q.1, q.2.cut) else q)
                      engines := s.engines.map (fun e => if e.1 / 8 = d then (e.1, { e.2 with busy := false }) else e)
                      moves := s.moves.filter (fun m => m.1 / 128 != d) }
    if s.master = d && (s.phase = 4 || s.phase = 5) then
      let (n, s) := s.freeDelay
      { s with election := some (s.cycle + min n 2048) }
    else s

/-- `DIE_FENCE`, R266. -/
def execDieFence (s : State) : Host.Outcome State Fault Refusal :=
  match s.cur with
  | .die d => .next (s.fenceDie d)
  | _ => .fault .misplaced

/-- `HEARTBEAT`, R266: every 1,024 cycles; four in a row that do not come fence the die. -/
def execHeartbeat (s : State) : Host.Outcome State Fault Refusal :=
  match s.cur with
  | .die d =>
    .next (if s.cycle % 1024 ≠ 0 || s.fencedDies.contains d then s
      else if !s.silent.contains d then { s with missed := Tab.set s.missed d 0 }
      else
        let n := Tab.get 0 s.missed d + 1
        let s := { s with missed := Tab.set s.missed d n }
        if 4 ≤ n then s.push [.event .dieFence (.die d)] else s)
  | _ => .fault .misplaced

/-- `ELECTION_END`, R266: the lowest surviving die is master, and works from its mirror of the table. -/
def execElectionEnd (s : State) : Host.Outcome State Fault Refusal :=
  match s.cur with
  | .module =>
    .next (match s.election with
      | some t => if t ≤ s.cycle then { s with election := none, master := s.liveDies.headD s.master } else s
      | none => s)
  | _ => .fault .misplaced

/-! ### The halt of a context (R245) -/

/-- A kernel ends without having run to its end. -/
def State.terminate (s : State) (e : Nat) (st : KernelState) (status : Nat) : State :=
  let s := s.modKernel e (fun k => { k with st := st, status := status, endCycle := s.cycle })
  ((s.resolveOthers e).endRecompute (s.kernel e)).idleContext (s.kernel e).ctx

/-- A region lets the halt take effect at this boundary (R236). -/
def State.haltsNow (s : State) (g : Nat) : Bool :=
  let r := s.region g
  r.st == .unbound || r.residence == .evicted || r.residence == .absent ||
  ((r.residence == .resident || (r.residence == .evicting && r.image.isEmpty)) && s.mayFreeze g)

/-- The regions of a context. -/
def State.regionsIn (s : State) (m : Nat) : List Nat := (s.regions.filter (fun x => x.2.ctx == m)).map (fun x => x.1)

/-- A kernel of a context that halts (Table 13-4). -/
def State.haltKernel (s : State) (e : Nat) : State :=
  match (s.kernel e).st with
  | .running | .draining => (s.dropKernel e).terminate e .halted 3
  | .bound => ((s.regionsOf e).foldl (fun s g => s.detach g) s).modKernel e (fun k => { k with st := .ready })
  | _ => s

/-- The halt takes effect: firing stops, uncommitted activations are purged, and started kernels end. -/
def State.haltContext (s : State) (m : Nat) : State :=
  let s := s.modContext m (fun c => { c with st := .halted })
  let s := (s.regionsIn m).foldl (fun s g => s.dropRegion g) s
  let s := ((s.kernels.filter (fun x => x.2.ctx == m)).map (fun x => x.1)).foldl (fun s e => s.haltKernel e) s
  let s : State := { s with regions := s.regions.map (fun x => if x.2.ctx = m then (x.1, { x.2 with halted := false }) else x) }
  s.modContext m (fun c => { c with st := .halted, halting := false })

/-- Regions of the context that meet the freeze conditions at this boundary stop firing. -/
def State.stopRegions (s : State) (m : Nat) : State :=
  (s.regionsIn m).foldl (fun s g => if s.haltsNow g then s.modRegion g (fun r => { r with halted := true }) else s) s

/-- `CONTEXT_HALT`, R245: each region stops at a boundary of its own, and the halt is complete when all have. -/
def execContextHalt (s : State) : Host.Outcome State Fault Refusal :=
  match s.cur with
  | .context m =>
    .next (if (s.context m).halting && s.boundary then
      let s := s.stopRegions m
      if (s.regionsIn m).all (fun g => (s.region g).halted) then s.haltContext m else s
     else s)
  | _ => .fault .misplaced

end Sys2Proof.Machine
end

