-- ==== Sys2Proof/Machine/Commit.lean ====
section
/-! DEFINITION. The commit of an activation (R189 to R192) and what it applies; the life of damper entries and of commit writes
(R338, R340, R346); the end of a purge (R76) and the reissue (R77). -/

namespace Sys2Proof.Machine

/-! ### Applying entries (R190, R176, R178, R304) -/

/-- The updated word of an atomic, and the flags it raises (Table 9-6): `sgn` reads words as signed. -/
def atomicNew (op : Nat) (sgn : Bool) (v b new : Nat) : Nat × BitVec 5 :=
  let num := fun (x : Nat) => if sgn then signedElem 32 x else (x : Int)
  match op with
  | 0 => ((v + b) % 2 ^ 32, 0)
  | 1 => roundWith 2 0 0 false (addVal 0 (decodeFloat 2 v) (decodeFloat 2 b))
  | 2 => (if num b < num v then b else v, 0)
  | 3 => (if num v < num b then b else v, 0)
  | 4 => (v &&& b, 0)
  | 5 => (v ||| b, 0)
  | 6 => (v ^^^ b, 0)
  | 7 => (b, 0)
  | 8 => (if v = b then new else v, 0)
  | _ => (if b ≤ v then 0 else v + 1, 0)

/-- A weight after an optimiser step: δ × w − η × g, exact and rounded once (R178). -/
def optWord (eta delta g w : Nat) : Nat × BitVec 5 :=
  let p := mulVal (decodeFloat 2 delta) (decodeFloat 2 w)
  let q := mulVal (decodeFloat 2 eta) (decodeFloat 2 g)
  let x := addVal 0 p.1.toVal q.1.toVal.negate
  roundWith 2 0 0 false (x.1, p.2 ||| q.2 ||| x.2)

/-- The runs of bytes that a mask writes: start and length. -/
def maskRuns (m : Nat) : Nat → Nat → List (Nat × Nat)
  | 0, _ => []
  | n + 1, i =>
    if !bit m i then maskRuns m n (i + 1)
    else match maskRuns m n (i + 1) with
      | (j, l) :: t => if j = i + 1 then (i, l + 1) :: t else (i, 1) :: (j, l) :: t
      | [] => [(i, 1)]

/-- Apply the bytes of a store entry. -/
def State.applyBytes (s : State) (e : DamperEntry) : State :=
  (maskRuns e.mask.toNat 32 0).foldl (fun s r =>
    s.put (e.pa + r.1) (leBytes r.2 (e.data.toNat / 2 ^ (8 * r.1))) e.tnt) s

/-- Apply one entry of KIND 0, 1 or 4; the flags it raises. -/
def State.applyEntry (s : State) (e : DamperEntry) : State × BitVec 5 :=
  match e.kind with
  | 0 => (s.applyBytes e, 0)
  | 1 =>
    let d := e.data.toNat
    let x := atomicNew (d % 16) (bit d 4) (s.fetchLe e.pa 4) (d / 2 ^ 32 % 2 ^ 32) (d / 2 ^ 64 % 2 ^ 32)
    (s.put e.pa (leBytes 4 x.1) e.tnt, x.2)
  | 4 => (s.put e.pa (leBytes 1 (max (s.fetchLe e.pa 1) (e.data.toNat % 256))) e.tnt, 0)
  | _ => (s, 0)

/-- The words that a gradient entry updates: their addresses, and the gradient words. -/
def DamperEntry.gradients (e : DamperEntry) : List (Nat × Nat) :=
  (List.range 8).filterMap (fun i =>
    if e.mask.getLsbD (4 * i) then some (e.pa + 4 * i, e.data.toNat / 2 ^ (32 * i) % 2 ^ 32) else none)

/-- Apply the three entries of an OPTST granule as one write. Weights from a poisoned granule make no clean data: DEDUCED (log 110). -/
def State.applyStep (s : State) (a b e : DamperEntry) : State × BitVec 5 :=
  let eta := e.data.toNat % 2 ^ 32
  let delta := e.data.toNat / 2 ^ 32 % 2 ^ 32
  match a.gradients ++ b.gradients with
  | [] => (s, 0)
  | (pa, x) :: t =>
    let new := ((pa, x) :: t).map (fun y => optWord eta delta y.2 (s.fetchLe y.1 4))
    (s.put pa (new.flatMap (fun y => leBytes 4 y.1)) (a.tnt || b.tnt || e.tnt || s.tainted pa (4 * new.length)), new.foldl (fun f y => f ||| y.2) 0)

/-- Two halves of one store that cover a granule. -/
def wholeGranule (a b : DamperEntry) : Bool :=
  a.kind == 0 && b.kind == 0 && a.pa % 64 == 0 && b.pa == a.pa + 32 && b.id == a.id + 1 && a.mask == BitVec.allOnes 32 &&
  b.mask == BitVec.allOnes 32

/-- Entries grouped as the endpoint applies them: an OPTST's granule, a store's whole granule, or a single entry. -/
def entryGroups : List DamperEntry → List (List DamperEntry)
  | a :: b :: c :: t =>
    if a.kind = 2 ∧ b.kind = 2 ∧ c.kind = 3 then [a, b, c] :: entryGroups t
    else if wholeGranule a b then [a, b] :: entryGroups (c :: t)
    else [a] :: entryGroups (b :: c :: t)
  | [a, b] => if wholeGranule a b then [[a, b]] else [[a], [b]]
  | [a] => [[a]]
  | [] => []

/-- Apply a group. -/
def State.applyGroup (s : State) : List DamperEntry → State × BitVec 5
  | [a, b, c] => s.applyStep a b c
  | [a, b] => (s.put a.pa (leBytes 32 a.data.toNat ++ leBytes 32 b.data.toNat) (a.tnt || b.tnt), 0)
  | [a] => s.applyEntry a
  | _ => (s, 0)

/-- One entry comes before another: by its commit's place in cm, then by its number. -/
def DamperEntry.before (e x : DamperEntry) : Bool := e.order < x.order || (e.order == x.order && e.id < x.id)

/-- Insert an entry in that order. -/
def insertEntry (e : DamperEntry) : List DamperEntry → List DamperEntry
  | [] => [e]
  | x :: t => if e.before x then e :: x :: t else x :: insertEntry e t

/-- The damper entries of an activation in every hearth, in the order in which they entered; what
several commits have left behind stands in the order of their commits. -/
def State.entriesOf (s : State) (g c : Nat) : List DamperEntry :=
  (s.hearths.flatMap (fun h => h.2.damper.filter (fun e => e.region == g && e.col == c))).foldl (fun l e => insertEntry e l) []

/-- A staged ACAS lane no longer finds its word when it would be applied (R177). -/
def acasFails : List (List DamperEntry) → State → Bool
  | [], _ => false
  | g :: t, s =>
    (g.any (fun e => e.kind == 1 && e.data.toNat % 16 == 8 && s.fetchLe e.pa 4 != e.data.toNat / 2 ^ 32 % 2 ^ 32)) ||
    acasFails t (s.applyGroup g).1

/-- Remove entries from the dampers. -/
def State.freeEntries (s : State) (ids : List Nat) : State :=
  { s with hearths := s.hearths.map (fun h => (h.1, { h.2 with damper := h.2.damper.filter (fun e => !ids.contains e.id) })) }

/-- Change one entry. -/
def State.modDamper (s : State) (id : Nat) (f : DamperEntry → DamperEntry) : State :=
  { s with hearths := s.hearths.map (fun h => (h.1, { h.2 with damper := h.2.damper.map (fun e => if e.id = id then f e else e) })) }

/-- The endpoint does not acknowledge a write now (log 6); T3 needs the link to the host. -/
def State.silentWrite (s : State) (e : DamperEntry) : Bool :=
  s.unacked.contains e.id || e.again != 0 || (tierOf (forwardAddr s.forwards e.pa) == some .t3 && !s.cxlUp)

/-- One write of a freed colour to T3 is over. -/
def State.settleT3 (s : State) (e : DamperEntry) : State :=
  if e.col = 4096 then s.modHolder e.region (fun k => { k with t3Pending := k.t3Pending - 1 }) else s

/-- A granule holds a write of an earlier commit that has not been applied: `below` bounds the place in cm. -/
def State.earlierWrite (s : State) (below granule : Nat) : Bool :=
  s.hearths.any (fun h => h.2.damper.any (fun e => e.order != 0 && decide (e.order < below) && (s.granulesOf e).contains granule))

/-- Writes of earlier commits stand before an entry in its granules. -/
def State.writesBefore (s : State) (e : DamperEntry) (below : Nat) : Bool := (s.granulesOf e).any (fun m => s.earlierWrite below m)

/-- Apply the groups in order; a group whose endpoint is silent stays Sent, and so does what follows it in its granule, in the same
commit or in a later one (MCA). -/
def applyAll (e : Option Nat) : List (List DamperEntry) → List Nat → State → State
  | [], _, s => s
  | g :: t, stuck, s =>
    let marks := g.flatMap s.granulesOf
    if g.any s.silentWrite || marks.any (fun m => stuck.contains m) || g.any (fun y => s.writesBefore y y.order) then
      applyAll e t (marks ++ stuck) s
    else
      let x := s.applyGroup g
      let s := x.1.freeEntries (g.map (fun y => y.id))
      let s := match e with
        | some k => s.modKernel k (fun k => { k with flagsK := k.flagsK ||| x.2 })
        | none => s
      applyAll e t stuck (g.foldl (fun s y => s.settleT3 y) s)

/-- Apply what an activation has sent. -/
def State.applySent (s : State) (g c : Nat) : State :=
  applyAll (s.region g).kernel (entryGroups (s.entriesOf g c)) [] s

/-! ### The conditions (R189, R337) -/

/-- A request of the activation has not completed. -/
def State.hasRequest (s : State) (g c : Nat) : Bool :=
  s.slots.any (fun x => x.2.region == some g && (x.2.cfg.buffer.any (fun q => q.col == c) ||
    x.2.planes.any (fun p => p.cfg.buffer.any (fun q => q.col == c)))) ||
  (s.region g).image.any (fun x => x.2.cfg.buffer.any (fun q => q.col == c))

/-- An activation whose tokens this one consumed has committed: it holds its colour no longer or has its commit point, it has not
been purged, and no notice of a purge is on the way. -/
def State.producerDone (s : State) (g : Nat) (p : Nat × Nat × Nat) : Bool :=
  let c := s.colour p.1 p.2.1
  (!(c.held && c.ser == p.2.2) || c.committed) && !s.isGone p && !(s.region g).notices.any (fun n => n.source == p.1 && n.col == p.2.1)

/-- The regions of an activation's commit domain (R188). -/
def State.domain (s : State) (g : Nat) : List Nat := match (s.region g).kernel with
  | some e => s.regionsOf e
  | none => [g]

/-- A smaller timestamp of the domain is unfinished; one that waits for its reissue counts too (R192). -/
def State.smallerTs (s : State) (g ts : Nat) : Bool :=
  (s.domain g).any (fun x =>
    let r := s.region x
    r.cols.any (fun c => c.2.held && c.2.ts != 0 && decide (c.2.ts < ts)) ||
    r.reissues.any (fun y => y.entry.ts != 0 && decide (y.entry.ts < ts)))

/-- The hold of R337 is met. -/
def State.holdMet (s : State) (g c : Nat) : Bool :=
  (s.entriesOf g c).all (fun e => decide (e.born + Config.tstrike ≤ s.cycle)) &&
  decide ((s.colour g c).busy + Config.tstrike ≤ s.cycle)

/-- The kernel of a region is one whose activations still commit: a fault or a halt purges them (R254). -/
def State.kernelCommits (s : State) (g : Nat) : Bool := match (s.region g).kernel with
  | some e => (s.kernel e).st != .faulting && (s.kernel e).st != .halted
  | none => true

/-- An Ended activation commits in this cycle. -/
def State.mayCommit (s : State) (g c : Nat) : Bool :=
  let x := s.colour g c
  x.st == .ended && s.kernelCommits g && !x.committed && !s.hasRequest g c && s.holdMet g c && x.producers.all (s.producerDone g) &&
  (x.ts == 0 || !s.smallerTs g x.ts)

/-! ### Prepare and commit point (R190 to R192) -/

/-- The granules that an activation writes. -/
def State.writtenGranules (s : State) (g c : Nat) : List Nat := (s.entriesOf g c).flatMap s.granulesOf

/-- Activations of the domain that a commit at `ts` aborts (R191): region and colours. -/
def State.conflicts (s : State) (g c ts : Nat) (ws : List Nat) : List (Nat × List Nat) :=
  (s.domain g).map (fun x => (x, ((s.region x).cols.filter (fun y =>
    y.2.active && !y.2.committed && !y.2.settled && y.2.ts != 0 && decide (ts ≤ y.2.ts) && !(x == g && y.1 == c) &&
      y.2.reads.any (fun r => ws.contains (forwardAddr s.forwards (64 * r) / 64)))).map (fun y => y.1)))

/-- Conflict aborts at the commit point of a timed activation. -/
def State.abortReaders (s : State) (g c : Nat) : State :=
  let ts := (s.colour g c).ts
  if ts = 0 then s
  else (s.conflicts g c ts (s.writtenGranules g c)).foldl (fun s x => if x.2.isEmpty then s else s.purge x.1 x.2 true false) s

/-- The group of an activation has committed a write to a page with NR = 1 (R268). -/
def Kernel.noteNr (k : Kernel) (c : Colour) (nr : Bool) : Kernel := match c.origin with
  | some p => if nr then { k with nrGroups := insertRising k.nrGroups p } else k
  | none => k

/-- Change the damper entries of an activation. -/
def State.mapEntries (s : State) (g c : Nat) (f : DamperEntry → DamperEntry) : State :=
  { s with hearths := s.hearths.map (fun h => (h.1, { h.2 with damper := h.2.damper.map (fun e =>
      if e.region = g ∧ e.col = c then f e else e) })) }

/-- The addresses that an entry writes. -/
def DamperEntry.addrs (e : DamperEntry) : List Nat :=
  (List.range 32).filterMap (fun i => if e.kind != 3 && e.mask.getLsbD i then some (e.pa / 32 * 32 + i) else none)

/-- Bytes of an entry on its way: its data, and those of an OPTST's parameters go with the gradient entries (R339, log 100). -/
def DamperEntry.sendBytes (e : DamperEntry) : Nat := if e.kind = 3 then 0 else 32

/-- A damper and the bank port have room for an entry in this cycle (R339, R183). -/
def State.drainRoom (s : State) (h : Nat) (e : DamperEntry) : Bool :=
  decide (Tab.get 0 s.drained h + e.sendBytes ≤ 64) && s.portRoom e.addrs

/-- The entry's bytes leave the damper. -/
def State.drain (s : State) (h : Nat) (e : DamperEntry) : State :=
  { s.usePort e.addrs with drained := Tab.set s.drained h (Tab.get 0 s.drained h + e.sendBytes) }

/-- A damper sends at most 64 bytes in a cycle, through a bank port that has room (R339, R183). -/
def State.maySend (s : State) (h : Nat) (e : DamperEntry) : Bool := e.st != .sent && s.drainRoom h e

/-- The message of a commit write (R184), with its data flits: class 1 for a store, class 2 for an update. The gradient words of an OPTST
go with its parameters in one message, for each granule. -/
def State.writeMessage (s : State) (h : Nat) (e : DamperEntry) (last : Bool) : MeshMessage :=
  let m := (s.region e.region).ctx
  let d := e.data.toNat
  match e.kind with
  | 0 => accessMessage 1 h 0 m e.id ((e.addrs).headD e.pa) (writeBody (e.addrs).length last) (e.addrs).length s.cycle
  | 1 => accessMessage 2 h 0 m e.id e.pa (d % 2 ^ 96) 0 s.cycle
  | 4 => accessMessage 2 h 0 m e.id e.pa (11 + d % 256 * 2 ^ 32) 0 s.cycle
  | _ =>
    let as := (s.entriesOf e.region e.col).flatMap (fun x => if x.kind = 2 ∧ x.id < e.id ∧ e.id ≤ x.id + 2 then x.addrs else [])
    accessMessage 2 h 0 m e.id (as.headD e.pa) (10 + 32 * (cdiv as.length 4 - 1) + d % 2 ^ 64 * 2 ^ 32) as.length s.cycle

/-- A commit write leaves its hearth's bank: the message goes to the endpoint. LAST marks the last that its activation sends there. -/
def State.tellWrite (s : State) (h : Nat) (e : DamperEntry) : State :=
  if ownBank h e.pa || e.kind == 2 then s
  else
    let last := !(s.entriesOf e.region e.col).any (fun x => x.id != e.id && x.st != .sent && endpointAt x.pa == endpointAt e.pa)
    s.sendMessage (s.writeMessage h e last)

/-- An entry of a hearth's damper goes to its endpoint, which marks the granule prepared (R190, R338). -/
def State.sendEntry (s : State) (h : Nat) (e : DamperEntry) : State :=
  if s.maySend h e then
    ((s.drain h e).tellWrite h e).modDamper e.id (fun x => { x with st := .sent, sentAt := s.cycle })
  else s

/-- Send what the dampers may send of an activation in this cycle. -/
def State.sendEntries (s : State) (g c : Nat) : State :=
  s.hearths.foldl (fun s h =>
    ((h.2.damper.filter (fun e => e.region == g && e.col == c)).foldl (fun l e => insertEntry e l) []).foldl
      (fun s e => s.sendEntry h.1 e) s) s

/-- Every entry of an activation has been sent. -/
def State.allSent (s : State) (g c : Nat) : Bool := (s.entriesOf g c).all (fun e => e.st == .sent)

/-- The commit point: the activation's place in cm, the horizon, and the conflicts (R191). -/
def State.commitPoint (s : State) (g c : Nat) : State :=
  let x := s.colour g c
  let nr := (s.entriesOf g c).any (fun e => e.nr)
  let s := (s.modColour g c (fun y => { y with committed := true, preparing := false, oldest := [], settled := false, place := s.commits + 1 })).modHolder g
    (fun k => { k.noteNr x nr with horizon := max k.horizon x.ts })
  let s := s.mapEntries g c (fun e => { e with order := s.commits + 1 })
  ({ s with commits := s.commits + 1 } : State).abortReaders g c

/-! ### What takes effect after the writes -/

/-- TDKEEP or TDLD lets the users that wait for a recompute begin again (R134). -/
def State.applyTensor (s : State) (m t : Nat) (mask v : BitVec 512) : State :=
  let waits := match s.tidEntry m t with
    | some e => tdRp e && mask.getLsbD 454
    | none => false
  let s := s.writeTid m t mask v
  if waits then s.wakeUsers m t true else s

/-- A descriptor goes into the configuration of the activation's depth: the one in place or a covered one (R164). -/
def State.applyDescriptor (s : State) (g depth i : Nat) (v : BitVec 512) : State :=
  s.modRegion g (fun r =>
    if r.depth ≤ depth && r.st != .covering then { r with cfg := { r.cfg with cdx := Tab.set r.cfg.cdx i v } }
    else
      let j := r.calls.length - 1 - depth
      { r with calls := r.calls.mapIdx (fun k c => if k = j then { c with saved := { c.saved with cdx := Tab.set c.saved.cdx i v } } else c) })

/-- An injected strike (R350): value, and the die of the writing hearth. -/
def State.injectStrike (s : State) (d v : Nat) : State :=
  if !bit v 31 || bits v 22 21 != 0 || bits v 6 0 != 0 || 96 ≤ bits v 20 14 then s
  else
    let t := s.cycle + bits v 30 23
    { s with strikes := s.strikes ++ [{ h := hearthAt d (bits v 13 7) (bits v 20 14), s := t, r := t + Config.tstrike }] }

/-- A register write applies (R243, R25, R125). -/
def State.applyRegister (s : State) (g h reg v : Nat) : State :=
  let m := (s.region g).ctx
  let w := v % 2 ^ 32
  match reg with
  | 0x03 => s.modContext m (fun c => { c with rndDef := if 4 < v then 0 else v })
  | 0x04 => s.modContext m (fun c => { c with lfsrSeed := w })
  | 0x0C => s.modRegion g (fun r => { r with wdogLim := w })
  | 0x10 => s.injectStrike (dieOf h) w
  | 0x12 => s.modContext m (fun c => { c with kvThresh := w % 256 })
  | 0x16 => s.modContext m (fun c => { c with tidBase := w })
  | 0x17 => s.modContext m (fun c => { c with tidCnt := min v 4096 })
  | _ => if 0x40 ≤ reg then { s with pointers := Tab.set s.pointers (64 * dieOf h + (reg - 0x40)) (v % 2 ^ 48) } else s

/-- Apply one staged effect that is neither a queue's nor a SPAWN. -/
def State.applyStaged (s : State) (g c : Nat) (x : Staged) : State :=
  match x with
  | .tensor m t mask v => s.applyTensor m t mask v
  | .descriptor i v => s.applyDescriptor g (((s.region g).depthOf c)) i v
  | .register h _ reg v => s.applyRegister g h reg v
  | .priority m p => s.modContext m (fun y => y.setPrio s.cycle p)
  | .halt m => s.modContext m (fun y => if y.st == .halted then y else { y with halting := true })
  | .append _ _ _ _ => s
  | .tail _ _ _ _ => s
  | .spawn _ _ _ => s

/-- An append or tail advance: its rank among those of its activation (R275), its queue, and what it does. -/
def Staged.queueWork : Staged → Option ((Nat × Nat × Nat) × Nat × Bool × Nat)
  | .append q a h t => some ((0, t, h), q, true, a)
  | .tail q n h t => some ((1, t, h), q, false, n)
  | _ => none

/-- Insert queue work by its rank. -/
def insertWork (x : (Nat × Nat × Nat) × Nat × Bool × Nat) :
    List ((Nat × Nat × Nat) × Nat × Bool × Nat) → List ((Nat × Nat × Nat) × Nat × Bool × Nat)
  | [] => [x]
  | y :: t =>
    let a := x.1
    let b := y.1
    if a.1 < b.1 || (a.1 = b.1 && (a.2.1 < b.2.1 || (a.2.1 = b.2.1 && a.2.2 < b.2.2))) then x :: y :: t else y :: insertWork x t

/-- Is a SPAWN. -/
def Staged.isSpawn : Staged → Bool
  | .spawn _ _ _ => true
  | _ => false

/-- Everything staged but the SPAWNs takes effect; they stay staged. -/
def State.applyEffects (s : State) (g c : Nat) : State :=
  let xs := (s.colour g c).staged
  let s := s.modColour g c (fun y => { y with staged := y.staged.filter Staged.isSpawn })
  let s := xs.foldl (fun s x => s.applyStaged g c x) s
  ((xs.filterMap Staged.queueWork).foldl (fun l x => insertWork x l) []).foldl (fun s w => s.queueEffect w.2.1 w.2.2.1 w.2.2.2 g c) s

/-- The submission of a committed SPAWN (R260). -/
def State.spawned (s : State) (g c : Nat) (x : Staged) : Option Submission :=
  match x with
  | .spawn va after at' =>
    some { lra := va, ctx := (s.region g).ctx, cid := 0, pair := none, parent := (s.region g).kernel, after := after, at' := at'
           recompute := none, spawner := some (g, c) }
  | _ => none

/-- Release a CRET token, or discard it where its parent is gone (R88). -/
def releaseHold (r : Region) (c now : Nat) (x : Hold) : Option Hold :=
  if x.kind == .cret && x.col == c && !x.ready then
    let p := Tab.get {} r.cols x.tok.col
    if p.st == .live && p.ser == x.pser then some { x with ready := true, due := now } else none
  else some x

/-- A node's holds after the commit of c. -/
def NodeState.release' (x : NodeState) (r : Region) (c now : Nat) : NodeState := { x with holds := x.holds.filterMap (releaseHold r c now) }

/-- The nodes of a slot, those in planes among them. -/
def SlotState.allNodes (x : SlotState) : Tab NodeState := x.cfg.nodes ++ x.planes.flatMap (fun p => p.cfg.nodes)

/-- CRET tokens of c whose parent is gone: hearth, node, and the wave of their firing. -/
def State.orphans (s : State) (g c : Nat) : List (Nat × Nat × Nat) :=
  let r := s.region g
  let find := fun (h : Nat) (x : SlotState) =>
    x.allNodes.flatMap (fun n => (n.2.holds.filter (fun y => (releaseHold r c s.cycle y).isNone)).map (fun y => (h, n.1, y.wave)))
  s.slots.flatMap (fun e => if e.2.region == some g then find (e.1 / 4) e.2 else []) ++ r.image.flatMap (fun e => find e.1 e.2)

/-- Nodes of the region's slot that hold a CRET token of c. -/
def State.returners (s : State) (g c : Nat) : List (Nat × Nat) :=
  s.slots.flatMap (fun e =>
    if e.2.region == some g then
      e.2.cfg.nodes.filterMap (fun n => if n.2.holds.any (fun x => x.kind == .cret && x.col == c) then some (e.1 / 4, n.1) else none)
    else [])

/-- CRET tokens of c are released, also where they lie in planes and images (R88). -/
def State.releaseReturns (s : State) (g c : Nat) : State :=
  let r := s.region g
  let lost := s.orphans g c
  let back := s.returners g c
  let go := fun (x : SlotState) => x.mapNodes (fun n => n.release' r c s.cycle)
  let s : State := { s with slots := s.slots.map (fun e => if e.2.region == some g then (e.1, go e.2) else e) }
  let s := s.modRegion g (fun r => { r with image := r.image.map (fun e => (e.1, go e.2)) })
  let s := s.push (back.map (fun x => .event .deferredTokenSend (.node x.1 r.slot x.2)))
  lost.foldl (fun s x => s.nodeFault g x.1 r.slot x.2.1 c x.2.2 faultPcount 0) s

/-- What a node counts under a colour ends with it. -/
def NodeState.forget (x : NodeState) (c : Nat) : NodeState :=
  { x with elems := x.elems.filter (fun e => e.1 != c), passes := x.passes.filter (fun e => e.1 != c) }

/-- A colour becomes Free (R64, R342, R343). -/
def State.freeColour (s : State) (g c : Nat) : State :=
  let s := (s.dropWaves g [c]).dropChains g c (fun _ => false)
  let s : State := { s with slots := s.slots.map (fun e => if e.2.region == some g then (e.1, e.2.mapNodes (fun n => n.forget c)) else e) }
  s.modRegion g (fun r =>
    let left := r.untracked.map (fun l => l.filter (fun x => x != c))
    { r with cols := Tab.set r.cols c {}, senders := r.senders.filter (fun e => e.col != c)
             untracked := if left == some [] then none else left
             slow := r.slow.filter (fun x => x.1 != c) })

/-- Sent T3 writes of a commit that is otherwise over: the kernel waits for their acknowledgement (R198). -/
def State.orphanWrites (s : State) (g c : Nat) : State :=
  let n := (s.entriesOf g c).length
  if n = 0 then s
  else
    let s := s.modHolder g (fun k => { k with t3Pending := k.t3Pending + n })
    { s with hearths := s.hearths.map (fun h => (h.1, { h.2 with damper := h.2.damper.map (fun e =>
        if e.region = g ∧ e.col = c then { e with col := 4096 } else e) })) }

/-- The commit ends: flags and counters merge, taint raises the verdict, CRET tokens leave, and the colour is Free. -/
def State.endCommit (s : State) (g c : Nat) : State :=
  let x := s.colour g c
  let s := s.modHolder g (fun k => let k := k.merge x
    if x.taint then { k with verdict := 2 } else k)
  let s := s.modRegion g (fun r => { r with calls := r.calls.map (fun y => if y.col = c then { y with done := true } else y) })
  ((s.orphanWrites g c).releaseReturns g c).freeColour g c

/-! ### The commit -/

/-- A write to T0, T1 or T2 has not been applied. -/
def State.writesLeft (s : State) (g c : Nat) : Bool :=
  (s.entriesOf g c).any (fun e => tierOf (forwardAddr s.forwards e.pa) != some .t3)

/-- Two staged effects act on the same thing: an identifier, a descriptor, a register, a context, a queue. -/
def Staged.meets (a : Staged) (ga : Nat) (b : Staged) (gb : Nat) : Bool :=
  match a, b with
  | .tensor m t _ _, .tensor m' t' _ _ => m == m' && t == t'
  | .descriptor i _, .descriptor j _ => ga == gb && i == j
  | .register _ _ r _, .register _ _ r' _ => r == r'
  | .priority m _, .priority m' _ => m == m'
  | .halt m, .halt m' => m == m'
  | .append q _ _ _, .append q' _ _ _ => q == q'
  | .append q _ _ _, .tail q' _ _ _ => q == q'
  | .tail q _ _ _, .append q' _ _ _ => q == q'
  | .tail q _ _ _, .tail q' _ _ _ => q == q'
  | _, _ => false

/-- An earlier commit's effect on the same thing has not been made: effects on one thing follow in cm order (R127, R243, R294;
DEDUCED, log 128). -/
def State.effectsWait (s : State) (g c : Nat) : Bool :=
  let x := s.colour g c
  !x.staged.isEmpty && s.regions.any (fun r => r.2.cols.any (fun y =>
    y.2.committed && decide (y.2.place < x.place) && y.2.staged.any (fun b => x.staged.any (fun a => a.meets g b r.1))))

/-- The apply phase, as far as it goes in this cycle (R190). -/
def State.applyPhase (s : State) (g c : Nat) : State :=
  let s := s.applySent g c
  if s.writesLeft g c || s.spawnWaits g c || s.effectsWait g c then s
  else
    let s := s.applyEffects g c
    match (s.colour g c).staged with
    | x :: t =>
      match s.spawned g c x with
      | some a =>
        if s.journalRoom then
          (s.modColour g c (fun y => { y with staged := t })).push [.event (.kernelAccept a) .module, .event .activationCommit (.colour g c)]
        else s
      | none => s
    | [] => if s.queueWaits g c then s else s.endCommit g c

/-- The check of a compare-and-swap lane waits for the writes of earlier commits to its granule. -/
def State.acasWaits (s : State) (g c : Nat) : Bool :=
  (s.entriesOf g c).any (fun e => e.kind == 1 && e.data.toNat % 16 == 8 && s.writesBefore e (s.commits + 1))

/-- Prepare: a failed compare-and-swap aborts the activation; otherwise its entries are sent, and once all are the commit point is
taken and the apply phase begins. -/
def State.prepare (s : State) (g c : Nat) : State :=
  if s.acasWaits g c then s
  else if acasFails (entryGroups (s.entriesOf g c)) s then s.purge g [c] true false
  else
    let s := (s.modColour g c (fun y => { y with preparing := true })).sendEntries g c
    if s.allSent g c then (s.commitPoint g c).applyPhase g c else s

/-- An activation that may no longer commit before its commit point takes its entries back: DEDUCED (log 101). -/
def State.retreat (s : State) (g c : Nat) : State :=
  (s.modColour g c (fun y => { y with preparing := false })).mapEntries g c (fun e => { e with st := if e.inLog then .logged else .eligible })

/-- `ACTIVATION_COMMIT`, R190. -/
def execActivationCommit (s : State) : Host.Outcome State Fault Refusal :=
  match s.cur with
  | .colour g c =>
    .next (if (s.colour g c).committed then s.applyPhase g c
      else if s.mayCommit g c then s.prepare g c
      else if (s.colour g c).preparing then s.retreat g c else s)
  | _ => .fault .misplaced

/-! ### Damper entries (R338, R340) -/

/-- An entry of a hearth's damper. -/
def State.damperEntry (s : State) (h id : Nat) : Option DamperEntry := (s.hearth h).damper.find? (fun e => e.id == id)

/-- Bytes that one entry takes in the commit log. -/
def logBytes : Nat := 46

/-- The commit log of a region has room for one more entry (R340). -/
def State.logRoom (s : State) (g : Nat) : Bool :=
  let r := s.region g
  let n := s.hearths.foldl (fun a h => a + (h.2.damper.filter (fun e => e.region == g && e.inLog)).length) 0
  let runs := (r.runs true).foldl (fun a x => a + x.2) 0
  decide ((n + 1) * logBytes + runs ≤ s.ovsz g)

/-- An entry moves on: Held to Eligible at its age of 128, Eligible to Logged in oldest-only mode. -/
def State.advanceEntry (s : State) (h : Nat) (e : DamperEntry) : State :=
  match e.st with
  | .held => if e.born + Config.tstrike ≤ s.cycle then s.modDamper e.id (fun x => { x with st := .eligible }) else s
  | .eligible => if (s.colour e.region e.col).oldest.contains h && s.logRoom e.region then s.modDamper e.id (fun x => { x with st := .logged, inLog := true }) else s
  | _ => s

/-- `DAMPER_ENTRY_ELIGIBLE`, R338. -/
def execDamperEntryEligible (s : State) : Host.Outcome State Fault Refusal :=
  match s.cur with
  | .entry h id =>
    .next (match s.damperEntry h id with
      | some e => s.advanceEntry h e
      | none => s)
  | _ => .fault .misplaced

/-! ### Commit writes that fail (R346) -/

/-- The kernel of an entry's region. -/
def State.taintHolder (s : State) (g : Nat) : State := s.modHolder g (fun k => { k with verdict := 2 })

/-- A granule of a bank, T1 or T2 is marked poisoned; T3 keeps no poison bit (R345). -/
def State.poisonAt (s : State) (granule : Nat) : State :=
  if tierOf (64 * granule) == some .t3 then s else { s with poison := insertRising s.poison granule }

/-- The granules of an entry are marked poisoned. -/
def State.poisonGranule (s : State) (e : DamperEntry) : State := (s.granulesOf e).foldl State.poisonAt s

/-- Remove one occurrence of a number. -/
def dropOne (x : Nat) : List Nat → List Nat
  | [] => []
  | y :: t => if y = x then t else y :: dropOne x t

/-- The write is sent again, in this cycle or in the first that has room for it (R339). -/
def State.resend (s : State) (h : Nat) (e : DamperEntry) (add : Nat) : State :=
  if s.drainRoom h e then
    { ((s.drain h e).tellWrite h e).modDamper e.id (fun x => { x with resent := x.resent + add, sentAt := s.cycle, again := 0 }) with unacked := dropOne e.id s.unacked }
  else s.modDamper e.id (fun x => { x with again := add, sentAt := s.cycle })

/-- Resends that waited for room go on. -/
def State.goOnResends (s : State) : State :=
  s.hearths.foldl (fun s h => (h.2.damper.filter (fun e => e.again != 0)).foldl (fun s e => s.resend h.1 e e.again) s) s

/-- An earlier write of the entry's granules has not been applied: its own activation's, or an earlier commit's (R338, MCA). -/
def State.standsBehind (s : State) (e : DamperEntry) : Bool :=
  s.writesBefore e e.order ||
  (s.entriesOf e.region e.col).any (fun x => x.order == e.order && decide (x.id < e.id) &&
    (s.granulesOf x).any (fun m => (s.granulesOf e).contains m))

/-- An endpoint refuses a commit write: it is sent again, and after the third refusal it is written and poisoned, in its place in the
order (DEDUCED, log 130). -/
def State.refuse (s : State) (h : Nat) (e : DamperEntry) : State :=
  if e.resent % 4 < 2 then s.resend h e 1
  else if s.standsBehind e then
    ({ s with unacked := dropOne e.id s.unacked }.modDamper e.id (fun x => { x with tnt := true })).taintHolder e.region
  else
    let g := ((entryGroups (s.entriesOf e.region e.col)).find? (fun g => g.any (fun y => y.id == e.id))).getD [e]
    let x := s.applyGroup g
    let s := x.1.modHolder e.region (fun k => { k with flagsK := k.flagsK ||| x.2 })
    g.foldl (fun s y => s.settleT3 y) (((s.poisonGranule e).freeEntries (g.map (fun y => y.id))).taintHolder e.region)

/-- `COMMIT_WRITE_REFUSED`, R346. -/
def execCommitWriteRefused (s : State) : Host.Outcome State Fault Refusal :=
  match s.cur with
  | .entry h id =>
    .next (match s.damperEntry h id with
      | some e => if e.order != 0 then s.refuse h e else s
      | none => s)
  | _ => .fault .misplaced

/-- A commit write is lost: UNCORR with structure 4 (R347). -/
def State.loseWrite (s : State) (h : Nat) (e : DamperEntry) : State :=
  let f : FaultRecord :=
    { cause := faultUncorr, die := dieOf h, x := colOf h, y := rowOf h, ctx := (s.region e.region).ctx, slot := e.slot
      col := e.col % 4096, detail := 4 + 2 ^ 64 * (forwardAddr s.forwards e.pa / 64 * 64), cycle := s.cycle }
  let s := (((s.poisonGranule e).freeEntries [e.id]).taintHolder e.region).settleT3 e
  match (s.region e.region).kernel with
  | some k => s.kernelFault k f
  | none => s

/-- `COMMIT_WRITE_TIMEOUT`, R346: the write is sent once more, and is then lost. -/
def execCommitWriteTimeout (s : State) : Host.Outcome State Fault Refusal :=
  match s.cur with
  | .entry h id =>
    .next (match s.damperEntry h id with
      | some e =>
        if e.order != 0 && decide (e.sentAt + Config.requestTimeout ≤ s.cycle) then
          if e.resent / 4 = 0 then s.resend h e 4 else s.loseWrite h e
        else s
      | none => s)
  | _ => .fault .misplaced

/-- The writes to T3 that freed colours of a region left behind are tried again. -/
def State.retryT3 (s : State) (g : Nat) : State := s.applySent g 4096

/-! ### The end of a purge and the reissue (R76, R77) -/

/-- A message that the region sent before the purge is still on its way. -/
def State.sentBefore (s : State) (g id : Nat) : Bool := s.messages.any (fun m => m.2.source == some g && decide (m.1 < id))

/-- `PURGE_COMPLETE`, R76. -/
def execPurgeComplete (s : State) : Host.Outcome State Fault Refusal :=
  match s.cur with
  | .colour g c =>
    .next (let x := s.colour g c
      if x.st == .purging && !s.sentBefore g x.purgedAt then s.freeColour g c else s)
  | _ => .fault .misplaced

/-- What a reissue allocates: the purged entry's own fields (R77). -/
def Reissue.want (x : Reissue) : Colour :=
  let c := x.entry
  { wid := c.wid, ts := c.ts, pcol := c.pcol, pwave := c.pwave, sx := c.sx, sy := c.sy, snode := c.snode, km1 := c.km1, vm1 := c.vm1
    depth := c.depth, pser := c.pser, copy := c.copy, copyRec := c.copyRec, group := c.group, origin := c.origin }

/-- Forget a reissue that is made, and count it (R257); a drain that runs notes it (R308). -/
def State.reissued (s : State) (g id : Nat) : State :=
  (s.modRegion g (fun r => { r with reissues := r.reissues.filter (fun x => x.id != id)
                                    drain := r.drain.map (fun d => { d with reissued := true }) })).modHolder g
    (fun k => { k with reissued := satAdd k.reissued 1 })

/-- The call that waits for the reissue of its colour (R230), with its place among the calls. -/
def Region.callAgain (r : Region) (x : Reissue) : Option (Nat × Call) :=
  (r.calls.mapIdx (fun i c => (i, c))).find? (fun c => c.2.again == some x.id)

/-- Nodes of the callee in place begin anew: node state, queues and ordering buffer are cleared (R230). -/
def State.clearCallee (s : State) (g : Nat) : State :=
  let r := s.region g
  let s := r.hearths.foldl (fun s h => s.modSlot h r.slot (fun x => { x with cfg := x.cfg.cleared })) s
  { s with flights := s.flights.filter (fun f => f.2.region != g) }

/-- Reissue a call colour: before the cover it only takes a fresh colour; under a running callee the argument enters again
at a boundary. -/
def State.reissueCall (s : State) (g : Nat) (x : Reissue) (i : Nat) (c : Call) (n : Nat) (rg : Region) : State :=
  let s := s.setRegion g { rg with calls := rg.calls.mapIdx (fun j y => if j = i then { c with col := n, again := none, result := none } else y) }
  let s := (s.modColour g n (fun y => { y with copy := x.entry.copy.map (fun t => { t with col := n }) })).reissued g x.id
  if rg.calls.length - i ≤ rg.depth then
    match x.entry.copy with
    | some t => (s.clearCallee g).startEntry g c.ex c.ey c.enode { t with col := n }
    | none => s
  else s

/-- Reissue any other colour: its copy leaves the allocating node again, or the group starts anew. -/
def State.reissueToken (s : State) (g : Nat) (x : Reissue) (n : Nat) (rg : Region) : State :=
  let s := (s.setRegion g rg).reissued g x.id
  match x.entry.copy with
  | none => s
  | some t =>
    let t := { t with col := n }
    let s := s.modColour g n (fun y => { y with copy := some t })
    if x.entry.group.isSome then s.sendStarts g t
    else match x.entry.copyRec with
      | some r => (s.modColour g n (fun y => y.inPipe (s.cycle + 2))).sendAll g (hearthAt rg.die x.entry.sx x.entry.sy) rg.slot x.entry.snode r false (s.cycle + 2) t
      | none => s

/-- A call colour's turn has come: its call is not yet covered, or its callee stands and a boundary is here. -/
def State.callTurn (s : State) (g i : Nat) : Bool :=
  let r := s.region g
  if r.calls.length - i ≤ r.depth then r.calls.length - i == r.depth && r.st == .running && r.residence == .resident && s.boundary else true

/-- Another colour's turn has come: its configuration is in place and runs, and its token finds room. -/
def State.tokenTurn (s : State) (g : Nat) (x : Reissue) : Bool :=
  let r := s.region g
  s.firing g && r.depth == x.entry.depth &&
  (match x.entry.copyRec with
   | some rc => x.entry.group.isSome || s.roomAll (s.bothTargets g (hearthAt r.die x.entry.sx x.entry.sy) r.slot x.entry.snode rc)
   | none => true)

/-- A reissue whose frame run fits nowhere (R64, R67): COLEXH at the allocating node under the allocating firing's tag, or, for a
group colour, at the region's origin and node 0. It is not made (log 95). -/
def State.exhaustReissue (s : State) (g : Nat) (x : Reissue) : State :=
  let r := s.region g
  let c := x.entry
  let f := if c.group.isSome then nodeRecord s g r.origin r.slot 0 0 0 faultColExh 0
    else nodeRecord s g (hearthAt r.die c.sx c.sy) r.slot c.snode c.pcol c.pwave faultColExh 0
  let s := (s.breakGroups g c.origin.toList).modRegion g (fun r => { r with reissues := r.reissues.filter (fun y => y.id != x.id) })
  match r.kernel with
  | none => s
  | some e => s.kernelFault e f

/-- Make one reissue if its turn has come and a colour can be had. In the cycle of a strike report none is made: its purge takes the
whole of that cycle's firings (R341). -/
def State.tryReissue (s : State) (g : Nat) (x : Reissue) : Option State :=
  let r := s.region g
  let call := r.callAgain x
  if !s.reports.isEmpty || !(match call with
    | some (i, _) => s.callTurn g i
    | none => s.tokenTurn g x) then none
  else match r.allocate (s.ovsz g) x.want x.entry.group.isSome with
    | .granted n rg => some (match call with
      | some (i, c) => s.reissueCall g x i c n rg
      | none => s.reissueToken g x n rg)
    | .exhausted => some (s.exhaustReissue g x)
    | .wait => none

/-- `REISSUE`, R77. -/
def execReissue (s : State) : Host.Outcome State Fault Refusal :=
  match s.cur with
  | .region g =>
    .next (match (s.region g).reissues.findSome? (s.tryReissue g) with
      | some t => t
      | none => s)
  | _ => .fault .misplaced

end Sys2Proof.Machine
end

