-- ==== Sys2Proof/Machine/Strike.lean ====
section
/-! DEFINITION. Strikes and errors (chapter 19): strike reports (R341), the scrub that follows (R344), purge notices and sender
tables (R342, R343), uncorrectable errors (R346, R347); and the fault messages of withheld accesses (R168, R198, R279). -/

namespace Sys2Proof.Machine

/-! ### Strike reports (R341, R344) -/

/-- The square of a struck hearth, clipped to its die. -/
def squareOf (h : Nat) : List Nat :=
  let x := colOf h
  let y := rowOf h
  (List.range 5).flatMap (fun j => (List.range 5).filterMap (fun i =>
    if 2 ≤ x + i && x + i < 130 && 2 ≤ y + j && y + j < 98 then some (hearthAt (dieOf h) (x + i - 2) (y + j - 2)) else none))

/-- The activation had a firing or a contraction step in the square within the window of a strike in cycle t. -/
def Colour.struck (c : Colour) (square : List Nat) (t : Nat) : Bool :=
  c.active && !c.committed && c.fired.any (fun f => square.contains f.1 && decide (t ≤ f.2 + Config.tstrike))

/-- The colours of a region that a strike purges. -/
def Region.struck (r : Region) (square : List Nat) (t : Nat) : List Nat :=
  (r.cols.filter (fun c => c.2.struck square t)).map (fun c => c.1)

/-- A purge set touches a record of an untracked region (R343). -/
def Region.recordHit (r : Region) (cs : List Nat) : Bool := r.untracked.isSome && r.senders.any (fun e => cs.contains e.col)

/-- Purge what a strike hit in one region. -/
def State.strikeRegion (s : State) (square : List Nat) (t g : Nat) : State :=
  let cs := (s.region g).struck square t
  if cs.isEmpty then s
  else if (s.region g).recordHit cs then s.rollback g
  else s.purgeCorrected g cs

/-- Activations that are Live or Ended. -/
def State.activations (s : State) : Nat := s.regions.foldl (fun a r => a + (r.2.cols.filter (fun c => c.2.active)).length) 0

/-- KIND 4: a strike is reported; it leaves at once (R349). -/
def State.strikeMessage (s : State) (h t r n : Nat) : State :=
  s.message (4 + 2 ^ 64 * dieOf h + 2 ^ 72 * colOf h + 2 ^ 80 * rowOf h + 2 ^ 128 * (t % 2 ^ 64) + 2 ^ 192 * (r % 2 ^ 64) +
    2 ^ 256 * min n 0xFFFFFFFF) none none

/-- The scrub of a square finds the words that are uncorrectable there: each is counted in its hearth and handled. -/
def State.scrub (s : State) (square : List Nat) : State :=
  let bad := s.badWords.filter (fun w => square.contains w.1)
  let s := { s with badWords := s.badWords.filter (fun w => !square.contains w.1) }
  let s := bad.foldl (fun s w => s.modHearth w.1 (fun x => { x with uncorrectable := satAdd x.uncorrectable 1 })) s
  s.push (bad.map (fun w => .event (.uncorrectableError w.2) .module))

/-- Purge every activation that a strike may have disturbed, and answer how many there were. -/
def State.strikePurge (s : State) (h t : Nat) : State × Nat :=
  let r := (s.regions.map (fun r => r.1)).foldl (fun s g => s.strikeRegion (squareOf h) t g) s
  (r, s.activations - r.activations)

/-- A strike at hearth h in cycle t is reported now. -/
def State.reportStrike (s : State) (h t : Nat) : State :=
  let r := s.strikePurge h t
  let s := { r.1 with strikeStrk := min 0xFFFF (r.1.strikeStrk + 1), reports := r.1.reports ++ [(h, t, r.2)] }
  (s.modHearth h (fun x => { x with strikes := satAdd x.strikes 1 })).scrub (squareOf h)

/-- The cycle of a report ends: what fired in the square in that cycle is purged too (R341), and the report leaves. -/
def State.closeStrike (s : State) (x : Nat × Nat × Nat) : State :=
  let r := s.strikePurge x.1 x.2.1
  r.1.strikeMessage x.1 x.2.1 s.cycle (x.2.2 + r.2)

/-- The end of the cycle's strike reports. -/
def State.closeStrikes (s : State) : State :=
  if s.reports.isEmpty then s else s.reports.foldl State.closeStrike { s with reports := [] }

/-- Remove the first strike of a list that is the one reported. -/
def dropStrike (h t : Nat) : List Strike → List Strike
  | [] => []
  | x :: l => if x.h = h ∧ x.s = t then l else x :: dropStrike h t l

/-- `STRIKE_REPORT`, R341: a strike that is due, or one that its sensor reports within the window. -/
def execStrikeReport (s : State) : Host.Outcome State Fault Refusal :=
  match s.cur with
  | .strike h t =>
    .next (match s.strikes.find? (fun x => x.h == h && x.s == t) with
      | some x => if x.r ≤ s.cycle then ({ s with strikes := dropStrike h t s.strikes }).reportStrike h t else s
      | none => if t ≤ s.cycle ∧ s.cycle ≤ t + Config.tstrike then s.reportStrike h t else s)
  | _ => .fault .misplaced

/-! ### Purge notices (R342, R343) -/

/-- Colours that received from the purged one. -/
def Region.receivers (r : Region) (src c : Nat) : List Nat :=
  ((r.senders.filter (fun e => e.region == src && e.scol == c)).map (fun e => e.col)).foldl insertRising []

/-- A region takes a notice. -/
def State.takeNotice (s : State) (g : Nat) (n : PurgeNotice) : State :=
  let r := s.region g
  if r.untracked.isSome then s.rollback g
  else if n.corrects then s.purgeCorrected g (r.receivers n.source n.col)
  else s.purge g (r.receivers n.source n.col) true false

/-- Remove the first notice that has come from a colour. -/
def dropNotice (src c now : Nat) : List PurgeNotice → List PurgeNotice
  | [] => []
  | n :: t => if n.source = src ∧ n.col = c ∧ n.arrive ≤ now then t else n :: dropNotice src c now t

/-- `PURGE_NOTICE`, R342. -/
def execPurgeNotice (s : State) : Host.Outcome State Fault Refusal :=
  match s.cur with
  | .notice g src c =>
    .next (match (s.region g).notices.find? (fun n => n.source == src && n.col == c && decide (n.arrive ≤ s.cycle)) with
      | some n => (s.modRegion g (fun r => { r with notices := dropNotice src c s.cycle r.notices })).takeNotice g n
      | none => s)
  | _ => .fault .misplaced

/-! ### Uncorrectable errors (R346, R347) -/

/-- UNCORR for a structure of a hearth: the kernel faults and the region becomes Unbound. -/
def State.loseStructure (s : State) (h k n code : Nat) : State :=
  match (s.slot h k).region with
  | none => s
  | some g =>
    let f := nodeRecord s g h k n 0 0 faultUncorr code
    let s := match (s.region g).kernel with
      | some e => s.kernelFault e f
      | none => s
    s.loseRegions [g] false

/-- The colour that ACOL holds in a hearth's live accumulator file, with its region. -/
def State.accOwner (s : State) (h : Nat) : Option (Nat × Nat) :=
  match ((s.hearth h).accs.find? (fun e => e.2.place == .live)).bind (fun e => e.2.acol) with
  | none => none
  | some (k, c) => (s.slot h k).region.map (fun g => (g, c))

/-- Roll back the region of a slot. -/
def State.rollbackSlot (s : State) (h k : Nat) : State := match (s.slot h k).region with
  | some g => s.rollback g
  | none => s

/-- An access of an entry meets an error: it is retried in the next cycle, at most three times, and then the entry ends with POISON
(Table 19-3). -/
def CurrentEntry.disturbed (c : CurrentEntry) (now : Nat) : CurrentEntry :=
  let n := if c.retried.1 = (c.progress, c.off) then c.retried.2 + 1 else 1
  let c := { c with retried := ((c.progress, c.off), n) }
  if n ≤ 3 then { c with busyUntil := max c.busyUntil (now + 1) } else { c with poison := true }

/-- The same at a queue: the error meets its entry's access, or the read of an entry or of NEXT (log 127). -/
def Queue.disturbed (u : Queue) (now : Nat) : Queue :=
  match u.cur with
  | some c => { u with cur := some (c.disturbed now) }
  | none => { u with errors := u.errors + 1, again := max u.again (now + 1) }

/-- What an error does where it is found. -/
def State.handleError (s : State) : ErrorSite → State
  | .token h k c => match (s.slot h k).region with
    | some g => s.purgeCorrected g [c]
    | none => s
  | .damper h id => match s.damperEntry h id with
    | some e => if e.order != 0 then s else s.purgeCorrected e.region [e.col]
    | none => s
  | .accumulator h _ => match s.accOwner h with
    | some (g, c) => s.purgeCorrected g [c]
    | none => s
  | .plane h k => s.rollbackSlot h k
  | .colour g _ => s.rollback g
  | .nodeStore h k n => s.loseStructure h k n 1
  | .switchTable h k => s.loseStructure h k 0 2
  | .bindings h k => s.loseStructure h k 0 3
  | .granule a => match s.slotsAt (a / 64), s.tableAt (a / 64) with
    | some (g, c), _ => s.purgeCorrected g [c]
    | none, some g => s.rollback g
    | none, none => s.poisonAt (a / 64)
  | .reply h k id noise => match s.request h k id with
    | some q => s.setRequest h k { q with noise := noise }
    | none => s
  | .engine q => s.modQueue q (fun u => u.disturbed s.cycle)
  | .distributor d => s.fenceDie d

/-- `UNCORRECTABLE_ERROR`, R346. -/
def execUncorrectableError (w : ErrorSite) (s : State) : Host.Outcome State Fault Refusal :=
  match s.cur with
  | .module => .next (s.handleError w)
  | _ => .fault .misplaced

/-! ### Fault messages (R168, R198, R279) -/

/-- A withheld access is reported in this cycle: the window has passed, and it waits for a RESUME. -/
def WithheldAccess.due (w : WithheldAccess) (now : Nat) : Bool :=
  !w.sent && !w.resumed && w.recompute.isNone && decide (w.found + Config.tstrike ≤ now)

/-- The fault record of a node's withheld access. -/
def State.withheldRecord (s : State) (g h k n : Nat) (w : WithheldAccess) : FaultRecord :=
  { nodeRecord s g h k n w.col w.wave faultAccess w.detail with elem := w.elem, addr := w.addr, cycle := w.found }

/-- A node's message. -/
def State.nodeMessage (s : State) (g h k n : Nat) (w : WithheldAccess) : State :=
  let x := match (s.region g).kernel with
    | some e => (s.kernel e).rtag
    | none => 0
  let p := match (s.region g).kernel with
    | some e => (s.kernel e).pair
    | none => none
  (s.modNode h k n (fun v => { v with withheld := some { w with sent := true } })).faultMessage 0xFFFF x (s.withheldRecord g h k n w) p
    (some (s.region g).ctx)

/-- The fault record of a queue's withheld access (R279). -/
def State.queueRecord (s : State) (q : Nat) (w : WithheldAccess) : FaultRecord :=
  { cause := faultAccess, die := q / 128, x := 0xFF, y := q / 16 % 8, ctx := (s.queue q).ctx, slot := 0, node := q % 16
    elem := w.elem, addr := w.addr, detail := w.detail, cycle := w.found }

/-- The RTAG of the kernel that owns a queue's entry, from the entry's header; 0 where it has not been read (R365). -/
def Queue.ownerTag (u : Queue) : Nat := match u.cur with
  | some c => (decodeHeader c.image).rtag.toNat
  | none => 0

/-- The RTAG of the kernel whose append waits for a link write. -/
def State.appendTag (s : State) (u : Queue) : Nat := match u.blocked with
  | x :: _ => match (s.region x.2.2.1).kernel with
    | some e => (s.kernel e).rtag
    | none => 0
  | [] => 0

/-- A queue's messages: for the entry at hand and for a link write (R275). -/
def State.queueMessage (s : State) (q : Nat) : State :=
  let u := s.queue q
  let send := fun (s : State) (w : WithheldAccess) (tag : Nat) => s.faultMessage q tag (s.queueRecord q w) none (some u.ctx)
  let s := match u.withheld with
    | some w => if w.due s.cycle then send (s.modQueue q (fun u => { u with withheld := some { w with sent := true } })) w u.ownerTag else s
    | none => s
  match u.linkFault with
  | some w => if w.due s.cycle then send (s.modQueue q (fun u => { u with linkFault := some { w with sent := true } })) w (s.appendTag u) else s
  | none => s

/-- `FAULT_MESSAGE_SEND`, R198. -/
def execFaultMessageSend (s : State) : Host.Outcome State Fault Refusal :=
  match s.cur with
  | .node h k n =>
    .next (match (s.slot h k).region, (s.node h k n).withheld with
      | some g, some w => if w.due s.cycle then s.nodeMessage g h k n w else s
      | _, _ => s)
  | .queue q => .next (s.queueMessage q)
  | _ => .fault .misplaced

end Sys2Proof.Machine
end

