-- ==== Sys2Proof/Machine/Engine.lean ====
section
/-! DEFINITION. The data commands of the copy and gather engines (R280 to R286) and the general commands of every engine
(R287 to R292). -/

namespace Sys2Proof.Machine

/-! ### What bodies share (R280) -/

/-- An address whose bits 63:55 are zero. -/
def addressOk (a : BitVec 64) : Bool := decide (a.toNat < 2 ^ 55)

/-- An address of words. -/
def wordAddress (a : BitVec 64) : Bool := addressOk a && a.toNat % 4 == 0

/-- A length of COPY, FILL, SEND and RECV. -/
def lengthOk (n : BitVec 64) : Bool := n.toNat % 4 == 0 && decide (4 ≤ n.toNat) && decide (n.toNat ≤ 2 ^ 40)

/-- A WPC byte. -/
def wpcOk (w : BitVec 8) : Bool := !w.getLsbD 6

/-- Two ranges of bytes meet. -/
def rangesMeet (a n b m : Nat) : Bool := decide (a < b + m) && decide (b < a + n)

/-- The bytes of a range of `total` that the access at offset `i` covers: to the end of the granule of the address. -/
def chunkAt (a i total : Nat) : Nat := min (64 - (a + i) % 64) (total - i)

/-- A write pointer of the engine's die rises (R281). -/
def State.risePointer (s : State) (q : Nat) (wpc : BitVec 8) (n : Nat) : State :=
  if wpc.getLsbD 7 then { s with pointers := Tab.modify 0 s.pointers (64 * (q / 128) + wpc.toNat % 64) (fun x => (x + n) % 2 ^ 48) } else s

/-- An access went through, or the entry waits or is withheld at it. -/
def State.meet {α : Type} (s : State) (q : Nat) (x : Met α) (k : α → State) : State :=
  match x with
  | .ok y => k y
  | .wait a => s.waitOn q a
  | .denied c d a => s.withholdEntry q c d a

/-- One granule of an entry has been written. -/
def State.wroteGranule (s : State) (q n : Nat) (poison : Bool) : State :=
  (s.modEntry q (fun c => { c with progress := c.progress + n, poison := c.poison || poison })).countGranules q 1

/-- The status of an entry that has moved all its data. -/
def doneStatus (c : CurrentEntry) : Nat := if c.poison then stPoison else stOk

/-! ### COPY and FILL (R281) -/

/-- The body of a COPY: its ranges and its write pointer. -/
def copyCheck (b : XferBody) (_q _n : Nat) : Option Nat :=
  if b.stray || !wordAddress b.src || !wordAddress b.dst || !lengthOk b.len || !wpcOk b.wpc then some stBadArg
  else if b.wpc.getLsbD 7 && rangesMeet b.src.toNat b.len.toNat b.dst.toNat b.len.toNat then some stOvlp
  else none

/-- A write of the copy would reach source bytes that are still to be read. -/
def copyAhead (b : XferBody) : Bool := decide (b.src.toNat < b.dst.toNat) && decide (b.dst.toNat < b.src.toNat + b.len.toNat)

/-- Read a range granule by granule into a list of bytes with their poison. -/
def readTagged (m : Nat) : List (Nat × Nat) → State → Met (State × List (Byte × Bool))
  | [], s => .ok (s, [])
  | (a, n) :: t, s =>
    (s.engineRead m a n).bind (fun x =>
      (readTagged m t x.1).map (fun y => (y.1, x.2.1.map (fun b => (b, x.2.2)) ++ y.2)))

/-- A range of bytes with their poison. -/
def State.readRange (s : State) (m va n : Nat) : Met (State × List (Byte × Bool)) := readTagged m (pieces va n) s

/-- The bytes of a COPY's access at an offset: from what was read before, or from the source. -/
def State.copyBytes (s : State) (m : Nat) (c : CurrentEntry) (src i n : Nat) : Met (State × List (Byte × Bool)) :=
  if c.buffer.isEmpty then s.readRange m (src + i) n else .ok (s, (c.buffer.drop i).take n)

/-- Write bytes that carry poison granule by granule: a granule is poisoned by its own bytes only (R279, R345). -/
def writePieces (m : Nat) : List (Nat × Nat) → List (Byte × Bool) → State → Met State
  | [], _, s => .ok s
  | (a, n) :: t, bs, s =>
    (s.engineWrite m a ((bs.take n).map (fun x => x.1)) ((bs.take n).any (fun x => x.2))).bind (writePieces m t (bs.drop n))

/-- Write bytes that carry poison. -/
def State.writeTagged (s : State) (m va : Nat) (bs : List (Byte × Bool)) : Met State := writePieces m (pieces va bs.length) bs s

/-- One granule of a COPY. -/
def copyGo (b : XferBody) (s : State) (q : Nat) (c : CurrentEntry) : State :=
  let m := (s.queue q).ctx
  let len := b.len.toNat
  if len ≤ c.progress then s.finishEntry q (doneStatus c)
  else if copyAhead b && c.buffer.isEmpty then
    s.meet q (s.atLength (fun s => s.readRange m b.src.toNat len)) (fun x => x.1.modEntry q (fun c => { c with buffer := x.2 }))
  else
    let n := chunkAt b.dst.toNat c.progress len
    s.meet q (s.copyBytes m c b.src.toNat c.progress n) (fun x =>
      s.meet q (x.1.writeTagged m (b.dst.toNat + c.progress) x.2) (fun s =>
        (s.wroteGranule q n (x.2.any (fun y => y.2))).risePointer q b.wpc n))

/-- `COPY`, R281. -/
def execCopy (e : EntryHeader) (b : XferBody) (s : State) : Host.Outcome State Fault Refusal :=
  engineTurn 0x01 e (plainStart (copyCheck b)) (copyGo b) s

/-- The body of a FILL. -/
def fillCheck (b : XferBody) (_q _n : Nat) : Option Nat :=
  if b.stray || !wordAddress b.dst || !lengthOk b.len || !wpcOk b.wpc then some stBadArg else none

/-- One granule of a FILL. -/
def fillGo (b : XferBody) (s : State) (q : Nat) (c : CurrentEntry) : State :=
  let len := b.len.toNat
  if len ≤ c.progress then s.finishEntry q (doneStatus c)
  else
    let n := chunkAt b.dst.toNat c.progress len
    let bs := (List.replicate (n / 4) (leBytes 4 b.pat.toNat)).flatten
    s.meet q (s.engineWrite (s.queue q).ctx (b.dst.toNat + c.progress) bs false) (fun s =>
      (s.wroteGranule q n false).risePointer q b.wpc n)

/-- `FILL`, R281. -/
def execFill (e : EntryHeader) (b : XferBody) (s : State) : Host.Outcome State Fault Refusal :=
  engineTurn 0x04 e (plainStart (fillCheck b)) (fillGo b) s

/-! ### Tensors (R282 to R285) -/

/-- The order of a destination's dimensions: source element of destination element (x, y, z), by PCODE (R284). -/
def permSource (pcode : Nat) (x y z : Nat) : Nat × Nat × Nat :=
  match pcode with
  | 0 => (x, y, z)
  | 1 => (x, z, y)
  | 2 => (y, x, z)
  | 3 => (z, x, y)
  | 4 => (y, z, x)
  | _ => (z, y, x)

/-- The destination's extents of dimensions 2, 1 and 0 are those of the source indices placed there. -/
def extentsAgree (pcode src dst : Nat) : Bool :=
  let p := permSource pcode (tdExt2 dst) (tdExt1 dst) (tdExt0 dst)
  p == (tdExt2 src, tdExt1 src, tdExt0 src)

/-- Runs of storage that hold elements only: address, and bytes. -/
def elemRuns (e : Nat) : List (Nat × Nat) :=
  let w := elemWidth (tdFmt e)
  let run := fun (k i j n : Nat) => (elemAddr e k i j, cdiv (n * w) 8)
  let ks := List.range (tdExt2 e)
  let rows := List.range (tdExt1 e)
  let cols := List.range (tdExt0 e)
  let parts := fun (n : Nat) => (List.range (cdiv n 32)).map (fun b => (32 * b, min 32 (n - 32 * b)))
  match tdLay e with
  | 0 => ks.flatMap (fun k => rows.map (fun i => run k i 0 (tdExt0 e)))
  | 1 => ks.flatMap (fun k => cols.map (fun j => run k 0 j (tdExt1 e)))
  | 2 => ks.flatMap (fun k => rows.flatMap (fun i => (parts (tdExt0 e)).map (fun p => run k i p.1 p.2)))
  | 3 => ks.flatMap (fun k => cols.flatMap (fun j => (parts (tdExt1 e)).map (fun p => run k p.1 j p.2)))
  | _ => rows.flatMap (fun i => cols.flatMap (fun j => (parts (tdExt2 e)).map (fun p => run p.1 i j p.2)))

/-- The format has a scale plane (R130). -/
def hasScale (e : Nat) : Bool := tdFmt e == 8 || tdFmt e == 9

/-- Bytes of a scale plane. -/
def scaleBytes (e : Nat) : Nat := 2 * (tdExt2 e * cdiv (tdExt1 e) 32 * cdiv (tdExt0 e) 32)

/-- The bytes of a tensor's elements and of its scale plane. -/
def tensorRuns (e : Nat) : List (Nat × Nat) := elemRuns e ++ (if hasScale e then [(tdScb e, scaleBytes e)] else [])

/-- Some byte of one list of runs lies in another. -/
def runsMeet (a b : List (Nat × Nat)) : Bool := a.any (fun x => b.any (fun y => rangesMeet x.1 x.2 y.1 y.2))

/-- Some byte of one tensor's elements or scale plane lies in another's. -/
def tensorsMeet (a b : Nat) : Bool := runsMeet (tensorRuns a) (tensorRuns b)

/-- The exchange of a square tensor with itself (R283). -/
def inPlace (a b : Nat) : Bool :=
  tdBase a == tdBase b && tdScb a == tdScb b && tdFmt a == tdFmt b && tdStr1 a == tdStr1 b && tdRank a == 2 && tdRank b == 2 &&
  tdExt0 a == tdExt1 a && tdExt0 a % 32 == 0 &&
  ((tdLay a ≤ 1 && tdLay b ≤ 1) || (decide (2 ≤ tdLay a) && tdLay a ≤ 3 && 2 ≤ tdLay b && tdLay b ≤ 3)) && tdLay a != tdLay b

/-- What a pass of an engine begins with: the entry of an identifier, or the status that ends the command. -/
def State.passOf (s : State) (m t : Nat) : Except Nat Nat :=
  match s.tidEntry m t with
  | none => .error stBadTid
  | some e => if !tdValid e then .error stBadTid else .ok e

/-- A dropped source (R132): nothing, the status DROPPED, or a wait for its recompute. -/
def State.dropTest (s : State) (q m t e : Nat) (c : CurrentEntry) : State × Start :=
  if !tdD e then (s, .go c)
  else if tdProd e = 0 then (s, .fail stDropped)
  else ((s.beginRecompute m t e).waitRecompute q m t, .wait)

/-- The start of COPYT and PERM: both entries are read once (R128), checked against each other, and kept. -/
def tensorStart (agree ovlp : Nat → Nat → Bool) (b : TensorBody) (s : State) (q : Nat) (c : CurrentEntry) : State × Start :=
  let m := (s.queue q).ctx
  if b.stray || 4096 ≤ b.stid.toNat || 4096 ≤ b.dtid.toNat || 6 ≤ b.pcode.toNat then (s, .fail stBadArg)
  else match s.passOf m b.stid.toNat, s.passOf m b.dtid.toNat with
    | .ok x, .ok y =>
      if !agree x y then (s, .fail stBadArg)
      else if ovlp x y then (s, .fail stOvlp)
      else s.dropTest q m b.stid.toNat x { c with latch := [x, y] }
    | .error st, _ => (s, .fail st)
    | _, .error st => (s, .fail st)

/-- Runs in which a tensor is written, padding among them: how many, and the bits of each. -/
def writeRuns (e : Nat) : Nat × Nat :=
  let w := elemWidth (tdFmt e)
  let n0 := cdiv (tdExt0 e) 32
  let n1 := cdiv (tdExt1 e) 32
  match tdLay e with
  | 0 => (tdExt2 e * tdExt1 e, tdExt0 e * w)
  | 1 => (tdExt2 e * tdExt0 e, tdExt1 e * w)
  | 4 => (1, n1 * n0 * cdiv (tdExt2 e) 32 * (32 * 1024 * w))
  | _ => (1, tdExt2 e * n1 * n0 * (1024 * w))

/-- Bit offset from BASE of a run. -/
def runStart (e r : Nat) : Nat :=
  match tdLay e with
  | 0 => elemBit e (r / tdExt1 e) (r % tdExt1 e) 0
  | 1 => elemBit e (r / tdExt0 e) 0 (r % tdExt0 e)
  | _ => 0

/-- The element at bit `x` of a run; none in the padding of a unit. -/
def runElem (e r x : Nat) : Option (Nat × Nat × Nat) :=
  let w := elemWidth (tdFmt e)
  match tdLay e with
  | 0 => some (r / tdExt1 e, r % tdExt1 e, x / w)
  | 1 => some (r / tdExt0 e, x / w, r % tdExt0 e)
  | _ => elementAt e x

/-- Elements of `w` bits that bytes with poison hold from bit `b` on: bits, and whether some byte of the element is poisoned. -/
def elemsIn (w b n : Nat) (bs : List (Byte × Bool)) : List (Nat × Bool) :=
  let x := leNat (bs.map (fun y => y.1))
  (List.range n).map (fun i =>
    let lo := b + i * w
    (x >>> lo % 2 ^ w, ((bs.drop (lo / 8)).take ((lo + w - 1) / 8 - lo / 8 + 1)).any (fun y => y.2)))

/-- Read one element of a tensor: its bits and its poison. -/
def State.readElem (s : State) (m e : Nat) (p : Nat × Nat × Nat) : Met (State × Nat × Bool) :=
  let b := elemBit e p.1 p.2.1 p.2.2
  let w := elemWidth (tdFmt e)
  (s.readRange m (tdBase e + b / 8) (cdiv (b % 8 + w) 8)).map (fun x => (x.1, (elemsIn w (b % 8) 1 x.2).headD (0, false)))

/-- Read elements in order; padding is zero. -/
def readElems (m e : Nat) : List (Option (Nat × Nat × Nat)) → State → Met (State × List (Nat × Bool))
  | [], s => .ok (s, [])
  | none :: t, s => (readElems m e t s).map (fun y => (y.1, (0, false) :: y.2))
  | some i :: t, s => (s.readElem m e i).bind (fun x => (readElems m e t x.1).map (fun y => (y.1, x.2 :: y.2)))

/-- Elements packed from bit 0 up. -/
def packBits (w : Nat) : List Nat → Nat
  | [] => 0
  | x :: t => x % 2 ^ w + 2 ^ w * packBits w t

/-- The bytes of elements packed from bit 0 up, each with the poison of the elements that it holds. -/
def packTagged (w : Nat) (xs : List (Nat × Bool)) : List (Byte × Bool) :=
  let n := cdiv (xs.length * w) 8
  (leBytes n (packBits w (xs.map (fun x => x.1)))).zip ((List.range n).map (fun k =>
    ((xs.drop (8 * k / w)).take ((8 * k + 7) / w - 8 * k / w + 1)).any (fun x => x.2)))

/-- Write elements from the start of a byte: whole bytes as they are, and the rest of a last byte kept. -/
def State.writeElements (s : State) (m va w : Nat) (xs : List (Nat × Bool)) : Met State :=
  let n := xs.length * w
  let bs := packTagged w xs
  if n % 8 = 0 then s.writeTagged m va bs
  else
    (s.engineRead m (va + n / 8) 1).bind (fun x =>
      let old := BitVec.ofNat 8 (leNat x.2.1 / 2 ^ (n % 8) * 2 ^ (n % 8))
      x.1.writeTagged m va (bs.take (n / 8) ++ (bs.drop (n / 8)).map (fun y => (y.1 ||| old, y.2 || x.2.2))))

/-- Accesses of `unit` bytes that a run takes. -/
def runAccesses (e unit : Nat) : Nat := cdiv (writeRuns e).2 (8 * unit)

/-- Write one access of the destination: the elements that PCODE names, from the source. -/
def elementsGo (pcode unit x y : Nat) (s : State) (q : Nat) (c : CurrentEntry) : State :=
  let m := (s.queue q).ctx
  let w := elemWidth (tdFmt y)
  let per := runAccesses y unit
  let r := c.progress / per
  let lo := c.progress % per * (8 * unit)
  let n := min (8 * unit) ((writeRuns y).2 - lo)
  let src := (List.range (n / w)).map (fun i => (runElem y r (lo + i * w)).map (fun p => permSource pcode p.1 p.2.1 p.2.2))
  s.meet q (s.atLength (readElems m x src)) (fun v =>
    s.meet q (v.1.writeElements m (tdBase y + runStart y r / 8 + lo / 8) w v.2) (fun s => s.wroteGranule q 1 (v.2.any (fun z => z.2))))

/-- Copy one scale word: that of the destination's block number `i`. -/
def scaleGo (pcode x y i : Nat) (s : State) (q : Nat) : State :=
  let m := (s.queue q).ctx
  let n0 := cdiv (tdExt0 y) 32
  let n1 := cdiv (tdExt1 y) 32
  let p := permSource pcode (i / n0 / n1) (32 * (i / n0 % n1)) (32 * (i % n0))
  s.meet q (s.engineRead m (scaleAddr x p.1 p.2.1 p.2.2) 2) (fun v =>
    s.meet q (v.1.engineWrite m (tdScb y + 2 * i) v.2.1 v.2.2) (fun s => s.wroteGranule q 1 v.2.2))

/-- Accesses that write a destination's elements. -/
def elementAccesses (e unit : Nat) : Nat := (writeRuns e).1 * runAccesses e unit

/-- One access of a tensor copy: elements in storage order, and then the scale words. -/
def tensorGo (pcode unit : Nat) (s : State) (q : Nat) (c : CurrentEntry) : State :=
  let x := c.latch.getD 0 0
  let y := c.latch.getD 1 0
  let n := elementAccesses y unit
  if c.progress < n then elementsGo pcode unit x y s q c
  else if hasScale y && decide (c.progress < n + scaleBytes y / 2) then scaleGo pcode x y (c.progress - n) s q
  else s.finishEntry q (doneStatus c)

/-- The pairs of mirror blocks of an n × n square of blocks. -/
def mirrorPairs (n : Nat) : List (Nat × Nat) := (List.range n).flatMap (fun a => (List.range (n - a)).map (fun b => (a, a + b)))

/-- Addresses of the 32 rows of a block in storage. -/
def blockRows (e a b : Nat) : List Nat := (List.range 32).map (fun r => elemAddr e 0 (32 * a + r) (32 * b))

/-- Read the rows of a block: elements by row. -/
def readBlock (m w : Nat) : List Nat → State → Met (State × List (List (Nat × Bool)))
  | [], s => .ok (s, [])
  | a :: t, s => (s.readRange m a (4 * w)).bind (fun x => (readBlock m w t x.1).map (fun y => (y.1, elemsIn w 0 32 x.2 :: y.2)))

/-- The block's mirror image. -/
def mirrored (rows : List (List (Nat × Bool))) : List (List (Nat × Bool)) :=
  (List.range 32).map (fun j => rows.map (fun r => r.getD j (0, false)))

/-- Write the rows of a block. -/
def writeBlock (m w : Nat) : List (Nat × List (Nat × Bool)) → State → Met State
  | [], s => .ok s
  | (a, row) :: t, s => (s.writeTagged m a (packTagged w row)).bind (writeBlock m w t)

/-- Read a block and its mirror block and write each in the other's place, mirrored: whether something was poisoned. -/
def State.exchangeBlocks (s : State) (m e a b : Nat) : Met (State × Bool) :=
  let w := elemWidth (tdFmt e)
  (readBlock m w (blockRows e a b) s).bind (fun x =>
    (readBlock m w (blockRows e b a) x.1).bind (fun y =>
      (writeBlock m w ((blockRows e b a).zip (mirrored x.2)) y.1).bind (fun s =>
        (if a = b then .ok s else writeBlock m w ((blockRows e a b).zip (mirrored y.2)) s).map (fun s =>
          (s, (x.2 ++ y.2).any (fun r => r.any (fun z => z.2)))))))

/-- Exchange one block with its mirror block (R283). -/
def exchangeGo (e : Nat) (s : State) (q : Nat) (c : CurrentEntry) : State :=
  let m := (s.queue q).ctx
  let w := elemWidth (tdFmt e)
  match (mirrorPairs (tdExt0 e / 32))[c.progress]? with
  | none => s.finishEntry q (doneStatus c)
  | some (a, b) =>
    s.meet q (s.atLength (fun s => s.exchangeBlocks m e a b)) (fun x =>
      ((x.1.wroteGranule q 1 x.2).countGranules q (4 * w - 1)).modEntry q (fun c => { c with busyUntil := s.cycle + 2 * w }))

/-- Of two readings of one square, the one whose rows lie in dimension 0. -/
def rowReading (a b : Nat) : Nat := if tdLay a % 2 = 0 then a else b

/-- The entries of a COPYT agree. -/
def copytAgree (x y : Nat) : Bool :=
  tdFmt x == tdFmt y && tdRank x == tdRank y && tdExt0 x == tdExt0 y && tdExt1 x == tdExt1 y && tdExt2 x == tdExt2 y

/-- One access of a COPYT. -/
def copytGo (s : State) (q : Nat) (c : CurrentEntry) : State :=
  let x := c.latch.getD 0 0
  let y := c.latch.getD 1 0
  if inPlace x y then exchangeGo (rowReading x y) s q c else tensorGo 0 64 s q c

/-- `COPYT`, R282, R283. -/
def execCopyt (e : EntryHeader) (b : TensorBody) (s : State) : Host.Outcome State Fault Refusal :=
  engineTurn 0x02 e (tensorStart copytAgree (fun x y => tensorsMeet y x && !inPlace x y) b) copytGo s

/-- The bytes that a copy writes into a tensor: elements, padding and scale plane. -/
def writtenRuns (e : Nat) : List (Nat × Nat) :=
  (List.range (writeRuns e).1).map (fun r => (tdBase e + runStart e r / 8, cdiv (writeRuns e).2 8)) ++
  (if hasScale e then [(tdScb e, scaleBytes e)] else [])

/-- The bytes that a PERM writes meet its source's (R285). -/
def permOverlaps (x y : Nat) : Bool := runsMeet (writtenRuns y) (tensorRuns x)

/-- The entries of a PERM agree. -/
def permAgree (pcode x y : Nat) : Bool := tdFmt x == tdFmt y && extentsAgree pcode x y && (!hasScale x || decide (pcode ≤ 1))

/-- `PERM`, R284, R285. -/
def execPerm (e : EntryHeader) (b : TensorBody) (s : State) : Host.Outcome State Fault Refusal :=
  engineTurn 0x03 e (tensorStart (permAgree b.pcode.toNat) permOverlaps b) (tensorGo b.pcode.toNat 4) s

/-! ### GATH and SCAT (R286) -/

/-- The body of GATH and SCAT. -/
def rowsBad (b : RowsBody) : Bool :=
  b.stray || !wordAddress b.src || !wordAddress b.dst || !addressOk b.idx || b.rsz.toNat % 4 != 0 || b.rsz.toNat < 4 ||
  2 ^ 24 < b.rsz.toNat || b.nidx.toNat == 0 || b.nrows.toNat == 0 || b.rstr.toNat % 4 != 0 || b.rstr.toNat < b.rsz.toNat

/-- Some row that the list names meets the dense side. -/
def rowsMeet (b : RowsBody) (rows dense : Nat) (idx : List Nat) : Bool :=
  idx.any (fun i => rangesMeet (rows + i * b.rstr.toNat) b.rsz.toNat dense (b.nidx.toNat * b.rsz.toNat))

/-- The start: the whole list is read and checked. -/
def rowsStart (rows dense : Nat) (b : RowsBody) (s : State) (q : Nat) (c : CurrentEntry) : State × Start :=
  if rowsBad b then (s, .fail stBadArg)
  else match s.longRead (s.queue q).ctx b.idx.toNat (4 * b.nidx.toNat) with
    | .wait a => (s.waitOn q a, .wait)
    | .denied k d a => (s.withholdEntry q k d a, .wait)
    | .ok (s, bs, _) =>
      let idx := numbers 4 b.nidx.toNat bs
      if idx.any (fun i => decide (b.nrows.toNat ≤ i)) then (s, .fail stBadArg)
      else if rowsMeet b rows dense idx then (s, .fail stOvlp)
      else (s, .go { c with latch := idx })

/-- One granule of a row. -/
def rowsGo (gather : Bool) (b : RowsBody) (s : State) (q : Nat) (c : CurrentEntry) : State :=
  let m := (s.queue q).ctx
  let rsz := b.rsz.toNat
  if b.nidx.toNat * rsz ≤ c.progress then s.finishEntry q (doneStatus c)
  else
    let n := c.progress / rsz
    let row := c.latch.getD n 0 * b.rstr.toNat
    let src := b.src.toNat + (if gather then row else n * rsz)
    let dst := b.dst.toNat + (if gather then n * rsz else row)
    let i := c.progress % rsz
    let k := chunkAt dst i rsz
    s.meet q (s.readRange m (src + i) k) (fun x =>
      s.meet q (x.1.writeTagged m (dst + i) x.2) (fun s => s.wroteGranule q k (x.2.any (fun y => y.2))))

/-- `GATH`, R286. -/
def execGath (e : EntryHeader) (b : RowsBody) (s : State) : Host.Outcome State Fault Refusal :=
  engineTurn 0x05 e (rowsStart b.src.toNat b.dst.toNat b) (rowsGo true b) s

/-- `SCAT`, R286. -/
def execScat (e : EntryHeader) (b : RowsBody) (s : State) : Host.Outcome State Fault Refusal :=
  engineTurn 0x06 e (rowsStart b.dst.toNat b.src.toNat b) (rowsGo false b) s

/-! ### QFENCE (R287) -/

/-- A name's fixed bits: 62:57 zero, and a name with V = 0 zero. -/
def nameOk (w : BitVec 64) : Bool := if w.getLsbD 63 then bits w.toNat 62 57 == 0 else w == 0

/-- The start of a QFENCE. -/
def qfenceStart (b : FenceBody) (s : State) (q : Nat) (c : CurrentEntry) : State × Start :=
  if b.stray || !([b.name0, b.name1, b.name2, b.name3].all nameOk) || c.names.any (fun x => x.1 == q && decide (c.n ≤ x.2)) then
    (s, .fail stBadArg)
  else (((c.names.filter (fun x => decide ((s.queue x.1).done ≤ x.2))).foldl (fun s x => s.tellQueue 3 x.2 x.1 (q / 128)) s), .go c)

/-- Every named entry has completed. -/
def State.namesDone (s : State) (names : List (Nat × Nat)) : Bool := names.all (fun x => decide (x.2 < (s.queue x.1).done))

/-- A QFENCE completes, or waits. -/
def qfenceGo (s : State) (q : Nat) (c : CurrentEntry) : State :=
  if s.namesDone c.names then (s.workEntry q).finishEntry q stOk else s.waitEntry q

/-- `QFENCE`, R287. -/
def execQfence (e : EntryHeader) (b : FenceBody) (s : State) : Host.Outcome State Fault Refusal :=
  engineTurn 0x20 e (qfenceStart b) qfenceGo s

/-! ### WDRAW (R289) -/

/-- A kernel that has not started. -/
def KernelState.unstarted (st : KernelState) : Bool := st == .waiting || st == .held || st == .ready || st == .bound

/-- Withdraw a kernel that has not started (R254): the regions it has bound are set free. -/
def State.withdrawKernel (s : State) (e : Nat) : State :=
  if (s.kernel e).st.unstarted then ((s.regionsOf e).foldl (fun s g => s.detach g) s).terminate e .withdrawn 2 else s

/-- Kernels that a tag and mask reach. -/
def State.tagged (s : State) (m tag mask : Nat) : List Nat :=
  (s.kernels.filter (fun x => x.2.ctx == m && x.2.st.unstarted && x.2.rtag != 0 && x.2.rtag &&& mask == tag &&& mask)).map (fun x => x.1)

/-- Follow a queue's chain over `k` entries, the first of them number `n` at address `a`: the numbers whose tags meet the withdrawal.
Where a header cannot be read, that entry and those behind it are judged when they are read (log 67). -/
def withdrawChain (m tag mask hi : Nat) : Nat → Nat → Nat → State → Queue → State × Queue
  | 0, _, _, s, u => (s, u)
  | k + 1, n, a, s, u =>
    match s.longRead m a 16 with
    | .ok (s, bs, _) =>
      let h := BitVec.ofNat 512 (leNat bs)
      let r := (decodeHeader h).rtag.toNat
      let hit := r != 0 && r &&& mask == tag &&& mask
      withdrawChain m tag mask hi k (n + 1) (bits h.toNat 54 6 * 64) s (if hit then { u with withdrawn := u.withdrawn ++ [n] } else u)
    | _ => (s, { u with withdraws := u.withdraws ++ [(tag, mask, n, hi)] })

/-- A withdrawal reaches the entries of a queue that have been appended and have not started. -/
def State.withdrawQueue (s : State) (m tag mask q : Nat) : State :=
  let u := s.queue q
  let skip := b2n u.cur.isSome
  let n := u.done + skip
  if u.ctx ≠ m || u.appn ≤ n then s
  else
    let r := if u.cur.isSome || u.relink then
        match s.longRead m u.fetch 8 with
        | .ok (s, bs, _) => withdrawChain m tag mask u.appn (u.appn - n) n (bits (leNat bs) 54 6 * 64) s u
        | _ => (s, { u with withdraws := u.withdraws ++ [(tag, mask, n, u.appn)] })
      else withdrawChain m tag mask u.appn (u.appn - n) n u.fetch s u
    r.1.setQueue q r.2

/-- A WDRAW performs. -/
def wdrawGo (b : WithdrawBody) (s : State) (q : Nat) (_c : CurrentEntry) : State :=
  let m := (s.queue q).ctx
  let s := s.tellDies (s.queue q).done q
  let s := (s.tagged m b.tag.toNat b.mask.toNat).foldl (fun s e => s.withdrawKernel e) s
  ((s.queues.map (fun x => x.1)).foldl (fun s x => s.withdrawQueue m b.tag.toNat b.mask.toNat x) s).finishEntry q stOk

/-- `WDRAW`, R289. -/
def execWdraw (e : EntryHeader) (b : WithdrawBody) (s : State) : Host.Outcome State Fault Refusal :=
  engineTurn 0x21 e (plainStart (fun _ _ => if b.stray then some stBadArg else none)) (wdrawGo b) s

/-! ### SIGNAL and WAITV (R290 to R292) -/

/-- An address of an 8-byte word. -/
def doubleAddress (a : BitVec 64) : Bool := addressOk a && a.toNat % 8 == 0

/-- The body of a SIGNAL. -/
def signalCheck (b : SignalBody) (_q _n : Nat) : Option Nat :=
  if b.stray || !doubleAddress b.va || 2 ≤ b.op.toNat then some stBadArg else none

/-- A SIGNAL's one write. -/
def signalGo (b : SignalBody) (s : State) (q : Nat) (c : CurrentEntry) : State :=
  let m := (s.queue q).ctx
  if c.progress ≠ 0 then s.finishEntry q (doneStatus c)
  else if b.op = 0 then s.meet q (s.engineWrite m b.va.toNat (leBytes 8 b.val.toNat) false) (fun s => s.wroteGranule q 1 false)
  else s.meet q (s.engineRead m b.va.toNat 8) (fun x =>
    s.meet q (x.1.engineWrite m b.va.toNat (leBytes 8 ((leNat x.2.1 + b.val.toNat) % 2 ^ 64)) x.2.2) (fun s => s.wroteGranule q 1 x.2.2))

/-- `SIGNAL`, R290. -/
def execSignal (e : EntryHeader) (b : SignalBody) (s : State) : Host.Outcome State Fault Refusal :=
  engineTurn 0x22 e (plainStart (signalCheck b)) (signalGo b) s

/-- The body of a WAITV. -/
def waitvCheck (b : WaitBody) (_q _n : Nat) : Option Nat :=
  if b.stray || !doubleAddress b.va || 3 ≤ b.cmp.toNat then some stBadArg else none

/-- The word meets the comparison. -/
def waitvMet (b : WaitBody) (w : Nat) : Bool :=
  match b.cmp.toNat with
  | 0 => decide (b.val.toNat ≤ w)
  | 1 => w == b.val.toNat
  | _ => w != b.val.toNat

/-- The cycles that a WAITV may take are over (R292). -/
def waitvOver (b : WaitBody) (c : CurrentEntry) (now : Nat) : Bool := b.tmo.toNat != 0 && decide (c.started + b.tmo.toNat < now)

/-- A WAITV reads its word, or completes because it is late. -/
def State.waitvRead (s : State) (q : Nat) (b : WaitBody) (c : CurrentEntry) : State :=
  if waitvOver b c s.cycle then (s.workEntry q).finishEntry q stTimeout
  else s.meet q (s.engineRead (s.queue q).ctx b.va.toNat 8) (fun x =>
    if c.poison then (x.1.workEntry q).finishEntry q stPoison
    else if waitvMet b (leNat x.2.1) then (x.1.workEntry q).finishEntry q stOk
    else (x.1.modEntry q (fun c => { c with lastRead := s.cycle })).waitEntry q)

/-- The first read of a WAITV, and the read after a wait at a fault or at EN = 0; while it waits, WAITV_RECHECK reads. -/
def waitvGo (b : WaitBody) (s : State) (q : Nat) (c : CurrentEntry) : State :=
  if (s.queue q).st == .running then s.waitvRead q b c else s

/-- `WAITV`, R291. -/
def execWaitv (e : EntryHeader) (b : WaitBody) (s : State) : Host.Outcome State Fault Refusal :=
  engineTurn 0x23 e (plainStart (waitvCheck b)) (waitvGo b) s

/-- The WAITV that a queue performs, while the queue is neither disabled nor stopped. -/
def Queue.waitv (u : Queue) : Option (CurrentEntry × WaitBody) :=
  match u.cur with
  | none => none
  | some c =>
    if imageKind c.image = 0x23 ∧ c.begun ∧ c.finish = none ∧ (u.st = .waiting ∨ u.st = .running) then
      some (c, unpackWait (c.image.extractLsb' 128 320))
    else none

/-- `WAITV_RECHECK`, R291. -/
def execWaitvRecheck (s : State) : Host.Outcome State Fault Refusal :=
  match s.cur with
  | .queue q =>
    .next (match (s.queue q).waitv with
      | some (c, b) =>
        if (s.queue q).st = .waiting ∧ (s.queue q).withheld = none ∧ c.lastRead < s.cycle ∧ c.busyUntil ≤ s.cycle then s.waitvRead q b c else s
      | none => s)
  | _ => .fault .misplaced

/-- `WAITV_TIMEOUT`, R292: also of a WAITV whose read is withheld. -/
def execWaitvTimeout (s : State) : Host.Outcome State Fault Refusal :=
  match s.cur with
  | .queue q =>
    .next (match (s.queue q).waitv with
      | some (c, b) =>
        if b.tmo.toNat ≠ 0 ∧ c.started + b.tmo.toNat ≤ s.cycle then
          ((s.modQueue q (fun u => { u with withheld := none })).workEntry q).finishEntry q stTimeout
        else s
      | none => s)
  | _ => .fault .misplaced

end Sys2Proof.Machine
end

