-- ==== Sys2Proof/Machine/Sequence.lean ====
section
/-! DEFINITION. Sequences (chapter 16): the descriptor and the tag (R295 to R297), and the commands COPYR, KVPATCH and COMPACT
(R298 to R302). -/

namespace Sys2Proof.Machine

/-! ### The descriptor (Table 16-1) -/

def sdKb (d : Nat) : Nat := bits d 511 457
def sdVb (d : Nat) : Nat := bits d 456 402
def sdTga (d : Nat) : Nat := bits d 401 347
def sdRta (d : Nat) : Nat := bits d 346 292
def sdFqa (d : Nat) : Nat := bits d 291 237
def sdSink (d : Nat) : Nat := bits d 236 221
def sdWin (d : Nat) : Nat := bits d 220 205
def sdRsz (d : Nat) : Nat := bits d 204 189
def sdFmt (d : Nat) : Nat := bits d 188 185

/-- Element pairs of a row. -/
def sdPairs (d : Nat) : Nat := sdRsz d * 8 / elemWidth (sdFmt d) / 2

/-- A descriptor meets Table 16-1. -/
def sdOk (d : Nat) : Bool :=
  bit d 184 && bits d 183 0 == 0 && decide (2 ≤ sdFmt d) && decide (sdFmt d ≤ 4) && sdKb d % 4 == 0 && sdVb d % 4 == 0 &&
  sdTga d % 4 == 0 && sdFqa d % 4 == 0 && sdWin d != 0 && decide (sdSink d + sdWin d ≤ 65536) && sdRsz d % 4 == 0 && sdRsz d != 0 &&
  sdRsz d * 8 / elemWidth (sdFmt d) % 2 == 0

/-- The slot of a position (R296). -/
def sdSlot (d p : Nat) : Nat := wrapPosition (sdSink d) (sdWin d) p % 65536

/-- The generation of a position. -/
def sdGen (d p : Nat) : Nat := wrapPosition (sdSink d) (sdWin d) p / 65536

/-- The tag address of a slot (R296). -/
def sdTagAddr (sd k : Nat) : Nat := sdTga sd + 4 * k

/-- The arrays of a sequence: address, and bytes. -/
def sdArrays (d : Nat) : List (Nat × Nat) :=
  let n := sdSink d + sdWin d
  [(sdKb d, n * sdRsz d), (sdVb d, n * sdRsz d), (sdTga d, 4 * n), (sdRta d, n), (sdFqa d, 4 * sdPairs d)]

/-- A range meets some array of the sequence. -/
def sdMeets (d a n : Nat) : Bool := (sdArrays d).any (fun x => rangesMeet a n x.1 x.2)

/-- A tag word (R296). -/
def tagWord (v : Bool) (ep gen : Nat) : Nat := b2n v * 2 ^ 31 + ep % 2 ^ 15 * 2 ^ 16 + gen % 65536

/-- A tag says that its slot holds position p. -/
def tagHolds (d p tag : Nat) : Bool := bit tag 31 && bits tag 15 0 == sdGen d p

/-- The start of a sequence command: the descriptor is read once, and its own checks follow. -/
def seqStart (bad : Bool) (sd : BitVec 64) (check : Nat → Option Nat) (s : State) (q : Nat) (c : CurrentEntry) : State × Start :=
  if bad || !addressOk sd || sd.toNat % 64 != 0 then (s, .fail stBadArg)
  else match s.engineRead (s.queue q).ctx sd.toNat 64 with
    | .wait a => (s.waitOn q a, .wait)
    | .denied k w a => (s.withholdEntry q k w a, .wait)
    | .ok (s, bs, _) =>
      let d := leNat bs
      if !sdOk d then (s, .fail stBadSeq)
      else match check d with
        | some st => (s, .fail st)
        | none => (s, .go { c with latch := [d] })

/-! ### Rotation (R299) -/

/-- (−1)^neg × m × 2^e modulo 2, exactly and without a sign: its m, with the same e. -/
def halfTurns (neg : Bool) (m : Nat) (e : Int) : Nat :=
  let r := m % 2 ^ (1 - e).toNat
  if 1 ≤ e then 0 else if neg && r != 0 then 2 ^ (1 - e).toNat - r else r

/-- One pair of a key, moved by d positions. -/
def keyPair (fmt : Nat) (d : Int) (freq x y : Nat) : Nat × Nat :=
  match decodeFloat 2 freq with
  | .fin n m e =>
    let t := cosSinPi false (halfTurns (n != decide (d < 0)) (m * d.natAbs) e) e
    let r := rotatePair fmt 0 0 0 0 false (decodeFloat fmt x) (decodeFloat fmt y) t.1 t.2
    (r.1.1, r.2.1)
  | _ => (quietNan fmt, quietNan fmt)

/-- The pairs of a row in order. -/
def keyPairs (fmt : Nat) (d : Int) : List Nat → List Nat → List Nat
  | f :: fs, x :: y :: t =>
    let r := keyPair fmt d f x y
    r.1 :: r.2 :: keyPairs fmt d fs t
  | _, xs => xs

/-- A key row moved by d positions. -/
def rotateRow (fmt : Nat) (d : Int) (freqs : List Nat) (row : List Byte) : List Byte :=
  let n := elemWidth fmt / 8
  (keyPairs fmt d freqs (numbers n (row.length / n) row)).flatMap (fun x => leBytes n x)

/-- Read a key row, and move it if `d` says by how much. -/
def State.readKey (s : State) (m sd va : Nat) (d : Option Int) : Met (State × List (Byte × Bool)) :=
  match s.readRange m va (sdRsz sd), d with
  | .ok (s, row), some d =>
    match s.readRange m (sdFqa sd) (4 * sdPairs sd) with
    | .ok (s, fs) =>
      let freqs := numbers 4 (sdPairs sd) (fs.map (fun x => x.1))
      let p := fs.any (fun x => x.2)
      .ok (s, List.zipWith (fun b x => (b, x.2 || p)) (rotateRow (sdFmt sd) d freqs (row.map (fun x => x.1))) row)
    | x => x
  | x, _ => x

/-! ### The rewrite of a slot (R297) -/

/-- Change a tag word: the new one from the old. -/
def State.retag (s : State) (m a : Nat) (f : Nat → Nat) : Met State :=
  match s.engineRead m a 4 with
  | .wait a => .wait a
  | .denied c d x => .denied c d x
  | .ok (s, bs, p) => s.engineWrite m a (leBytes 4 (f (leNat bs))) p

/-- The first write: V = 0 and the next epoch. -/
def State.openSlot (s : State) (m sd k : Nat) : Met State :=
  s.retag m (sdTagAddr sd k) (fun t => tagWord false (bits t 30 16 + 1) (bits t 15 0))

/-- The last write: V = 1, the epoch after that, and the generation of the position. -/
def State.closeSlot (s : State) (m sd k gen : Nat) : Met State :=
  s.retag m (sdTagAddr sd k) (fun t => tagWord true (bits t 30 16 + 1) gen)

/-- Where a tag lies in physical memory. -/
def State.tagPlace (s : State) (m va : Nat) : Option Nat :=
  match s.locateAll s.agent m false [(va, 4)] with
  | .ok (p :: _) => some (forwardAddr s.forwards p.2.1)
  | _ => none

/-- Another queue is in the middle of a rewrite of the slot with this tag: rewrites interleave slot by slot (R305), so this one waits its
turn (log 122). -/
def State.slotTaken (s : State) (q va : Nat) : Bool :=
  s.queues.any (fun x => x.1 != q && x.2.cur.any (fun c => c.finish.isNone && c.slot.any (fun a =>
    (s.tagPlace x.2.ctx a).isSome && s.tagPlace x.2.ctx a == s.tagPlace (s.queue q).ctx va)))

/-- The entry's progress and its place in a row. -/
def State.stepEntry (s : State) (q progress off : Nat) : State := s.modEntry q (fun c => { c with progress := progress, off := off })

/-- Write the next granule of a row from the buffer; `cost` is how many cycles it takes beyond this one. -/
def State.rowGranule (s : State) (q : Nat) (c : CurrentEntry) (va n skip cost next : Nat) : State :=
  let k := chunkAt va c.off n
  let bs := (c.buffer.drop (skip + c.off)).take k
  s.meet q (s.writeTagged (s.queue q).ctx (va + c.off) bs) (fun s =>
    let s := (s.countGranules q 1).modEntry q (fun c => { c with busyUntil := s.cycle + cost, poison := c.poison || bs.any (fun x => x.2) })
    if c.off + k = n then s.stepEntry q next 0 else s.stepEntry q c.progress (c.off + k))

/-- The writes of a rewrite after the first: the key row, the value row if there is one, the retention byte and the tag. The
buffer holds the key row, the value row and the retention byte. -/
def State.rewriteGo (s : State) (q : Nat) (c : CurrentEntry) (sd p : Nat) (hasVal : Bool) (cost : Nat) (done : State → State) : State :=
  let m := (s.queue q).ctx
  let k := sdSlot sd p
  let rsz := sdRsz sd
  let base := c.progress / 5 * 5
  match c.progress % 5 with
  | 1 => s.rowGranule q c (sdKb sd + k * rsz) rsz 0 cost (base + (if hasVal then 2 else 3))
  | 2 => s.rowGranule q c (sdVb sd + k * rsz) rsz rsz 0 (base + 3)
  | 3 =>
    let ret := c.buffer.drop (c.buffer.length - 1)
    s.meet q (s.writeTagged m (sdRta sd + k) ret) (fun s =>
      (s.modEntry q (fun c => { c with poison := c.poison || ret.any (fun x => x.2) })).stepEntry q (base + 4) 0)
  | _ => s.meet q (s.closeSlot m sd k (sdGen sd p)) (fun s => done ((s.modEntry q (fun c => { c with slot := none })).stepEntry q (base + 5) 0))

/-- Begin a rewrite with what was read for it: the slot is the entry's until its last write. -/
def State.beginRewrite (s : State) (q : Nat) (c : CurrentEntry) (sd p : Nat) (buf : List (Byte × Bool)) : State :=
  s.meet q (s.openSlot (s.queue q).ctx sd (sdSlot sd p)) (fun s =>
    (s.modEntry q (fun x => { x with buffer := buf, slot := some (sdTagAddr sd (sdSlot sd p)) })).stepEntry q (c.progress + 1) 0)

/-! ### COPYR (R300) -/

/-- The body's fields that need no descriptor. -/
def copyrBad (b : CopyrBody) : Bool :=
  b.stray || !wordAddress b.src || !wordAddress b.srcv || b.nrow.toNat == 0 || decide (2 ^ 32 < b.dpos.toNat + b.nrow.toNat)

/-- The checks against the descriptor: distinct slots, and no overlap. -/
def copyrCheck (b : CopyrBody) (d : Nat) : Option Nat :=
  let n := b.nrow.toNat
  if sdWin d < b.dpos.toNat + n - max b.dpos.toNat (sdSink d) then some stBadArg
  else if sdMeets d b.src.toNat (n * sdRsz d) || (b.srcv != 0 && sdMeets d b.srcv.toNat (n * sdRsz d)) then some stOvlp
  else none

/-- Read the rows of one position of a COPYR. -/
def State.copyrRows (s : State) (m sd : Nat) (b : CopyrBody) (n : Nat) : Met (State × List (Byte × Bool)) :=
  match s.readKey m sd (b.src.toNat + n * sdRsz sd) (some ((b.dpos.toNat : Int) - b.spos.toNat)) with
  | .ok (s, key) =>
    if b.srcv = 0 then .ok (s, key ++ [(255, false)])
    else match s.readRange m (b.srcv.toNat + n * sdRsz sd) (sdRsz sd) with
      | .ok (s, v) => .ok (s, key ++ v ++ [(255, false)])
      | x => x
  | x => x

/-- One write of a COPYR. -/
def copyrGo (b : CopyrBody) (s : State) (q : Nat) (c : CurrentEntry) : State :=
  let sd := c.latch.getD 0 0
  let n := c.progress / 5
  if b.nrow.toNat ≤ n then s.finishEntry q (doneStatus c)
  else if c.progress % 5 = 0 then
    if s.slotTaken q (sdTagAddr sd (sdSlot sd (b.dpos.toNat + n))) then s
    else s.meet q (s.atLength (fun s => s.copyrRows (s.queue q).ctx sd b n)) (fun x => x.1.beginRewrite q c sd (b.dpos.toNat + n) x.2)
  else s.rewriteGo q c sd (b.dpos.toNat + n) (b.srcv != 0) 1 (fun s => s)

/-- `COPYR`, R300. -/
def execCopyr (e : EntryHeader) (b : CopyrBody) (s : State) : Host.Outcome State Fault Refusal :=
  engineTurn 0x08 e (seqStart (copyrBad b) b.sd (copyrCheck b)) (copyrGo b) s

/-! ### KVPATCH (R301) -/

/-- The shift Δ. -/
def patchShift (b : PatchBody) : Int := b.delta.toInt

/-- Positions that are moved. -/
def patchCount (b : PatchBody) : Nat := b.last.toNat + 1 - b.first.toNat

/-- The body's fields that need no descriptor. -/
def patchBad (b : PatchBody) : Bool := b.stray || b.delta == 0 || decide (2 ≤ b.rot.toNat) || decide (b.last.toNat < b.first.toNat)

/-- The checks against the descriptor. -/
def patchCheck (b : PatchBody) (d : Nat) : Option Nat :=
  if sdSink d ≤ b.first.toNat ∧ patchCount b + (patchShift b).natAbs ≤ sdWin d ∧ (sdSink d : Int) ≤ b.first.toNat + patchShift b ∧
      (b.last.toNat : Int) + patchShift b < 2 ^ 32 then none
  else some stBadArg

/-- The n-th source position in order. -/
def patchOrder (b : PatchBody) (n : Nat) : Nat := if 0 < patchShift b then b.last.toNat - n else b.first.toNat + n

/-- The n-th vacated position. -/
def patchVacated (b : PatchBody) (n : Nat) : Nat :=
  if 0 < patchShift b then b.first.toNat + n else (b.last.toNat + patchShift b + 1 + n : Int).toNat

/-- Read a slot's rows and retention byte. -/
def State.slotRows (s : State) (m sd k : Nat) (d : Option Int) : Met (State × List (Byte × Bool)) :=
  match s.readKey m sd (sdKb sd + k * sdRsz sd) d with
  | .ok (s, key) =>
    match s.readRange m (sdVb sd + k * sdRsz sd) (sdRsz sd) with
    | .ok (s, v) =>
      match s.readRange m (sdRta sd + k) 1 with
      | .ok (s, r) => .ok (s, key ++ v ++ r)
      | x => x
    | x => x
  | x => x

/-- Read the source of one position: a stale one is counted and passed. -/
def patchSource (b : PatchBody) (s : State) (q : Nat) (c : CurrentEntry) (sd p : Nat) : State :=
  let m := (s.queue q).ctx
  s.meet q (s.engineRead m (sdTagAddr sd (sdSlot sd p)) 4) (fun x =>
    if !tagHolds sd p (leNat x.2.1) then (x.1.modEntry q (fun c => { c with r1 := c.r1 + 1 })).stepEntry q (c.progress + 5) 0
    else s.meet q (x.1.atLength (fun s => s.slotRows m sd (sdSlot sd p) (if b.rot = 1 then some (patchShift b) else none))) (fun y =>
      y.1.beginRewrite q c sd (p + patchShift b : Int).toNat y.2))

/-- One write of a KVPATCH. -/
def patchGo (b : PatchBody) (s : State) (q : Nat) (c : CurrentEntry) : State :=
  let sd := c.latch.getD 0 0
  let n := c.progress / 5
  if n < patchCount b then
    let p := patchOrder b n
    if c.progress % 5 = 0 then
      if s.slotTaken q (sdTagAddr sd (sdSlot sd p)) || s.slotTaken q (sdTagAddr sd (sdSlot sd (p + patchShift b : Int).toNat)) then s
      else patchSource b s q c sd p
    else s.rewriteGo q c sd (p + patchShift b : Int).toNat true b.rot.toNat (fun s => s.modEntry q (fun c => { c with r0 := c.r0 + 1 }))
  else
    let v := c.progress - 5 * patchCount b
    if v < (patchShift b).natAbs then
      if s.slotTaken q (sdTagAddr sd (sdSlot sd (patchVacated b v))) then s
      else s.meet q (s.retag (s.queue q).ctx (sdTagAddr sd (sdSlot sd (patchVacated b v))) (fun t => tagWord false (bits t 30 16 + 1) 0))
        (fun s => s.stepEntry q (c.progress + 1) 0)
    else s.finishEntry q (if c.r1 = 0 then doneStatus c else stKvStale)

/-- `KVPATCH`, R301. -/
def execKvpatch (e : EntryHeader) (b : PatchBody) (s : State) : Host.Outcome State Fault Refusal :=
  engineTurn 0x09 e (seqStart (patchBad b) b.sd (patchCheck b)) (patchGo b) s

/-! ### COMPACT (R302) -/

/-- Sinks that are walked. -/
def compactSinks (b : CompactBody) (d : Nat) : Nat := min (sdSink d) (b.top.toNat + 1)

/-- First window position that is walked. -/
def compactLow (b : CompactBody) (d : Nat) : Nat := max (sdSink d) (b.top.toNat + 1 - sdWin d)

/-- Positions that are walked. -/
def compactWalked (b : CompactBody) (d : Nat) : Nat := compactSinks b d + (b.top.toNat + 1 - compactLow b d)

/-- The i-th position of the walk. -/
def compactPosition (b : CompactBody) (d i : Nat) : Nat := if i < compactSinks b d then i else compactLow b d + (i - compactSinks b d)

/-- The body's fields that need no descriptor. -/
def compactBad (b : CompactBody) : Bool := !wordAddress b.outk || !wordAddress b.outv || !wordAddress b.outp

/-- No output range meets the sequence. -/
def compactCheck (b : CompactBody) (d : Nat) : Option Nat :=
  let n := compactWalked b d
  if sdMeets d b.outk.toNat (n * sdRsz d) || (b.outv != 0 && sdMeets d b.outv.toNat (n * sdRsz d)) ||
      (b.outp != 0 && sdMeets d b.outp.toNat (4 * n)) then some stOvlp
  else none

/-- The start: THR 0 takes the context's threshold, read now. -/
def compactStart (b : CompactBody) (s : State) (q : Nat) (c : CurrentEntry) : State × Start :=
  match seqStart (compactBad b) b.sd (compactCheck b) s q c with
  | (s, .go c) => (s, .go { c with latch := c.latch ++ [if b.thr = 0 then (s.context (s.queue q).ctx).kvThresh else b.thr.toNat] })
  | x => x

/-- Read the slot of a position: a row that is not kept is passed, and the walk goes on for up to `fuel` slots. -/
def compactScan (b : CompactBody) (sd thr q : Nat) : Nat → State → Nat → State
  | 0, s, i => s.stepEntry q (5 * i) 0
  | fuel + 1, s, i =>
    if compactWalked b sd ≤ i then s.stepEntry q (5 * i) 0
    else
      let m := (s.queue q).ctx
      let p := compactPosition b sd i
      let k := sdSlot sd p
      let s := s.stepEntry q (5 * i) 0
      s.meet q (s.engineRead m (sdTagAddr sd k) 4) (fun x =>
        if !tagHolds sd p (leNat x.2.1) then compactScan b sd thr q fuel x.1 (i + 1)
        else s.meet q (x.1.atLength (fun s => s.slotRows m sd k none)) (fun y =>
          let s := y.1.modEntry q (fun c => { c with buffer := y.2, lastRead := leNat x.2.1 })
          s.stepEntry q (5 * i + 1) 0))

/-- The row in the buffer is kept. -/
def keeps (sd thr p : Nat) (buf : List (Byte × Bool)) : Bool :=
  decide (p < sdSink sd) || decide (thr ≤ leNat ((buf.drop (buf.length - 1)).map (fun x => x.1)))

/-- Read the tag again: a slot that has changed is read again from its tag. -/
def compactAgain (s : State) (q : Nat) (c : CurrentEntry) (sd thr p i : Nat) : State :=
  let m := (s.queue q).ctx
  s.meet q (s.engineRead m (sdTagAddr sd (sdSlot sd p)) 4) (fun x =>
    if leNat x.2.1 ≠ c.lastRead then x.1.stepEntry q (5 * i) 0
    else if keeps sd thr p c.buffer then x.1.stepEntry q (5 * i + 2) 0
    else x.1.stepEntry q (5 * (i + 1)) 0)

/-- One access of a COMPACT. -/
def compactGo (b : CompactBody) (s : State) (q : Nat) (c : CurrentEntry) : State :=
  let m := (s.queue q).ctx
  let sd := c.latch.getD 0 0
  let thr := c.latch.getD 1 0
  let i := c.progress / 5
  let p := compactPosition b sd i
  let rsz := sdRsz sd
  if compactWalked b sd ≤ i then s.finishEntry q (doneStatus c)
  else match c.progress % 5 with
    | 0 => compactScan b sd thr q 16 s i
    | 1 => compactAgain s q c sd thr p i
    | 2 => s.rowGranule q c (b.outk.toNat + c.r0 * rsz) rsz 0 0 (5 * i + (if b.outv = 0 then 4 else 3))
    | 3 => s.rowGranule q c (b.outv.toNat + c.r0 * rsz) rsz rsz 0 (5 * i + 4)
    | _ =>
      s.meet q (if b.outp = 0 then .ok s else s.engineWrite m (b.outp.toNat + 4 * c.r0) (leBytes 4 p) false) (fun s =>
        (s.modEntry q (fun c => { c with r0 := c.r0 + 1 })).stepEntry q (5 * (i + 1)) 0)

/-- `COMPACT`, R302. -/
def execCompact (e : EntryHeader) (b : CompactBody) (s : State) : Host.Outcome State Fault Refusal :=
  engineTurn 0x0A e (compactStart b) (compactGo b) s

end Sys2Proof.Machine
end

