-- ==== Sys2Proof/Machine/Pages.lean ====
section
/-! DEFINITION. Pages: PROMO and DEMO (R330, R331), the end of a forward (R332), and the invalidation of cached translations
(R325). -/

namespace Sys2Proof.Machine

/-! ### Invalidation (R325) -/

/-- A cache without the leaves that cover an address of a context and the pointer entries on its walk. -/
def TableCache.without (t : TableCache) (m va : Nat) : TableCache :=
  { leaves := t.leaves.filter (fun e => !(e.ctx == m && e.page == va / e.size * e.size))
    pointers := t.pointers.filter (fun e => !(e.ctx == m && e.index == pointerIndex e.level va)) }

/-- A cache without the entries of a context. -/
def TableCache.withoutContext (t : TableCache) (m : Nat) : TableCache :=
  { leaves := t.leaves.filter (fun e => e.ctx != m), pointers := t.pointers.filter (fun e => e.ctx != m) }

/-- Change every translation and walk cache of the module. -/
def State.mapCaches (s : State) (f : TableCache → TableCache) : State := { s with caches := s.caches.map (fun e => (e.1, f e.2)) }

/-- Drop what the caches hold for one address of a context. -/
def State.dropPage (s : State) (m va : Nat) : State := s.mapCaches (fun t => t.without m va)

/-- Reserved bits of XLINV, in a write. -/
def xlinvBad (v : Nat) : Bool := bits v 62 60 != 0 || bit v 55 || bits v 15 0 != 0

/-- `XLINV`, R325: a write while an invalidation runs, or with a reserved bit set, is discarded. -/
def execXlinv (v : BitVec 64) (s : State) : Host.Outcome State Fault Refusal :=
  match s.cur with
  | .module =>
    .next (if s.xlinvBusy.isSome || xlinvBad v.toNat then s
      else
        let (d, s) := s.freeDelay
        { s with xlinv := v.toNat % 2 ^ 63, xlinvBusy := some (s.cycle + d) })
  | _ => .fault .misplaced

/-- Drop the entries that an XLINV names. -/
def State.invalidate (s : State) (v : Nat) : State :=
  let m := bits v 58 56
  if bit v 59 then s.mapCaches (fun t => t.withoutContext m) else s.dropPage m (bits v 54 16 * 65536)

/-- `XLINV_COMPLETE`, R325. -/
def execXlinvComplete (s : State) : Host.Outcome State Fault Refusal :=
  match s.cur with
  | .module =>
    .next (match s.xlinvBusy with
      | some t => if t ≤ s.cycle then { s.invalidate s.xlinv with xlinvBusy := none } else s
      | none => s)
  | _ => .fault .misplaced

/-! ### The start of a page move (R330, R331) -/

/-- The destination: its code, if it lies in T0, T1 or T2 with room for `size` bytes. -/
def moveTier (pa size : Nat) : Option Nat :=
  match rangeTier pa size with
  | some .t0 => some 0
  | some .t1 => some 1
  | some .t2 => some 2
  | _ => none

/-- The body checks that come before the walk. -/
def pageBad (promote : Bool) (b : PageBody) : Bool :=
  b.stray || !addressOk b.va || (moveTier b.dpa.toNat 65536).isNone || b.dpa.toNat % 65536 != 0 ||
  (if promote then decide (2 ≤ b.flags.toNat) else b.flags != 0 || b.krtag != 0)

/-- The leaf does not allow the move (Table 18-4). A page of T3 has no endpoint that can move it (Table 18-2, log 53). -/
def moveBad (promote : Bool) (va leaf size dst : Nat) : Bool :=
  let t := bits leaf 6 5
  bits leaf 8 7 != 0 || va % size != 0 || t == 3 || (if promote then decide (t ≤ dst) else decide (dst ≤ t))

/-- A frame's address from its leaf. -/
def frameAt (leaf size : Nat) : Nat := frameOf leaf / size * size

/-- MIG and the frame of a leaf replaced. -/
def withMig (leaf mig : Nat) : Nat := leaf - bits leaf 8 7 * 128 + mig * 128

/-- The switch: FRAME and TIER of the new frame, MIG 00, other bits kept. -/
def switchedLeaf (leaf pa tier : Nat) : Nat :=
  withMig (leaf - bits leaf 51 16 * 2 ^ 16 - bits leaf 6 5 * 32 + bits pa 51 16 * 2 ^ 16 + tier * 32) 0

/-- Change the leaf at an address by one write of its 8 bytes. -/
def State.putLeaf (s : State) (a : Nat) (f : Nat → Nat) : State := s.put a (leBytes 8 (f (s.fetchLe a 8))) false

/-- The leaf that a failing walk ends at, whatever its bits show: `l` is the failing level. -/
def State.failingLeaf (s : State) (root va l : Nat) : Option Nat :=
  let e0 := s.fetchLe (frameOf root + 8 * bits va 54 42) 8
  let e1 := s.fetchLe (frameOf e0 + 8 * bits va 41 29) 8
  let look := fun (t i : Nat) =>
    let a := frameOf t + 8 * i
    if tableOk (frameOf t) && !s.tainted a 8 && !bit (s.fetchLe a 8) 55 then some (s.fetchLe a 8) else none
  match l with
  | 1 => look e0 (bits va 41 29)
  | 2 => look e1 (bits va 28 16)
  | _ => none

/-- A walk fails at a leaf for which PGBAD stands (log 52): V = 0 or MIG not 00. -/
def State.leafBad (s : State) (root va l : Nat) : Bool := match s.failingLeaf root va l with
  | some e => !bit e 0 || bits e 8 7 != 0
  | none => false

/-- The start of a page move: the walk, PGBAD, and MIG. The entry keeps the leaf's address, the old frame, the size and the
destination's tier. -/
def pageStart (promote : Bool) (b : PageBody) (s : State) (q : Nat) (c : CurrentEntry) : State × Start :=
  let root := (s.context (s.queue q).ctx).ptroot.toNat
  let va := b.va.toNat
  if pageBad promote b then (s, .fail stBadArg)
  else if (walkReads0 s root va).any (fun a => s.prepared (forwardAddr s.forwards a / 64)) then (s.waitOn q va, .wait)
  else match walk s root va with
    | .error (l, r) => if s.leafBad root va l then (s, .fail stPgBad) else (s.withholdEntry q causeTrans (transDetail l r) va, .wait)
    | .ok (la, leaf, size) =>
      match moveTier b.dpa.toNat size with
      | none => (s, .fail stBadArg)
      | some d =>
        if b.dpa.toNat % size ≠ 0 then (s, .fail stBadArg)
        else if moveBad promote va leaf size d then (s, .fail stPgBad)
        else
          let old := frameAt leaf size
          let s := s.putLeaf la (fun e => withMig e (if promote then 1 else 2))
          ({ s with moves := s.moves ++ [(q, old, size, b.dpa.toNat, [])] }, .go { c with latch := [la, old, size, d], r0 := old })

/-! ### The copy and the switch (R331, R332) -/

/-- The granules of a page move's source that are read twice: all, where the leaf at `la` has K = 1 (R326). -/
def State.moveCrit (s : State) (la a : Nat) : List Nat := if bit (s.fetchLe la 8) 2 then [a] else []

/-- A granule of the source reads as poisoned. -/
def State.moveTaint (s : State) (la a : Nat) : Bool := (List.range 64).any (fun i => s.critTaint (s.moveCrit la a) (a + i))

/-- Copy one granule between frames, with its poison. -/
def State.copyGranule (s : State) (la a b : Nat) : State :=
  let crit := s.moveCrit la a
  (s.critDone crit).put b ((List.range 64).map (fun i => s.critByte crit (a + i))) (s.moveTaint la a)

/-- The bytes that a page move's access to one granule moves at bank ports. -/
def moveBytes (a b : Nat) : List Nat := (List.range 64).map (fun i => a + i) ++ (List.range 64).map (fun i => b + i)

/-- Granules of the moving page that writes have met since its copy began. -/
def State.marked (s : State) (q : Nat) : List Nat := match s.moves.find? (fun m => m.1 == q) with
  | some m => m.2.2.2.2
  | none => []

/-- The kernel that a promotion serves has ended (R331, R333). -/
def State.tooLate (s : State) (m tag : Nat) : Bool :=
  tag != 0 && (match s.newest m tag with
    | some e => (s.kernel e).ended
    | none => false)

/-- Every activation that now holds a colour. -/
def State.alive (s : State) : List (Nat × Nat × Nat) :=
  s.regions.flatMap (fun r => r.2.cols.filterMap (fun c => if c.2.held then some (r.1, c.1, c.2.ser) else none))

/-- The marked granules are copied again while writes to the page are held. -/
def State.recopy (s : State) (q la old new : Nat) : State :=
  (s.marked q).foldl (fun s g =>
    (s.modEntry q (fun c => { c with poison := c.poison || s.moveTaint la (64 * g) })).copyGranule la (64 * g) (new + (64 * g - old))) s

/-- The switch, or the end of a promotion that is discarded. POISON takes the place of OK where a source granule was poisoned
(R279), and LATE stands before it: DESIGN CHOICE (log 97). -/
def pageSwitch (b : PageBody) (s : State) (q : Nat) (c : CurrentEntry) : State :=
  let m := (s.queue q).ctx
  let la := c.latch.getD 0 0
  let old := c.latch.getD 1 0
  let size := c.latch.getD 2 0
  let new := b.dpa.toNat
  let s := s.recopy q la old new
  let s := { s with moves := s.moves.filter (fun x => x.1 != q) }
  let late := s.tooLate m b.krtag.toNat
  if late && b.flags.getLsbD 0 then (s.putLeaf la (fun e => withMig e 0)).finishEntry q stLateDropped
  else
    let s := (s.putLeaf la (fun e => switchedLeaf e new (c.latch.getD 3 0))).dropPage m b.va.toNat
    let s := { s with forwards := s.forwards ++ [{ old := old, new := new, size := size, waits := s.alive, queue := q : Forward }] }
    let s := if late then { s with promoLate := min 0xFFFFFFFF (s.promoLate + 1) } else s
    s.modEntry q (fun c => { c with switched := some (if late then stLate else doneStatus c) })

/-- One access of a page move. -/
def pageGo (b : PageBody) (s : State) (q : Nat) (c : CurrentEntry) : State :=
  let old := c.latch.getD 1 0
  match c.switched with
  | some st => if s.forwards.any (fun f => f.queue == q) then s else s.finishEntry q st
  | none =>
    if c.latch.getD 2 0 ≤ c.progress then pageSwitch b s q c
    else
      let la := c.latch.getD 0 0
      let a := old + c.progress
      let as := moveBytes a (b.dpa.toNat + c.progress)
      if s.preparedRange a 64 || !s.portRoom as then s.waitOn q b.va.toNat
      else ((s.copyGranule la a (b.dpa.toNat + c.progress)).usePort as).wroteGranule q 64 (s.moveTaint la a)

/-- `PROMO`, R330, R331. -/
def execPromo (e : EntryHeader) (b : PageBody) (s : State) : Host.Outcome State Fault Refusal :=
  engineTurn 0x0C e (pageStart true b) (pageGo b) s

/-- `DEMO`, R330, R331. -/
def execDemo (e : EntryHeader) (b : PageBody) (s : State) : Host.Outcome State Fault Refusal :=
  engineTurn 0x0D e (pageStart false b) (pageGo b) s

/-- An activation of a forward's list has left Live, Ended and Purging. -/
def State.hasLeft (s : State) (x : Nat × Nat × Nat) : Bool :=
  let c := s.colour x.1 x.2.1
  !(c.held && c.ser == x.2.2)

/-- `FORWARD_RETIRE`, R332. -/
def execForwardRetire (s : State) : Host.Outcome State Fault Refusal :=
  match s.cur with
  | .queue q => .next { s with forwards := s.forwards.filter (fun f => !(f.queue == q && f.waits.all s.hasLeft)) }
  | _ => .fault .misplaced

end Sys2Proof.Machine
end

