-- ==== Sys2Proof/Machine/Flue.lean ====
section
/-! DEFINITION. The flue links (R352 to R355): their states, flits and retries. -/

namespace Sys2Proof.Machine

/-! ### Links -/

def State.link (s : State) (l : Nat) : Link := Tab.get {} s.links l

def State.setLink (s : State) (l : Nat) (x : Link) : State := { s with links := Tab.set s.links l x }

def State.modLink (s : State) (l : Nat) (f : Link → Link) : State := s.setLink l (f (s.link l))

/-- A link changes its state, and the host is told (R365, KIND 5). -/
def State.moveLink (s : State) (l : Nat) (st : LinkState) : State := (s.modLink l (fun x => { x with st := st })).linkMessage l st.code

/-- Flits that a sender keeps until they are acknowledged (R354). -/
def replayDepth : Nat := 64

/-- Bytes of content that an item's messages carry (log 118). -/
def itemContent : FlueItem → Nat
  | .started _ _ _ _ => 16
  | .piece _ _ _ _ xs _ _ => 16 + 4 * xs.length
  | .ended _ _ ms => 8 + 2 * ms.length
  | .sent _ _ bs _ => 16 + bs.length
  | .more _ _ => 0
  | _ => 16

/-- Content bytes of one message: five data flits of 32 bytes behind its route flit (R54). -/
def messageRoom : Nat := 160

/-- An item as the flits that carry it, one message to a flit: a message never crosses a flit boundary (R353). -/
def itemFragments (x : FlueItem) : List FlueItem := (List.range (cdiv (itemContent x) messageRoom - 1)).map (fun i => .more x i) ++ [x]

/-- The item that a fragment belongs to, its number, and its bytes: the route flit and its data flits. -/
def itemPart (x : FlueItem) : FlueItem × Nat × Nat := match x with
  | .more y i => (y, i, 192)
  | y => let k := cdiv (itemContent y) messageRoom - 1
    (y, k, 32 + roundUp (itemContent y - messageRoom * k) 32)

/-- The 240 payload bytes of the flit that carries a fragment: its message, and zeros. -/
def itemPayload (x : FlueItem) : List Byte :=
  let p := itemPart x
  (List.range 240).map (fun i => if i < p.2.2 then Config.itemByte p.1 (192 * p.2.1 + i) else 0)

/-- The header of a flit (R353). -/
def flitHeader (seq ack typ : Nat) : BitVec 32 := BitVec.ofNat 32 (seq % 4096 * 2 ^ 20 + ack % 4096 * 2 ^ 8 + typ * 2 ^ 4)

/-- A flit with its CRC over bytes 0 to 243. -/
def makeFlit (header : BitVec 32) (bytes : List Byte) (items : List FlueItem) : Flit :=
  { header := header, bytes := bytes, crc := Config.crc32 (leBytes 4 header.toNat ++ bytes), payload := items }

/-- The flit with the ACK of the moment: a replayed flit acknowledges what has come since. -/
def flitAcking (f : Flit) (ack : Nat) : Flit := makeFlit (flitHeader f.seq.toNat ack f.typ.toNat) f.bytes f.payload

/-- Put what waits into flits, while the replay buffer has room. -/
def flushFlits : List FlueItem → Link → Link
  | [], x => { x with pending := [] }
  | i :: t, x =>
    if replayDepth ≤ x.replay.length then { x with pending := i :: t }
    else
      let f := makeFlit (flitHeader x.seqOut x.seqIn 0) (itemPayload i) [i]
      flushFlits t { x with seqOut := (x.seqOut + 1) % 4096, replay := x.replay ++ [f], outbox := x.outbox ++ [f] }

/-- Send what waits, over an Active link. -/
def Link.flush (x : Link) : Link := if x.st == .active then flushFlits x.pending x else x

/-- Give items to a link. -/
def State.flueSend (s : State) (l : Nat) (items : List FlueItem) : State :=
  s.modLink l (fun x => { x with pending := x.pending ++ items.flatMap itemFragments }.flush)

/-- The die of a link (R15). -/
def linkDie (l : Nat) : Nat := l / 3

/-! ### Who uses a link -/

/-- Queues of the collective engine of a die. -/
def collectiveQueues (d : Nat) : List Nat := (List.range 16).map (fun i => 128 * d + 96 + i)

/-- The queue performs a collective. -/
def isCollective (c : CurrentEntry) : Bool := [0x10, 0x11, 0x12].contains (imageKind c.image)

/-- The queue performs a transfer to or from a peer. -/
def isTransfer (c : CurrentEntry) : Bool := [0x13, 0x14].contains (imageKind c.image)

/-- The body of a running collective. -/
def CurrentEntry.collBody (c : CurrentEntry) : CollBody := unpackColl (c.image.extractLsb' 128 320)

/-- The body of a running transfer. -/
def CurrentEntry.peerBody (c : CurrentEntry) : PeerBody := unpackPeer (c.image.extractLsb' 128 320)

/-- The link that reaches a rank, by the group descriptor that the entry keeps. -/
def CurrentEntry.linkOf (c : CurrentEntry) (r : Nat) : Nat := bits (c.latch.getD (r + 1) 0) 19 16

/-- Neighbours of a rank: of a ring or a tree (R357). -/
def neighboursOf (topo nm r : Nat) : List Nat :=
  if topo = 0 then (if nm = 2 then [1 - r] else [(r + nm - 1) % nm, (r + 1) % nm])
  else (if r = 0 then [] else [(r - 1) / 2]) ++ [2 * r + 1, 2 * r + 2].filter (fun x => decide (x < nm))

/-- The neighbours of a running collective. -/
def CurrentEntry.neighbours (c : CurrentEntry) : List Nat :=
  let b := c.collBody
  neighboursOf b.topo.toNat b.nm.toNat b.rank.toNat

/-- Ranks that a queue reaches over a link: the peer of a transfer is rank 0. -/
def CurrentEntry.ranksOver (c : CurrentEntry) (l : Nat) : List Nat :=
  if !c.begun then []
  else if isCollective c then c.neighbours.filter (fun r => c.linkOf r == l)
  else if isTransfer c && c.peerBody.link.toNat == l then [0]
  else []

/-- Members that the loss of a link makes lost. -/
def State.membersOver (s : State) (l : Nat) : List (Nat × Nat) :=
  (collectiveQueues (linkDie l)).flatMap (fun q => match (s.queue q).cur with
    | some c => (c.ranksOver l).map (fun r => (q, r))
    | none => [])

/-- A link is fenced: what it was to send is given up, and its peer is lost to what uses it. -/
def State.fenceLink (s : State) (l : Nat) : State :=
  let s := (s.modLink l (fun x => { x with pending := [], replay := [] })).moveLink l .fenced
  let s : State := { s with posted := s.posted.filter (fun p => p.link != l) }
  s.push ((s.membersOver l).map (fun m => .event .collectiveMemberLost (.member m.1 m.2)))

/-! ### Host writes (R352) -/

/-- `FLUE_ENABLE`, R352: a write of FLUE_CTL's ENABLE. -/
def execFlueEnable (on : Bool) (s : State) : Host.Outcome State Fault Refusal :=
  match s.cur with
  | .link l =>
    .next (let x := s.link l
      let s := s.setLink l { x with enable := on, fence := false }
      if on && x.st == .disabled then s.moveLink l .down
      else if !on && x.st == .fenced then s.moveLink l .disabled
      else s)
  | _ => .fault .misplaced

/-- `FLUE_FENCE`, R352: a write of FLUE_CTL's FENCE. A Disabled link is not fenced: with ENABLE = 1 in the same write it goes Down. -/
def execFlueFence (s : State) : Host.Outcome State Fault Refusal :=
  match s.cur with
  | .link l =>
    .next (let x := s.link l
      let s := s.setLink l { x with fence := true }
      if x.st == .disabled then (if x.enable then s.moveLink l .down else s)
      else if x.st == .fenced then s else s.fenceLink l)
  | _ => .fault .misplaced

/-! ### Training (Table 20-1) -/

/-- A step of the link that takes it from one state to another. -/
def linkStep (a b : LinkState) (s : State) : Host.Outcome State Fault Refusal :=
  match s.cur with
  | .link l => .next (if (s.link l).st == a then (s.modLink l (fun x => { x with since := s.cycle })).moveLink l b else s)
  | _ => .fault .misplaced

/-- `ELECTRICAL_IDLE_EXIT`, R352. -/
def execElectricalIdleExit (s : State) : Host.Outcome State Fault Refusal := linkStep .down .detect s

/-- `LANE_LOCK`, R352. -/
def execLaneLock (s : State) : Host.Outcome State Fault Refusal := linkStep .detect .train s

/-- `DETECT_TIMEOUT`, R352. -/
def execDetectTimeout (s : State) : Host.Outcome State Fault Refusal :=
  match s.cur with
  | .link l =>
    .next (let x := s.link l
      if x.st == .detect && decide (x.since + Config.lockLimit ≤ s.cycle) then s.moveLink l .down else s)
  | _ => .fault .misplaced

/-- Choose the nonce that the partner is to sign (R355): a free value (log 5). -/
def State.chooseNonce (s : State) (l : Nat) : State :=
  let (v, s) := s.freeWord
  s.modLink l (fun x => { x with nonce := BitVec.ofNat 256 v, offered := none })

/-- `EQUALISATION_CONVERGE`, R352: the Config exchange begins with a nonce for the partner. -/
def execEqualisationConverge (s : State) : Host.Outcome State Fault Refusal :=
  match s.cur with
  | .link l => .next (if (s.link l).st == .train then ((s.modLink l (fun x => { x with since := s.cycle })).chooseNonce l).moveLink l .config else s)
  | _ => .fault .misplaced

/-- The partner's signature verifies under a module key that the firmware trusts, over this side's nonce, and its flit format is the
same (R355, R367). -/
def State.trusts (s : State) (l : Nat) (o : ConfigOffer) : Bool :=
  o.key.any (fun k => s.boot.firmware.moduleKeys.contains k) && o.side.nonce == (s.link l).nonce && o.side.format == s.identity.format

/-- What this side signs for the partner (R355). -/
def State.signs (s : State) (o : ConfigOffer) : ConfigSide :=
  { moduleId := s.identity.moduleId, lanes := s.identity.lanes, format := s.identity.format, nonce := o.asks }

/-- `CONFIG_EXCHANGE`, R355: a new link begins its sequence numbers anew (R353). -/
def execConfigExchange (side : ConfigSide) (key : Option Nat) (asks : BitVec 256) (s : State) : Host.Outcome State Fault Refusal :=
  let o : ConfigOffer := { side := side, key := key, asks := asks }
  match s.cur with
  | .link l =>
    .next (let x := s.link l
      if x.st != .config then s
      else if s.trusts l o then
        (s.setLink l { x with peer := o.side.moduleId.toNat, offered := some (s.signs o), seqOut := 0, seqIn := 4095, replay := [], retries := []
                              attempts := 0, asked := [], pending := [], inbox := [], skips := [], outbox := [] }).moveLink l .active
      else (s.setLink l { x with offered := some (s.signs o) }).fenceLink l)
  | _ => .fault .misplaced

/-! ### Flits (R353, R354) -/

/-- A current entry of a queue takes an item. -/
def CurrentEntry.takes (c : CurrentEntry) (i : FlueItem) : Bool :=
  c.begun && (match i with
   | .started t _ _ _ => isCollective c && c.collBody.ctag == t
   | .piece t _ _ _ _ _ _ => isCollective c && c.collBody.ctag == t
   | .ended t _ _ => isCollective c && c.collBody.ctag == t
   | .lost t _ => isCollective c && c.collBody.ctag == t
   | .disagree t => isCollective c && c.collBody.ctag == t
   | .posted _ _ _ => false
   | .sent n _ _ _ => imageKind c.image == 0x14 && c.coll.id == some n
   | .performed n => imageKind c.image == 0x13 && c.coll.id == some n
   | .more _ _ => false)

/-- The links that reach the peer of a transfer (R360): its items may come over any of them. -/
def State.peerLinks (s : State) (c : CurrentEntry) : List Nat := (List.range 12).filter (fun l => (s.link l).peer == c.peerBody.peer.toNat)

/-- An item is kept until an entry takes it: the start of a collective and a disagreement may come before the member's own entry runs;
anything else belongs to an entry that runs, and is discarded without one (R359). -/
def State.wanted (s : State) (l : Nat) (i : FlueItem) : Bool :=
  match i with
  | .started _ _ _ _ => true
  | .disagree _ => true
  | .sent _ _ _ _ => s.queues.any (fun x => x.2.cur.any (fun c => c.takes i && (s.peerLinks c).contains l))
  | .performed _ => s.queues.any (fun x => x.2.cur.any (fun c => c.takes i && (s.peerLinks c).contains l))
  | _ => (collectiveQueues (linkDie l)).any (fun q => (s.queue q).cur.any (fun c => c.takes i))

/-- A start, or a disagreement, of a collective: what a skip names. -/
def itemOpening : FlueItem → Option (BitVec 32 × Bool)
  | .started t _ _ _ => some (t, false)
  | .disagree t => some (t, true)
  | _ => none

/-- An item of the partner comes to the collective engine: a RECV waits for its SEND, what belongs to a collective that has ended here is
discarded, and the rest waits for the entry that takes it. -/
def State.receiveItem (s : State) (l : Nat) (i : FlueItem) : State :=
  match i with
  | .posted t n id => { s with posted := s.posted ++ [{ link := l, mtag := t, len := n, id := id }] }
  | _ =>
    let x := s.link l
    match itemOpening i with
    | some k => if x.skips.contains k then s.setLink l { x with skips := x.skips.erase k } else s.setLink l { x with inbox := x.inbox ++ [i] }
    | none => if s.wanted l i then s.setLink l { x with inbox := x.inbox ++ [i] } else s

/-- Flits that are acknowledged leave the replay buffer, and the requests for them are forgotten. -/
def Link.acked (x : Link) (a : Nat) : Link :=
  let n := x.replay.length
  let keep := x.replay.filter (fun f => !decide ((a + 4096 - f.seq.toNat) % 4096 < n))
  if keep.length = n then x
  else { x with replay := keep, retries := x.retries.filter (fun e => keep.any (fun f => f.seq.toNat == e.1)) }.flush

/-- A flit passes its check: its CRC agrees, and its TYPE is not reserved. -/
def flitGood (f : Flit) : Bool :=
  f.bytes.length == 240 && f.crc == Config.crc32 (leBytes 4 f.header.toNat ++ f.bytes) && decide (f.typ.toNat ≤ 3)

/-- A retry request for a SEQ (R354). -/
def Link.retryFlit (x : Link) (seq : Nat) : Flit := makeFlit (flitHeader seq x.seqIn 2) (List.replicate 240 0) []

/-- `FLIT_RECEIVE`, R354: delivery once and in the order of SEQ. A flit that fails is asked for again; a retry request is acted on. -/
def execFlitReceive (f : Flit) (s : State) : Host.Outcome State Fault Refusal :=
  match s.cur with
  | .link l =>
    .next (let x := s.link l
      if x.st != .active then s
      else if !flitGood f then s.setLink l { x with asked := x.asked ++ [f.seq.toNat], outbox := x.outbox ++ [x.retryFlit f.seq.toNat] }
      else
        let x := x.acked f.ack.toNat
        if f.typ = 0 && f.seq.toNat == (x.seqIn + 1) % 4096 then
          f.payload.foldl (fun s i => s.receiveItem l i) (s.setLink l { x with seqIn := f.seq.toNat })
        else if f.typ = 2 then (s.setLink l x).push [.event (.retryRequest f.seq.toNat) (.link l)]
        else s.setLink l x)
  | _ => .fault .misplaced

/-- The flits from a sequence number onward, as they are sent again. -/
def Link.from (x : Link) (seq : Nat) : List Flit := (x.replay.dropWhile (fun f => f.seq.toNat != seq)).map (fun f => flitAcking f x.seqIn)

/-- One more request for a SEQ. -/
def Link.request (x : Link) (seq : Nat) : Link := { x with retries := Tab.modify 0 x.retries seq (fun n => n + 1) }

/-- `RETRY_REQUEST`, R354: go-back-N, and Recovery at the eighth request for one SEQ. -/
def execRetryRequest (seq : Nat) (s : State) : Host.Outcome State Fault Refusal :=
  match s.cur with
  | .link l =>
    .next (let x := s.link l
      if x.st != .active then s
      else
        let x := x.request seq
        if 8 ≤ Tab.get 0 x.retries seq then ((s.setLink l { x with attempts := 0 }).chooseNonce l).moveLink l .recovery
        else s.setLink l { x with outbox := x.outbox ++ x.from seq })
  | _ => .fault .misplaced

/-- The link comes back from Recovery: everything that is not acknowledged is sent again. -/
def Link.recovered (x : Link) : Link :=
  { x with retries := [], attempts := 0, outbox := x.outbox ++ x.replay.map (fun f => flitAcking f x.seqIn) }

/-- `RECOVERY_RETRAIN`, R352: where retraining and the Config exchange succeed, Active again with a replay from the oldest
unacknowledged flit; Fenced after three failures. -/
def execRecoveryRetrain (o : Option ConfigOffer) (s : State) : Host.Outcome State Fault Refusal :=
  match s.cur with
  | .link l =>
    .next (let x := s.link l
      if x.st != .recovery then s
      else match o.filter (s.trusts l) with
        | some o => (((s.setLink l { x.recovered with offered := some (s.signs o) }).moveLink l .active).modLink l Link.flush)
        | none => if 2 ≤ x.attempts then s.fenceLink l else (s.setLink l { x with attempts := x.attempts + 1 }).chooseNonce l)
  | _ => .fault .misplaced

end Sys2Proof.Machine
end

