-- ==== Sys2Proof/Machine/Collectives.lean ====
section
/-! DEFINITION. The collective engine (R356 to R360): REDSC, ALLGA, ALLRD, SEND, RECV, and the loss of a member. What the
members send each other is a list of items (log 56); the order of every reduction is that of R357. -/

namespace Sys2Proof.Machine

/-! ### The running collective -/

/-- What one collective command reduces and gathers. -/
inductive Gathering where
  | reduceScatter | allGather | allReduce
  deriving DecidableEq, Repr

/-- The kind of a command's entry. -/
def CurrentEntry.gathering (c : CurrentEntry) : Gathering :=
  match imageKind c.image with
  | 0x10 => .reduceScatter
  | 0x11 => .allGather
  | _ => .allReduce

def CurrentEntry.nm (c : CurrentEntry) : Nat := c.collBody.nm.toNat
def CurrentEntry.rank (c : CurrentEntry) : Nat := c.collBody.rank.toNat
def CurrentEntry.ring (c : CurrentEntry) : Bool := c.collBody.topo == 0

/-- The entry of the local piece. -/
def CurrentEntry.piece (c : CurrentEntry) : Nat := c.latch.getD 0 0

/-- The chunks' elements (R357): first, and count. -/
def CurrentEntry.chunk (c : CurrentEntry) (i : Nat) : Nat × Nat :=
  let e := tdCount c.piece
  (e * i / c.nm, e * (i + 1) / c.nm - e * i / c.nm)

/-- Element number `n` of a tensor in logical order, j fastest. -/
def elementNumber (e n : Nat) : Nat × Nat × Nat := (n / tdExt0 e / tdExt1 e, n / tdExt0 e % tdExt1 e, n % tdExt0 e)

/-- Change the collective of the current entry. -/
def State.modColl (s : State) (q : Nat) (f : Collective → Collective) : State := s.modEntry q (fun c => { c with coll := f c.coll })

/-- Send an item to a member. -/
def State.sendTo (s : State) (c : CurrentEntry) (r : Nat) (i : FlueItem) : State := s.flueSend (c.linkOf r) [i]

/-- Send an item to every neighbour but one. -/
def State.sendAround (s : State) (c : CurrentEntry) (but : Option Nat) (i : FlueItem) : State :=
  (c.neighbours.filter (fun r => some r != but)).foldl (fun s r => s.sendTo c r i) s

/-! ### Arithmetic (R357) -/

/-- Round an exact value to FP32, BF16 or binary16 under RNE. -/
def roundTo (fmt : Nat) (v : Val) : Nat := (roundWith fmt 0 0 false v.exact).1

/-- An element as the partial of a reduction carries it: I32 as it is, a float in FP32. -/
def asPartial (fmt x : Nat) : Nat := if fmt = 0 || fmt = 2 then x else roundTo 2 (decodeFloat fmt x)

/-- A partial with one more contribution folded in. -/
def foldElem (op fmt p x : Nat) : Nat :=
  if fmt = 0 then
    match op with
    | 0 => (p + x) % 2 ^ 32
    | 1 => if signedElem 32 p < signedElem 32 x then x else p
    | _ => if signedElem 32 x < signedElem 32 p then x else p
  else
    match op with
    | 0 => (roundWith 2 0 0 false (addVal 0 (decodeFloat 2 p) (decodeFloat 2 x))).1
    | 1 => (minMax 2 true p x).1
    | _ => (minMax 2 false p x).1

/-- A final value in the format of the tensor. -/
def asFinal (fmt p : Nat) : Nat := if fmt = 0 then p else roundTo fmt (decodeFloat 2 p)

/-! ### The body (R356) -/

/-- The link may carry an entry's traffic: on the queue's die, Active, and with the peer named. -/
def State.linkReaches (s : State) (q l peer : Nat) : Bool :=
  decide (l < 12) && linkDie l == q / 128 && (s.link l).st == .active && (s.link l).peer == peer

/-- Fields of the body that break their range. -/
def collBad (gather : Bool) (b : CollBody) : Bool :=
  b.stray || decide (4096 ≤ b.tid.toNat) || (!gather && decide (3 ≤ b.op.toNat)) || b.nm.toNat < 2 || 16 < b.nm.toNat ||
  b.nm.toNat ≤ b.rank.toNat || 2 ≤ b.topo.toNat || !wordAddress b.grp

/-- The group descriptor breaks its form, or a neighbour is not reached. -/
def State.groupBad (s : State) (q : Nat) (b : CollBody) (grp : List Nat) : Bool :=
  (List.range b.nm.toNat).any (fun r => r != b.rank.toNat && bits (grp.getD r 0) 31 20 != 0) ||
  (neighboursOf b.topo.toNat b.nm.toNat b.rank.toNat).any (fun r => !s.linkReaches q (bits (grp.getD r 0) 19 16) (bits (grp.getD r 0) 15 0))

/-- The start of a collective: the group descriptor and the local piece's entry are read and kept. -/
def collStart (gather : Bool) (b : CollBody) (s : State) (q : Nat) (c : CurrentEntry) : State × Start :=
  let m := (s.queue q).ctx
  if collBad gather b then (s, .fail stBadArg)
  else match s.engineRead m b.grp.toNat (4 * b.nm.toNat) with
    | .wait a => (s.waitOn q a, .wait)
    | .denied k w a => (s.withholdEntry q k w a, .wait)
    | .ok (s, bs, _) =>
      let grp := numbers 4 b.nm.toNat bs
      if s.groupBad q b grp then (s, .fail stBadArg)
      else match s.passOf m b.tid.toNat with
        | .error st => (s, .fail st)
        | .ok e =>
          if !([0, 2, 3, 4].contains (tdFmt e)) then (s, .fail stBadArg)
          else
            let c := { c with latch := e :: grp, begun := true }
            match s.dropTest q m b.tid.toNat e c with
            | (s, .go c) => (s.sendAround c none (.started b.ctag c.rank (tdCount e) (tdFmt e)), .go c)
            | x => x

/-! ### Items (R357 to R359) -/

/-- Add a number once. -/
def addOnce (l : List Nat) (x : Nat) : List Nat := if l.contains x then l else l ++ [x]

/-- The bitmap of a complete chunk: every rank, or for ALLGA the chunk's owner alone (R359). -/
def CurrentEntry.fullMap (c : CurrentEntry) (i : Nat) : Nat := if c.gathering = .allGather then 2 ^ i else 2 ^ c.nm - 1

/-- Contributions have entered the reduction of a chunk (R359). -/
def State.contribute (s : State) (q i ranks : Nat) : State := s.modColl q (fun x => { x with maps := Tab.modify 0 x.maps i (fun m => m ||| ranks) })

/-- A final value comes: it is to be written, and goes on to whom it is for. -/
def State.takeFinal (s : State) (q : Nat) (c : CurrentEntry) (r i : Nat) (xs : List Nat) (p : Bool) (ranks : Nat) : State :=
  let item : FlueItem := .piece c.collBody.ctag c.rank i true xs p ranks
  let keep := fun (s : State) => (s.contribute q i ranks).modColl q (fun x => { x with results := x.results ++ [(i, xs, p)] })
  if c.coll.complete.contains i || c.coll.results.any (fun x => x.1 == i) then s
  else if c.ring then
    let s := keep s
    let next := (c.rank + 1) % c.nm
    if next = i then s else s.sendTo c next item
  else match c.gathering with
    | .reduceScatter =>
      if i = c.rank then keep s
      else match (c.neighbours.filter (fun x => decide (c.rank < x))).find? (fun x => under x i) with
        | some x => s.sendTo c x item
        | none => s
    | _ => (keep s).sendAround c (some r) item
where
  /-- Rank `r` lies in the subtree of `x` (depth below 16). -/
  under (x r : Nat) : Bool := x == r || x == (r - 1) / 2 || x == ((r - 1) / 2 - 1) / 2 || x == (((r - 1) / 2 - 1) / 2 - 1) / 2

/-- Take one item that came from neighbour `r`. -/
def State.takeItem (s : State) (q r : Nat) (i : FlueItem) : State :=
  match (s.queue q).cur with
  | none => s
  | some c =>
    let s := s.modColl q (fun x => { x with heard := Tab.set x.heard r s.cycle })
    if c.coll.lost.contains r then s
    else match i with
      | .started _ x n f =>
        if n = tdCount c.piece ∧ f = tdFmt c.piece then s.modColl q (fun y => { y with started := addOnce y.started x })
        else s.modColl q (fun y => { y with mismatch := true })
      | .piece _ _ k final xs p ranks =>
        if final then s.takeFinal q c r k xs p ranks
        else s.modColl q (fun y => { y with parts := y.parts ++ [{ chunk := k, rank := r, elems := xs, tnt := p, ranks := ranks }] })
      | .ended t x maps =>
        if c.coll.ends.any (fun y => y.1 == x) then s
        else (s.modColl q (fun y => { y with ends := y.ends ++ [(x, maps)] })).sendAround c (some r) (.ended t x maps)
      | .lost t x =>
        if c.coll.lost.contains x then s
        else (s.modColl q (fun y => { y with lost := addOnce y.lost x })).sendAround c (some r) (.lost t x)
      | .disagree _ => s.modColl q (fun y => { y with mismatch := true, refused := addOnce y.refused r })
      | _ => s

/-- The first item of an inbox that the entry takes, and the inbox without it; one start of each neighbour is taken. -/
def takeFirst (p : FlueItem → Bool) : List FlueItem → Option (FlueItem × List FlueItem)
  | [] => none
  | i :: t => if p i then some (i, t) else (takeFirst p t).map (fun x => (x.1, i :: x.2))

/-- The entry takes an item of a neighbour now. -/
def CurrentEntry.takesNow (c : CurrentEntry) (r : Nat) (i : FlueItem) : Bool :=
  c.takes i && (match i with
    | .started _ x _ _ => x == r && !c.coll.started.contains r
    | _ => true)

/-- Take the next item from a neighbour. -/
def State.takeFrom (s : State) (q : Nat) (r : Nat) : State :=
  match (s.queue q).cur with
  | none => s
  | some c =>
    let l := c.linkOf r
    match takeFirst (c.takesNow r) (s.link l).inbox with
    | none => s
    | some (i, rest) => (s.modLink l (fun x => { x with inbox := rest })).takeItem q r i

/-! ### Contributions -/

/-- Read the own chunk as partials. -/
def State.ownChunk (s : State) (m : Nat) (c : CurrentEntry) (i : Nat) : Met (State × List Nat × Bool) :=
  let k := c.chunk i
  (s.atLength (readElems m c.piece ((List.range k.2).map (fun n => some (elementNumber c.piece (k.1 + n)))))).map (fun x =>
    (x.1, x.2.map (fun y => y.1), x.2.any (fun y => y.2)))

/-- Partials of the own chunk with those of others folded in, in order. -/
def reduceWith (op fmt : Nat) (own : List Nat) (others : List (List Nat)) : List Nat :=
  others.foldl (fun p xs => List.zipWith (foldElem op fmt) p xs) (own.map (asPartial fmt))

/-- The part of a chunk that came from a rank. -/
def Collective.part (x : Collective) (i r : Nat) : Option Part := x.parts.find? (fun y => y.chunk == i && y.rank == r)

/-- The chunk's reduction is complete here: it is rounded once to FMT, and kept or sent on. -/
def State.finishChunk (s : State) (q : Nat) (c : CurrentEntry) (i : Nat) (xs : List Nat) (p : Bool) : State :=
  let out := xs.map (asFinal (tdFmt c.piece))
  let item : FlueItem := .piece c.collBody.ctag c.rank i true out p (c.fullMap i)
  let keep := fun (s : State) => s.modColl q (fun x => { x with results := x.results ++ [(i, out, p)] })
  if c.ring then
    if c.gathering = .allReduce then (keep s).sendTo c ((c.rank + 1) % c.nm) item else keep s
  else s.takeFinal q c c.rank i out p (c.fullMap i)

/-- A chunk whose turn has come at this rank: the parts of others that are folded with the own one (R357). In a ring the
reduction starts at rank i + 1; in a tree a rank waits for its children. -/
def CurrentEntry.partsFor (c : CurrentEntry) (i : Nat) : Option (List Part) :=
  let src := if c.ring then (if c.rank = (i + 1) % c.nm then [] else [(c.rank + c.nm - 1) % c.nm])
    else c.neighbours.filter (fun x => decide (c.rank < x))
  let got := src.filterMap (c.coll.part i)
  if got.length = src.length then some got else none

/-- The next chunk that this rank can pass on. -/
def CurrentEntry.nextChunk (c : CurrentEntry) : Option (Nat × List Part) :=
  (List.range c.nm).findSome? (fun i => if c.coll.passed.contains i then none else (c.partsFor i).map (fun g => (i, g)))

/-- The ranks whose contributions are in a chunk when this rank's is folded in. -/
def CurrentEntry.entered (c : CurrentEntry) (got : List Part) : Nat := got.foldl (fun a g => a ||| g.ranks) (2 ^ c.rank)

/-- Fold the own chunk into what has come, and pass it on. In a ring the received partial comes first, in a tree the own. -/
def State.passChunk (s : State) (q : Nat) (c : CurrentEntry) (i : Nat) (got : List Part) : State :=
  let fmt := tdFmt c.piece
  let op := c.collBody.op.toNat
  s.meet q (s.ownChunk (s.queue q).ctx c i) (fun x =>
    let own := x.2.1
    let p := x.2.2 || got.any (fun g => g.tnt)
    let xs := match c.ring, got with
      | true, g :: _ => List.zipWith (foldElem op fmt) g.elems (own.map (asPartial fmt))
      | _, _ => reduceWith op fmt own (got.map (fun g => g.elems))
    let s := (x.1.contribute q i (c.entered got)).modColl q (fun y => { y with passed := addOnce y.passed i })
    if (if c.ring then c.rank = i else c.rank = 0) then s.finishChunk q c i xs p
    else s.sendTo c (if c.ring then (c.rank + 1) % c.nm else (c.rank - 1) / 2) (.piece c.collBody.ctag c.rank i false xs p (c.entered got)))

/-- ALLGA's own chunk goes out. -/
def State.gatherOwn (s : State) (q : Nat) (c : CurrentEntry) : State :=
  s.meet q (s.ownChunk (s.queue q).ctx c c.rank) (fun x =>
    let item : FlueItem := .piece c.collBody.ctag c.rank c.rank true x.2.1 x.2.2 (2 ^ c.rank)
    let s := (x.1.contribute q c.rank (2 ^ c.rank)).modColl q (fun y => { y with passed := addOnce y.passed c.rank, complete := addOnce y.complete c.rank })
    if c.ring then s.sendTo c ((c.rank + 1) % c.nm) item else s.sendAround c none item)

/-- Write the elements of a chunk. -/
def writeElems (m e : Nat) (p : Bool) : Nat → List Nat → State → Met State
  | _, [], s => .ok s
  | n, x :: t, s =>
    let i := elementNumber e n
    (s.engineWrite m (elemAddr e i.1 i.2.1 i.2.2) (leBytes (elemWidth (tdFmt e) / 8) x) p).bind (writeElems m e p (n + 1) t)

/-- Bit offsets of the padding in the units that hold some elements of an interleaved tensor (R129). -/
def paddingOf (e : Nat) (is : List (Nat × Nat × Nat)) : List Nat :=
  let w := elemWidth (tdFmt e)
  let per := if tdLay e = 4 then 32768 else 1024
  if tdLay e < 2 then []
  else ((is.map (fun i => elemBit e i.1 i.2.1 i.2.2 / (per * w))).foldl insertRising []).flatMap (fun u =>
    ((List.range per).map (fun x => (u * per + x) * w)).filter (fun b => (elementAt e b).isNone))

/-- Padding is written as zero. -/
def writePadding (m e : Nat) : List Nat → State → Met State
  | [], s => .ok s
  | b :: t, s => (s.engineWrite m (tdBase e + b / 8) (leBytes (elemWidth (tdFmt e) / 8) 0) false).bind (writePadding m e t)

/-- Write the elements of a chunk from element `lo` on, and the padding of the units that hold them. -/
def State.putElems (s : State) (m e lo : Nat) (xs : List Nat) (p : Bool) : Met State :=
  (s.atLength (fun s => ((writePadding m e (paddingOf e ((List.range xs.length).map (fun n => elementNumber e (lo + n)))) s).bind
    (writeElems m e p lo xs)).map (fun s => (s, ())))).map (fun x => x.1)

/-- Write a chunk that is complete. -/
def State.writeChunk (s : State) (q : Nat) (c : CurrentEntry) (i : Nat) (xs : List Nat) (p : Bool) : State :=
  s.meet q (s.putElems (s.queue q).ctx c.piece (c.chunk i).1 xs p) (fun s =>
    ((s.modColl q (fun y => { y with results := y.results.tail, complete := addOnce y.complete i })).modEntry q
      (fun c => { c with poison := c.poison || p })).countGranules q (cdiv (xs.length * elemWidth (tdFmt c.piece)) 512))

/-! ### The end (R359) -/

/-- Nothing more comes from a rank. -/
def Collective.silent (x : Collective) (r : Nat) : Bool := x.lost.contains r || x.ends.any (fun e => e.1 == r)

/-- Every chunk has come that this member waits for, or can come no more. -/
def CurrentEntry.exhausted (c : CurrentEntry) : Bool :=
  let x := c.coll
  let every := List.range c.nm
  let final := fun (i : Nat) => x.complete.contains i
  let up := every.all (fun i => x.passed.contains i)
  if c.ring then
    let pred := (c.rank + c.nm - 1) % c.nm
    x.silent pred || (match c.gathering with
      | .reduceScatter => up && final c.rank
      | .allGather => every.all final
      | .allReduce => up && every.all final)
  else
    let kids := c.neighbours.filter (fun r => decide (c.rank < r))
    let partsDone := c.gathering == .allGather || up ||
      every.all (fun i => x.passed.contains i || kids.any (fun r => (x.part i r).isNone &&
        (x.silent r || x.lost.any (fun l => State.takeFinal.under r l))))
    let finals := match c.gathering with
      | .reduceScatter => final c.rank && up
      | _ => every.all final
    finals || (partsDone && (if c.gathering = .allGather then c.neighbours.all x.silent else c.rank == 0 || x.silent ((c.rank - 1) / 2)))

/-- The own contribution bitmap of every chunk. -/
def CurrentEntry.ownMaps (c : CurrentEntry) : List Nat := (List.range c.nm).map (fun i => Tab.get 0 c.coll.maps i)

/-- A survivor's bitmaps show a chunk complete. -/
def CurrentEntry.mapFull (c : CurrentEntry) (maps : List Nat) (i : Nat) : Bool := maps.getD i 0 &&& c.fullMap i == c.fullMap i

/-- A chunk is incomplete by the bitmaps of the survivors (R359): where every member holds it, for any of them; in REDSC for its owner,
or, where the owner is lost, for all. -/
def CurrentEntry.chunkLacks (c : CurrentEntry) (i : Nat) : Bool :=
  let alive := c.coll.ends.filter (fun e => !c.coll.lost.contains e.1)
  match c.gathering with
  | .reduceScatter =>
    if c.coll.lost.contains i then !alive.any (fun e => c.mapFull e.2 i) else alive.any (fun e => e.1 == i && !c.mapFull e.2 i)
  | _ => alive.any (fun e => !c.mapFull e.2 i)

/-- MAP: the chunks of the whole collective that are incomplete. -/
def CurrentEntry.finalMap (c : CurrentEntry) : Nat := (List.range c.nm).foldl (fun a i => if c.chunkLacks i then a ||| 2 ^ i else a) 0

/-- Every survivor has announced its end. -/
def CurrentEntry.allEnded (c : CurrentEntry) : Bool := (List.range c.nm).all c.coll.silent

/-- Announce the own end. -/
def State.announceEnd (s : State) (q : Nat) (c : CurrentEntry) : State :=
  let m := c.ownMaps
  (s.modColl q (fun x => { x with isOver := true, ends := x.ends ++ [(c.rank, m)] })).sendAround c none (.ended c.collBody.ctag c.rank m)

/-- Discard the start, or the disagreement, of a neighbour that has not been taken: now, or when it comes. -/
def Link.skip (x : Link) (k : BitVec 32 × Bool) : Link :=
  match takeFirst (fun i => itemOpening i == some k) x.inbox with
  | some (_, rest) => { x with inbox := rest }
  | none => { x with skips := x.skips ++ [k] }

/-- A collective ends here: what its neighbours have still to say of its start belongs to no later collective with its tag (R359;
DEDUCED, log 136). -/
def State.leaveColl (s : State) (c : CurrentEntry) : State :=
  c.neighbours.foldl (fun s r =>
    let s := if c.coll.started.contains r then s else s.modLink (c.linkOf r) (fun x => x.skip (c.collBody.ctag, false))
    if c.coll.mismatch && !c.coll.refused.contains r then s.modLink (c.linkOf r) (fun x => x.skip (c.collBody.ctag, true)) else s) s

/-- Every neighbour that is not lost has started. -/
def CurrentEntry.ready (c : CurrentEntry) : Bool := c.neighbours.all (fun r => c.coll.started.contains r || c.coll.lost.contains r)

/-- One turn of a running member: writes first, then contributions, then the end. -/
def State.collWork (s : State) (q : Nat) (c : CurrentEntry) : State :=
  let x := c.coll
  match x.results with
  | (i, xs, p) :: _ => s.writeChunk q c i xs p
  | [] =>
    if c.gathering = .allGather && !x.passed.contains c.rank then s.gatherOwn q c
    else match (if c.gathering = .allGather then none else c.nextChunk) with
      | some (i, got) => s.passChunk q c i got
      | none =>
        if !x.isOver then (if c.exhausted then s.announceEnd q c else s.waitEntry q)
        else if c.allEnded then
          let map := c.finalMap
          (((s.leaveColl c).workEntry q).modEntry q (fun c => { c with r0 := map })).finishEntry q (if map = 0 then doneStatus c else stPartial)
        else s.waitEntry q

/-- One turn of a collective. -/
def collGo (s : State) (q : Nat) (c : CurrentEntry) : State :=
  let s := c.neighbours.foldl (fun s r => s.takeFrom q r) s
  match (s.queue q).cur with
  | none => s
  | some c =>
    if c.coll.mismatch then (((s.sendAround c none (.disagree c.collBody.ctag)).leaveColl c).workEntry q).finishEntry q stBadArg
    else if !c.ready then s.waitEntry q
    else if !c.coll.began then
      (s.modColl q (fun x => { x with began := true, heard := c.neighbours.foldl (fun t r => Tab.set t r s.cycle) x.heard })).workEntry q
    else (s.workEntry q).collWork q c

/-- `REDSC`, R358. -/
def execRedsc (e : EntryHeader) (b : CollBody) (s : State) : Host.Outcome State Fault Refusal :=
  engineTurn 0x10 e (collStart false b) collGo s

/-- `ALLGA`, R358. -/
def execAllga (e : EntryHeader) (b : CollBody) (s : State) : Host.Outcome State Fault Refusal :=
  engineTurn 0x11 e (collStart true b) collGo s

/-- `ALLRD`, R358. -/
def execAllrd (e : EntryHeader) (b : CollBody) (s : State) : Host.Outcome State Fault Refusal :=
  engineTurn 0x12 e (collStart false b) collGo s

/-! ### SEND and RECV (R360) -/

/-- Fields of the body that break their range. -/
def peerBad (b : PeerBody) : Bool := b.stray || !wordAddress b.buf || !lengthOk b.len || !wpcOk b.wpc

/-- The body of a SEND. -/
def sendStart (b : PeerBody) (s : State) (q : Nat) (c : CurrentEntry) : State × Start :=
  if peerBad b || !s.linkReaches q b.link.toNat b.peer.toNat then (s, .fail stBadArg) else (s, .go c)

/-- The body of a RECV: it is posted to its peer. -/
def recvStart (b : PeerBody) (s : State) (q : Nat) (c : CurrentEntry) : State × Start :=
  if peerBad b || !s.linkReaches q b.link.toNat b.peer.toNat then (s, .fail stBadArg)
  else
    let (n, s) := s.fresh
    (s.flueSend b.link.toNat [.posted b.mtag b.len.toNat n], .go { c with coll := { id := some n } })

/-- The peer is lost: the entry completes PARTIAL. -/
def State.peerLost (s : State) (q : Nat) : State :=
  ((s.workEntry q).modEntry q (fun c => { c with r0 := 1 })).finishEntry q stPartial

/-- The next item of the entry, from any link to its peer, with that link and the inbox without it. -/
def State.nextItem (s : State) (c : CurrentEntry) : Option (Nat × FlueItem × List FlueItem) :=
  (s.peerLinks c).findSome? (fun l => (takeFirst c.takes (s.link l).inbox).map (fun x => (l, x)))

/-- Leave a link its other items. -/
def State.leaveItems (s : State) (l : Nat) (rest : List FlueItem) : State := s.modLink l (fun x => { x with inbox := rest })

/-- The first RECV that a SEND can match, and the others. -/
def takePosted (p : Posted → Bool) : List Posted → Option (Posted × List Posted)
  | [] => none
  | x :: t => if p x then some (x, t) else (takePosted p t).map (fun y => (y.1, x :: y.2))

/-- An older SEND to the same peer with the same tag still waits for its match (R360; DEDUCED, log 137). -/
def State.olderSend (s : State) (q : Nat) (c : CurrentEntry) : Bool :=
  s.queues.any (fun x => x.1 != q && x.2.cur.any (fun d => d.begun && d.finish.isNone && imageKind d.image == 0x13 && d.coll.id.isNone &&
    d.peerBody.peer == c.peerBody.peer && d.peerBody.mtag == c.peerBody.mtag &&
    (decide (d.started < c.started) || (d.started == c.started && decide (x.1 < q)))))

/-- The oldest RECV of the peer that a SEND matches (R360). -/
def State.matchPosted (s : State) (q : Nat) (c : CurrentEntry) : Option (Posted × List Posted) :=
  if s.olderSend q c then none
  else takePosted (fun p => (s.link p.link).peer == c.peerBody.peer.toNat && p.mtag == c.peerBody.mtag) s.posted

/-- A SEND has its match: bytes go out granule by granule, and then it waits until they have performed. -/
def State.sendMatched (s : State) (q : Nat) (c : CurrentEntry) (b : PeerBody) (n : Nat) : State :=
  let len := b.len.toNat
  if c.progress < len then
    let k := chunkAt b.buf.toNat c.progress len
    s.meet q (s.engineRead (s.queue q).ctx (b.buf.toNat + c.progress) k) (fun x =>
      (x.1.flueSend b.link.toNat [.sent n len x.2.1 x.2.2]).wroteGranule q k x.2.2)
  else match s.nextItem c with
    | some (l, .performed _, rest) => ((s.leaveItems l rest).workEntry q).finishEntry q (doneStatus c)
    | _ => if c.coll.lost.contains 0 then s.peerLost q else s.waitEntry q

/-- One turn of a SEND. -/
def sendGo (b : PeerBody) (s : State) (q : Nat) (c : CurrentEntry) : State :=
  match c.coll.id with
  | some n => if c.coll.lost.contains 0 && decide (c.progress < b.len.toNat) then s.peerLost q else s.sendMatched q c b n
  | none =>
    match s.matchPosted q c with
    | some (p, rest) =>
      let s := ({ s with posted := rest } : State).workEntry q
      if p.len ≠ b.len.toNat then (s.flueSend b.link.toNat [.sent p.id b.len.toNat [] false]).finishEntry q stBadArg
      else s.modColl q (fun x => { x with id := some p.id })
    | none => if c.coll.lost.contains 0 then s.peerLost q else s.waitEntry q

/-- `SEND`, R360. -/
def execSend (e : EntryHeader) (b : PeerBody) (s : State) : Host.Outcome State Fault Refusal := engineTurn 0x13 e (sendStart b) (sendGo b) s

/-- A RECV has received what it keeps in its buffer: write it granule by granule. -/
def State.recvWrite (s : State) (q : Nat) (c : CurrentEntry) (b : PeerBody) : State :=
  let k := min (64 - (b.buf.toNat + c.progress) % 64) c.buffer.length
  s.meet q (s.writeTagged (s.queue q).ctx (b.buf.toNat + c.progress) (c.buffer.take k)) (fun s =>
    ((s.modEntry q (fun c => { c with buffer := c.buffer.drop k })).wroteGranule q k ((c.buffer.take k).any (fun x => x.2))).risePointer q b.wpc k)

/-- One turn of a RECV. -/
def recvGo (b : PeerBody) (s : State) (q : Nat) (c : CurrentEntry) : State :=
  if !c.buffer.isEmpty then s.recvWrite q c b
  else if b.len.toNat ≤ c.progress then
    (s.flueSend b.link.toNat (match c.coll.id with
      | some n => [.performed n]
      | none => [])).finishEntry q (doneStatus c)
  else match s.nextItem c with
    | some (l, .sent _ len bs p, rest) =>
      let s := (s.leaveItems l rest).workEntry q
      if len ≠ b.len.toNat then s.finishEntry q stBadArg
      else s.modEntry q (fun c => { c with buffer := (bs.take (len - c.progress)).map (fun x => (x, p)) })
    | _ => if c.coll.lost.contains 0 then s.peerLost q else s.waitEntry q

/-- `RECV`, R360. -/
def execRecv (e : EntryHeader) (b : PeerBody) (s : State) : Host.Outcome State Fault Refusal := engineTurn 0x14 e (recvStart b) (recvGo b) s

/-! ### A member is lost (R359) -/

/-- When a rank last sent something: a neighbour by its own items; the next rank of a ring, whose data do not come here, and a rank that
is no neighbour, by any item that came. -/
def CurrentEntry.lastHeard (c : CurrentEntry) (r : Nat) : Nat :=
  match (if c.ring && c.nm != 2 && r == (c.rank + 1) % c.nm then none else Tab.find c.coll.heard r) with
  | some t => t
  | none => c.coll.heard.foldl (fun a x => max a x.2) 0

/-- A member is lost: its link is Fenced, or it sends nothing for 2,097,152 cycles while the collective runs. -/
def State.memberGone (s : State) (c : CurrentEntry) (r : Nat) : Bool :=
  if isTransfer c then r == 0 && (s.link c.peerBody.link.toNat).st == .fenced
  else isCollective c && decide (r < c.nm) && r != c.rank && !c.coll.ends.any (fun e => e.1 == r) &&
    ((c.neighbours.contains r && (s.link (c.linkOf r)).st == .fenced) ||
     (c.coll.began && decide (c.lastHeard r + Config.requestTimeout ≤ s.cycle)))

/-- `COLLECTIVE_MEMBER_LOST`, R359. -/
def execCollectiveMemberLost (s : State) : Host.Outcome State Fault Refusal :=
  match s.cur with
  | .member q r =>
    .next (match (s.queue q).cur with
      | none => s
      | some c =>
        if !c.begun || c.coll.lost.contains r || !s.memberGone c r then s
        else
          let s := s.modColl q (fun x => { x with lost := addOnce x.lost r })
          if isCollective c then s.sendAround c (some r) (.lost c.collBody.ctag r) else s)
  | _ => .fault .misplaced

end Sys2Proof.Machine
end

