-- ==== Sys2Proof/Machine/Contract.lean ====
section
/-! DEFINITION. The contraction group (R144 to R164): the contraction nodes and their steps, the accumulator
instructions, the stay register, the Hadamard transform, the tables and the transposition buffer. -/

namespace Sys2Proof.Machine

/-! ### Conditions (R144, R152) -/

/-- No contraction of the slot is in progress. -/
def trineIdle (f : Fire) (s : State) : Bool := (s.slot f.h f.k).contraction.isNone

/-- No step of the hearth's trine unit still runs, and none has begun in this cycle. -/
def State.unitFree (s : State) (h : Nat) : Bool :=
  (List.range 4).all (fun k => match (s.slot h k).contraction with
    | some c => decide (c.busyUntil ≤ s.cycle)
    | none => true)

/-- Rank of a slot at stage 2: a slot that has yielded last, then by priority, then by number; lower goes first. -/
def State.slotRank (s : State) (h k : Nat) : Nat :=
  let prio := match (s.slot h k).region with
    | some g => s.prioNow (s.region g).ctx
    | none => 0
  (if s.cycle < (s.slot h k).yieldUntil then 32 else 0) + (7 - prio) * 4 + k

/-- Rank of a slot for the trine unit (R144): stage 1 of R72, then stage 2. -/
def State.unitRank (s : State) (h k : Nat) : Nat :=
  (match (s.hearth h).starving with
    | some n => if n % 64 = 0 ∧ 65536 ≤ (s.slot h k).starve then 0 else 64
    | none => 64) + s.slotRank h k

/-- The committed descriptor that a node names. -/
def State.descriptor (s : State) (g : Nat) (r : Rec) : BitVec 512 :=
  Tab.get 0 (s.region g).cfg.cdx (r.lit32.toNat % 16)

/-- The walk that a firing would begin. -/
def Fire.walk (f : Fire) (s : State) : Walk := walkOf f.opc f.nrec (s.descriptor f.g f.nrec).toNat

/-- The checks of R157 that end in CDXBAD. -/
def beginOk (f : Fire) (s : State) : Bool :=
  let w := f.walk s
  let d := w.d
  let sparse := w.sparse
  let two := f.opc == 0x151 || f.opc == 0x153
  cdxOk d && (if sparse then cdxSpn d != 0 else cdxSpn d == 0) &&
  (f.opc != 0x150 || (cdxStay d == (f.nrec.ary == 3))) && (f.opc != 0x152 || !cdxStay d) &&
  (!two || (List.range 4).all (fun c => cdxExt d c == 0 || (amap d).contains c || (bmap d).contains c)) &&
  w.outputs != 0 && decide (bits f.lit 20 17 + 1 ≤ sliceUnits d sparse) &&
  (!w.held || decide (stayNeed d * elemWidth w.fmt ≤ 16384))

/-- Slot S is read from the stay register. -/
def heldOf (f : Fire) (s : State) : Bool := (f.walk s).held

/-! ### A step (R144 to R148) -/

/-- A token's elements as they enter the unit. -/
def streamOf (fmt : Nat) (t : Token) : List StreamElem :=
  (elemsOf fmt t.lanes).map (fun x => { x := x, scw := t.scw, flg := t.flg, tnt := t.tnt })

/-- Bits set in a lane. -/
def ones (w : Word) : Nat := popCount 32 w.toNat

/-- A mask of unit `u` breaks R148. -/
def maskBad (w : Walk) (u : Nat) (lo hi : Word) : Bool :=
  let m := lo.toNat + 2 ^ 32 * hi.toNat
  decide (popCount 64 m > 2 ^ (cdxSpn w.d + 2)) ||
  decide (m / 2 ^ (cdxEc w.d - (w.first + 64 * u)) != 0)

/-- Some mask that the lanes complete breaks R148; `i` is the number of the first lane. -/
def masksBad (w : Walk) : Nat → List Word → Bool
  | i, lo :: hi :: t => maskBad w (i / 2 % w.units) lo hi || masksBad w (i + 2) t
  | _, _ => false

/-- The contraction wants masks: those it has call for no more elements than it has received. -/
def Contraction.wantsMask (c : Contraction) (w : Walk) : Bool :=
  w.sparse && decide (c.lc < w.maskLanes) && decide (c.kept ≤ c.la * elemsPerLane w.fmt)

/-- The contraction wants elements. -/
def Contraction.wantsElems (c : Contraction) (w : Walk) : Bool :=
  !w.sparse || decide (w.maskLanes ≤ c.lc) || decide (c.kept > c.la * elemsPerLane w.fmt)

/-- Take a mask token. -/
def Contraction.takeMask (c : Contraction) (t : Token) : Contraction :=
  { c with lc := c.lc + t.wid, masks := c.masks ++ t.lanes.map (fun w => { w := w, flg := t.flg, tnt := t.tnt }), kept := t.lanes.foldl (fun a w => a + ones w) c.kept
           flg := c.flg ||| t.flg, tnt := c.tnt || t.tnt, sc := c.sc || t.sc }

/-- Take the tokens of the lockstep ports. -/
def Contraction.takeElems (c : Contraction) (w : Walk) (a b : Token) (e : Option Token) : Contraction :=
  let ts := a :: b :: e.toList
  { c with la := c.la + a.wid, lb := c.lb + b.wid
           lc := match e with
             | some t => c.lc + t.wid
             | none => c.lc
           ea := c.ea ++ streamOf w.fmt a, eb := c.eb ++ streamOf w.fmt b
           ec := match e with
             | some t => c.ec ++ streamOf w.fmt t
             | none => c.ec
           flg := c.flg ||| flagsOf ts, tnt := c.tnt || taintOf ts, sc := c.sc || scaledOf ts }

/-- Heads of the streamed ports, with the lanes each has delivered and should deliver. -/
def Contraction.ports (c : Contraction) (w : Walk) (x : NodeState) : List (Nat × Option Token × Nat × Nat) :=
  [(0, x.qa.head?, c.la, c.lanes w), (1, x.qb.head?, c.lb, c.lanes w)] ++
  (if w.streamC then [(2, x.qc.head?, c.lc, c.lanes w)] else if w.sparse then [(2, x.qc.head?, c.lc, w.maskLanes)] else [])

/-- A head that is no data token of the contraction's tag (Table 8-4, R307). -/
def Contraction.foreign (c : Contraction) (w : Walk) (x : NodeState) : Option (Nat × Nat × Nat) :=
  (c.ports w x).findSome? (fun p => match p.2.1 with
    | some t => if t.mark == .data && t.col == c.col && t.wave == c.wave then none else some (p.1, p.2.2.1, p.2.2.2)
    | none => none)

/-- What a step takes: the mask token of port C, and the lockstep tokens. -/
structure Taking where
  mask : Option Token
  elems : Option (Token × Token × Option Token)
  deriving DecidableEq, Repr

/-- What the next step would take. -/
def Contraction.taking (c : Contraction) (w : Walk) (x : NodeState) : Taking :=
  let mask := if c.wantsMask w then x.qc.head? else none
  let c' := match mask with
    | some t => c.takeMask t
    | none => c
  let elems :=
    if c'.wantsElems w then
      match x.qa.head?, x.qb.head? with
      | some a, some b => if w.streamC then x.qc.head?.map (fun e => (a, b, some e)) else some (a, b, none)
      | _, _ => none
    else none
  { mask := mask, elems := elems }

/-- A step may take place. -/
def Taking.any (t : Taking) : Bool := t.mask.isSome || t.elems.isSome

/-- The tokens of the lockstep ports with their ports and earlier lane counts. -/
def Taking.lockstep (t : Taking) (c : Contraction) : List (Nat × Token × Nat) :=
  match t.elems with
  | none => []
  | some (a, b, e) => [(0, a, c.la), (1, b, c.lb)] ++ (match e with
    | some x => [(2, x, c.lc)]
    | none => [])

/-- Tokens of one step that differ in width: the narrowest port (Table 8-4). -/
def Taking.uneven (t : Taking) (c : Contraction) : Option (Nat × Nat) :=
  match t.lockstep c with
  | [] => none
  | p :: more =>
    if more.all (fun q => q.2.1.wid == p.2.1.wid) then none
    else
      let m := more.foldl (fun b q => if q.2.1.wid < b.2.1.wid then q else b) p
      some (m.1, m.2.2 + m.2.1.wid)

/-- The contraction with what the step takes. -/
def Taking.into (t : Taking) (c : Contraction) (w : Walk) : Contraction :=
  let c := match t.mask with
    | some m => c.takeMask m
    | none => c
  match t.elems with
  | some (a, b, e) => c.takeElems w a b e
  | none => c

/-- Cycles of a step (R145). -/
def stepCycles (w : Walk) (wid closed masks : Nat) : Nat :=
  let r := if w.fmt = 2 then 8 else if w.fmt = 8 then 128 else if w.fmt = 9 then 256 else 32
  max 1 (max (cdiv (wid * elemsPerLane w.fmt) r)
    (max (cdiv closed 32) (if w.sparse then cdiv (64 * masks) (4 * r) else 0)))

/-- The ports hold more lanes than the contraction wants (Table 8-4). DEDUCED (log 24): masks beyond their number name
port C. -/
def Contraction.beyond (c : Contraction) (w : Walk) : Option (Nat × Nat × Nat) :=
  if w.sparse then
    if c.lc > w.maskLanes then some (2, c.lc, w.maskLanes)
    else if c.lc = w.maskLanes ∧ c.la > c.lanes w then some (0, c.la, c.lanes w)
    else none
  else if c.la > c.lanes w then some (0, c.la, c.lanes w)
  else none

/-- Every streamed port stands at exactly its count. -/
def Contraction.complete (c : Contraction) (w : Walk) : Bool :=
  c.out == w.outputs && c.la == c.lanes w && c.lb == c.lanes w && (!w.sparse || c.lc == w.maskLanes) &&
  (!w.streamC || c.lc == c.lanes w)

/-- The fault of a step, if it has one: cause and detail. -/
def stepFault (c : Contraction) (w : Walk) (t : Taking) : Option (Nat × Nat) :=
  let toks := t.mask.toList ++ (t.lockstep c).map (fun p => p.2.1)
  if c.nrec.scl = 1 ∧ toks.any (fun x => x.sc) then some (faultSclTag, 0)
  else if c.nrec.scl = 2 ∧ toks.any (fun x => !x.sc) then some (faultSclTag, 0)
  else
    match t.uneven c with
    | some (p, n) => some (faultTlen, tlenDetail p n ((t.into c w).lanes w))
    | none =>
      let c' := t.into c w
      let pending := if c.lc % 2 = 1 then (c.masks.drop (c.masks.length - 1)).map (fun m => m.w) else []
      match c'.beyond w with
      | some (p, n, e) => some (faultTlen, tlenDetail p n e)
      | none =>
        match t.mask with
        | some m => if masksBad w (c.lc - pending.length) (pending ++ m.lanes) then some (faultMaskN, 0) else none
        | none => none

/-- Remove the head tokens that a step takes. -/
def Taking.pop (t : Taking) (x : NodeState) (now : Nat) : NodeState :=
  let x := if t.mask.isSome then x.pop 2 now else x
  match t.elems with
  | some (_, _, e) =>
    let x := (x.pop 0 now).pop 1 now
    if e.isSome then x.pop 2 now else x
  | none => x

/-- One step of a contraction in hearth h and slot k. -/
def State.trineStep (s : State) (g h k : Nat) (c : Contraction) : State :=
  let w := c.walk
  let x := s.node h k c.node
  let t := c.taking w x
  let fault := fun (s : State) (cause detail : Nat) =>
    (s.modSlot h k (fun v => { v with contraction := none })).nodeFault g h k c.node c.col c.wave cause detail
  match stepFault c w t with
  | some (cause, detail) => fault s cause detail
  | none =>
    let s := s.setNode h k c.node (t.pop x s.cycle)
    let y := s.stayFile h c.ctx
    let c' := t.into c w
    let r := Trine.run w y (c'.ea.length + c'.masks.length + 1)
      { c := c', acc := s.accFile h c.ctx, nan := 0, ovf := 0, closed := 0 }
    let wid := match t.elems with
      | some (a, _, _) => a.wid
      | none => 0
    let n := stepCycles w wid r.closed (c'.lc / 2 - c.lc / 2)
    let done := r.c.complete w
    let c'' := { r.c with lastStep := s.cycle, busyUntil := s.cycle + n, done := done }
    let s := (s.setAcc h c.ctx r.acc).modColour g c.col (fun v =>
      { ((v.count r.nan r.ovf 0).fire h s.cycle).inPipe (s.cycle + max n 8) with taint := v.taint || c'.tnt })
    if r.bad then s.purgeCorrected g [c.col]
    else if done && w.held && y.cnt != stayNeed w.d then fault s faultTlen (tlenDetail 3 y.cnt (stayNeed w.d))
    else s.modSlot h k (fun v => { v with contraction := some c'' })

/-! ### Beginning (R157) -/

/-- A contraction as it begins. -/
def startContraction (f : Fire) (s : State) : Contraction :=
  { node := f.n, opc := f.opc, nrec := f.nrec, ctx := (s.region f.g).ctx, col := f.col, wave := f.wave
    cdx := s.descriptor f.g f.nrec, la := 0, lb := 0, lc := 0, ea := [], eb := [], ec := []
    flg := 0, tnt := false, sc := false, out := 0, pos := (f.walk s).first, masks := [], kept := 0
    nans := [], ovfs := [], lastStep := s.cycle, busyUntil := s.cycle, last := none, done := false }

/-- The accumulation of a hearth's file belongs to a firing (R150). -/
def State.chained (s : State) (f : Fire) : Bool :=
  (s.accFile f.h (s.region f.g).ctx).acol == some (f.k, f.col)

/-- Set ACOL to the firing's ctx/col (R150). -/
def State.setAcol (s : State) (f : Fire) : State :=
  let m := (s.region f.g).ctx
  s.setAcc f.h m { s.accFile f.h m with acol := some (f.k, f.col) }

/-- The start of a contraction and its first step. -/
def beginFire (f : Fire) (s : State) : State × Effect :=
  let d := (s.descriptor f.g f.nrec).toNat
  if !beginOk f s then (s, .fault faultCdxBad (f.lit % 16))
  else if heldOf f s && (s.stayFile f.h (f.context s)).fmt != f.nrec.fmt.toNat then (s, .fault faultStayBad 0)
  else if cdxAcc d && !s.chained f then (s, .fault faultAchain 0)
  else
    let c := startContraction f s
    let s := if cdxAcc d then s else s.setAcol f
    (s.trineStep f.g f.h f.k c, .done)

/-- The next step of a slot's contraction may run in this cycle, or must fault, but for a microtrap that brings its values back. -/
def State.stepWants (s : State) (h k : Nat) : Bool :=
  match (s.slot h k).region, (s.slot h k).contraction with
  | some g, some c =>
    let w := c.walk
    let x := s.node h k c.node
    s.firing g && !c.done && decide (c.busyUntil ≤ s.cycle) && ((c.foreign w x).isSome || ((c.taking w x).any && s.unitFree h))
  | _, _ => false

/-- What a contraction of a slot touches that is not in its hearth: the accumulators, or the stay register that holds slot S. -/
def State.stepNeeds (s : State) (h k : Nat) : List Bool :=
  match (s.slot h k).contraction with
  | none => []
  | some c => (if s.hasAcc h c.ctx then [] else [false]) ++ (if c.walk.held && !s.hasStay h c.ctx then [true] else [])

/-- The contraction of a slot whose next step may run in this cycle, or that must fault. -/
def State.stepDue (s : State) (h k : Nat) : Bool := s.stepWants h k && (s.stepNeeds h k).isEmpty

/-- A contraction may begin: its slot has none, and the trine unit is not taken by a running step or by one that a slot of
earlier rank is to run in this cycle (R144). -/
def trineReady (f : Fire) (s : State) : Bool :=
  trineIdle f s && s.unitFree f.h &&
  (List.range 4).all (fun j => !s.stepDue f.h j || decide (s.unitRank f.h f.k < s.unitRank f.h j))

def trineSpec : FireSpec := { ready := trineReady, anyWidth := true, usesAcc := true, usesStay := heldOf }

/-- `TRIC`, R157. -/
def execTric (r : Rec) (s : State) : Host.Outcome State Fault Refusal := fireHeld 0x150 r trineSpec beginFire s

/-- `MMA`, R157. -/
def execMma (r : Rec) (s : State) : Host.Outcome State Fault Refusal := fireHeld 0x151 r trineSpec beginFire s

/-- `TRIS`, R157. -/
def execTris (r : Rec) (s : State) : Host.Outcome State Fault Refusal := fireHeld 0x152 r trineSpec beginFire s

/-- `MMAS`, R157. -/
def execMmas (r : Rec) (s : State) : Host.Outcome State Fault Refusal := fireHeld 0x153 r trineSpec beginFire s

/-- `CONTRACTION_STEP`, R144. -/
def execContractionStep (s : State) : Host.Outcome State Fault Refusal :=
  match s.cur with
  | .slot h k =>
    match (s.slot h k).region, (s.slot h k).contraction with
    | some g, some c =>
      if !s.stepDue h k then .next s
      else
        match c.foreign c.walk (s.node h k c.node) with
        | some (p, n, e) =>
          .next ((s.modSlot h k (fun v => { v with contraction := none })).nodeFault g h k c.node c.col c.wave
            faultTlen (tlenDetail p n e))
        | none => .next (s.trineStep g h k c)
    | _, _ => .next s
  | _ => .fault .misplaced

/-- The result token of a contraction (R157). -/
def Contraction.result (c : Contraction) (k : Nat) : Token :=
  let l : List Word := [BitVec.ofNat 32 c.walk.outputs]
  { ctx := k, col := c.col, wave := c.wave, wid := 1, fmt := 1, sc := c.nrec.scl == 3 || c.sc
    flg := c.flg, tnt := c.tnt, res := residue l, lanes := l }

/-- The last sum reaches its accumulator and the result token is formed. -/
def State.endContraction (s : State) (g h k : Nat) (c : Contraction) (x : GroupSum) : State :=
  let t := Trine.reach { c := { c with last := none }, acc := s.accFile h c.ctx, nan := 0, ovf := 0, closed := 0 } x
  let s := s.modHearth h (fun v => { v with accs := Tab.set v.accs c.ctx t.acc })
  let s := s.modColour g c.col (fun v => v.count t.nan t.ovf 0)
  (s.modSlot h k (fun v => { v with contraction := some t.c })).modNode h k c.node (fun v =>
    { v with holds := v.holds ++
      [{ kind := .result, tok := t.c.result k, nrec := c.nrec, due := s.cycle, ready := true, col := c.col, pser := 0 }] })

/-- `CONTRACTION_END`, R145: 8 cycles after the last step began. -/
def execContractionEnd (s : State) : Host.Outcome State Fault Refusal :=
  match s.cur with
  | .slot h k =>
    match (s.slot h k).region, (s.slot h k).contraction with
    | some g, some c =>
      match c.last with
      | some x => if c.done && decide (c.lastStep + 8 ≤ s.cycle) then .next (s.endContraction g h k c x) else .next s
      | none => .next s
    | _, _ => .next s
  | _ => .fault .misplaced

/-! ### The Hadamard transform (R158) -/

/-- Exact sum of values in order, with the flags of an invalid sum. -/
def exactSum (mode : Nat) : Val × BitVec 5 → List Val → Val × BitVec 5
  | a, [] => a
  | a, v :: t => let r := addVal mode a.1 v; exactSum mode (r.1.toVal, a.2 ||| r.2) t

/-- A sum of a list, beginning with its first value. -/
def sumOf (mode : Nat) : List Val → Val × BitVec 5
  | [] => (.fin false 0 0, 0)
  | v :: t => exactSum mode (v, 0) t

/-- A finite value times 2^k. -/
def Val.scale (k : Int) : Val → Val
  | .fin n m e => .fin n m (e + k)
  | v => v

/-- One run's outputs before rounding. DEDUCED (log 25): infinities of both signs make every output of the run NaN. -/
def hadRun (mode sh : Nat) (xs : List Val) : List (Val × BitVec 5) :=
  if xs.any (fun v => v.isNan) then xs.map (fun _ => (.nan false, nanFlags xs))
  else if xs.contains (.inf false) && xs.contains (.inf true) then xs.map (fun _ => (.nan false, flagNV))
  else (List.range xs.length).map (fun k =>
    let r := sumOf mode (xs.mapIdx (fun i v => if popCount 8 (i &&& k) % 2 = 1 then v.negate else v))
    (r.1.scale (-(sh : Int)), r.2))

/-- Runs of n. -/
def chunks {α : Type} (n : Nat) : Nat → List α → List (List α)
  | 0, _ => []
  | i + 1, xs => if xs.isEmpty then [] else xs.take n :: chunks n i (xs.drop n)

/-- Round values in order, one draw each. -/
def roundAll (fmt mode : Nat) (sat : Bool) : List (Val × BitVec 5) → List Nat → List (Nat × BitVec 5)
  | [], _ => []
  | v :: t, ds =>
    (let r := roundWith fmt mode (ds.headD 0) sat v.1.exact; (r.1, r.2 ||| v.2)) :: roundAll fmt mode sat t ds.tail

/-- HAD's effect. -/
def hadFire (f : Fire) (s : State) : State × Effect :=
  let fmt := f.nrec.fmt.toNat
  let n := 16 * 2 ^ (f.lit % 4)
  let xs := (elemsOf fmt f.ta.lanes).map (decodeFloat fmt)
  let mode := f.mode s
  let (ds, s) := f.draws s xs.length
  let out := roundAll fmt mode f.sat ((chunks n xs.length xs).flatMap (hadRun mode (bits f.lit 5 2))) ds
  (s, .emit 6 (f.token fmt (packLanes fmt f.wid (out.map (fun x => x.1))) (out.foldl (fun a x => a ||| x.2) 0) 0))

/-- A firing's elements, under a format, are no whole number of runs of n. -/
def unevenRuns (fmt n : Nat) (f : Fire) : Bool := f.ta.lanes.length * elemsPerLane fmt % n != 0

/-- `HAD`, R158. -/
def execHad (r : Rec) (s : State) : Host.Outcome State Fault Refusal :=
  fireNode 0x154 r { badWidth := fun f => unevenRuns f.nrec.fmt.toNat (16 * 2 ^ (f.lit % 4)) f } hadFire s

/-! ### Tables (R159) -/

/-- The mark that LUTP leaves in STAYFMT. -/
def tableMark : Nat := 16

/-- A count as an N32 token. -/
def countToken (f : Fire) (n : Nat) (raised : BitVec 5) : Token := f.token 1 [BitVec.ofNat 32 n] raised 0

/-- Entry m of a table over four elements. -/
def tableEntry (xs : List Val) (m : Nat) : Nat × BitVec 5 :=
  let vs := (List.range 4).filterMap (fun e => if bit m e then some (xs.getD e (.fin false 0 0)) else none)
  let r := sumOf 0 vs
  let nan := if vs.any (fun v => v.isNan) then nanFlags vs else 0
  let q := roundWith 2 0 0 false r.1.exact
  (q.1, q.2 ||| r.2 ||| nan)

/-- Write lanes from an index on. -/
def putLanes (t : Tab Word) : Nat → List Nat → Tab Word
  | _, [] => t
  | i, x :: xs => putLanes (Tab.set t i (BitVec.ofNat 32 x)) (i + 1) xs

/-- LUTP's effect. -/
def lutpFire (f : Fire) (s : State) : State × Effect :=
  let fmt := f.nrec.fmt.toNat
  let xs := (elemsOf fmt f.ta.lanes).map (decodeFloat fmt)
  let n := xs.length / 4
  let base := f.lit % 32
  if base + n > 32 then (s, .fault faultStayBad 0)
  else
    let es := (chunks 4 xs.length xs).flatMap (fun g => (List.range 16).map (tableEntry g))
    let m := f.context s
    let y := s.stayFile f.h m
    (s.setStay f.h m { y with lanes := putLanes y.lanes (16 * base) (es.map (fun e => e.1)), fmt := tableMark },
     .emit 4 (countToken f n (es.foldl (fun a e => a ||| e.2) 0)))

/-- `LUTP`, R159. -/
def execLutp (r : Rec) (s : State) : Host.Outcome State Fault Refusal :=
  fireNode 0x155 r { ready := trineIdle, lut := true, usesStay := fun _ _ => true
                     badWidth := fun f => unevenRuns f.nrec.fmt.toNat 4 f } lutpFire s

/-- The table entry that plane b of weights 4g to 4g + 3 selects. -/
def planeIndex (ws : List Nat) (b : Nat) : Nat :=
  (List.range 4).foldl (fun a e => a + b2n (bit (ws.getD e 0) b) * 2 ^ e) 0

/-- The weighted entry of one group and bit plane: coefficients 1, 2, 4 and −8. -/
def planeTerm (y : StayFile) (table b idx : Nat) : Val :=
  let v := decodeFloat 2 (Tab.get 0 y.lanes (16 * table + idx) : Word).toNat
  let v := v.scale b
  if b = 3 then v.negate else v

/-- Output of LUTM for its weights, before it reaches the accumulator. -/
def lutSum (y : StayFile) (base : Nat) (ws : List Nat) : Nat × BitVec 5 :=
  let terms := (chunks 4 ws.length ws).mapIdx (fun g q => (List.range 4).map (fun b => planeTerm y (base + g) b (planeIndex q b)))
  let vs := terms.flatten
  let r := sumOf 0 vs
  let q := roundWith 2 0 0 false r.1.exact
  (q.1, q.2 ||| r.2 ||| nanFlags vs)

/-- Add sums into consecutive accumulators. -/
def addSums (f : BitVec 5) (t : Bool) : AccFile → Nat → List (Nat × BitVec 5) → AccFile
  | a, _, [] => a
  | a, i, x :: xs => addSums f t (a.add i x.1 (x.2 ||| f) t).1 (i + 1) xs

/-- LUTM's effect. DEDUCED (log 26): A's FLG and TNT go to AF and AT as for ACCX. -/
def lutmFire (f : Fire) (s : State) : State × Effect :=
  let nt := bits f.lit 14 10
  let base := bits f.lit 19 15
  let p := 4 * (nt + 1)
  let ws := elemsOf 10 f.ta.lanes
  let n := ws.length / p
  let m := f.context s
  let y := s.stayFile f.h m
  if y.fmt != tableMark then (s, .fault faultStayBad 0)
  else if !s.chained f then (s, .fault faultAchain 0)
  else if f.lit % 1024 + n > 1024 then (s, .fault faultAccRange 0)
  else
    let sums := (chunks p ws.length ws).map (lutSum y base)
    (s.setAcc f.h m (addSums f.ta.flg f.ta.tnt (s.accFile f.h m) (f.lit % 1024) sums), .emit 4 (countToken f n 0))

/-- `LUTM`, R159. -/
def execLutm (r : Rec) (s : State) : Host.Outcome State Fault Refusal :=
  fireNode 0x156 r { ready := trineIdle, lut := true, usesAcc := true, usesStay := fun _ _ => true
                     badWidth := fun f => unevenRuns 10 (4 * (bits f.lit 14 10 + 1)) f } lutmFire s

/-! ### Accumulators (R160, R161) -/

/-- Set a run of accumulators to +0 with AF and AT clear. -/
def clearRun (a : AccFile) (i n : Nat) : AccFile :=
  { a with vals := a.vals.filter (fun e => e.1 < i || i + n ≤ e.1), af := a.af.filter (fun e => e.1 < i || i + n ≤ e.1)
           taint := a.taint.filter (fun j => j < i || i + n ≤ j) }

/-- Convert an accumulator (R30 step 7): bits, flags and counts. -/
def readAcc (fmt scw mode : Nat) (sat : Bool) (d x : Nat) : Encoded :=
  let v := decodeFloat 2 x
  if fmt = 8 || fmt = 9 then encodeBlock fmt scw mode d v
  else
    let r := roundWith fmt mode d sat v.exact
    { bits := r.1, flags := r.2, sat := if sat && (r.2 &&& flagOF != 0 || fp32Inf x) then 1 else 0 }

/-- Convert accumulators in order, one draw each. -/
def readAll (fmt scw mode : Nat) (sat : Bool) : List Nat → List Nat → List Encoded
  | [], _ => []
  | x :: xs, ds => readAcc fmt scw mode sat (ds.headD 0) x :: readAll fmt scw mode sat xs ds.tail

/-- ACCRD's effect. -/
def accrdFire (f : Fire) (s : State) : State × Effect :=
  let fmt := f.nrec.fmt.toNat
  let base := bits f.lit 9 0
  let w := bits f.lit 15 10
  let n := w * elemsPerLane fmt
  let block := fmt == 8 || fmt == 9
  let scw := if block then (f.tb.lanes.headD 0).toNat % 65536 else 0
  let m := f.context s
  let a := s.accFile f.h m
  let is := (List.range n).map (fun i => base + i)
  let mode := f.mode s
  let (ds, s) := f.draws s n
  let es := readAll fmt scw mode f.sat (is.map (accVal a)) ds
  let raised := es.foldl (fun x e => x ||| e.flags) 0 ||| is.foldl (fun x i => x ||| accAf a i) 0
  let t := f.token fmt (packLanes fmt w (es.map (fun e => e.bits))) raised scw
  let s := s.setAcc f.h m (if bit f.lit 16 then { clearRun a base n with acol := some (f.k, f.col) } else a)
  let s := s.modColour f.g f.col (fun c => c.count (es.foldl (fun x e => x + e.nan) 0) 0 (es.foldl (fun x e => x + e.sat) 0))
  (s, .emit 4 { t with tnt := t.tnt || is.any (accTnt a) })

def accSpec : FireSpec := { ready := trineIdle, usesAcc := true }

/-- `ACCRD`, R160: B, the scale word, may have any width. -/
def execAccrd (r : Rec) (s : State) : Host.Outcome State Fault Refusal :=
  fireNode 0x157 r { accSpec with anyWidth := true } accrdFire s

/-- ACCZ's effect. -/
def acczFire (f : Fire) (s : State) : State × Effect :=
  let m := f.context s
  let a := clearRun (s.accFile f.h m) (bits f.lit 9 0) (bits f.lit 19 10 + 1)
  (s.setAcc f.h m { a with acol := some (f.k, f.col) }, .emit 1 f.passed)

/-- `ACCZ`, R161. -/
def execAccz (r : Rec) (s : State) : Host.Outcome State Fault Refusal := fireNode 0x158 r accSpec acczFire s

/-- Set accumulators from lanes. -/
def loadAccs (f : BitVec 5) (t : Bool) : AccFile → Nat → List Word → AccFile
  | a, _, [] => a
  | a, i, x :: xs => loadAccs f t (a.put i x.toNat f t) (i + 1) xs

/-- ACCLD's effect. -/
def accldFire (f : Fire) (s : State) : State × Effect :=
  let base := bits f.lit 9 0
  let m := f.context s
  if base + f.wid > 1024 then (s, .fault faultAccRange 0)
  else
    let a := loadAccs f.ta.flg f.ta.tnt (s.accFile f.h m) base f.ta.lanes
    (s.setAcc f.h m { a with acol := some (f.k, f.col) }, .emit 2 (countToken f f.wid 0))

/-- `ACCLD`, R161. -/
def execAccld (r : Rec) (s : State) : Host.Outcome State Fault Refusal := fireNode 0x159 r accSpec accldFire s

/-- Add lanes to accumulators, counting those that become NaN or infinite. -/
def addLanes (f : BitVec 5) (t : Bool) : AccFile × Nat × Nat → Nat → List Word → AccFile × Nat × Nat
  | a, _, [] => a
  | a, i, x :: xs =>
    let r := a.1.add i x.toNat f t
    addLanes f t (r.1, a.2.1 + b2n r.2.2.1, a.2.2 + b2n r.2.2.2) (i + 1) xs

/-- ACCX's effect. -/
def accxFire (f : Fire) (s : State) : State × Effect :=
  let base := bits f.lit 9 0
  let m := f.context s
  if !s.chained f then (s, .fault faultAchain 0)
  else if base + f.wid > 1024 then (s, .fault faultAccRange 0)
  else
    let r := addLanes f.ta.flg f.ta.tnt (s.accFile f.h m, 0, 0) base f.ta.lanes
    ((s.setAcc f.h m r.1).modColour f.g f.col (fun c => c.count r.2.1 r.2.2 0), .emit 2 (countToken f f.wid 0))

/-- `ACCX`, R161. -/
def execAccx (r : Rec) (s : State) : Host.Outcome State Fault Refusal := fireNode 0x15D r accSpec accxFire s

/-! ### The stay register (R162) -/

/-- Write elements of width w from element offset b on. -/
def putElems (fmt : Nat) (t : Tab Word) : Nat → List Nat → Tab Word
  | _, [] => t
  | b, x :: xs =>
    let n := elemsPerLane fmt
    let w := elemWidth fmt
    let old := (Tab.get 0 t (b / n) : Word).toNat
    let keep := old - bits old (w * (b % n) + w - 1) (w * (b % n)) * 2 ^ (w * (b % n))
    putElems fmt (Tab.set t (b / n) (BitVec.ofNat 32 (keep + x * 2 ^ (w * (b % n))))) (b + 1) xs

/-- TSTAY's effect. -/
def tstayFire (f : Fire) (s : State) : State × Effect :=
  let fmt := f.nrec.fmt.toNat
  let m := f.context s
  let y := s.stayFile f.h m
  let b := if bit f.lit 13 then y.cnt else f.lit % 8192
  let xs := elemsOf fmt f.ta.lanes
  let n := b + xs.length
  if n * elemWidth fmt > 16384 ∨ (0 < b ∧ y.fmt ≠ fmt) ∨ (0 < b ∧ (fmt = 8 ∨ fmt = 9) ∧ y.scw ≠ f.ta.scw) then
    (s, .fault faultStayBad 0)
  else
    (s.setStay f.h m { y with lanes := putElems fmt y.lanes b xs, cnt := n, fmt := fmt, scw := f.ta.scw },
     .emit 2 (countToken f n 0))

/-- `TSTAY`, R162. -/
def execTstay (r : Rec) (s : State) : Host.Outcome State Fault Refusal :=
  fireNode 0x15A r { ready := trineIdle, usesStay := fun _ _ => true } tstayFire s

/-! ### Transposition (R163) -/

/-- A block is still going out, or is another node's. DEDUCED (log 27): a TXPR is then not ready. -/
def blockReady (f : Fire) (s : State) : Bool :=
  match (s.slot f.h f.k).transpose with
  | some t => t.node == f.n && t.out.isEmpty
  | none => true

/-- Elements of a block in transposed order. -/
def transposed (xs : List Nat) : List Nat :=
  (List.range 1024).map (fun i => xs.getD (i % 32 * 32 + i / 32) 0)

/-- Cut the transposed elements into tokens of the widths received. -/
def blockTokens (k fmt : Nat) (t : Transpose) : List Nat → List Nat → List Token
  | [], _ => []
  | w :: ws, xs =>
    let n := w * elemsPerLane fmt
    let ls := packLanes fmt w (xs.take n)
    { ctx := k, col := t.tag.1, wave := t.tag.2, wid := w, fmt := fmt, sc := t.sc, flg := t.flg, tnt := t.tnt
      scw := t.scw, res := residue ls, lanes := ls } :: blockTokens k fmt t ws (xs.drop n)

/-- TXPR's effect. DEDUCED (log 27): the tokens of a block carry the OR of its tokens' FLG, TNT and SC. -/
def txprFire (f : Fire) (s : State) : State × Effect :=
  let fmt := f.nrec.fmt.toNat
  let xs := elemsOf fmt f.ta.lanes
  let old : Transpose := match (s.slot f.h f.k).transpose with
    | some t => t
    | none => { node := f.n, tag := (f.col, f.wave), scw := f.ta.scw, elems := [], widths := [], flg := 0, tnt := false
                sc := false, out := [], nrec := f.nrec, due := 0 }
  if old.scw ≠ f.ta.scw ∨ old.tag ≠ (f.col, f.wave) ∨ 1024 < old.elems.length + xs.length then (s, .fault faultTxBlk 0)
  else
    let t : Transpose :=
      { old with elems := old.elems ++ xs, widths := old.widths ++ [f.wid], flg := old.flg ||| flagsOf f.operands
                 tnt := old.tnt || taintOf f.operands, sc := old.sc || f.scOut, due := s.cycle + 2 }
    let t := if t.elems.length = 1024 then { t with out := blockTokens f.k fmt t t.widths (transposed t.elems) } else t
    ((s.pipe f 2).modSlot f.h f.k (fun x => { x with transpose := some t }), .done)

/-- `TXPR`, R163. -/
def execTxpr (r : Rec) (s : State) : Host.Outcome State Fault Refusal := fireNode 0x15B r { ready := blockReady } txprFire s

/-- The next transposed token may leave. -/
def State.blockDue (s : State) (h k : Nat) : Bool :=
  match (s.slot h k).region, (s.slot h k).transpose with
  | some g, some t => s.firing g && !t.out.isEmpty && decide (t.due ≤ s.cycle) && s.roomAll (s.bothTargets g h k t.node t.nrec)
  | _, _ => false

/-- `TXPR_OUTPUT`, R163: one token a cycle; the last frees the buffer. -/
def execTxprOutput (s : State) : Host.Outcome State Fault Refusal :=
  match s.cur with
  | .slot h k =>
    if !s.blockDue h k then .next s
    else
      match (s.slot h k).region, (s.slot h k).transpose with
      | some g, some t =>
        match t.out with
        | x :: more =>
          .next ((s.modSlot h k (fun v =>
            { v with transpose := if more.isEmpty then none else some { t with out := more, due := s.cycle + 1 } })).sendAll
              g h k t.node t.nrec true s.cycle x)
        | [] => .next s
      | _, _ => .next s
  | _ => .fault .misplaced

/-! ### Descriptors (R164) -/

/-- CDXSET's effect. -/
def cdxsetFire (f : Fire) (s : State) : State × Effect :=
  let i := (f.tb.lanes.headD 0).toNat % 16
  let d := imageOf f.ta
  if !cdxOk d then (s, .fault faultCdxBad i)
  else (s.stageEffect f (.descriptor i (BitVec.ofNat 512 d)), .emit 2 (countToken f i 0))

/-- `CDXSET`, R164. -/
def execCdxset (r : Rec) (s : State) : Host.Outcome State Fault Refusal :=
  fireNode 0x15C r { anyWidth := true, badWidth := fun f => f.ta.wid != 16 } cdxsetFire s

end Sys2Proof.Machine
end

