-- ==== Sys2Proof/Machine/HostOps.lean ====
section
/-! DEFINITION. The host's side: Viroft queue pairs and commands (R363 to R365), writes of module registers (R373) and what
they start, host memory requests (R362), power (R374) and attestation (R368). -/

namespace Sys2Proof.Machine

/-- MMIO is served: from phase 4, and not in the failed state (R366). -/
def State.served (s : State) : Bool := s.cxlUp && (s.phase == 4 || s.phase == 5)

/-- A host write that reaches its register. -/
def State.whenServed (s : State) (f : State → State) : State := if s.served then f s else s

/-- What an MMIO read of the host answers (R366, R373): from phase 4, and in the failed state, over CXL.io. No opcode stands for it: a
read changes nothing (log 125). -/
def State.mmioRead (s : State) (a n : Nat) : Option (List Byte) :=
  if s.cxlUp && (s.phase == 4 || s.phase == 5 || s.phase == 15) then some ((List.range n).map (fun i => s.registerByte (a + i))) else none

/-! ### Queue pairs (R363) -/

def State.pair (s : State) (p : Nat) : Pair := Tab.get {} s.pairs p

def State.setPair (s : State) (p : Nat) (x : Pair) : State := { s with pairs := Tab.set s.pairs p x }

/-- Entries of the submission and of the completion ring. -/
def Pair.sqSize (x : Pair) : Nat := 2 ^ bits x.sizes 4 0
def Pair.cqSize (x : Pair) : Nat := 2 ^ bits x.sizes 12 8

/-- The fields with which a pair may be enabled. -/
def Pair.valid (x : Pair) : Bool :=
  let n := bits x.sizes 4 0
  let m := bits x.sizes 12 8
  decide (4 ≤ n) && decide (n ≤ 16) && decide (4 ≤ m) && decide (m ≤ 16) && x.sqbase % 64 == 0 && x.cqbase % 64 == 0

/-- Submissions wait (R363). -/
def Pair.submitted (x : Pair) : Bool := x.en && x.sqHead != x.sqTail

/-- `SQ_TAIL_DOORBELL`, R363. -/
def execSqTailDoorbell (v : Nat) (s : State) : Host.Outcome State Fault Refusal :=
  match s.cur with
  | .pair p =>
    .next (s.whenServed (fun s =>
      let x := s.pair p
      if x.en && decide (v < x.sqSize) then s.setPair p { x with sqTail := v } else s))
  | _ => .fault .misplaced

/-- `CQ_HEAD_DOORBELL`, R363. -/
def execCqHeadDoorbell (v : Nat) (s : State) : Host.Outcome State Fault Refusal :=
  match s.cur with
  | .pair p =>
    .next (s.whenServed (fun s =>
      let x := s.pair p
      if x.en && decide (v < x.cqSize) then s.setPair p { x with cqHead := v } else s))
  | _ => .fault .misplaced

/-- A write of PCTL: CTX only while EN = 0, and EN = 1 only over valid fields, with every index at 0. -/
def Pair.control (x : Pair) (v : Nat) : Pair :=
  if v / 256 ≠ 0 ∨ bits v 6 3 ≠ 0 then x
  else if x.en then { x with en := bit v 7 }
  else
    let x := { x with ctx := bits v 2 0 }
    if bit v 7 && x.valid then { x with en := true, sqTail := 0, sqHead := 0, cqHead := 0, cqTail := 0, blocked := false } else x

/-- `VIROFT_PAIR_ENABLE`, R363: a write of PCTL. -/
def execViroftPairEnable (v : Nat) (s : State) : Host.Outcome State Fault Refusal :=
  match s.cur with
  | .pair p => .next (s.whenServed (fun s => s.setPair p ((s.pair p).control v)))
  | _ => .fault .misplaced

/-! ### Commands (R364) -/

/-- Physical address of the submission at a pair's head. -/
def Pair.headAddr (x : Pair) : Nat := x.sqbase + 64 * x.sqHead

/-- A command is consumed and answered. -/
def State.consumeCommand (s : State) (p : Nat) (cid : BitVec 32) (status : Nat) : State :=
  let x := s.pair p
  (s.setPair p { x with sqHead := (x.sqHead + 1) % x.sqSize, blocked := false }).answer p cid status

/-- Consumption stops at a command that waits for room. -/
def State.blockPair (s : State) (p : Nat) : State := s.setPair p { s.pair p with blocked := true }

/-- A command other than LAUNCH: journaled with STATE 2, answered, and carried out; it waits for a journal entry. -/
def accepted (opc : Nat) (cid : BitVec 32) (go : State → State) (s : State) : Host.Outcome State Fault Refusal :=
  match s.cur with
  | .pair p =>
    .next (if !(s.pair p).submitted then s
      else if !s.journalRoom then s.blockPair p
      else
        let x := s.pair p
        go ((s.journal opc p x.ctx 2 cid.toNat (s.fetchLe (x.headAddr + 8) 8)).consumeCommand p cid 0))
  | _ => .fault .misplaced

/-- `LAUNCH`, R364, R250, R371: it waits at the head of its ring until a journal entry can be had. -/
def execLaunch (cid : BitVec 32) (lra : BitVec 64) (s : State) : Host.Outcome State Fault Refusal :=
  match s.cur with
  | .pair p =>
    .next (if !(s.pair p).submitted then s
      else
        let a : Submission :=
          { lra := lra.toNat, ctx := (s.pair p).ctx, cid := cid.toNat, pair := some p, parent := none, after := false, at' := false
            recompute := none }
        if s.journalRoom then (s.consumeCommand p cid 0).push [.event (.kernelAccept a) .module] else s.blockPair p)
  | _ => .fault .misplaced

/-- `UNKNOWN_COMMAND`, R364. -/
def execUnknownCommand (cid : BitVec 32) (_opc : BitVec 8) (s : State) : Host.Outcome State Fault Refusal :=
  match s.cur with
  | .pair p => .next (if (s.pair p).submitted then s.consumeCommand p cid 1 else s)
  | _ => .fault .misplaced

/-! ### RESUME and ABORT (R168, R275, R279, R329) -/

/-- The fabric node that a command names: hearth, slot, node. -/
def namedNode (w : Withheld) : Nat × Nat × Nat := (hearthAt w.die.toNat w.x.toNat w.y.toNat, w.slot.toNat, w.node.toNat)

/-- The command names a place that exists. -/
def nodeExists (w : Withheld) : Bool := decide (w.die.toNat < 4) && decide (w.x.toNat < 128) && decide (w.y.toNat < 96) && decide (w.node.toNat < 16)

/-- The access withheld at a node, if it waits for the host. -/
def hostWait (x : Option WithheldAccess) : Option WithheldAccess := x.bind (fun w => if w.recompute.isSome || w.resumed then none else some w)


/-- A request that timed out issues again. -/
def Request.reissue (r : Request) (n now d : Nat) : Request := if r.node = n ∧ r.held then { r with held := false, issuedAt := now, due := now + d } else r

/-- Restart a node's access: a request that timed out issues again, and another's head token is checked again. -/
def State.resumeNode (s : State) (h k n : Nat) (w : WithheldAccess) : State :=
  if w.cause = causeTmo then
    let (d, s) := s.freeDelay
    s.modSlot h k (fun x =>
      let x := x.setNode n { x.node n with withheld := none }
      { x with cfg := { x.cfg with buffer := x.cfg.buffer.map (fun r => r.reissue n s.cycle d) } })
  else s.modNode h k n (fun x => { x with withheld := some { w with resumed := true } })

/-- Restart a queue's entry. -/
def State.resumeEntry (s : State) (q : Nat) : State :=
  match hostWait (s.queue q).withheld with
  | some _ => s.modQueue q (fun u => { u with withheld := none, st := if u.st == .stopped then .stopped else if u.en then .running else .disabled })
  | none => s

/-- Make a link write again. -/
def State.resumeLink (s : State) (q : Nat) : State :=
  match (s.queue q).linkFault with
  | some _ => (s.modQueue q (fun u => { u with linkFault := none, linkSince := none })).drainQueue q
  | none => s

/-- A command's withheld access, at a node or at a queue. -/
def State.withNamed (s : State) (w : Withheld) (node : State → Nat → Nat → Nat → WithheldAccess → State) (queue : State → Nat → State) : State :=
  if w.qid.toNat < 512 then queue s w.qid.toNat
  else if w.qid.toNat = 0xFFFF ∧ nodeExists w then
    let (h, k, n) := namedNode w
    match hostWait (s.node h k n).withheld with
    | some x => node s h k n x
    | none => s
  else s

/-- `RESUME`, R364. -/
def execResume (cid : BitVec 32) (w : Withheld) (s : State) : Host.Outcome State Fault Refusal :=
  accepted 0x02 cid (fun s => s.withNamed w State.resumeNode (fun s q => (s.resumeLink q).resumeEntry q)) s

/-- Abort a node's access: its kernel takes the fault ACCESS. -/
def State.abortNode (s : State) (h k n : Nat) (w : WithheldAccess) : State :=
  match (s.slot h k).region with
  | none => s
  | some g =>
    let f := s.withheldRecord g h k n w
    let s := s.purgeForGood g w.col
    match (s.region g).kernel with
    | none => s
    | some e => s.kernelFault e f

/-- Abort a queue's entry: it completes ABORTED, and at its completion write only DONE rises and the queue stops. At the read of NEXT
the entry has completed already: the queue stops, and reads NEXT when it goes on: DESIGN CHOICE (log 106). -/
def State.abortEntry (s : State) (q : Nat) : State :=
  let u := s.queue q
  match hostWait u.withheld with
  | none => s
  | some _ =>
    if u.relink then s.setQueue q { u with withheld := none, st := if u.en then .stopped else .disabled }
    else
    let c := u.cur.getD (unreadEntry u.done s.cycle)
    let s := s.setQueue q { u with withheld := none, cur := some c, st := if u.en then .running else .disabled }
    if c.finish.isSome then s.passEntry q stAborted true else s.finishEntry q stAborted

/-- `ABORT`, R364: of a link write's wait it has no effect (R275). -/
def execAbort (cid : BitVec 32) (w : Withheld) (s : State) : Host.Outcome State Fault Refusal :=
  accepted 0x03 cid (fun s => s.withNamed w State.abortNode State.abortEntry) s

/-! ### Kernels and contexts (Table 20-3) -/

/-- Change the newest kernel of a context and a request tag. -/
def State.withKernel (s : State) (m : BitVec 8) (tag : BitVec 32) (f : State → Nat → State) : State :=
  match s.newest m.toNat tag.toNat with
  | some e => f s e
  | none => s

/-- `RELEASE`, R364, R253. -/
def execRelease (cid rtag : BitVec 32) (m : BitVec 8) (s : State) : Host.Outcome State Fault Refusal :=
  accepted 0x04 cid (fun s => s.withKernel m rtag (fun s e => s.modKernel e (fun k => if k.st == .held then { k with st := .ready } else k))) s

/-- `WITHDRAW`, R364, R254. -/
def execWithdraw (cid rtag : BitVec 32) (m : BitVec 8) (s : State) : Host.Outcome State Fault Refusal :=
  accepted 0x05 cid (fun s => s.withKernel m rtag (fun s e => s.withdrawKernel e)) s

/-- A Visible kernel leaves the table (R254), and its journal entry is retired (R371). -/
def State.retireKernel (s : State) (e : Nat) : State :=
  let k := s.kernel e
  if k.st == .visible then (((s.regionsOf e).foldl (fun s g => s.detach g) s).journalState k.seq 2).setKernel e {} else s

/-- `RETIRE`, R364. -/
def execRetire (cid rtag : BitVec 32) (m : BitVec 8) (s : State) : Host.Outcome State Fault Refusal :=
  accepted 0x06 cid (fun s => s.withKernel m rtag State.retireKernel) s

/-- Evicted regions of a context that no kernel holds are released (R245). -/
def State.releaseEvicted (s : State) (m : Nat) : State :=
  (s.regions.filter (fun x => x.2.ctx == m && x.2.residence == .evicted && x.2.kernel.isNone)).foldl (fun s x =>
    (s.unbind x.1).dropImage x.1) s

/-- `CTXRES`, R364, R234. -/
def execCtxres (cid : BitVec 32) (m : BitVec 8) (s : State) : Host.Outcome State Fault Refusal :=
  accepted 0x07 cid (fun s =>
    if m.toNat < 8 && (s.context m.toNat).st == .halted then
      (s.modContext m.toNat (fun c => { c with st := .idle, halting := false })).releaseEvicted m.toNat
    else s) s

/-! ### Completion entries (R365) -/

/-- The lowest-numbered enabled pair that meets a condition. -/
def State.lowestPair (s : State) (p : Pair → Bool) : Option Nat := (s.pairs.find? (fun x => x.2.en && p x.2)).map (fun x => x.1)

/-- Where a message goes now. -/
def State.pairFor (s : State) (m : HostMessage) : Option Nat :=
  let any := s.lowestPair (fun _ => true)
  match m.pair with
  | some p => if (s.pair p).en then some p else any
  | none => match m.ctx with
    | some c => (s.lowestPair (fun x => x.ctx == c)).or any
    | none => any

/-- The completion ring has no room. -/
def Pair.cqFull (x : Pair) : Bool := (x.cqTail + 1) % x.cqSize == x.cqHead

/-- The first message that can leave: none passes another of its pair. -/
def nextMessage (s : State) : List Nat → List HostMessage → List HostMessage → Option (HostMessage × Nat × List HostMessage)
  | _, _, [] => none
  | full, before, m :: t =>
    match s.pairFor m with
    | none => nextMessage s full (before ++ [m]) t
    | some p =>
      if full.contains p || (s.pair p).cqFull then nextMessage s (p :: full) (before ++ [m]) t
      else some (m, p, before ++ t)

/-- `COMPLETION_ENTRY`, R365. -/
def execCompletionEntry (s : State) : Host.Outcome State Fault Refusal :=
  match s.cur with
  | .module =>
    .next (if !s.cxlUp then s
      else match nextMessage s [] [] s.outgoing with
        | none => s
        | some (m, p, rest) =>
          let x := s.pair p
          let s := s.putPhys (x.cqbase + 64 * x.cqTail) (leBytes 64 m.body)
          { s with outgoing := rest }.setPair p { x with cqTail := (x.cqTail + 1) % x.cqSize })
  | _ => .fault .misplaced

/-! ### Queues (R270, R271) -/

/-- A queue block after a write of EN. -/
def Queue.enable (u : Queue) (on fenced : Bool) : Queue :=
  if on then
    if u.en then u
    else
      let u := { u with en := true }
      { u with st := if fenced then .disabled else if u.withheld.isSome then .waiting else if u.cur.isSome then .running else u.rest }
  else
    let u := { u with en := false }
    if u.st == .running && u.cur.isSome then u else { u with st := .disabled }

/-- `QUEUE_EN_WRITE`, R271. -/
def execQueueEnWrite (on : Bool) (s : State) : Host.Outcome State Fault Refusal :=
  match s.cur with
  | .queue q => .next (s.whenServed (fun s => s.modQueue q (fun u => u.enable on (s.fencedDies.contains (q / 128)))))
  | _ => .fault .misplaced

/-- A write of one 8-byte word of a queue block, by its number; EN is written apart. A FETCH that the host writes back unchanged
still names the entry whose NEXT is to be read. -/
def Queue.write (u : Queue) (i v : Nat) : Queue :=
  let free := !u.en || u.host
  let u := if i = 4 ∧ !u.en then { u with ctx := bits v 62 60, host := bit v 56 } else u
  if !free then u
  else match i with
    | 0 => { u with done := v % 2 ^ 48 }
    | 1 => { u with tailn := v % 2 ^ 48 }.wake
    | 2 => { u with appn := v % 2 ^ 48 }
    | 3 => { u with last := v % 2 ^ 55 }
    | _ => { u with fetch := v % 2 ^ 55, relink := u.relink && v % 2 ^ 55 == u.fetch }

/-! ### Module registers (R373) -/

/-- A kernel of the context is under way: "RW while idle" is refused. -/
def KernelState.busy (st : KernelState) : Bool :=
  st == .waiting || st == .held || st == .ready || st == .bound || st == .running || st == .draining || st == .faulting

/-- Registers of a context may be written. -/
def State.idle (s : State) (m : Nat) : Bool := !s.kernels.any (fun x => x.2.ctx == m && x.2.st.busy)

/-- The writable register that holds a byte of the range: its first byte and its size (Tables 21-4, 21-5). -/
def registerAt (o : Nat) : Option (Nat × Nat) :=
  let whole := fun (a n : Nat) => if a ≤ o ∧ o < a + n then some (a, n) else none
  if o < 0x1000 then
    (whole 0x100 4).or ((whole 0x200 8).or ((whole 0x300 4).or ((whole 0x304 4).or (whole 0x308 4))))
  else if o < 0x1200 then (if o % 64 < 32 then some (o / 4 * 4, 4) else none)
  else if 0x2000 ≤ o ∧ o < 0x2040 then some (o / 8 * 8, 8)
  else if 0x3000 ≤ o ∧ o < 0x3060 then some (o / 4 * 4, 4)
  else if 0x4000 ≤ o ∧ o < 0x4200 then (if o % 32 < 16 then some (o / 8 * 8, 8) else if o % 32 < 24 then some (o / 4 * 4, 4) else none)
  else if 0x5000 ≤ o ∧ o < 0x5080 then some (o / 4 * 4, 4)
  else if 0x400000 ≤ o ∧ o < 0x408000 then (if o % 64 < 40 then some (o / 8 * 8, 8) else none)
  else (whole 0x8000 8).or ((whole 0x8008 4).or ((whole 0x9000 4).or (whole 0xA000 32)))

/-- What a register holds, for a write of some of its bytes; one that cannot be read holds zero. -/
def State.heldIn (s : State) (o n : Nat) : Nat :=
  if o = 0xA000 then s.attNonce.toNat
  else if o = 0x200 then 0
  else if 0x400000 ≤ o ∧ o < 0x408000 then (s.queue ((o - 0x400000) / 64)).block >>> (8 * (o % 64)) % 2 ^ 64
  else match s.registers.find? (fun r => r.1 == regBase + o && r.2.1 == n) with
    | some r => r.2.2
    | none => 0

/-- A write of a context's register, only while no kernel of it is under way. -/
def State.writeContext (s : State) (m i v : Nat) : State :=
  if !s.idle m then s
  else s.modContext m (fun c => match i with
    | 0x00 => { c with priv := bit v 0 }
    | 0x04 => { c with pmax := v % 8 }
    | 0x10 => { c with tidBase := v }
    | 0x14 => { c with tidCnt := min v 4096 }
    | _ => c)

/-- A write of a pair's register, only while EN = 0. -/
def Pair.write (x : Pair) (i v : Nat) : Pair :=
  if x.en then x
  else match i with
    | 0 => { x with sqbase := v }
    | 8 => { x with cqbase := v }
    | _ => if v / 2 ^ 13 = 0 ∧ bits v 7 5 = 0 then { x with sizes := v } else x

/-- Counters that a write clears. -/
def counterAt (o : Nat) : Bool := o == 0x300 || o == 0x304 || o == 0x308 || (decide (0x1000 ≤ o) && decide (o < 0x1200) && o % 64 == 0x18)

/-- The instruction that a write of a register is, where it has one of its own. -/
def registerStep (o v : Nat) : Option (Instr × Locus) :=
  if counterAt o then some (.counterClear (regBase + o), .module)
  else if o = 0x100 then some (.snapTrig (BitVec.ofNat 32 v), .module)
  else if o = 0x200 then some (.xlinv (BitVec.ofNat 64 v), .module)
  else if 0x3000 ≤ o ∧ o < 0x3060 ∧ o % 8 = 4 then
    (if 4 ≤ v then none else some (if bit v 1 then .flueFence else .flueEnable (bit v 0), .link ((o - 0x3000) / 8)))
  else if 0x4000 ≤ o ∧ o < 0x4200 ∧ o % 32 = 20 then some (.viroftPairEnable v, .pair ((o - 0x4000) / 32))
  else if 0x5000 ≤ o ∧ o < 0x5080 then some (if o % 8 = 0 then .sqTailDoorbell v else .cqHeadDoorbell v, .pair ((o - 0x5000) / 8))
  else if o = 0x8000 then some (.jrnlBase (BitVec.ofNat 64 v), .module)
  else if o = 0x8008 then some (.jrnlSize (BitVec.ofNat 32 v), .module)
  else if o = 0x9000 then some (.pwrLim (BitVec.ofNat 32 v), .module)
  else if o = 0xA000 then some (.attNonce (BitVec.ofNat 256 v), .module)
  else none

/-- Write one register whole. -/
def State.writeRegister (s : State) (o v : Nat) : State :=
  match registerStep o v with
  | some (i, l) =>
    (if 0x3000 ≤ o ∧ o < 0x3060 then s.modLink ((o - 0x3000) / 8) (fun x => { x with enable := bit v 0 }) else s).push [.event i l]
  | none =>
    if 0x1000 ≤ o ∧ o < 0x1200 then s.writeContext ((o - 0x1000) / 64) (o % 64) v
    else if 0x2000 ≤ o ∧ o < 0x2040 then
      (if s.idle ((o - 0x2000) / 8) then s.modContext ((o - 0x2000) / 8) (fun c => { c with ptroot := BitVec.ofNat 64 v &&& 0x000FFFFFFFFF0001 }) else s)
    else if 0x4000 ≤ o ∧ o < 0x4200 then
      s.setPair ((o - 0x4000) / 32) ((s.pair ((o - 0x4000) / 32)).write (o % 32) v)
    else if 0x400000 ≤ o ∧ o < 0x408000 then
      let q := (o - 0x400000) / 64
      let i := o % 64 / 8
      let s := s.modQueue q (fun u => u.write i v)
      if i = 4 ∧ bit v 63 ≠ (s.queue q).en then s.push [.event (.queueEnWrite (bit v 63)) (.queue q)] else s
    else s

/-- Write bytes register by register; a register written in part keeps its other bytes, and bytes of no register that the
host may write are discarded. -/
def writeBytesAt : Nat → Nat → List Byte → State → State
  | 0, _, _, s => s
  | fuel + 1, o, bs, s =>
    if bs.isEmpty then s
    else match registerAt o with
      | none => writeBytesAt fuel (o + 1) bs.tail s
      | some (a, n) =>
        let k := min bs.length (a + n - o)
        let old := leBytes n (s.heldIn a n)
        let s' := s.writeRegister a (leNat (overwrite old (o - a) (bs.take k)))
        writeBytesAt fuel (o + k) (bs.drop k) s'

/-- `REGISTER_WRITE`, R373. -/
def execRegisterWrite (a : Nat) (bytes : List Byte) (s : State) : Host.Outcome State Fault Refusal :=
  match s.cur with
  | .module => .next (s.whenServed (fun s => if a < regBase then s else writeBytesAt bytes.length (a - regBase) bytes s))
  | _ => .fault .misplaced

/-- `COUNTER_CLEAR`, R373. -/
def execCounterClear (a : Nat) (s : State) : Host.Outcome State Fault Refusal :=
  match s.cur with
  | .module =>
    .next (s.whenServed (fun s =>
      if a = regBase + 0x300 then { s with strikeStrk := 0, strikeRoll := 0 }
      else if a = regBase + 0x304 then { s with snapInc := false, snapOvf := false, snapCnt := 0 }
      else if a = regBase + 0x308 then { s with promoLate := 0 }
      else if regBase ≤ a ∧ counterAt (a - regBase) then
        s.modContext ((a - regBase - 0x1000) / 64) (fun c => { c with accSpill := 0 })
      else s))
  | _ => .fault .misplaced

/-- `SNAP_TRIG`, R312. -/
def execSnapTrig (v : BitVec 32) (s : State) : Host.Outcome State Fault Refusal :=
  match s.cur with
  | .module => .next (s.whenServed (fun s => if v = 1 then s.latch else s))
  | _ => .fault .misplaced

/-- `JRNL_BASE`, R371. -/
def execJrnlBase (v : BitVec 64) (s : State) : Host.Outcome State Fault Refusal :=
  match s.cur with
  | .module => .next (s.whenServed (fun s => if s.phase = 4 ∧ v.toNat % 65536 = 0 then { s with jrnlBase := v.toNat } else s))
  | _ => .fault .misplaced

/-- `JRNL_SIZE`, R371. -/
def execJrnlSize (v : BitVec 32) (s : State) : Host.Outcome State Fault Refusal :=
  match s.cur with
  | .module => .next (s.whenServed (fun s => if s.phase = 4 ∧ 10 ≤ v.toNat ∧ v.toNat ≤ 20 then { s with jrnlSize := v.toNat } else s))
  | _ => .fault .misplaced

/-- `PWR_LIM`, R374. -/
def execPwrLim (v : BitVec 32) (s : State) : Host.Outcome State Fault Refusal :=
  match s.cur with
  | .module => .next (s.whenServed (fun s => { s with pwrLim := max 600 (min 2400 v.toNat) }))
  | _ => .fault .misplaced

/-! ### Attestation (R368) -/

/-- `ATT_NONCE`, R368: the report is begun, or begun again. -/
def execAttNonce (nonce : BitVec 256) (s : State) : Host.Outcome State Fault Refusal :=
  match s.cur with
  | .module => .next (s.whenServed (fun s => { s with attNonce := nonce, attDone := false, attCount := s.attCount + 1 }))
  | _ => .fault .misplaced

/-- Bytes of a report (log 3). -/
def reportSize : Nat := 2048

/-- `ATT_REPORT`, R368: over the digest of the running image, BOOT_ST, the topology table and the nonce, under the device key. -/
def execAttReport (s : State) : Host.Outcome State Fault Refusal :=
  match s.cur with
  | .module =>
    .next (if s.attDone || s.attCount = 0 then s
      else { s with attDone := true, attReport := (List.range reportSize).map (Config.reportByte s.boot.firmware.bodyDigest s.bootSt s.topology s.attNonce s.deviceKey) })
  | _ => .fault .misplaced

/-! ### Host memory requests (R362) -/

/-- The range of T1 or T2 that a host request reaches. -/
def deviceMemory (a n : Nat) : Bool :=
  match rangeTier a n with
  | some .t1 => true
  | some .t2 => true
  | _ => false

/-- `CXL_MEM_REQUEST`, R362: a read waits on a prepared granule (R190). -/
def execCxlMemRequest (a : Nat) (write : Option (List Byte)) (len : Nat) (s : State) : Host.Outcome State Fault Refusal :=
  match s.cur with
  | .module =>
    .next (if !s.served then s
      else match write with
        | some bs => if deviceMemory a bs.length then s.put a bs false else s
        | none =>
          if !deviceMemory a len then s
          else if s.preparedRange a len then { s with inputs := (s.cycle + 1, .event (.cxlMemRequest a none len) .module) :: s.inputs }
          else { s with cxlReplies := s.cxlReplies ++ [(a, s.fetch a len, s.tainted a len)] })
  | _ => .fault .misplaced

/-- `CXL_LINK_UP`, R362, R372: after a failed phase the module goes on to PHASE 15 (Table 21-1); where phase 0 failed nothing
reaches the host. -/
def execCxlLinkUp (s : State) : Host.Outcome State Fault Refusal :=
  match s.cur with
  | .module => .next (if s.phase = 0 then s else { s with cxlUp := true, phase := if s.bootErr = 0 then s.phase else 15 })
  | _ => .fault .misplaced

/-- `CXL_LINK_LOSS`, R372: work goes on, and messages wait. -/
def execCxlLinkLoss (s : State) : Host.Outcome State Fault Refusal :=
  match s.cur with
  | .module => .next { s with cxlUp := false }
  | _ => .fault .misplaced

/-! ### Power and cooling (R374) -/

/-- `THERMAL_THROTTLE`, R374: above a limit hearths skip firing in a share of cycles. -/
def execThermalThrottle (on : Bool) (s : State) : Host.Outcome State Fault Refusal :=
  match s.cur with
  | .module => .next { s with throttled := on }
  | _ => .fault .misplaced

/-- An address of T1. -/
def inT1 (a : Nat) : Bool := tierOf a == some .t1

/-- `THERMAL_SHUTDOWN`, R374: every die is fenced, and T1 is lost with the journal in it. -/
def execThermalShutdown (s : State) : Host.Outcome State Fault Refusal :=
  match s.cur with
  | .module =>
    let s := (List.range 4).foldl (fun s d => s.fenceDie d) s
    .next { s with mem := s.mem.filter (fun c => !inT1 c.1), poison := s.poison.filter (fun g => !inT1 (64 * g)) }
  | _ => .fault .misplaced

/-! ### Power-up (R366, R369, R370) -/

/-- Hearths of a die that fail self-test. -/
def BootOutcome.failing (b : BootOutcome) (d : Nat) : Nat := (b.badHearths.filter (fun h => dieOf h == d)).length

/-- Dies that self-test and training fence. -/
def BootOutcome.lostDies (b : BootOutcome) (trained : Bool) : List Nat :=
  (List.range 4).filter (fun d => b.badDies.contains d || decide (1024 < b.failing d) || (trained && b.badT1.contains d))

/-- What phase 1 makes of the firmware image (R367), as ERR: 2 for a malformed image, which one with more than four module keys is;
1 where the root key does not have the ROM's digest, the signature is bad, or the version is below the ROM's rollback counter; 0 where
the image runs. -/
def Firmware.verdict (f : Firmware) (digest version : Nat) : Nat :=
  if !f.formed || decide (4 < f.moduleKeys.length) then 2
  else if f.keyDigest ≠ digest ∨ f.signs = false ∨ f.version < version then 1
  else 0

/-- The phase that power-up stops in, and ERR, where the ROM holds this key digest and this rollback counter: 4 with 0 where every
step passes; phase 0 stops for good. -/
def BootOutcome.result (b : BootOutcome) (digest version : Nat) : Nat × Nat :=
  if b.romFails then (0, 0)
  else if b.firmware.verdict digest version ≠ 0 then (1, b.firmware.verdict digest version)
  else if (b.lostDies false).length = 4 then (2, 4)
  else if b.badT2 then (3, 3)
  else if (b.lostDies true).length = 4 then (3, 4)
  else (4, 0)

/-- Dies that are fenced where power-up stops in a phase: those of the steps that ran. -/
def BootOutcome.fencedAfter (b : BootOutcome) (phase : Nat) : List Nat := if phase < 2 then [] else b.lostDies (phase != 2)

/-- `POWER_ON_RESET`, R366: phases 0 to 3; what memory of the module held is gone, and host memory is not the module's. The ROM, the
flash and what identifies the module stay; phase 1 derives the device key (R368). -/
def execPowerOnReset (s : State) : Host.Outcome State Fault Refusal :=
  match s.cur with
  | .module =>
    let b := s.boot
    let r := b.result s.romDigest s.minVersion
    let lost := b.fencedAfter r.1
    let outside := fun (a : Nat) => tierOf a == some .t3
    let (key, s) := s.freeWord
    .next
      { State.reset with
        agenda := s.agenda, cur := s.cur, inputs := s.inputs, free := s.free, unacked := s.unacked, badWords := s.badWords, misreads := s.misreads, silent := s.silent
        boot := b, romDigest := s.romDigest, minVersion := s.minVersion, identity := s.identity, windows := s.windows
        deviceKey := if r.1 = 0 then 0 else key
        nextId := s.nextId, mem := s.mem.filter (fun c => outside c.1), poison := s.poison.filter (fun g => outside (64 * g))
        hearths := if r.1 < 2 then [] else (b.badHearths.foldl insertRising []).map (fun h => (h, { fenced := true }))
        fencedDies := lost
        master := ((List.range 4).filter (fun d => !lost.contains d)).headD 0
        phase := r.1, bootErr := r.2 }
  | _ => .fault .misplaced

/-- The journal registers are valid (R371). -/
def State.journalValid (s : State) : Bool :=
  decide (10 ≤ s.jrnlSize) && decide (s.jrnlSize ≤ 20) && s.jrnlBase % 65536 == 0 && rangeTier s.jrnlBase (64 * 2 ^ s.jrnlSize) == some .t1

/-- `BOOT_READY`, R366, R371. -/
def execBootReady (s : State) : Host.Outcome State Fault Refusal :=
  match s.cur with
  | .module => .next (if s.phase = 4 ∧ s.cxlUp ∧ s.journalValid then { s with phase := 5 } else s)
  | _ => .fault .misplaced

end Sys2Proof.Machine
end

