-- ==== Sys2Proof/Machine/QueueNodes.lean ====
section
/-! DEFINITION. The queue instructions ENQ, TAIL, SEQRD and SEQWAIT (R275, R277, R278). -/

namespace Sys2Proof.Machine

/-- The queue that a firing names. -/
def Fire.qid (f : Fire) : Nat := f.lit % 512

/-- ENQ or TAIL may not name this queue from the firing's context (R57, R275). -/
def queueBreach (f : Fire) (s : State) : Bool :=
  let q := s.queue f.qid
  q.host || (q.ctx != f.context s && !(s.context (f.context s)).priv)

/-- The bits of an entry that ENQ clears: NEXT, NV, CMP, STATUS and CSEQ. -/
def entryLinkMask : BitVec 512 :=
  maskBits 54 6 ||| maskBits 119 111 ||| maskBits 109 109 ||| maskBits 511 448

/-- The entry image that ENQ stores. -/
def enqImage (f : Fire) : List Byte := leBytes 64 (BitVec.ofNat 512 (imageOf f.ta) &&& ~~~entryLinkMask).toNat

/-- Where ENQ stores, checked as an ST through a virtual address (R278). -/
def enqReach (f : Fire) (s : State) : Except Denied Parts :=
  let a := laneAddress f.tb
  if a % 64 ≠ 0 then .error (denied causeAlign a) else s.virtParts (sectorUnit f.h) (f.context s) a 64 true

/-- A is no entry image, or B no address. -/
def enqNarrow (f : Fire) : Bool := decide (f.ta.wid ≠ 16 ∨ f.tb.wid < 2)

/-- What ENQ stores. -/
def enqPlan (f : Fire) (s : State) : State × Except Denied Plan :=
  match enqReach f s with
  | .error d => (s, .error d)
  | .ok ps => (s, .ok { writes := storeEntries f f.ta.tnt ps (enqImage f), leaves := ps.map (fun p => (p.1, p.2.2, true))
                        tok := f.moved f.tb, t3 := inT3 ps })

def specEnq : MemSpec := { plan := enqPlan, writing := true, badWidth := enqNarrow }

/-- ENQ is ready while its hearth's damper has the entries that it needs; it waits for no ordering buffer. -/
def enqReady (f : Fire) (s : State) : Bool :=
  match specEnq.needs f s with
  | none => false
  | some n => s.damperRoom f.g f.h f.col n

/-- ENQ's effect: the store enters the damper and the append is staged. -/
def enqFire (f : Fire) (s : State) : State × Effect :=
  match enqPlan f s with
  | (s, .error d) => if d.wait then (s, .done) else (s.withhold f d, .done)
  | (s, .ok x) =>
    let s := (s.take specEnq f).stageEffect f (.append f.qid (laneAddress f.tb) f.h s.cycle)
    let (i, s) := s.fresh
    (s.issue f.g f.h f.k { requestOf f x false with id := i, seq := 63, pred := 0, succ := 0 }, .done)

/-- How ENQ fires. -/
def enqSpec : FireSpec := { ready := enqReady, breach := queueBreach, anyWidth := true, badWidth := enqNarrow }

/-- `ENQ`, R278. -/
def execEnq (r : Rec) (s : State) : Host.Outcome State Fault Refusal := fireHeld 0x240 r enqSpec enqFire s

/-- `TAIL`, R278. -/
def execTail (r : Rec) (s : State) : Host.Outcome State Fault Refusal :=
  fireNode 0x241 r { breach := queueBreach } (fun f s =>
    (s.stageEffect f (.tail f.qid (bits f.lit 31 16) f.h s.cycle), .emit 1 f.passed)) s

/-- The count that SEQRD selects. -/
def seqValue (q : Queue) (sel : Nat) : Nat :=
  match sel with
  | 0 => q.done
  | 1 => q.tailn
  | _ => q.appn

/-- `SEQRD`, R278: its latency is variable (log 4), and the value is that of its firing's cycle (log 30). -/
def execSeqrd (r : Rec) (s : State) : Host.Outcome State Fault Refusal :=
  fireNode 0x242 r {} (fun f s =>
    let v := seqValue (s.queue f.qid) (bits f.lit 10 9)
    let (d, s) := s.resultDelay f 0
    (s.inFlight f d, .emit d (f.token 1 [BitVec.ofNat 32 v, BitVec.ofNat 32 (v / 2 ^ 32)] 0 0))) s

/-- The entry number that SEQWAIT waits for. -/
def seqNumber (f : Fire) : Nat :=
  (f.ta.lanes.getD 0 0).toNat + 2 ^ 32 * (if 2 ≤ f.ta.wid then (f.ta.lanes.getD 1 0).toNat % 65536 else 0)

/-- The entry has completed, on a die that is not fenced. -/
def seqReached (f : Fire) (s : State) : Bool :=
  decide (seqNumber f < (s.queue f.qid).done) && !s.fencedDies.contains (f.qid / 128)

/-- `SEQWAIT`, R278: its latency is variable (log 4). -/
def execSeqwait (r : Rec) (s : State) : Host.Outcome State Fault Refusal :=
  fireNode 0x243 r { ready := seqReached } (fun f s =>
    let (d, s) := s.resultDelay f 0
    (s.inFlight f d, .emit d f.passed)) s

end Sys2Proof.Machine
end

