-- ==== Sys2Proof/Machine/Dispatch.lean ====
section
/-! DEFINITION. One arm for each constructor of `Instr`: a direct call of its meaning. -/

namespace Sys2Proof.Machine

def exec (i : Instr) (s : State) : Host.Outcome State Fault Refusal :=
  match i with
  | .pass r => Sys2Proof.Machine.execPass r s
  | .const r => Sys2Proof.Machine.execConst r s
  | .steer r => Sys2Proof.Machine.execSteer r s
  | .merge r => Sys2Proof.Machine.execMerge r s
  | .mergeu r => Sys2Proof.Machine.execMergeu r s
  | .gate r => Sys2Proof.Machine.execGate r s
  | .sync r => Sys2Proof.Machine.execSync r s
  | .sel r => Sys2Proof.Machine.execSel r s
  | .wave r => Sys2Proof.Machine.execWave r s
  | .wexit r => Sys2Proof.Machine.execWexit r s
  | .calloc r => Sys2Proof.Machine.execCalloc r s
  | .cfree r => Sys2Proof.Machine.execCfree r s
  | .cbind r => Sys2Proof.Machine.execCbind r s
  | .cret r => Sys2Proof.Machine.execCret r s
  | .pack r => Sys2Proof.Machine.execPack r s
  | .unpack r => Sys2Proof.Machine.execUnpack r s
  | .inject r => Sys2Proof.Machine.execInject r s
  | .sink r => Sys2Proof.Machine.execSink r s
  | .cntf r => Sys2Proof.Machine.execCntf r s
  | .spawn r => Sys2Proof.Machine.execSpawn r s
  | .trap r => Sys2Proof.Machine.execTrap r s
  | .mark r => Sys2Proof.Machine.execMark r s
  | .pred r => Sys2Proof.Machine.execPred r s
  | .pand r => Sys2Proof.Machine.execPand r s
  | .por r => Sys2Proof.Machine.execPor r s
  | .pxor r => Sys2Proof.Machine.execPxor r s
  | .pnot r => Sys2Proof.Machine.execPnot r s
  | .vote r => Sys2Proof.Machine.execVote r s
  | .flags r => Sys2Proof.Machine.execFlags r s
  | .delay r => Sys2Proof.Machine.execDelay r s
  | .tsget r => Sys2Proof.Machine.execTsget r s
  | .add r => Sys2Proof.Machine.execAdd r s
  | .sub r => Sys2Proof.Machine.execSub r s
  | .mul r => Sys2Proof.Machine.execMul r s
  | .mulh r => Sys2Proof.Machine.execMulh r s
  | .mulhu r => Sys2Proof.Machine.execMulhu r s
  | .mad r => Sys2Proof.Machine.execMad r s
  | .div r => Sys2Proof.Machine.execDiv r s
  | .divu r => Sys2Proof.Machine.execDivu r s
  | .rem r => Sys2Proof.Machine.execRem r s
  | .remu r => Sys2Proof.Machine.execRemu r s
  | .neg r => Sys2Proof.Machine.execNeg r s
  | .abs r => Sys2Proof.Machine.execAbs r s
  | .min r => Sys2Proof.Machine.execMin r s
  | .max r => Sys2Proof.Machine.execMax r s
  | .minu r => Sys2Proof.Machine.execMinu r s
  | .maxu r => Sys2Proof.Machine.execMaxu r s
  | .and r => Sys2Proof.Machine.execAnd r s
  | .or r => Sys2Proof.Machine.execOr r s
  | .xor r => Sys2Proof.Machine.execXor r s
  | .not r => Sys2Proof.Machine.execNot r s
  | .andn r => Sys2Proof.Machine.execAndn r s
  | .shl r => Sys2Proof.Machine.execShl r s
  | .shr r => Sys2Proof.Machine.execShr r s
  | .sra r => Sys2Proof.Machine.execSra r s
  | .rol r => Sys2Proof.Machine.execRol r s
  | .clz r => Sys2Proof.Machine.execClz r s
  | .popc r => Sys2Proof.Machine.execPopc r s
  | .brev r => Sys2Proof.Machine.execBrev r s
  | .bfx r => Sys2Proof.Machine.execBfx r s
  | .bfi r => Sys2Proof.Machine.execBfi r s
  | .adds r => Sys2Proof.Machine.execAdds r s
  | .subs r => Sys2Proof.Machine.execSubs r s
  | .cmpeq r => Sys2Proof.Machine.execCmpeq r s
  | .cmpne r => Sys2Proof.Machine.execCmpne r s
  | .cmplt r => Sys2Proof.Machine.execCmplt r s
  | .cmple r => Sys2Proof.Machine.execCmple r s
  | .cmpltu r => Sys2Proof.Machine.execCmpltu r s
  | .cmpleu r => Sys2Proof.Machine.execCmpleu r s
  | .idx r => Sys2Proof.Machine.execIdx r s
  | .idx2 r => Sys2Proof.Machine.execIdx2 r s
  | .wrap r => Sys2Proof.Machine.execWrap r s
  | .range r => Sys2Proof.Machine.execRange r s
  | .shuf r => Sys2Proof.Machine.execShuf r s
  | .lanex r => Sys2Proof.Machine.execLanex r s
  | .lanei r => Sys2Proof.Machine.execLanei r s
  | .bcast r => Sys2Proof.Machine.execBcast r s
  | .rsum r => Sys2Proof.Machine.execRsum r s
  | .rmin r => Sys2Proof.Machine.execRmin r s
  | .rmax r => Sys2Proof.Machine.execRmax r s
  | .fadd r => Sys2Proof.Machine.execFadd r s
  | .fsub r => Sys2Proof.Machine.execFsub r s
  | .fmul r => Sys2Proof.Machine.execFmul r s
  | .fma r => Sys2Proof.Machine.execFma r s
  | .fnma r => Sys2Proof.Machine.execFnma r s
  | .fmin r => Sys2Proof.Machine.execFmin r s
  | .fmax r => Sys2Proof.Machine.execFmax r s
  | .fabs r => Sys2Proof.Machine.execFabs r s
  | .fneg r => Sys2Proof.Machine.execFneg r s
  | .fcmpeq r => Sys2Proof.Machine.execFcmpeq r s
  | .fcmplt r => Sys2Proof.Machine.execFcmplt r s
  | .fcmple r => Sys2Proof.Machine.execFcmple r s
  | .fcmpun r => Sys2Proof.Machine.execFcmpun r s
  | .fclass r => Sys2Proof.Machine.execFclass r s
  | .fdiv r => Sys2Proof.Machine.execFdiv r s
  | .fsqrt r => Sys2Proof.Machine.execFsqrt r s
  | .frcp r => Sys2Proof.Machine.execFrcp r s
  | .frsq r => Sys2Proof.Machine.execFrsq r s
  | .fexp2 r => Sys2Proof.Machine.execFexp2 r s
  | .flog2 r => Sys2Proof.Machine.execFlog2 r s
  | .fsin r => Sys2Proof.Machine.execFsin r s
  | .fcos r => Sys2Proof.Machine.execFcos r s
  | .ftanh r => Sys2Proof.Machine.execFtanh r s
  | .fsigm r => Sys2Proof.Machine.execFsigm r s
  | .fsilu r => Sys2Proof.Machine.execFsilu r s
  | .cvtf r => Sys2Proof.Machine.execCvtf r s
  | .cvtfi r => Sys2Proof.Machine.execCvtfi r s
  | .cvtif r => Sys2Proof.Machine.execCvtif r s
  | .qntb r => Sys2Proof.Machine.execQntb r s
  | .dqntb r => Sys2Proof.Machine.execDqntb r s
  | .expsel r => Sys2Proof.Machine.execExpsel r s
  | .scl r => Sys2Proof.Machine.execScl r s
  | .uscl r => Sys2Proof.Machine.execUscl r s
  | .frsum r => Sys2Proof.Machine.execFrsum r s
  | .frmax r => Sys2Proof.Machine.execFrmax r s
  | .frmin r => Sys2Proof.Machine.execFrmin r s
  | .smrg r => Sys2Proof.Machine.execSmrg r s
  | .rope r => Sys2Proof.Machine.execRope r s
  | .tdld r => Sys2Proof.Machine.execTdld r s
  | .tdset r => Sys2Proof.Machine.execTdset r s
  | .tddrop r => Sys2Proof.Machine.execTddrop r s
  | .tdkeep r => Sys2Proof.Machine.execTdkeep r s
  | .tdreg r => Sys2Proof.Machine.execTdreg r s
  | .tdq r => Sys2Proof.Machine.execTdq r s
  | .tric r => Sys2Proof.Machine.execTric r s
  | .mma r => Sys2Proof.Machine.execMma r s
  | .tris r => Sys2Proof.Machine.execTris r s
  | .mmas r => Sys2Proof.Machine.execMmas r s
  | .had r => Sys2Proof.Machine.execHad r s
  | .lutp r => Sys2Proof.Machine.execLutp r s
  | .lutm r => Sys2Proof.Machine.execLutm r s
  | .accrd r => Sys2Proof.Machine.execAccrd r s
  | .accz r => Sys2Proof.Machine.execAccz r s
  | .accld r => Sys2Proof.Machine.execAccld r s
  | .tstay r => Sys2Proof.Machine.execTstay r s
  | .txpr r => Sys2Proof.Machine.execTxpr r s
  | .cdxset r => Sys2Proof.Machine.execCdxset r s
  | .accx r => Sys2Proof.Machine.execAccx r s
  | .agen r => Sys2Proof.Machine.execAgen r s
  | .ld r => Sys2Proof.Machine.execLd r s
  | .st r => Sys2Proof.Machine.execSt r s
  | .ldx r => Sys2Proof.Machine.execLdx r s
  | .lds r => Sys2Proof.Machine.execLds r s
  | .sts r => Sys2Proof.Machine.execSts r s
  | .ldt r => Sys2Proof.Machine.execLdt r s
  | .stt r => Sys2Proof.Machine.execStt r s
  | .ldn r => Sys2Proof.Machine.execLdn r s
  | .pref r => Sys2Proof.Machine.execPref r s
  | .aadd r => Sys2Proof.Machine.execAadd r s
  | .afadd r => Sys2Proof.Machine.execAfadd r s
  | .amin r => Sys2Proof.Machine.execAmin r s
  | .amax r => Sys2Proof.Machine.execAmax r s
  | .aand r => Sys2Proof.Machine.execAand r s
  | .aor r => Sys2Proof.Machine.execAor r s
  | .axor r => Sys2Proof.Machine.execAxor r s
  | .axchg r => Sys2Proof.Machine.execAxchg r s
  | .acas r => Sys2Proof.Machine.execAcas r s
  | .ainc r => Sys2Proof.Machine.execAinc r s
  | .optst r => Sys2Proof.Machine.execOptst r s
  | .retw r => Sys2Proof.Machine.execRetw r s
  | .fence r => Sys2Proof.Machine.execFence r s
  | .mcast r => Sys2Proof.Machine.execMcast r s
  | .wptr r => Sys2Proof.Machine.execWptr r s
  | .wpwait r => Sys2Proof.Machine.execWpwait r s
  | .enq r => Sys2Proof.Machine.execEnq r s
  | .tail r => Sys2Proof.Machine.execTail r s
  | .seqrd r => Sys2Proof.Machine.execSeqrd r s
  | .seqwait r => Sys2Proof.Machine.execSeqwait r s
  | .cfgld r => Sys2Proof.Machine.execCfgld r s
  | .callg r => Sys2Proof.Machine.execCallg r s
  | .retg r => Sys2Proof.Machine.execRetg r s
  | .tailg r => Sys2Proof.Machine.execTailg r s
  | .drain r => Sys2Proof.Machine.execDrain r s
  | .prio r => Sys2Proof.Machine.execPrio r s
  | .yield r => Sys2Proof.Machine.execYield r s
  | .snap r => Sys2Proof.Machine.execSnap r s
  | .rdsr r => Sys2Proof.Machine.execRdsr r s
  | .wrsr r => Sys2Proof.Machine.execWrsr r s
  | .halt r => Sys2Proof.Machine.execHalt r s
  | .wdog r => Sys2Proof.Machine.execWdog r s
  | .rangeEmission r => Sys2Proof.Machine.execRangeEmission r s
  | .agenEmission r => Sys2Proof.Machine.execAgenEmission r s
  | .markMarkerEmission r => Sys2Proof.Machine.execMarkMarkerEmission r s
  | .uncorrectableError w => Sys2Proof.Machine.execUncorrectableError w s
  | .kernelAccept a => Sys2Proof.Machine.execKernelAccept a s
  | .copy e b => Sys2Proof.Machine.execCopy e b s
  | .copyt e b => Sys2Proof.Machine.execCopyt e b s
  | .perm e b => Sys2Proof.Machine.execPerm e b s
  | .fill e b => Sys2Proof.Machine.execFill e b s
  | .gath e b => Sys2Proof.Machine.execGath e b s
  | .scat e b => Sys2Proof.Machine.execScat e b s
  | .copyr e b => Sys2Proof.Machine.execCopyr e b s
  | .kvpatch e b => Sys2Proof.Machine.execKvpatch e b s
  | .compact e b => Sys2Proof.Machine.execCompact e b s
  | .promo e b => Sys2Proof.Machine.execPromo e b s
  | .demo e b => Sys2Proof.Machine.execDemo e b s
  | .redsc e b => Sys2Proof.Machine.execRedsc e b s
  | .allga e b => Sys2Proof.Machine.execAllga e b s
  | .allrd e b => Sys2Proof.Machine.execAllrd e b s
  | .send e b => Sys2Proof.Machine.execSend e b s
  | .recv e b => Sys2Proof.Machine.execRecv e b s
  | .qfence e b => Sys2Proof.Machine.execQfence e b s
  | .wdraw e b => Sys2Proof.Machine.execWdraw e b s
  | .signal e b => Sys2Proof.Machine.execSignal e b s
  | .waitv e b => Sys2Proof.Machine.execWaitv e b s
  | .badkind e kind body => Sys2Proof.Machine.execBadkind e kind body s
  | .flueEnable on => Sys2Proof.Machine.execFlueEnable on s
  | .configExchange side key asks => Sys2Proof.Machine.execConfigExchange side key asks s
  | .flitReceive f => Sys2Proof.Machine.execFlitReceive f s
  | .retryRequest seq => Sys2Proof.Machine.execRetryRequest seq s
  | .recoveryRetrain o => Sys2Proof.Machine.execRecoveryRetrain o s
  | .sqTailDoorbell v => Sys2Proof.Machine.execSqTailDoorbell v s
  | .cqHeadDoorbell v => Sys2Proof.Machine.execCqHeadDoorbell v s
  | .viroftPairEnable v => Sys2Proof.Machine.execViroftPairEnable v s
  | .launch cid lra => Sys2Proof.Machine.execLaunch cid lra s
  | .resume cid w => Sys2Proof.Machine.execResume cid w s
  | .abort cid w => Sys2Proof.Machine.execAbort cid w s
  | .release cid rtag m => Sys2Proof.Machine.execRelease cid rtag m s
  | .withdraw cid rtag m => Sys2Proof.Machine.execWithdraw cid rtag m s
  | .retire cid rtag m => Sys2Proof.Machine.execRetire cid rtag m s
  | .ctxres cid m => Sys2Proof.Machine.execCtxres cid m s
  | .unknownCommand cid opc => Sys2Proof.Machine.execUnknownCommand cid opc s
  | .snapTrig v => Sys2Proof.Machine.execSnapTrig v s
  | .xlinv v => Sys2Proof.Machine.execXlinv v s
  | .attNonce nonce => Sys2Proof.Machine.execAttNonce nonce s
  | .jrnlBase v => Sys2Proof.Machine.execJrnlBase v s
  | .jrnlSize v => Sys2Proof.Machine.execJrnlSize v s
  | .pwrLim v => Sys2Proof.Machine.execPwrLim v s
  | .queueEnWrite on => Sys2Proof.Machine.execQueueEnWrite on s
  | .counterClear a => Sys2Proof.Machine.execCounterClear a s
  | .registerWrite a bytes => Sys2Proof.Machine.execRegisterWrite a bytes s
  | .thermalThrottle on => Sys2Proof.Machine.execThermalThrottle on s
  | .cxlMemRequest a write len => Sys2Proof.Machine.execCxlMemRequest a write len s
  | .txprOutput => Sys2Proof.Machine.execTxprOutput s
  | .tokenArrival => Sys2Proof.Machine.execTokenArrival s
  | .meshMessageReceive => Sys2Proof.Machine.execMeshMessageReceive s
  | .frameSlotEntry => Sys2Proof.Machine.execFrameSlotEntry s
  | .requestIssue => Sys2Proof.Machine.execRequestIssue s
  | .loadReply => Sys2Proof.Machine.execLoadReply s
  | .deferredTokenSend => Sys2Proof.Machine.execDeferredTokenSend s
  | .delayExpiry => Sys2Proof.Machine.execDelayExpiry s
  | .yieldExpiry => Sys2Proof.Machine.execYieldExpiry s
  | .waveRetire => Sys2Proof.Machine.execWaveRetire s
  | .reweight => Sys2Proof.Machine.execReweight s
  | .starving => Sys2Proof.Machine.execStarving s
  | .contractionStep => Sys2Proof.Machine.execContractionStep s
  | .contractionEnd => Sys2Proof.Machine.execContractionEnd s
  | .accumulatorSpill => Sys2Proof.Machine.execAccumulatorSpill s
  | .activationCommit => Sys2Proof.Machine.execActivationCommit s
  | .reissue => Sys2Proof.Machine.execReissue s
  | .purgeComplete => Sys2Proof.Machine.execPurgeComplete s
  | .damperEntryEligible => Sys2Proof.Machine.execDamperEntryEligible s
  | .commitWriteRefused => Sys2Proof.Machine.execCommitWriteRefused s
  | .commitWriteTimeout => Sys2Proof.Machine.execCommitWriteTimeout s
  | .strikeReport => Sys2Proof.Machine.execStrikeReport s
  | .purgeNotice => Sys2Proof.Machine.execPurgeNotice s
  | .requestTimeout => Sys2Proof.Machine.execRequestTimeout s
  | .linkFaultTimeout => Sys2Proof.Machine.execLinkFaultTimeout s
  | .faultMessageSend => Sys2Proof.Machine.execFaultMessageSend s
  | .quiesce => Sys2Proof.Machine.execQuiesce s
  | .barrierAlign => Sys2Proof.Machine.execBarrierAlign s
  | .snapshotFirstMarker => Sys2Proof.Machine.execSnapshotFirstMarker s
  | .snapshotAlign => Sys2Proof.Machine.execSnapshotAlign s
  | .snapshotAbandon => Sys2Proof.Machine.execSnapshotAbandon s
  | .drainSourceMarker => Sys2Proof.Machine.execDrainSourceMarker s
  | .drainComplete => Sys2Proof.Machine.execDrainComplete s
  | .heartbeat => Sys2Proof.Machine.execHeartbeat s
  | .dieFence => Sys2Proof.Machine.execDieFence s
  | .electionEnd => Sys2Proof.Machine.execElectionEnd s
  | .bindRegion => Sys2Proof.Machine.execBindRegion s
  | .groupHandout => Sys2Proof.Machine.execGroupHandout s
  | .kernelComplete => Sys2Proof.Machine.execKernelComplete s
  | .kernelVisible => Sys2Proof.Machine.execKernelVisible s
  | .configLoad => Sys2Proof.Machine.execConfigLoad s
  | .cover => Sys2Proof.Machine.execCover s
  | .calleeStart => Sys2Proof.Machine.execCalleeStart s
  | .rekindle => Sys2Proof.Machine.execRekindle s
  | .callerResume => Sys2Proof.Machine.execCallerResume s
  | .tailgSwap => Sys2Proof.Machine.execTailgSwap s
  | .planeMoveDown => Sys2Proof.Machine.execPlaneMoveDown s
  | .planeMoveUp => Sys2Proof.Machine.execPlaneMoveUp s
  | .contextEvict => Sys2Proof.Machine.execContextEvict s
  | .contextRestore => Sys2Proof.Machine.execContextRestore s
  | .contextSwap => Sys2Proof.Machine.execContextSwap s
  | .contextHalt => Sys2Proof.Machine.execContextHalt s
  | .waitvRecheck => Sys2Proof.Machine.execWaitvRecheck s
  | .waitvTimeout => Sys2Proof.Machine.execWaitvTimeout s
  | .collectiveMemberLost => Sys2Proof.Machine.execCollectiveMemberLost s
  | .forwardRetire => Sys2Proof.Machine.execForwardRetire s
  | .flueFence => Sys2Proof.Machine.execFlueFence s
  | .electricalIdleExit => Sys2Proof.Machine.execElectricalIdleExit s
  | .laneLock => Sys2Proof.Machine.execLaneLock s
  | .detectTimeout => Sys2Proof.Machine.execDetectTimeout s
  | .equalisationConverge => Sys2Proof.Machine.execEqualisationConverge s
  | .cxlLinkUp => Sys2Proof.Machine.execCxlLinkUp s
  | .cxlLinkLoss => Sys2Proof.Machine.execCxlLinkLoss s
  | .completionEntry => Sys2Proof.Machine.execCompletionEntry s
  | .xlinvComplete => Sys2Proof.Machine.execXlinvComplete s
  | .attReport => Sys2Proof.Machine.execAttReport s
  | .powerOnReset => Sys2Proof.Machine.execPowerOnReset s
  | .bootReady => Sys2Proof.Machine.execBootReady s
  | .thermalShutdown => Sys2Proof.Machine.execThermalShutdown s

end Sys2Proof.Machine
end

