-- ==== Sys2Proof/Machine/Areas.lean ====
section
/-! DEFINITION. The bytes of a region's colour table (R62, R249) and of its colours' frame runs (R66, R67) in memory: at the end of
every cycle they follow what the region holds. Where a header's layout is open, its bytes are (log 11). -/

namespace Sys2Proof.Machine

/-! ### The colour table -/

/-- ST of a colour-table entry. -/
def ColourState.code : ColourState → Nat
  | .free => 0 | .live => 1 | .ended => 2 | .purging => 3

/-- The 192 bits of a colour-table entry (Table 4-1); a Free entry is zero. -/
def Colour.image (c : Colour) : Nat :=
  if c.st == .free then 0
  else
    c.st.code * 2 ^ 190 + c.wid * 2 ^ 184 + c.ts * 2 ^ 136 + c.pcol * 2 ^ 124 + c.pwave * 2 ^ 116 + c.sx * 2 ^ 109 + c.sy * 2 ^ 102 +
    c.snode * 2 ^ 98 + b2n c.ovf * 2 ^ 97 + c.fb % 2048 * 2 ^ 86 + c.km1 * 2 ^ 80 + c.vm1 * 2 ^ 76 + b2n c.loop * 2 ^ 75 +
    c.lwave * 2 ^ 67 + c.owave * 2 ^ 59 + c.nwave * 2 ^ 51 + c.vcnt * 2 ^ 46 + b2n c.back * 2 ^ 45 + c.depth * 2 ^ 38 +
    c.ser * 2 ^ 22 + c.pser * 2 ^ 6 + (if c.ovf then c.fb / 2048 else 0)

/-- Virtual address of a colour's entry in the table of a region of kernel k (R249). -/
def tableAddr (k : Kernel) (index col : Nat) : Nat := k.cta + index * 98304 + 24 * col

/-- Write the entry of one colour, if its bits have changed. -/
def State.writeColour (s : State) (g col : Nat) : State :=
  let r := s.region g
  let v := (Tab.get {} r.cols col).image
  match r.kernel with
  | none => s
  | some e =>
    if Tab.get 0 r.tableShown col = v then s
    else
      (s.spillWrite r.ctx (tableAddr (s.kernel e) r.index col) (leBytes 24 v)).modRegion g (fun r =>
        { r with tableShown := if v = 0 then Tab.drop r.tableShown col else Tab.set r.tableShown col v })

/-! ### Frame runs -/

/-- Write bytes of a colour's run at an offset from its base: in the carve of a hearth, or in the overflow part. -/
def State.writeRun (s : State) (g h : Nat) (c : Colour) (off : Nat) (bs : List Byte) : State :=
  let r := s.region g
  if c.ovf then s.spillWrite r.ctx (c.runBase 0 (s.overflowPart g) + off) bs
  else s.putPhys (bankBase h + c.runBase (s.slot h r.slot).carveStart 0 + off) bs

/-- Write a colour's reissue copy, if it has changed: its header, and its lanes. -/
def State.writeCopy (s : State) (g col : Nat) : State :=
  let r := s.region g
  let c := Tab.get {} r.cols col
  match c.copy with
  | none => s
  | some t =>
    if !c.held || Tab.find r.copyShown col = some t then s
    else
      (r.hearths.foldl (fun s h => s.writeRun g h c 0 (leBytes 16 t.header ++ bytesOf t.lanes)) s).modRegion g (fun r =>
        { r with copyShown := Tab.set r.copyShown col t })

/-- The records of a slot's configuration at a depth: in place, or in the plane that covers it. -/
def SlotState.storeAt (x : SlotState) (d : Nat) : Tab (BitVec 96) :=
  if d < x.planes.length then match x.planes[x.planes.length - 1 - d]? with
    | some p => p.cfg.store
    | none => []
  else x.cfg.store

/-- The join index of a node among the records of a hearth (R66). -/
def joinIndexIn (store : Tab (BitVec 96)) (n : Nat) : Nat :=
  (store.filter (fun e => decide (e.1 < n) && (match (decodeRecord e.2).bind Instr.record with
    | some (o, r) => isDynamic o r
    | none => false))).length

/-- Offset of a frame slot in its colour's run (R67). -/
def FrameSlot.offset (f : FrameSlot) (c : Colour) (jmax j : Nat) : Nat := copyBytes c.wid + (f.row * jmax + j) * slotBytes c.wid

/-- The waiting payloads of a slot with their offsets in it: A, B and C each have 4 × WID bytes after the header. -/
def FrameSlot.payloads (f : FrameSlot) (wid : Nat) : List (Nat × List Byte) :=
  [(16, f.a), (16 + 4 * wid, f.b), (16 + 8 * wid, f.c)].filterMap (fun x => x.2.map (fun t => (x.1, bytesOf t.lanes)))

/-- Write a frame slot: its header, whose bits the spec leaves open, and what waits in it. -/
def State.writeSlot (s : State) (g h : Nat) (f : FrameSlot) (emptied : Bool) : State :=
  let r := s.region g
  let c := Tab.get {} r.cols f.col
  if !c.held then s
  else
    let o := f.offset c r.jmax (joinIndexIn ((s.slot h r.slot).storeAt (r.depthOf f.col)) f.node)
    let (hd, s) := s.openBytes 16
    let s := s.writeRun g h c o hd
    if emptied then s else (f.payloads c.wid).foldl (fun s p => s.writeRun g h c (o + p.1) p.2) s

/-- Two frame slots are the same slot. -/
def FrameSlot.sameSlot (a b : FrameSlot) : Bool := a.col == b.col && a.row == b.row && a.node == b.node

/-- Write the frame slots of a hearth that have changed, and those that have been emptied. -/
def State.writeFrames (s : State) (g h : Nat) : State :=
  let k := (s.region g).slot
  let x := s.slot h k
  if x.frames = x.shown then s
  else
    let s := (x.shown.filter (fun f => !x.frames.any (fun y => y.sameSlot f))).foldl (fun s f => s.writeSlot g h f true) s
    let s := (x.frames.filter (fun f => !x.shown.contains f)).foldl (fun s f => s.writeSlot g h f false) s
    s.modSlot h k (fun x => { x with shown := x.frames })

/-! ### The end of a cycle -/

/-- Write what has changed of one region that a kernel holds and whose context is resident. -/
def State.writeRegion (s : State) (g : Nat) : State :=
  let r := s.region g
  if r.kernel.isNone || r.residence != .resident then s
  else
    let cs := ((r.cols.map (fun c => c.1)) ++ (r.tableShown.map (fun c => c.1))).foldl insertRising []
    let s := cs.foldl (fun s c => (s.writeColour g c).writeCopy g c) s
    let s := s.modRegion g (fun r => { r with copyShown := r.copyShown.filter (fun e => (Tab.get {} r.cols e.1).held) })
    r.hearths.foldl (fun s h => s.writeFrames g h) s

/-- Every region's areas follow what it holds. -/
def State.writeAreas (s : State) : State := (s.regions.map (fun x => x.1)).foldl State.writeRegion s

end Sys2Proof.Machine
end

