-- ==== Sys2Proof/Machine/Pick.lean ====
section
/-! DEFINITION. The choice of the node that a hearth fires in a cycle (R72, R73, R244), with oldest-only mode (R340) and
the microtraps that a firing waits for (R151). -/

namespace Sys2Proof.Machine

/-! ### Readiness -/

/-- The condition that a firing of an opcode has beyond the rules that all share, and the registers of the trine unit that
it touches. `held` says that emissions of its head trigger have been made (R108, R169, R318). -/
def specFor (opc : Nat) (held : Bool) : FireSpec :=
  match opc with
  | 0x009 => waveSpec true
  | 0x00A => waveSpec false
  | 0x00B => { ready := colourFree }
  | 0x00E | 0x01E => { ready := unreservedFree }
  | 0x016 => { ready := if held then markerReady else firstEmission }
  | 0x150 | 0x151 | 0x152 | 0x153 => trineSpec
  | 0x155 => { ready := trineIdle, usesStay := fun _ _ => true }
  | 0x156 => { ready := trineIdle, usesAcc := true, usesStay := fun _ _ => true }
  | 0x157 | 0x158 | 0x159 | 0x15D => accSpec
  | 0x15A => { ready := trineIdle, usesStay := fun _ _ => true }
  | 0x15B => { ready := blockReady }
  | 0x1E3 => { ready := pointerReached }
  | 0x240 => enqSpec
  | 0x243 => { ready := seqReached }
  | 0x281 => { ready := callReady }
  | 0x283 => { ready := tailReady }
  | 0x284 => { ready := fun f s => (s.region f.g).drain.isNone }
  | 0x287 => { ready := snapFree }
  | n => match memSpecOf n with
    | some p => p.1.fires p.2
    | none => {}

/-- Damper entries that a firing of an opcode takes. -/
def entriesFor (opc : Nat) (f : Fire) (s : State) : Nat :=
  match (if opc = 0x240 then some specEnq else (memSpecOf opc).map (fun p => p.1)) with
  | some p => (p.needs f s).getD 0
  | none => 0

/-- The condition of a node as it stands. -/
def State.specAt (s : State) (h k n opc : Nat) : FireSpec := specFor opc ((s.node h k n).emitted != 0)

/-- What could fire at a node of a slot, and under which tag. -/
structure Candidate where
  n : Nat
  turn : Turn
  col : Nat
  wave : Nat
  deriving DecidableEq, Repr

/-- The first marker that waits in a node's queues. -/
def NodeState.marker (x : NodeState) : Option Token := (x.qa ++ x.qb ++ x.qc ++ x.qp).find? (fun t => t.mark != .data)

/-- A marker of the node aligns in this cycle; that counts as a firing (R307). -/
def State.alignment (s : State) (g h k n : Nat) : Option Candidate :=
  match (s.node h k n).marker with
  | none => none
  | some t =>
    if s.snapReady g h k n then some { n := n, turn := .event .snapshotAlign (.node h k n), col := t.col, wave := t.wave }
    else if s.barrierDue g h k n then some { n := n, turn := .event .barrierAlign (.node h k n), col := t.col, wave := t.wave }
    else none

/-- What could fire at a node. -/
def State.candidate (s : State) (g h k n : Nat) : Option Candidate :=
  match s.alignment g h k n with
  | some c => some c
  | none =>
    match s.record h k n with
    | none => none
    | some (o, r) => (s.canFire (s.specAt h k n o) h k n o r).map (fun f => { n := n, turn := .fire h k n, col := f.col, wave := f.wave })

/-- What could fire in a slot, in the order of its nodes. -/
def State.candidates (s : State) (h k : Nat) : List Candidate :=
  match (s.slot h k).region with
  | none => []
  | some g => (s.slot h k).cfg.store.filterMap (fun e => s.candidate g h k e.1)

/-! ### Stages 1 to 4 (R72) -/

/-- The slots of a hearth with their candidates, those with none left out. -/
def State.readySlots (s : State) (h : Nat) : List (Nat × List Candidate) :=
  (List.range 4).filterMap (fun k => match s.candidates h k with
    | [] => none
    | c :: t => some (k, c :: t))

/-- The slot with the lowest rank. -/
def State.firstSlot (s : State) (h : Nat) : List (Nat × List Candidate) → Option (Nat × List Candidate)
  | [] => none
  | x :: t => match s.firstSlot h t with
    | none => some x
    | some y => if s.slotRank h x.1 ≤ s.slotRank h y.1 then some x else some y

/-- The slot that stage 1 gives the cycle to. -/
def State.starvingSlot (s : State) (h : Nat) (xs : List (Nat × List Candidate)) : Option (Nat × List Candidate) :=
  match (s.hearth h).starving with
  | none => none
  | some n => if n % 64 = 0 then xs.find? (fun x => decide (65536 ≤ (s.slot h x.1).starve)) else none

/-- Rank of a candidate at stages 3 and 4. -/
def Candidate.rank (c : Candidate) (r : Region) : Nat := tagRank r { col := c.col, wave := c.wave }

/-- The candidates that stages 3 and 4 leave. -/
def State.oldestOf (s : State) (h k : Nat) (cs : List Candidate) : List Candidate :=
  match (s.slot h k).region with
  | none => []
  | some g =>
    let r := s.region g
    let best := cs.foldl (fun b c => min b (c.rank r)) (cs.headD { n := 0, turn := .pick h, col := 0, wave := 0 } |>.rank r)
    cs.filter (fun c => c.rank r == best)

/-! ### Stage 5 (R73) -/

/-- Sum of the effective weights of candidates. -/
def totalWeight (x : SlotState) (cs : List Candidate) : Nat := cs.foldl (fun a c => a + (x.node c.n).weight) 0

/-- The credit of a candidate after its weight is added. -/
def creditOf (x : SlotState) (c : Candidate) : Int := (x.node c.n).credit + (x.node c.n).weight

/-- The candidate with the highest credit, the lower node number on a tie. -/
def richest (x : SlotState) : List Candidate → Option Candidate
  | [] => none
  | c :: t => match richest x t with
    | none => some c
    | some d => if creditOf x d ≤ creditOf x c then some c else some d

/-- The candidate that the weighted stage chooses: one that was passed over in seven cycles goes first. -/
def weighted (x : SlotState) (cs : List Candidate) : Option Candidate :=
  match cs.find? (fun c => decide (7 ≤ (x.node c.n).passed)) with
  | some c => some c
  | none => richest x cs

/-- Credits and counts of the candidates after a choice. -/
def settleWeights (x : SlotState) (cs : List Candidate) (win : Candidate) : SlotState :=
  let total : Int := totalWeight x cs
  cs.foldl (fun y c =>
    let v := y.node c.n
    y.setNode c.n { v with credit := v.credit + v.weight - (if c.n = win.n then total else 0)
                           passed := if c.n = win.n then 0 else v.passed + 1 }) x

/-- Nodes that were not candidates at the weighted stage in this cycle begin their count anew. -/
def forgetPassed (x : SlotState) (cs : List Candidate) : SlotState :=
  { x with cfg := { x.cfg with nodes := x.cfg.nodes.map (fun e =>
      if e.2.passed = 0 || cs.any (fun c => c.n == e.1) then e else (e.1, { e.2 with passed := 0 })) } }

/-! ### The cycle of a hearth -/

/-- A slot's STARVE counter after a cycle: `fired` says that one of its nodes fires, at stage 1 or not. -/
def starveAfter (n : Nat) (ready fired stage1 : Bool) : Nat :=
  if !ready then 0 else if fired then (if stage1 then n else 0) else min 65536 (n + 1)

/-- Count the cycle in every slot of the hearth. -/
def State.countStarve (s : State) (h : Nat) (xs : List (Nat × List Candidate)) (win : Option Nat) (stage1 : Bool) : State :=
  (List.range 4).foldl (fun s k =>
    let n := starveAfter (s.slot h k).starve (xs.any (fun x => x.1 == k)) (win == some k) stage1
    if n = (s.slot h k).starve then s else s.modSlot h k (fun x => { x with starve := n })) s

/-- The count of the starving slots' cycles goes on while a slot is starving. It begins with a slot that reached 65,536 in a cycle
that a throttled hearth skipped: that cycle was theirs. -/
def State.countStarving (s : State) (h : Nat) : State :=
  let on := (List.range 4).any (fun k => decide (65536 ≤ (s.slot h k).starve))
  match (s.hearth h).starving with
  | none => if on then s.modHearth h (fun x => { x with starving := some 1 }) else s
  | some n => s.modHearth h (fun x => { x with starving := if on then some (n + 1) else none })

/-- Slots that reach 65,536 in this cycle, when no slot is starving yet: they would not fire. -/
def State.reaching (s : State) (h : Nat) (xs : List (Nat × List Candidate)) (win : Nat) : List Nat :=
  if (s.hearth h).starving.isSome then []
  else (xs.filter (fun x => x.1 != win && (s.slot h x.1).starve == 65535)).map (fun x => x.1)

/-- A cycle's candidates at the weighted stage, those of slot k: every other node's count of cycles begins anew (R73). -/
def State.forget (s : State) (h k : Nat) (best : List Candidate) : State :=
  (List.range 4).foldl (fun s j =>
    if (s.slot h j).region.isNone then s else s.modSlot h j (fun x => forgetPassed x (if j = k then best else []))) s

/-- A cycle in which no node of the hearth fires. -/
def State.passCycle (s : State) (h : Nat) (xs : List (Nat × List Candidate)) : State :=
  (((s.forget h 0 []).countStarve h xs none false).countStarving h)

/-- Give the cycle to a slot: the weighted stage chooses its node, whose move comes next. -/
def State.giveCycle (s : State) (h : Nat) (xs : List (Nat × List Candidate)) (k : Nat) (cs : List Candidate) (stage1 : Bool) : State :=
  let best := s.oldestOf h k cs
  match weighted (s.slot h k) best with
  | none => s
  | some c =>
    let s := (s.forget h k best).modSlot h k (fun x => settleWeights x best c)
    ((s.countStarve h xs (some k) stage1).countStarving h).push [c.turn]

/-- A hearth chooses the node that fires in this cycle (R72). A throttled hearth skips some cycles (R374): which, is open
(log 5). -/
def State.choose (s : State) (h : Nat) : State :=
  let xs := s.readySlots h
  let (skip, s) : Bool × State := if s.throttled then (let (w, s) := s.freeWord; (w % 2 == 1, s)) else (false, s)
  if skip then s.passCycle h xs
  else match s.starvingSlot h xs with
    | some (k, cs) => s.giveCycle h xs k cs true
    | none =>
      match s.firstSlot h xs with
      | none => s.passCycle h xs
      | some (k, cs) =>
        match s.reaching h xs k with
        | [] => s.giveCycle h xs k cs false
        | r :: rs =>
          let s := (r :: rs).foldl (fun s j => s.modSlot h j (fun x => { x with starve := 65536 })) s
          s.push ((r :: rs).map (fun j => .event .starving (.slot h j)) ++ [.pick h])

/-! ### Oldest-only mode (R340) -/

/-- The activations other than `c` that hold entries of a damper cannot commit before it: each is timed in its domain with a
larger TS, or waits for it under condition 3 of R189. -/
def State.waitsFor (s : State) (g c : Nat) (e : DamperEntry) : Bool :=
  let x := s.colour g c
  let y := s.colour e.region e.col
  let k := (s.region g).kernel
  (k.isSome && (s.region e.region).kernel == k && x.ts != 0 && y.ts != 0 && decide (x.ts < y.ts)) ||
  y.producers.contains (g, c, x.ser)

/-- The activation of a store that finds no damper entry enters oldest-only mode. -/
def State.entersOldest (s : State) (f : Fire) (need : Nat) : Bool :=
  let es := (s.hearth f.h).damper.filter (fun e => !e.inLog)
  !(s.colour f.g f.col).oldest.contains f.h && need != 0 &&
  decide (Config.damperEntries < damperUsed es + s.promised f.h + need) &&
  es.all (fun e => (e.region == f.g && e.col == f.col) || s.waitsFor f.g f.col e)

/-- Oldest-only mode as the stores of a slot ask for it. -/
def State.noteOldest (s : State) (h k : Nat) : State :=
  if damperUsed (s.hearth h).damper + s.promised h < Config.damperEntries / 2 then s
  else
    (s.slot h k).cfg.store.foldl (fun s e => match s.record h k e.1 with
      | none => s
      | some (o, r) => match s.offered h k e.1 o r with
        | none => s
        | some f =>
          if s.entersOldest f (entriesFor o f s) then s.modColour f.g f.col (fun c => { c with oldest := insertRising c.oldest h }) else s) s

/-! ### Microtraps (R151) -/

/-- The touches of a slot that wait for a microtrap: a firing's, and those of the next step of a contraction (R151). -/
def State.touches (s : State) (h k : Nat) : List (Nat × Bool) :=
  match (s.slot h k).region with
  | none => []
  | some g =>
    let m := (s.region g).ctx
    let fires := (s.slot h k).cfg.store.flatMap (fun e => match s.record h k e.1 with
      | none => []
      | some (o, r) => match s.mayFire (s.specAt h k e.1 o) h k e.1 o r with
        | none => []
        | some f => (s.needs (s.specAt h k e.1 o) f).map (fun b => (m, b)))
    fires ++ (if s.stepWants h k then (s.stepNeeds h k).map (fun b => (m, b)) else [])

/-- The microtraps of a hearth that begin in this cycle. -/
def State.spillTurns (s : State) (h : Nat) : List Turn :=
  ((List.range 4).flatMap (fun k => s.touches h k)).map (fun x => .event .accumulatorSpill (.touch h x.1 x.2))

/-- A hearth's move in a cycle: stores may ask for oldest-only mode, the choice is made, and microtraps that a touch waits
for begin after it. -/
def State.pick (s : State) (h : Nat) : State :=
  let s := (List.range 4).foldl (fun s k => s.noteOldest h k) s
  (s.push (s.spillTurns h)).choose h

end Sys2Proof.Machine
end

