-- ==== Sys2Proof/Machine/Tick.lean ====
section
/-! DEFINITION. The fabric cycle: which moves a cycle makes and in what order. A cycle is cut into parts; each part looks
at the state as it stands and puts its moves in order. A move whose own condition does not hold changes nothing, so a part
may name more moves than take place. The order of moves that the spec does not order is the model's (log 7). -/

namespace Sys2Proof.Machine

/-- An event at a place, where a condition holds. -/
def eventIf (b : Bool) (i : Instr) (l : Locus) : List Turn := if b then [.event i l] else []

/-! ### Part 0: what comes from outside, and the module's own clocks -/

/-- Outside moves that are due. -/
def State.dueInputs (s : State) : List Turn := (s.inputs.filter (fun x => decide (x.1 ≤ s.cycle))).map (fun x => x.2)

/-- Heartbeats of the dies (R266). -/
def State.heartbeats (s : State) : List Turn := if s.cycle % 1024 = 0 then (List.range 4).map (fun d => .event .heartbeat (.die d)) else []

/-- An outside move that fences a die. -/
def Turn.fences : Turn → Bool
  | .event .dieFence _ => true
  | .event (.uncorrectableError (.distributor _)) _ => true
  | .event .thermalShutdown _ => true
  | _ => false

/-- Part 0: dies are lost before anything else of the cycle, so that their groups are Lost as they ran (R265). -/
def State.outsideTurns (s : State) : List Turn :=
  s.heartbeats ++ s.dueInputs.filter Turn.fences ++ s.dueInputs.filter (fun t => !t.fences)

/-- Moves of the module as a whole. -/
def State.moduleTurns (s : State) : List Turn :=
  eventIf (s.election.any (fun t => decide (t ≤ s.cycle))) .electionEnd .module ++
  eventIf (s.phase == 4) .bootReady .module ++
  eventIf (s.xlinvBusy.any (fun t => decide (t ≤ s.cycle))) .xlinvComplete .module ++
  eventIf (s.attCount != 0 && !s.attDone) .attReport .module ++
  s.links.flatMap (fun e => eventIf (e.2.st == .detect) .detectTimeout (.link e.1)) ++
  (if s.cycle % 1024 = 0 then s.slots.map (fun e => .event .reweight (.slot (e.1 / 4) (e.1 % 4))) else [])

/-! ### Part 1: regions and contexts -/

/-- Moves that a region's own state calls for. -/
def State.stateTurns (g : Nat) (r : Region) : List Turn :=
  let e := fun (i : Instr) => [Turn.event i (.region g)]
  (match r.st with
   | .callPending => e .cover
   | .covering => e .calleeStart
   | .rekindling | .resuming => e .callerResume
   | .loadingInPlace => e .tailgSwap
   | .loading => e .configLoad
   | _ => []) ++
  (if r.depth = 0 then [] else e .rekindle) ++ (if r.drain.isSome then e .drainComplete else []) ++
  (if r.snapshot.isSome then e .snapshotAbandon else [])

/-- Moves of a region's residence: an evicted region that wants to return may take the slot of one that leaves. -/
def State.residenceTurns (s : State) (g : Nat) (r : Region) : List Turn :=
  match r.residence with
  | .evicting =>
    (s.regions.filter (fun x => s.wantsBack x.1)).map (fun x => .event .contextSwap (.swap g x.1)) ++ [.event .contextEvict (.region g)]
  | .evicted | .restoring => [.event .contextRestore (.region g)]
  | _ => []

/-- Notices that have arrived at a region. -/
def State.noticeTurns (s : State) (g : Nat) (r : Region) : List Turn :=
  (r.notices.filter (fun n => decide (n.arrive ≤ s.cycle))).map (fun n => .event .purgeNotice (.notice g n.source n.col))

/-- Moves of a slot's planes and of its yield. -/
def State.planeTurns (s : State) (e : Nat × SlotState) : List Turn :=
  let l := Locus.slot (e.1 / 4) (e.1 % 4)
  eventIf (e.2.yieldUntil != 0 && decide (e.2.yieldUntil ≤ s.cycle)) .yieldExpiry l ++
  (if e.2.planes.isEmpty && !s.wantsPlane (e.1 / 4) (e.1 % 4) then [] else [.event .planeMoveDown l, .event .planeMoveUp l])

/-- Strikes that are reported in this cycle. -/
def State.strikeTurns (s : State) : List Turn :=
  (s.strikes.filter (fun x => decide (x.r ≤ s.cycle))).map (fun x => .event .strikeReport (.strike x.h x.s))

/-- Fault messages whose window has passed. -/
def State.messageTurns (s : State) : List Turn :=
  s.slots.flatMap (fun e => e.2.cfg.nodes.flatMap (fun n =>
    eventIf (n.2.withheld.any (fun w => w.due s.cycle)) .faultMessageSend (.node (e.1 / 4) (e.1 % 4) n.1))) ++
  s.queues.flatMap (fun e =>
    eventIf (e.2.withheld.any (fun w => w.due s.cycle) || e.2.linkFault.any (fun w => w.due s.cycle)) .faultMessageSend (.queue e.1))

/-- Part 1. -/
def State.regionTurns (s : State) : List Turn :=
  s.strikeTurns ++ s.regions.flatMap (fun x => s.noticeTurns x.1 x.2) ++ s.messageTurns ++
  s.slots.flatMap s.planeTurns ++ s.regions.flatMap (fun x => State.stateTurns x.1 x.2) ++
  s.regions.flatMap (fun x => s.residenceTurns x.1 x.2) ++
  s.contexts.flatMap (fun x => eventIf x.2.halting .contextHalt (.context x.1))

/-! ### Part 3: engines (R274, R291, R292, R294, R332, R359) -/

/-- A queue whose next granule the engine may move in this cycle. -/
def Queue.moves (u : Queue) (now : Nat) : Bool :=
  u.st == .running && u.serves && (match u.cur with
    | some c => c.finish.isNone && decide (c.busyUntil ≤ now)
    | none => false)

/-- A queue that has another move: the read of an entry, a completion write, or a wait that may have ended. -/
def Queue.otherMove (u : Queue) : Bool :=
  u.relinks || u.serves && (match u.cur with
    | none => u.st == .running && decide (u.done < u.tailn)
    | some c => c.finish.isSome || (u.st == .waiting && imageKind c.image != 0x23))

/-- Turns of 64 bytes that an engine makes in a cycle (Table 15-4): 128 bytes for the copy engines, 64 for the others. -/
def engineRate (e : Nat) : Nat := if e % 8 < 4 then 2 else 1

/-- Numbers of one engine's queues that move data, beginning with the one whose turn it is. -/
def State.roundFrom (s : State) (e : Nat) : List Nat :=
  let qs := ((s.queues.filter (fun x => x.1 / 16 == e && x.2.moves s.cycle)).map (fun x => x.1))
  let t := 16 * e + (Tab.get {} s.engines e).turn
  qs.filter (fun q => decide (t ≤ q)) ++ qs.filter (fun q => decide (q < t))

/-- The entry that a queue performs is a PERM, which takes its engine's whole cycle for 4 bytes (Table 15-4). -/
def Queue.perming (u : Queue) : Bool := u.cur.any (fun c => imageKind c.image == 0x03)

/-- The queues that an engine serves in a cycle: in turn, as many granules as its rate, or one PERM alone. -/
def serveRound (slow : Nat → Bool) (full : Nat) : Nat → List Nat → List Nat
  | 0, _ => []
  | _ + 1, [] => []
  | n + 1, q :: t => if slow q then (if n + 1 = full then [q] else []) else q :: serveRound slow full n (t ++ [q])

/-- The queue whose turn is next after one was served: a PERM keeps its turn until 64 bytes have moved (R274). -/
def State.nextTurn (s : State) (q : Nat) : Nat :=
  if (s.queue q).perming && (s.queue q).cur.any (fun c => (c.progress + 1) % 16 != 0) then q % 16 else (q % 16 + 1) % 16

/-- Engines with a queue that moves data. -/
def State.busyEngines (s : State) : List Nat :=
  ((s.queues.filter (fun x => x.2.moves s.cycle)).map (fun x => engineOf x.1)).foldl insertRising []

/-- The moves of one engine, and its round moved on. -/
def State.serveEngine (s : State) (e : Nat) : State × List Turn :=
  let qs := serveRound (fun q => (s.queue q).perming) (engineRate e) (engineRate e) (s.roundFrom e)
  match qs.getLast? with
  | none => (s, [])
  | some q => ({ s with engines := Tab.modify {} s.engines e (fun x => { x with turn := s.nextTurn q }) }, qs.map (fun q => .entry q))

/-- The moves of all engines. -/
def State.serveAll (s : State) : State × List Turn :=
  s.busyEngines.foldl (fun a e => let r := a.1.serveEngine e; (r.1, a.2 ++ r.2)) (s, [])

/-- Members that a queue's collective has lost. -/
def State.lostTurns (s : State) (q : Nat) (u : Queue) : List Turn :=
  match u.cur with
  | none => []
  | some c =>
    if c.begun && (isCollective c || isTransfer c) then
      ((List.range (if isTransfer c then 1 else c.nm)).filter (fun r => !c.coll.lost.contains r && s.memberGone c r)).map
        (fun r => .event .collectiveMemberLost (.member q r))
    else []

/-- Moves of a queue besides its data: entries begin before other moves (R294). -/
def State.queueTurns (s : State) (q : Nat) (u : Queue) : List Turn :=
  (if u.otherMove && !s.fencedDies.contains (q / 128) then [.entry q] else []) ++
  (if u.waitv.isSome then [.event .waitvRecheck (.queue q), .event .waitvTimeout (.queue q)] else []) ++
  s.lostTurns q u ++ eventIf (s.forwards.any (fun f => f.queue == q)) .forwardRetire (.queue q)

/-- Part 3. -/
def State.engineTurns (s : State) : State :=
  let r := s.serveAll
  r.1.push (s.queues.flatMap (fun x => s.queueTurns x.1 x.2) ++ r.2)

/-- Appends and tail advances that waited (R275). -/
def State.goOnQueues (s : State) : State :=
  s.queues.foldl (fun s x => if (s.queue x.1).blocked.isEmpty then s else s.drainQueue x.1) s

/-! ### Part 2: replies, dampers, commits and handouts -/

/-- Replies and timeouts of a slot, those of fixed latency or the others. -/
def State.replyTurns (s : State) (fixed : Bool) (e : Nat × SlotState) : List Turn :=
  e.2.cfg.buffer.flatMap (fun q =>
    if !q.issued || q.fixed != fixed then []
    else
      let l := Locus.request (e.1 / 4) (e.1 % 4) q.id
      if s.timedOut q then [.event (if q.t3 then .linkFaultTimeout else .requestTimeout) l]
      else eventIf (decide (q.due ≤ s.cycle)) .loadReply l)

/-- Damper entries of a hearth that move on. -/
def State.damperTurns (s : State) (e : Nat × Hearth) : List Turn :=
  e.2.damper.flatMap (fun x => match x.st with
    | .held => eventIf (decide (x.born + Config.tstrike ≤ s.cycle)) .damperEntryEligible (.entry e.1 x.id)
    | .eligible => eventIf ((s.colour x.region x.col).oldest.contains e.1) .damperEntryEligible (.entry e.1 x.id)
    | .sent => eventIf (decide (x.sentAt + Config.requestTimeout ≤ s.cycle)) .commitWriteTimeout (.entry e.1 x.id)
    | .logged => [])

/-- Activations of a region that may commit, or whose commit goes on. -/
def State.commitTurns (s : State) (g : Nat) (r : Region) : List Turn :=
  r.cols.flatMap (fun c => if c.2.st != .ended then [] else
    eventIf (c.2.committed || c.2.preparing || s.mayCommit g c.1) .activationCommit (.colour g c.1))

/-- Purges of a region that may end, and a reissue. -/
def purgeTurns (g : Nat) (r : Region) : List Turn :=
  r.cols.flatMap (fun c => eventIf (c.2.st == .purging) .purgeComplete (.colour g c.1)) ++
  eventIf (!r.reissues.isEmpty) .reissue (.region g)

/-- Part 2: loads of fixed latency come before the other replies, replies before dampers (R183), and the handouts of groups before
the engines, whose WDRAW may name their kernel (R254). -/
def State.commitPart (s : State) : List Turn :=
  s.slots.flatMap (s.replyTurns true) ++ s.slots.flatMap (s.replyTurns false) ++ s.hearths.flatMap s.damperTurns ++ s.regions.flatMap (fun x => s.commitTurns x.1 x.2) ++
  s.regions.flatMap (fun x => purgeTurns x.1 x.2) ++
  s.regions.flatMap (fun x => eventIf (x.2.kernel.isSome && s.takesGroups x.1) .groupHandout (.region x.1))

/-- Writes to T3 that freed colours left behind go on (R198). -/
def State.goOnT3 (s : State) : State :=
  ((s.hearths.flatMap (fun h => (h.2.damper.filter (fun e => e.col == 4096 && e.st == .sent)).map (fun e => e.region))).foldl
    insertRising []).foldl (fun s g => s.retryT3 g) s

/-! ### Part 4: the Stoker and the host -/

/-- Moves of a kernel: its end, and its visibility. -/
def kernelTurns (e : Nat × Kernel) : List Turn :=
  match e.2.st with
  | .free | .waiting | .held | .ready | .bound => []
  | .visible => []
  | .complete => [.event .kernelComplete (.kernel e.1), .event .kernelVisible (.kernel e.1)]
  | _ => [.event .kernelComplete (.kernel e.1), .event .kernelVisible (.kernel e.1)]

/-- A load is due, or waits for its rectangle. -/
def State.loadTurns (s : State) : List Turn :=
  (s.loads.filter (fun l => decide (l.due ≤ s.cycle))).map (fun l => .event .configLoad (.node l.h l.k l.n))

/-- Pairs with submissions to take. -/
def State.submitTurns (s : State) : List Turn :=
  if s.phase = 5 ∧ s.cxlUp then s.pairs.flatMap (fun p => if p.2.submitted then [.submit p.1] else []) else []

/-- Submissions that wait for room are tried again. -/
def State.waitingTurns (s : State) : List Turn := s.waiting.map (fun a => .event (.kernelAccept a) .module)

/-- Part 4. -/
def State.stokerPart (s : State) : List Turn :=
  s.waitingTurns ++ s.submitTurns ++ s.loadTurns ++ s.kernels.flatMap kernelTurns ++
  (if s.bindOrder.isEmpty then [] else [.event .bindRegion .module]) ++
  s.outgoing.map (fun _ => .event .completionEntry .module)

/-! ### Part 5: tokens that leave later than their firing -/

/-- Moves of a node's holds and of the markers that it owes. -/
def nodeTurns (h k : Nat) (now : Nat) (e : Nat × NodeState) : List Turn :=
  let l := Locus.node h k e.1
  eventIf (e.2.holds.any (fun x => x.kind == .delay && !x.ready && decide (x.due ≤ now))) .delayExpiry l ++
  eventIf (e.2.blocked now) .deferredTokenSend l ++ eventIf (!e.2.owed.isEmpty) .drainSourceMarker l

/-- The unit's results that are due in a slot. -/
def unitTurns (now : Nat) (e : Nat × SlotState) : List Turn :=
  let l := Locus.slot (e.1 / 4) (e.1 % 4)
  eventIf (e.2.contraction.any (fun c => c.done && decide (c.lastStep + 8 ≤ now))) .contractionEnd l ++
  eventIf (e.2.transpose.any (fun t => !t.out.isEmpty)) .txprOutput l

/-- Part 5. A contraction's result waits at its node from the cycle in which it is formed, so results come first. -/
def State.resultPart (s : State) : List Turn := s.slots.flatMap (unitTurns s.cycle)

/-- Part 6. -/
def State.holdPart (s : State) : List Turn :=
  s.slots.flatMap (fun e => e.2.cfg.nodes.flatMap (nodeTurns (e.1 / 4) (e.1 % 4) s.cycle))

/-! ### Parts 7 and 8: arrivals -/

/-- Messages that reach their interface. -/
def State.meshPart (s : State) : List Turn :=
  (s.messages.filter (fun m => decide (m.2.arrive ≤ s.cycle))).map (fun m => .event .meshMessageReceive (.flight m.1))

/-- Tokens that reach their node. -/
def State.arrivalPart (s : State) : List Turn :=
  (s.flights.filter (fun f => decide (f.2.arrive ≤ s.cycle))).map (fun f => .event .tokenArrival (.flight f.1))

/-! ### Part 9: into frame slots; part 10: requests; part 11: steps and choices -/

/-- Ports of a dynamic join whose head may move on. -/
def State.frameTurns (s : State) (h k : Nat) (n : Nat) : List Turn :=
  match s.record h k n with
  | none => []
  | some (o, r) =>
    if isDynamic o r then
      (recPorts r).flatMap (fun p => eventIf (dataHead (s.node h k n) p).isSome .frameSlotEntry (.port h k n p))
    else []

/-- Part 9. -/
def State.framePart (s : State) : List Turn :=
  s.slots.flatMap (fun e => e.2.cfg.store.flatMap (fun n => s.frameTurns (e.1 / 4) (e.1 % 4) n.1))

/-- Part 10. -/
def State.issuePart (s : State) : List Turn :=
  s.slots.flatMap (fun e => e.2.cfg.buffer.flatMap (fun q => eventIf (!q.issued) .requestIssue (.request (e.1 / 4) (e.1 % 4) q.id)))

/-- The hearths that have a region, each once. -/
def State.busyHearths (s : State) : List Nat :=
  (s.slots.foldl (fun (l : List Nat) e => match e.2.region with
    | none => l
    | some _ => if l.head? = some (e.1 / 4) then l else e.1 / 4 :: l) []).reverse

/-- Insert a slot by its rank for the trine unit. -/
def State.insertSlot (s : State) (h k : Nat) : List Nat → List Nat
  | [] => [k]
  | j :: t => if s.unitRank h k < s.unitRank h j then k :: j :: t else j :: s.insertSlot h k t

/-- Contraction steps of a hearth, in the order in which the unit prefers their slots (R144). -/
def State.stepTurns (s : State) (h : Nat) : List Turn :=
  let ks := ((List.range 4).filter (fun k => (s.slot h k).contraction.isSome)).foldl (fun l k => s.insertSlot h k l) []
  ks.map (fun k => .event .contractionStep (.slot h k))

/-- Microtraps that end in a hearth. -/
def State.spillEnds (s : State) (h : Nat) : List Turn :=
  ((s.hearth h).spills.filter (fun x => decide (x.2.2 ≤ s.cycle))).map (fun x => .event .accumulatorSpill (.touch h x.1 x.2.1))

/-- Part 11. The hearth's choice comes before the steps of contractions in progress: a contraction that begins in the cycle takes
the trine unit from a slot of later rank (R144). -/
def State.firePart (s : State) : List Turn :=
  s.busyHearths.flatMap (fun h => s.spillEnds h ++ [.pick h] ++ s.stepTurns h)

/-! ### Parts 12 and 13: the end of the cycle -/

/-- A slot neither fired nor could have fired in this cycle, and no reply has come to it (R314, Table 17-2). -/
def SlotState.still (x : SlotState) (now : Nat) : Bool :=
  x.firedAt != some now && x.heardAt != some now && x.starve == 0 && (match x.contraction with
    | some c => c.lastStep != now && decide (c.busyUntil ≤ now)
    | none => true)

/-- A node of the slot waits as a SEQWAIT or WPWAIT: its operand is there, and what it waits for has not come. -/
def State.waitsForEvent (s : State) (g h k : Nat) : Bool :=
  (s.slot h k).cfg.store.any (fun e => match s.record h k e.1 with
    | some (0x1E3, r) => (s.gather g h k e.1 0x1E3 r).any (fun f => !pointerReached f s)
    | some (0x243, r) => (s.gather g h k e.1 0x243 r).any (fun f => !seqReached f s)
    | _ => false)

/-- Something of the slot in one hearth is outstanding (R314). -/
def SlotState.waitsOutside (x : SlotState) (now : Nat) : Bool :=
  x.cfg.buffer.any (fun q => q.issued) ||
  x.cfg.nodes.any (fun n => n.2.withheld.isSome || n.2.holds.any (fun y => !y.ready && (y.kind == .cret || decide (now < y.due))))

/-- The quiescence count rises in this cycle (R314). -/
def State.quietRegion (s : State) (g : Nat) (r : Region) : Bool :=
  s.slots.all (fun e => e.2.region != some g ||
    (e.2.still s.cycle && !e.2.waitsOutside s.cycle && !s.waitsForEvent g (e.1 / 4) (e.1 % 4))) &&
  r.calls.all (fun c => c.result.isNone && !c.dead) && r.cols.all (fun c => c.2.st != .ended) && r.slow.all (fun x => decide (x.2 ≤ s.cycle)) &&
  !s.loads.any (fun l => l.k == r.slot && r.holds l.h) &&
  (match r.kernel with
   | some e => !(s.kernel e).ended
   | none => true)

/-- The count of one region after the cycle. -/
def State.countQuiet (s : State) (g : Nat) (r : Region) : Region :=
  if r.residence != .resident then r
  else if r.st == .running && s.quietRegion g r then { r with wdogCnt := r.wdogCnt + 1 }
  else if r.wdogCnt = 0 then r else { r with wdogCnt := 0 }

/-- Tokens in queues are counted for the weights (R73). -/
def NodeState.countQueued (x : NodeState) : NodeState := if x.occupancy = 0 then x else { x with qsum := x.qsum + x.occupancy }

/-- Activations in oldest-only mode that have been the oldest are noted (R340). -/
def State.settle (s : State) (g : Nat) (r : Region) : Region :=
  if r.cols.all (fun c => c.2.oldest.isEmpty) then r
  else { r with cols := r.cols.map (fun c => if !c.2.oldest.isEmpty && s.isOldest g c.1 then (c.1, { c.2 with settled := true }) else c) }

/-- The counts at the end of a cycle: the watchdog's, oldest-only mode and the queues' occupancy; regions that reach their limit
take QUIESCE. -/
def State.countCycle (s : State) : State :=
  let s : State := { s with
    regions := s.regions.map (fun x => (x.1, s.settle x.1 (s.countQuiet x.1 x.2)))
    slots := s.slots.map (fun e => (e.1, { e.2 with cfg := { e.2.cfg with nodes := e.2.cfg.nodes.map (fun n => (n.1, n.2.countQueued)) } })) }
  s.push (s.regions.flatMap (fun x => eventIf x.2.starved .quiesce (.region x.1)))

/-- The end of the cycle: the activations of kernels that have faulted in it are purged (R254), strike reports leave, and the bytes of
colour tables and frame runs follow what they hold. -/
def State.closeCycle (s : State) : State := s.closeFaults.closeStrikes.writeAreas

/-- The CALLGs that are ready in this cycle are noted: the one of the lowest hearth alone may fire (R223). -/
def State.noteCalls (s : State) : State := { s with regions := s.regions.map (fun x => (x.1, { x.2 with firstCall := s.lowestCall x.1 })) }

/-! ### The cycle -/

/-- One part of the cycle. -/
def State.sweep (s : State) (part : Nat) : State :=
  match part with
  | 0 => { s with inputs := s.inputs.filter (fun x => decide (s.cycle < x.1)) }.push (s.outsideTurns ++ s.moduleTurns)
  | 1 => s.push s.regionTurns
  | 2 => let s := s.goOnT3.goOnResends.goOnQueues; s.push s.commitPart
  | 3 => s.engineTurns
  | 4 => let s := s.goOnAccepted; { s with waiting := [] }.push s.stokerPart
  | 5 => s.push s.resultPart
  | 6 => s.push s.holdPart
  | 7 => s.push s.meshPart
  | 8 => s.push s.arrivalPart
  | 9 => let s := s.slots.foldl (fun s e => s.checkJoins e) s; s.push s.framePart
  | 10 => s.push s.issuePart
  | 11 => let s := s.noteCalls; s.push s.firePart
  | 12 => s.countCycle
  | _ => s.closeCycle

/-- The parts of a cycle. DEDUCED (log 135): a heartbeat's fence stands in part 0, before the purges and moves of its cycle. -/
def cycleParts : List Turn := (List.range 14).map .sweep

/-- A new cycle begins. -/
def State.tick (s : State) : State := 
  { s with cycle := s.cycle + 1, cur := .module, agenda := cycleParts, drained := []
           traffic := s.traffic.filterMap (fun e => if 256 < e.2 then some (e.1, e.2 - 256) else none) }

end Sys2Proof.Machine
end

