-- ==== Sys2Proof/Machine/Fetch.lean ====
section
/-! DEFINITION. Where the instruction of a move comes from: a node's record in the node store (R39), a queue's entry as its
engine read it (R276), a submission in its ring (R363), or the move itself. And the state in which a given instruction is
the next one. -/

namespace Sys2Proof.Machine

/-! ### Fetching -/

/-- What a move comes to: a change of the state without an instruction, an instruction at its place, or a record whose
opcode is not allocated. -/
inductive Fetched where
  | idle (s : State)
  | run (i : Instr) (l : Locus)
  | broken (r : Refusal)

/-- The instruction of a node whose head trigger has emissions already: the next of them (R108, R169, R318). -/
def laterOf (i : Instr) : Instr :=
  match i with
  | .range r => .rangeEmission r
  | .agen r => .agenEmission r
  | .mark r => .markMarkerEmission r
  | i => i

/-- The instruction of a node store's word at a node. -/
def State.nodeInstr (s : State) (h k n : Nat) (w : BitVec 96) : Option Instr :=
  (decodeRecord w).map (fun i => if (s.node h k n).emitted = 0 then i else laterOf i)

/-- The firing of a node: an empty slot never fires (R39). -/
def State.fetchNode (s : State) (h k n : Nat) : Fetched :=
  match Tab.find (s.slot h k).cfg.store n with
  | none => .idle s
  | some w => match s.nodeInstr h k n w with
    | none => .broken (.undecoded h k n)
    | some i => .run i (.node h k n)

/-- A queue's move: the read of its next entry, or a turn of the entry that it performs. -/
def State.fetchEntry (s : State) (q : Nat) : Fetched :=
  match (s.queue q).cur with
  | none => .idle (if (s.queue q).relinks || ((s.queue q).serves && decide ((s.queue q).done < (s.queue q).tailn)) then s.readEntry q else s)
  | some c => .run (decodeEntry c.image) (.queue q)

/-- The submission at the head of a pair's ring. -/
def State.fetchSubmission (s : State) (p : Nat) : Fetched :=
  if (s.pair p).submitted then .run (decodeSubmission (BitVec.ofNat 512 (leNat (s.fetch (s.pair p).headAddr 64)))) (.pair p) else .idle s

/-- What a move comes to. -/
def State.fetchTurn (s : State) (t : Turn) : Fetched :=
  match t with
  | .sweep p => .idle (({ s with cur := .module } : State).sweep p)
  | .pick h => .idle (s.pick h)
  | .fire h k n => s.fetchNode h k n
  | .entry q => s.fetchEntry q
  | .submit p => s.fetchSubmission p
  | .event i l => .run i l

/-! ### A given instruction comes next -/

/-- A token of the node's FMT for one operand port. -/
def readyToken (r : Rec) (p : Nat) : Token :=
  { fmt := r.fmt.toNat, port := p, wid := 1, sc := r.scl == 2, lanes := [1], res := tokenResidue r.fmt.toNat [1] }

/-- A node with one token waiting at every port that it has, and a start token if it is a source. -/
def readyNode (r : Rec) : NodeState :=
  let x : NodeState := (recPorts r).foldl (fun x p => x.setQueue p [readyToken r p]) {}
  if r.ary = 0 then { x with starts := [readyToken r 0] } else x

/-- A dynamic join's operands wait in a frame slot. -/
def readyFrame (r : Rec) : FrameSlot :=
  (recPorts r).foldl (fun f p => f.setPort p (some (readyToken r p)))
    { col := 0, row := 0, node := 0, wave := 0, a := none, b := none, c := none, p := none, flg := 0, tnt := false, count := 0 }

/-- A running region of one hearth, held by no kernel, with its group colour. -/
def readyRegion : Region :=
  { st := .running, cols := [(0, { st := .live, wid := 32, km1 := 0, vm1 := 0, group := some 0, origin := some 0 })] }

/-- A record stands in node 0 of slot 0 of hearth 0, its operands are there, and it is the next to fire. -/
def State.withRecord (s : State) (w : BitVec 96) : State :=
  let r := decodeFields w
  let dyn := isDynamic (recordOpc w) r
  let x : SlotState :=
    { region := some 0, carveSize := 4096, lfsr := 1
      frames := if dyn then [readyFrame r] else []
      cfg := { store := [(0, w)], nodes := if dyn then [] else [(0, readyNode r)] } }
  { (s.setSlot 0 0 x).setRegion 0 readyRegion with agenda := .fire 0 0 0 :: s.agenda }

/-- Queue 0 is performing an entry, and its next turn comes now. -/
def State.withEntry (s : State) (w : BitVec 512) : State :=
  let c : CurrentEntry :=
    { image := w, n := 0, started := s.cycle, progress := 0, names := [], poison := false, r0 := 0, r1 := 0, switched := none
      lastRead := 0, finish := none, begun := false, busyUntil := s.cycle, latch := [], off := 0, buffer := [], coll := {} }
  { s.setQueue 0 { en := true, st := .running, appn := 1, tailn := 1, cur := some c } with agenda := .entry 0 :: s.agenda }

end Sys2Proof.Machine
end

