-- ==== Sys2Proof/Machine/Step.lean ====
section
/-! DEFINITION. One step of the module: the next move of the running cycle, or the beginning of a new cycle. -/

namespace Sys2Proof.Machine

/-- One step. -/
def step (s : State) : Host.Outcome State Fault Refusal :=
  match s.agenda with
  | [] => .next s.tick
  | t :: rest =>
    match ({ s with agenda := rest } : State).fetchTurn t with
    | .idle s' => .next s'
    | .run i l => exec i { s with agenda := rest, cur := l }
    | .broken r => .refused r

/-- The state in which the instruction of the given bits is the next to run. -/
def State.withFetchWord (s : State) (nbits w : Nat) : State :=
  if nbits ≤ 128 then s.withRecord (BitVec.ofNat 96 w) else s.withEntry (BitVec.ofNat 512 w)

end Sys2Proof.Machine
end

