-- ==== Sys2Proof/WellFormed.lean ====
section
/-! DEFINITION. Which instructions are well formed. A node instruction is well formed when the configuration loader
finds none of the conditions of Table 3-15 broken (R58), so that its record could become resident. An engine
command is well formed when its KIND byte is the one its constructor stands for and its body has no stray byte;
every check of a body's values belongs to the command's meaning. -/

namespace Sys2Proof

/-- No byte of the body outside the named fields is set; a BADKIND entry has a KIND that Table 3-14 does not list, and
an unknown command an OPC that Table 20-3 does not list. -/
def bodyTidy : Instr → Bool
  | .copy _ b => !b.stray && b.pat == 0
  | .fill _ b => !b.stray && b.src == 0
  | .copyt _ b => !b.stray && b.pcode == 0
  | .perm _ b => !b.stray
  | .gath _ b => !b.stray
  | .scat _ b => !b.stray
  | .copyr _ b => !b.stray
  | .kvpatch _ b => !b.stray
  | .promo _ b => !b.stray
  | .demo _ b => !b.stray
  | .redsc _ b => !b.stray
  | .allga _ b => !b.stray
  | .allrd _ b => !b.stray
  | .send _ b => !b.stray
  | .recv _ b => !b.stray
  | .qfence _ b => !b.stray
  | .wdraw _ b => !b.stray
  | .signal _ b => !b.stray
  | .waitv _ b => !b.stray
  | .badkind _ k _ => !entryKinds.contains k.toNat
  | .unknownCommand _ opc => !commandCodes.contains opc.toNat
  | _ => true

/-- A well-formed instruction. -/
def Instr.wellFormed (i : Instr) : Bool :=
  match i.record with
  | some (o, r) => (recordReason o r 0).isNone
  | none => bodyTidy i

end Sys2Proof
end

