-- ==== Sys2Proof/Safety.lean ====
section
/-! DEFINITION. What counts as a safe run of the module, and the terms in which the claims are stated: the invariant of
the state, a firing that takes place, and what an instruction leaves as it was. -/

namespace Sys2Proof.Machine

/-! ### Safe runs -/

/-- The step from this state gives a next state. -/
def State.steps (s : State) : Prop := ∃ t, step s = .next t

/-- A run is safe when none of its steps ends in a fault or a refusal. -/
def State.safe (s : State) : Prop := ∀ k, ∃ t, Sys2Proof.core.run k s = .next t

/-! ### The invariant -/

/-- Numbers strictly rising from `lo`. -/
def risingFrom : Nat → List Nat → Bool
  | _, [] => true
  | lo, x :: t => decide (lo ≤ x) && risingFrom (x + 1) t

/-- Memory is canonical, and the poisoned granules stand once each in rising order. -/
def State.Inv (s : State) : Prop := Memory.wf s.mem = true ∧ risingFrom 0 s.poison = true

/-! ### A firing that takes place -/

/-- The state after a firing's operands are consumed and the firing is noted, in which its effect takes place. -/
def State.taken (s : State) (f : Fire) : State := (s.consume f).noteFiring f

/-- Record r of opcode o fires as `f` at the node of this step: the node is ready (R70), no condition of Table 3-16 holds,
and some lane qualifies (R47) unless the instruction acts whatever its lanes do. -/
def State.fires (s : State) (p : FireSpec) (o : Nat) (r : Rec) (f : Fire) : Bool :=
  match s.cur with
  | .node h k n =>
    s.canFire p h k n o r == some f && (firstFault p f (s.taken f)).isNone && (!f.idle || p.always)
  | _ => false

/-- The same for an instruction whose operands stay where they are (RANGE, AGEN, MARK, the memory and contraction
nodes). -/
def State.firesHeld (s : State) (p : FireSpec) (o : Nat) (r : Rec) (f : Fire) : Bool :=
  match s.cur with
  | .node h k n =>
    s.canFire p h k n o r == some f && (firstFault p f (s.noteFiring f)).isNone && (!f.idle || p.always)
  | _ => false

/-- The emission of one token by a firing: to one side where the record steers (R47), else to every destination. -/
def State.emitted (s : State) (f : Fire) (lat : Nat) (t : Token) : State :=
  if f.nrec.pm = 3 ∧ f.opc ≠ 0x004 then (s.pipe f lat).steer f lat t
  else (s.pipe f lat).sendAll f.g f.h f.k f.n f.nrec false (s.cycle + lat) t

/-- The emission of one token to D0 and one to D1; with neither valid, what the tokens carry is staged (R50, R83, R93). -/
def State.emittedPair (s : State) (f : Fire) (t0 t1 : Token) : State :=
  let s := s.pipe f 1
  if f.nrec.d0.v = 0 ∧ f.nrec.d1.v = 0 then (s.stageToken f.g t0.col t0.flg t0.tnt).stageToken f.g t1.col t1.flg t1.tnt
  else (s.sendOne f.g f.h f.k f.n f.nrec.d0 1 (s.cycle + 1) t0).sendOne f.g f.h f.k f.n f.nrec.d1 2 (s.cycle + 1) t1

/-- The last part of every firing: heads of a static join that now disagree are found (R69). That JOINORD is found right after the
firing that brings the heads together is the model's choice (log 86). -/
def State.rejoined (s : State) (f : Fire) (r : Rec) : State := s.checkJoin f.g f.h f.k f.n f.opc r

/-- Instruction `i` of opcode `o` emits `tok` after `lat` cycles and does nothing else, whenever it fires and its colour was
granted the token's width (R78). -/
def Gives (i : Rec → Instr) (o : Nat) (p : FireSpec) (lat : Nat) (tok : Fire → State → Token) : Prop :=
  ∀ (r : Rec) (s : State) (f : Fire), s.fires p o r f = true →
    (s.taken f).tooWide f.g f (tok f (s.taken f)) = false →
    exec (i r) s = .next (((s.taken f).emitted f lat (tok f (s.taken f))).rejoined f r)

/-- Instruction `i` of opcode `o` changes the state by `act` and emits the token that `act` answers after `lat` cycles. -/
def GivesFrom (i : Rec → Instr) (o : Nat) (p : FireSpec) (lat : Nat) (act : Fire → State → State × Token) : Prop :=
  ∀ (r : Rec) (s : State) (f : Fire), s.fires p o r f = true →
    (act f (s.taken f)).1.tooWide f.g f (act f (s.taken f)).2 = false →
    exec (i r) s = .next (((act f (s.taken f)).1.emitted f lat (act f (s.taken f)).2).rejoined f r)

/-- The same where it does so only if `ok` holds. -/
def GivesWhen (i : Rec → Instr) (o : Nat) (p : FireSpec) (ok : Fire → State → Prop) (lat : Nat)
    (act : Fire → State → State × Token) : Prop :=
  ∀ (r : Rec) (s : State) (f : Fire), s.fires p o r f = true → ok f (s.taken f) →
    (act f (s.taken f)).1.tooWide f.g f (act f (s.taken f)).2 = false →
    exec (i r) s = .next (((act f (s.taken f)).1.emitted f lat (act f (s.taken f)).2).rejoined f r)

/-- Instruction `i` of opcode `o`, when it fires and `ok` holds, changes the state as `act` says and emits nothing
itself. -/
def Acts (i : Rec → Instr) (o : Nat) (p : FireSpec) (ok : Fire → State → Prop) (act : Fire → State → State) : Prop :=
  ∀ (r : Rec) (s : State) (f : Fire), s.fires p o r f = true → ok f (s.taken f) →
    exec (i r) s = .next ((act f (s.taken f)).rejoined f r)

/-- Instruction `i` of opcode `o`, whose operands stay until it says otherwise, changes the state as `act` says. -/
def ActsHeld (i : Rec → Instr) (o : Nat) (p : FireSpec) (ok : Fire → State → Prop) (act : Fire → State → State) : Prop :=
  ∀ (r : Rec) (s : State) (f : Fire), s.firesHeld p o r f = true → ok f (s.noteFiring f) →
    exec (i r) s = .next ((act f (s.noteFiring f)).rejoined f r)

/-- Instruction `i` of opcode `o` takes the fault `cause` with its detail (R60) whenever it fires and `bad` holds. -/
def Faults (i : Rec → Instr) (o : Nat) (p : FireSpec) (bad : Fire → State → Prop) (cause : Nat) (detail : Fire → Nat) :
    Prop :=
  ∀ (r : Rec) (s : State) (f : Fire), s.fires p o r f = true → bad f (s.taken f) →
    exec (i r) s = .next (((s.taken f).nodeFault f.g f.h f.k f.n f.col f.wave cause (detail f)).rejoined f r)

/-- The same for one whose operands stay where they are. -/
def FaultsHeld (i : Rec → Instr) (o : Nat) (p : FireSpec) (bad : Fire → State → Prop) (cause : Nat) (detail : Fire → Nat) :
    Prop :=
  ∀ (r : Rec) (s : State) (f : Fire), s.firesHeld p o r f = true → bad f (s.noteFiring f) →
    exec (i r) s = .next (((s.noteFiring f).nodeFault f.g f.h f.k f.n f.col f.wave cause (detail f)).rejoined f r)

/-- Instruction `i` of opcode `o`, ready to fire at the node of this step (R70), takes the fault `cause` of Table 3-16 before its
effect when `bad` holds, whatever its lanes qualify; `held` says that its operands stay where they are. -/
def FaultsFirst (i : Rec → Instr) (o : Nat) (p : FireSpec) (held : Bool) (bad : Fire → State → Prop) (cause : Nat) : Prop :=
  ∀ (r : Rec) (s : State) (h k n : Nat) (f : Fire), s.cur = .node h k n → s.canFire p h k n o r = some f →
    let u := if held then s.noteFiring f else s.taken f
    bad f u → exec (i r) s = .next ((u.nodeFault f.g f.h f.k f.n f.col f.wave cause 0).rejoined f r)

/-- Memory instruction `i` of opcode `o`, when it fires and the access `why` finds a fault, issues nothing: its operands stay, and
the node withholds the access with the cause, the address, the detail and the element counter of its token (R168). -/
def Withholds (i : Rec → Instr) (o : Nat) (p : FireSpec) (laneZero : Bool) (why : Fire → State → Nat → Nat → Nat → Prop) : Prop :=
  ∀ (r : Rec) (s : State) (f : Fire) (cause addr detail : Nat), s.firesHeld p o r f = true → f.idle = false →
    (laneZero = true → (f.nrec.pm = 1 ∨ f.nrec.pm = 2) → f.qual.headD true = true) → why f (s.noteFiring f) cause addr detail →
    exec (i r) s = .next (((s.noteFiring f).modNode f.h f.k f.n (fun x => { x with withheld := some (
      { cause := cause, addr := addr, elem := x.counted f.col, detail := detail, col := f.col, wave := f.wave, found := s.cycle
        sent := false, recompute := none, resumed := false } : WithheldAccess) })).rejoined f r)

/-- What Table 9-2 finds first in an access of `n` bytes at offset `o` through the binding `b`: cause, address and detail. -/
def FaultsAccess (f : Fire) (s : State) (b o n align : Nat) (cause addr detail : Nat) : Prop :=
  let base := if agbLoc b then 0 else agbBase b
  addr = base + o ∧
  ((o % align ≠ 0 ∧ cause = 5 ∧ detail = 5) ∨
   (o % align = 0 ∧ agbLimit b < o + n ∧ cause = 6 ∧ detail = 6) ∨
   (o % align = 0 ∧ o + n ≤ agbLimit b ∧ agbLoc b = false ∧ agbVirt b = true ∧
     (∃ m rest l x, pieces addr n = (addr, m) :: rest ∧ s.walkWaits (sectorUnit f.h) (s.region f.g).ctx addr = false ∧
       s.leafFor (sectorUnit f.h) (s.region f.g).ctx addr = .error (l, x) ∧ cause = 7 ∧ detail = transDetail l x)) ∨
   (o % align = 0 ∧ o + n ≤ agbLimit b ∧ agbLoc b = false ∧ agbVirt b = false ∧
     endpointOk (Tab.get 0 (s.region f.g).cfg.mesh (agbRt b) : BitVec 64).toNat addr n = false ∧ cause = 9 ∧ detail = 9))

/-- The state in which a memory node's operands are consumed and its request has entered the ordering buffer (R170). A request
whose token leaves with its reply, or when it issues, is not `early`. -/
def State.asked (s : State) (f : Fire) (writing early : Bool) (x : Plan) : State :=
  ((((s.unwithhold f).consume f).countElem f).stageOperands f writing).submitRequest f.g f.h f.k (requestOf f x early)

/-- Memory instruction `i` of opcode `o` places a request as `ok` plans it, whenever it fires and lane 0 of a normal or
complemented predicate qualifies where that lane decides (R170, R173). `ok` relates the firing and its state to the state
after the checks and the plan. -/
def Asks (i : Rec → Instr) (o : Nat) (p : FireSpec) (writing laneZero : Bool) (ok : Fire → State → State → Plan → Prop) : Prop :=
  ∀ (r : Rec) (s t : State) (f : Fire) (x : Plan), s.firesHeld p o r f = true → f.idle = false →
    (laneZero = true → (f.nrec.pm = 1 ∨ f.nrec.pm = 2) → f.qual.headD true = true) → ok f (s.noteFiring f) t x →
    t.tooWide f.g f x.tok = false → exec (i r) s = .next ((t.asked f writing false x).rejoined f r)

/-- The same for one whose token leaves in the firing itself (R180). -/
def AsksAndGives (i : Rec → Instr) (o : Nat) (p : FireSpec) (writing : Bool) (ok : Fire → State → State → Plan → Prop) : Prop :=
  ∀ (r : Rec) (s t : State) (f : Fire) (x : Plan), s.firesHeld p o r f = true → f.idle = false → ok f (s.noteFiring f) t x →
    t.tooWide f.g f x.tok = false → (t.asked f writing true x).tooWide f.g f x.tok = false →
    exec (i r) s = .next (((t.asked f writing true x).emitted f x.lat x.tok).rejoined f r)

/-- The binding that a firing names is valid and an access of the firing reaches the parts `ps` (R167). -/
def Reaches (f : Fire) (s : State) (n align : Nat) (write local' : Bool) (ps : Parts) : Prop :=
  agbV (s.binding f.g f.nrec) = true ∧
  s.reach f.g f.h (s.binding f.g f.nrec)
    { o := (f.ta.lanes.headD 0).toNat, n := n, write := write, align := align, local' := local', base := agbBase (s.binding f.g f.nrec) }
    = .ok ps

/-- The same for one access of `n` bytes for each qualifying lane of A. -/
def ReachesEach (f : Fire) (s : State) (n : Nat) (write : Bool) (pss : List Parts) : Prop :=
  agbV (s.binding f.g f.nrec) = true ∧
  s.reachAll f.g f.h (s.binding f.g f.nrec) (laneAsks f n write n (agbBase (s.binding f.g f.nrec))) = .ok pss

/-- The step `i` at the place `l`, from every state in which `ok` holds, leaves the state that `act` gives. -/
def Does (i : Instr) (l : Locus) (ok : State → Prop) (act : State → State) : Prop :=
  ∀ s : State, s.cur = l → ok s → exec i s = .next (act s)

/-- Entry `c` of queue `q` has its turn: the queue serves it, it has not ended, and its engine is free. -/
def State.turn (s : State) (q : Nat) (c : CurrentEntry) : Prop :=
  s.cur = .queue q ∧ (s.queue q).cur = some c ∧ (s.queue q).serves = true ∧ c.finish = none ∧ c.busyUntil ≤ s.cycle

/-- Command `i`, at a turn of an entry whose start lies behind it and of which `ok` holds, leaves the state that `act` gives; an
access that the entry waited for, and that has now gone on, is waited for no longer (R329; what ends such a wait is the model's
choice, log 61). -/
def Runs (i : EntryHeader → Instr) (ok : State → Nat → CurrentEntry → Prop) (act : State → Nat → CurrentEntry → State) : Prop :=
  ∀ (e : EntryHeader) (s : State) (q : Nat) (c : CurrentEntry), s.turn q c → c.begun = true → ok s q c →
    exec (i e) s = .next ((act s q c).settleWait q (s.queue q))

/-- Command `i` ends with a status, and its completion is written (R273), at a turn of which `ok` holds. -/
def EndsWith (i : EntryHeader → Instr) (ok : State → Nat → CurrentEntry → Prop) (status : CurrentEntry → Nat) : Prop :=
  Runs i ok (fun s q c => s.finishEntry q (status c))

/-- The status of an entry that has moved all its data: OK, or POISON where poison came with them (R273). -/
def CurrentEntry.moved (c : CurrentEntry) : Nat := if c.poison then 0x09 else 0x00

/-- One granule of `n` bytes has been moved with this poison: progress, poison and the engine's count (Table 21-6). -/
def State.movedOn (s : State) (q n : Nat) (poison : Bool) : State :=
  (s.modEntry q (fun c => { c with progress := c.progress + n, poison := c.poison || poison })).countGranules q 1

/-! ### Elements of a result -/

/-- Element width of the record's FMT. -/
def Fire.width (f : Fire) : Nat := 32 / elemsPerLane f.nrec.fmt.toNat

/-- Lanes whose elements come one by one from those of A and B in the same position, A's lanes where the predicate does not
qualify (R47, R96). -/
def Fire.each2 (f : Fire) (op : Nat → Nat → Nat) : List Word :=
  f.blend (List.zipWith (fun a b => laneOf f.nrec.fmt.toNat
    (List.zipWith op (laneElems f.nrec.fmt.toNat a) (laneElems f.nrec.fmt.toNat b))) f.ta.lanes f.tb.lanes)

/-- The same from A alone. -/
def Fire.each1 (f : Fire) (op : Nat → Nat) : List Word :=
  f.blend (f.ta.lanes.map (fun a => laneOf f.nrec.fmt.toNat ((laneElems f.nrec.fmt.toNat a).map op)))

/-- An element read as FMT says (R97). -/
def Fire.num (f : Fire) (x : Nat) : Int := intElem f.nrec.fmt.toNat x

/-- An element read signed whatever FMT says. -/
def Fire.snum (f : Fire) (x : Nat) : Int := if 2 ^ (f.width - 1) ≤ x then (x : Int) - 2 ^ f.width else x

/-- An exact result modulo 2^w (R98). -/
def Fire.wrapped (f : Fire) (x : Int) : Nat := (x % (2 ^ f.width : Nat)).toNat

/-- An exact result at the nearer bound of its range (R98). -/
def Fire.clamped (f : Fire) (x : Int) : Int :=
  let signed := fmtSigned f.nrec.fmt.toNat
  max (if signed then -(2 ^ (f.width - 1) : Nat) else 0)
    (min (if signed then (2 ^ (f.width - 1) : Nat) - 1 else (2 ^ f.width : Nat) - 1) x)

/-- An exact result as an instruction whose SAT bit counts writes it (R98). -/
def Fire.kept (f : Fire) (x : Int) : Nat := f.wrapped (if f.nrec.sat = 1 then f.clamped x else x)

/-- The token of an integer result: the record's FMT, SCW 0, no flag raised (R99). -/
def Fire.ints (f : Fire) (out : List Word) : Token := f.token f.nrec.fmt.toNat out 0 0

/-- The same with the residue that R103 predicts from the operands' residues; where R98 clamped an element, and for the widths that
Table 5-3 leaves out, RES is generated from the payload. -/
def Fire.foretold (f : Fire) (out : List Word) (generated : Bool) (res : Int) : Token :=
  if generated then f.ints out else { f.ints out with res := mod63 res }

/-- The check of the bitwise instructions on A and B (R103): the residues of A AND B and of A XOR B agree with the operands'. -/
def Fire.bitsAgree (f : Fire) : Prop :=
  (residue (List.zipWith (fun a b => a ^^^ b) f.ta.lanes f.tb.lanes) +
    2 * residue (List.zipWith (fun a b => a &&& b) f.ta.lanes f.tb.lanes)) % 63 = (f.ta.res + f.tb.res) % 63

/-- The token of a rounding instruction (R24 to R27, R111): every qualifying element is rounded once, with one draw each where
the mode is stochastic; the state is the one whose LFSR has given the draws. -/
def Fire.rounded (f : Fire) (s : State) (op : Nat → Val → Val → Val → Exact × BitVec 5) : State × Token :=
  let fmt := f.nrec.fmt.toNat
  let per := elemsPerLane fmt
  let d := f.draws s (f.qualCount * per)
  let at' := fun (t : Token) (i k : Nat) => decodeFloat fmt ((laneElems fmt (t.lanes.getD i 0)).getD k 0)
  let r := floatLanes fmt per (fun i ds => (List.range per).map (fun k =>
    roundWith fmt (f.mode s) (ds.getD k 0) (f.nrec.sat == 1) (op (f.mode s) (at' f.ta i k) (at' f.tb i k) (at' f.tc i k)))) f.qual 0 d.1
  (d.2, f.token fmt (f.blend r.1) r.2 0)

/-- The token of an instruction on floating elements that needs no draw: bits and flags of every qualifying element. -/
def Fire.chosen (f : Fire) (op : Nat → Nat → Nat → Nat × BitVec 5) : Token :=
  let fmt := f.nrec.fmt.toNat
  let per := elemsPerLane fmt
  let at' := fun (t : Token) (i k : Nat) => (laneElems fmt (t.lanes.getD i 0)).getD k 0
  let r := floatLanes fmt per (fun i _ => (List.range per).map (fun k => op fmt (at' f.ta i k) (at' f.tb i k))) f.qual 0 []
  f.token fmt (f.blend r.1) r.2 0

/-- A comparison of FP32 lanes: the predicate's bits, the flags raised, and SC 0 (R114). -/
def Fire.compared (f : Fire) (op : Val → Val → Bool) (raise : Val → Val → BitVec 5) : Token :=
  let ps := (f.ta.lanes.zip f.tb.lanes).map (fun x => (decodeFloat 2 x.1.toNat, decodeFloat 2 x.2.toNat))
  { f.predicate (ps.map (fun x => op x.1 x.2)) (ps.foldl (fun a x => a ||| raise x.1 x.2) 0) with sc := false }

/-! ### What stays as it was -/

/-- The module without what a firing of a node can touch: tokens, nodes, activations, damper entries and kernels, and the
model's own bookkeeping. What is left is memory and poison, engines and queues, links, pairs, messages to the host,
module registers, write pointers, pages being moved, translations, dies and boot. -/
def State.around (s : State) : State :=
  { s with agenda := [], free := 0, nextId := 0, hearths := [], slots := [], regions := [], flights := [], messages := []
           loads := [], contexts := [], kernels := [], failing := [] }

/-- A context's registers without FAULT_PTR. -/
def State.contextRest (s : State) (m : Nat) : Context := { s.context m with faultPtr := 0 }

/-- The registers of every context are as before, but for FAULT_PTR. -/
def SameContexts (s t : State) : Prop := ∀ m, t.contextRest m = s.contextRest m

/-- What a hearth's accumulator files and stay registers hold, ACOL apart. -/
def Hearth.trine (x : Hearth) : List (Nat × FilePlace × Tab Word × Tab (BitVec 5) × List Nat) × Tab StayFile :=
  (x.accs.map (fun e => (e.1, e.2.place, e.2.vals, e.2.af, e.2.taint)), x.stays)

/-- What the trine unit of a hearth holds. -/
def State.trineAt (s : State) (h : Nat) : List (Nat × FilePlace × Tab Word × Tab (BitVec 5) × List Nat) × Tab StayFile := (s.hearth h).trine

/-- Accumulators and stay registers hold what they held. -/
def SameTrine (s t : State) : Prop := ∀ h, t.trineAt h = s.trineAt h

/-- What is around a node without what a node that uses memory touches: memory and its marks, translation caches, write pointers, the
marks of moving pages and spent misreads. -/
def State.aroundTables (s : State) : State :=
  { s.around with mem := [], poison := [], moves := [], caches := [], misreads := [], pointers := [] }

/-- Nothing has changed but tokens, nodes, activations, damper entries and kernels. -/
def SameAround (s t : State) : Prop := t.around = s.around ∧ SameContexts s t

/-- Node instructions whose effect is a token made from their operands. -/
def plainNode : Instr → Bool
  | .pass _ | .const _ | .steer _ | .merge _ | .mergeu _ | .gate _ | .sync _ | .sel _ | .pack _ | .unpack _ | .sink _ | .trap _
  | .pred _ | .pand _ | .por _ | .pxor _ | .pnot _ | .vote _ | .flags _ | .tsget _
  | .add _ | .sub _ | .mul _ | .mulh _ | .mulhu _ | .mad _ | .div _ | .divu _ | .rem _ | .remu _ | .neg _ | .abs _ | .min _
  | .max _ | .minu _ | .maxu _ | .and _ | .or _ | .xor _ | .not _ | .andn _ | .shl _ | .shr _ | .sra _ | .rol _ | .clz _
  | .popc _ | .brev _ | .bfx _ | .bfi _ | .adds _ | .subs _ | .cmpeq _ | .cmpne _ | .cmplt _ | .cmple _ | .cmpltu _
  | .cmpleu _ | .idx _ | .idx2 _ | .wrap _ | .shuf _ | .lanex _ | .lanei _ | .bcast _ | .rsum _ | .rmin _ | .rmax _
  | .fadd _ | .fsub _ | .fmul _ | .fma _ | .fnma _ | .fmin _ | .fmax _ | .fabs _ | .fneg _ | .fcmpeq _ | .fcmplt _
  | .fcmple _ | .fcmpun _ | .fclass _ | .fdiv _ | .fsqrt _ | .frcp _ | .frsq _ | .fexp2 _ | .flog2 _ | .fsin _ | .fcos _
  | .ftanh _ | .fsigm _ | .fsilu _ | .cvtf _ | .cvtfi _ | .cvtif _ | .scl _ | .uscl _ | .frsum _ | .frmax _ | .frmin _ => true
  | _ => false

/-- Node instructions that also stage an effect, count, hold a token, or work on the trine unit of their hearth, but ask memory
for nothing. -/
def stagingNode : Instr → Bool
  | .cntf _ | .delay _ | .mark _ | .markMarkerEmission _ | .spawn _ | .wave _ | .wexit _ | .calloc _ | .cfree _ | .cbind _
  | .cret _ | .inject _ | .range _ | .rangeEmission _ | .qntb _ | .dqntb _ | .expsel _ | .smrg _ | .rope _
  | .tdld _ | .tdset _ | .tddrop _ | .tdkeep _ | .tdreg _ | .tdq _ | .cdxset _ | .tric _ | .mma _ | .tris _ | .mmas _
  | .had _ | .lutp _ | .lutm _ | .accrd _ | .accz _ | .accld _ | .accx _ | .tstay _ | .txpr _ | .agen _ | .agenEmission _
  | .wptr _ | .wpwait _ | .tail _ | .seqrd _ | .seqwait _ | .retg _ | .rdsr _ | .wrsr _ | .prio _ | .yield _ | .halt _ | .wdog _
  | .drain _ => true
  | _ => false

/-- Node instructions that use memory or its translation: the memory instructions, ENQ, and those that read a configuration. -/
def tableNode : Instr → Bool
  | .ld _ | .ldn _ | .lds _ | .ldx _ | .ldt _ | .st _ | .sts _ | .stt _ | .pref _ | .mcast _ | .fence _ | .aadd _ | .afadd _ | .amin _
  | .amax _ | .aand _ | .aor _ | .axor _ | .axchg _ | .acas _ | .ainc _ | .optst _ | .retw _ | .enq _ | .cfgld _ | .callg _
  | .tailg _ => true
  | _ => false

/-- Steps of the module that neither write memory nor make anything write it in the same step. -/
def quietEvent : Instr → Bool
  | .electionEnd | .groupHandout | .rekindle | .callerResume | .tailgSwap | .contextEvict | .contextSwap | .collectiveMemberLost | .forwardRetire | .flueEnable _
  | .flueFence | .electricalIdleExit | .laneLock | .detectTimeout | .equalisationConverge | .configExchange _ _ _
  | .flitReceive _ | .retryRequest _ | .recoveryRetrain _ | .cxlLinkUp | .cxlLinkLoss | .sqTailDoorbell _ | .cqHeadDoorbell _
  | .viroftPairEnable _ | .launch _ _ | .unknownCommand _ _ | .snapTrig _ | .xlinv _ | .xlinvComplete | .attNonce _ | .attReport
  | .jrnlBase _ | .jrnlSize _ | .pwrLim _ | .queueEnWrite _ | .counterClear _ | .registerWrite _ _ | .bootReady
  | .thermalThrottle _ | .txprOutput | .frameSlotEntry | .loadReply | .deferredTokenSend | .delayExpiry | .yieldExpiry
  | .waveRetire | .reweight | .starving | .contractionStep | .contractionEnd | .requestTimeout
  | .linkFaultTimeout | .faultMessageSend | .damperEntryEligible | .purgeComplete | .purgeNotice | .reissue | .strikeReport
  | .quiesce | .barrierAlign | .snapshotAbandon | .drainComplete | .heartbeat | .dieFence => true
  | _ => false

end Sys2Proof.Machine
end

