-- ==== Sys2Proof/Certificates/Slice0/Obligations.lean ====
section
/-! DEFINITION. The statements about the module, for the provers: what each instruction does when it runs, what it leaves as it
was, that decoding and encoding agree, and the invariant that every step keeps. -/

open Sys2Proof Sys2Proof.Machine

/-! ### Encodings -/

/-- R39, R55: the record of every node instruction, with every field at every value, decodes to that instruction; and a record
that decodes is the encoding of what it decodes to, so no bit of it is dropped. -/
def Obligations.RecordsRoundTrip : Prop :=
  (∀ (i : Instr) (o : Nat) (r : Rec), i.record = some (o, r) → i ≠ .rangeEmission r → i ≠ .agenEmission r →
    i ≠ .markMarkerEmission r → decodeRecord (encodeRecord o r) = some i) ∧
  (∀ (w : BitVec 96) (i : Instr), decodeRecord w = some i → ∃ o r, i.record = some (o, r) ∧ encodeRecord o r = w)

/-- R56, R59, R272: the entry of every engine command, with every header field and every named byte of its body at every value,
decodes to that command, and a KIND that Table 3-14 does not list decodes to BADKIND; an entry that decodes to a well-formed
command is that command's encoding. R364: the submission of every Viroft command decodes to that command. -/
def Obligations.EntriesRoundTrip : Prop :=
  (∀ (i : Instr) (k : BitVec 8) (e : EntryHeader) (b : BitVec 320), entryOf i = some (k, e, b) → i.wellFormed = true →
    decodeEntry (encodeEntry k e b) = i) ∧
  (∀ w : BitVec 512, (decodeEntry w).wellFormed = true →
    ∃ k e b, entryOf (decodeEntry w) = some (k, e, b) ∧ encodeEntry k e b = w) ∧
  (∀ (i : Instr) (w : BitVec 512), submissionOf i = some w → i.wellFormed = true → decodeSubmission w = i)

/-- R40, R86, R98, R119, R157, R223, R228: records written out from the spec's worked examples decode to their instructions with
every field. R55, R58: an opcode outside the ranges of Table 3-7 is unallocated: its record decodes to nothing, and the loader
refuses it with reason 1. -/
def Obligations.WorkedRecordsDecode : Prop :=
  let none' : Dest := { v := 0, oport := 0, node := 0, opnd := 0 }
  let plain : Rec :=
    { fmt := 0, ary := 1, tag := 0, lit := 2, rnd := 0, sat := 0, scl := 0, pm := 0, wgt := 0, jdq := 0, d1 := none', d0 := none'
      rsv := 0, lit32 := 0 }
  decodeTableWord 96 0x30CF1883138A49D03F003F00 = some (.fma
    { plain with fmt := 3, ary := 3, lit := 3, sat := 1, wgt := 3, jdq := 4, d1 := { v := 1, oport := 12, node := 5, opnd := 0 }
                 d0 := { v := 1, oport := 2, node := 7, opnd := 1 }, lit32 := 0x3F003F00 }) ∧
  decodeTableWord 96 0x02C1900000007100000011C4 = some (.calloc
    { plain with tag := 4, d0 := { v := 1, oport := 12, node := 4, opnd := 0 }, lit32 := 0x11C4 }) ∧
  decodeTableWord 96 0x101A08800000449064646464 = some (.add
    { plain with fmt := 6, ary := 2, lit := 1, sat := 1, d0 := { v := 1, oport := 1, node := 2, opnd := 1 }, lit32 := 0x64646464 }) ∧
  decodeTableWord 96 0x38E21000000040C000000002 = some (.qntb
    { plain with fmt := 8, ary := 2, d0 := { v := 1, oport := 0, node := 3, opnd := 0 }, lit32 := 2 }) ∧
  decodeTableWord 96 0x540E10000000724000000105 = some (.tric
    { plain with fmt := 3, ary := 2, d0 := { v := 1, oport := 12, node := 9, opnd := 0 }, lit32 := 0x105 }) ∧
  decodeTableWord 96 0xA04910000000714001000080 = some (.callg
    { plain with fmt := 2, d0 := { v := 1, oport := 12, node := 5, opnd := 0 }, lit32 := 0x01000080 }) ∧
  decodeTableWord 96 0xA08900000000000000000000 = some (.retg { plain with fmt := 2, lit := 0 }) ∧
  (∀ w : BitVec 96,
    let o := (w.extractLsb' 86 10).toNat
    (o = 0 ∨ (0x01F < o ∧ o < 0x040) ∨ (0x072 < o ∧ o < 0x0C0) ∨ (0x0F4 < o ∧ o < 0x140) ∨ (0x15D < o ∧ o < 0x1C0) ∨
      (0x1E3 < o ∧ o < 0x240) ∨ (0x243 < o ∧ o < 0x280) ∨ 0x28B < o) →
    decodeRecord w = none ∧ ∀ r pad, recordReason o r pad = some 1)

/-! ### The step -/

/-- R39, R276, R363: a step whose next move is a node's, a queue's, a pair's or an event's runs the instruction decoded from the
node's record, the queue's entry or the pair's submission at its place; a node whose head trigger has emissions behind it runs
the next of them; an empty node store entry never fires; and a record of an unallocated opcode is refused. That step refuses a
record of an unallocated opcode, which R58 keeps from becoming resident, is the model's choice (log 13). -/
def Obligations.StepRunsTheDecodedInstruction : Prop :=
  (∀ (s : State) (rest : List Turn) (h k n : Nat) (w : BitVec 96) (i : Instr), s.agenda = .fire h k n :: rest →
    Tab.find (s.slot h k).cfg.store n = some w → decodeRecord w = some i → (s.node h k n).emitted = 0 →
    step s = exec i { s with agenda := rest, cur := .node h k n }) ∧
  (∀ (s : State) (rest : List Turn) (h k n : Nat) (w : BitVec 96) (r : Rec), s.agenda = .fire h k n :: rest →
    Tab.find (s.slot h k).cfg.store n = some w → (s.node h k n).emitted ≠ 0 →
    (decodeRecord w = some (.range r) → step s = exec (.rangeEmission r) { s with agenda := rest, cur := .node h k n }) ∧
    (decodeRecord w = some (.agen r) → step s = exec (.agenEmission r) { s with agenda := rest, cur := .node h k n }) ∧
    (decodeRecord w = some (.mark r) → step s = exec (.markMarkerEmission r) { s with agenda := rest, cur := .node h k n }) ∧
    (∀ i, decodeRecord w = some i → (∀ x, i ≠ .range x ∧ i ≠ .agen x ∧ i ≠ .mark x) →
      step s = exec i { s with agenda := rest, cur := .node h k n })) ∧
  (∀ (s : State) (rest : List Turn) (h k n : Nat), s.agenda = .fire h k n :: rest →
    Tab.find (s.slot h k).cfg.store n = none → step s = .next { s with agenda := rest }) ∧
  (∀ (s : State) (rest : List Turn) (h k n : Nat) (w : BitVec 96), s.agenda = .fire h k n :: rest →
    Tab.find (s.slot h k).cfg.store n = some w → decodeRecord w = none → step s = .refused (.undecoded h k n)) ∧
  (∀ (s : State) (rest : List Turn) (q : Nat) (c : CurrentEntry), s.agenda = .entry q :: rest → (s.queue q).cur = some c →
    step s = exec (decodeEntry c.image) { s with agenda := rest, cur := .queue q }) ∧
  (∀ (s : State) (rest : List Turn) (p : Nat), s.agenda = .submit p :: rest → (s.pair p).en = true →
    (s.pair p).sqHead ≠ (s.pair p).sqTail →
    step s = exec (decodeSubmission (BitVec.ofNat 512 (leNat (s.fetch (s.pair p).headAddr 64))))
      { s with agenda := rest, cur := .pair p }) ∧
  (∀ (s : State) (rest : List Turn) (i : Instr) (l : Locus), s.agenda = .event i l :: rest →
    step s = exec i { s with agenda := rest, cur := l }) ∧
  (∀ s : State, s.agenda = [] → step s = .next s.tick)

/-- Every step keeps the memory canonical and the poisoned granules in rising order. The invariant is the model's own (log 1,
R345). -/
def Obligations.StepKeepsInvariant : Prop :=
∀ s t : State, s.Inv → step s = .next t → t.Inv

/-- The invariant holds at reset. -/
def Obligations.ResetMeetsInvariant : Prop :=
State.reset.Inv

/-- What the spec gives for reset: no node record (R39), no colour, kernel or queue in use, the registers of a context at their
reset values (R25, R27, R64, R234, R303, R319) and PWR_LIM at 2,400 (R374). The model's choices: JRNL_SIZE and JRNL_NEXT are 0 (log 8)
and memory lists nothing (log 1). -/
def Obligations.ResetValues : Prop :=
  (∀ h k, (State.reset.slot h k).cfg.store = [] ∧ (State.reset.slot h k).region = none) ∧
  (∀ g c, (State.reset.colour g c).st = .free) ∧ (∀ e, (State.reset.kernel e).st = .free) ∧
  (∀ q, (State.reset.queue q).st = .disabled ∧ (State.reset.queue q).en = false ∧ (State.reset.queue q).done = 0 ∧
    (State.reset.queue q).appn = 0 ∧ (State.reset.queue q).tailn = 0) ∧
  (∀ m, (State.reset.context m).st = .idle ∧ (State.reset.context m).rndDef = 0 ∧ (State.reset.context m).lfsrSeed = 1 ∧
    (State.reset.context m).kvThresh = 0x80 ∧ (State.reset.context m).ptroot = 0 ∧ (State.reset.context m).tidCnt = 0) ∧
  (∀ l, (State.reset.link l).st = .disabled) ∧ (∀ p, (State.reset.pair p).en = false) ∧ (∀ d n, State.reset.pointer d n = 0) ∧
  State.reset.pwrLim = 2400 ∧ State.reset.jrnlSize = 0 ∧ State.reset.jrnlNext = 0 ∧ State.reset.mem = [] ∧ State.reset.poison = []

/-- R19, R332, R345: a write through `put` changes exactly its bytes, forwards followed, and no other byte; data that carry no
poison free the granules that they cover whole, and data that carry it poison every granule that they meet; T3 keeps no poison. -/
def Obligations.PutWritesItsBytesOnly : Prop :=
  ∀ (s : State) (pa : Nat) (bs : List Byte) (p : Bool), s.Inv →
    let a := forwardAddr s.forwards pa
    let t := s.put pa bs p
    (∀ i, i < bs.length → Memory.read t.mem (a + i) = bs.getD i 0) ∧
    (∀ x, x < a ∨ a + bs.length ≤ x → Memory.read t.mem x = Memory.read s.mem x) ∧
    (tierOf a = some .t3 → t.poison = s.poison) ∧
    (tierOf a ≠ some .t3 → ∀ g, g ∈ t.poison ↔
      (p = true ∧ 64 * g < a + bs.length ∧ a < 64 * g + 64 ∧ bs ≠ []) ∨
      (g ∈ s.poison ∧ (p = true ∨ ¬ (a ≤ 64 * g ∧ 64 * g + 64 ≤ a + bs.length)))) ∧ t.Inv

/-! ### What stays as it was -/

/-- A firing of an instruction that only makes a token of its operands leaves every byte of memory, every accumulator and stay
register, the registers of every context but FAULT_PTR (which a fault may set, R259), queues, engines, links, pairs, write
pointers and module registers as they were; one that stages its effect, counts, holds a token or works on the trine unit leaves
all of these but the trine unit. -/
def Obligations.NodeFiringFrames : Prop :=
  (∀ (i : Instr) (s t : State), plainNode i = true → exec i s = .next t →
    SameAround s t ∧ SameTrine s t ∧ (∀ a, Memory.read t.mem a = Memory.read s.mem a) ∧ t.poison = s.poison ∧
    t.pointers = s.pointers ∧ t.queues = s.queues) ∧
  (∀ (i : Instr) (s t : State), stagingNode i = true → exec i s = .next t →
    SameAround s t ∧ (∀ a, Memory.read t.mem a = Memory.read s.mem a) ∧ t.poison = s.poison ∧ t.pointers = s.pointers ∧
    t.queues = s.queues)

/-- R172, R174, R335: a firing of a memory instruction through a binding that does not translate leaves every byte of memory as it
was: what it writes goes into its hearth's damper. R316, R320, R323: a firing of any memory instruction, of ENQ, CFGLD, CALLG or TAILG
leaves accumulators, stay registers, the registers of every context but FAULT_PTR, queues, engines, links, pairs and module
registers as they were; write pointers, but for an STS's own; and memory and poison, but for the A and D bits of the leaves that it uses and,
for LDT, the entry of its tensor, whose RP it may set. R311 to R313: SNAP leaves the same, but for the snapshot registers, and writes
no memory where MODE = 0. -/
def Obligations.MemoryFiringFrame : Prop :=
  (∀ (i : Instr) (o : Nat) (r : Rec) (s t : State) (h k n g : Nat), i.record = some (o, r) →
    ((0x1C1 ≤ o ∧ o ≤ 0x1C5) ∨ (0x1C8 ≤ o ∧ o ≤ 0x1C9) ∨ (0x1D0 ≤ o ∧ o ≤ 0x1DB) ∨ o = 0x1E0 ∨ o = 0x1E1) →
    s.cur = .node h k n → (s.slot h k).region = some g → agbVirt (s.binding g r) = false → exec i s = .next t →
    (∀ a, Memory.read t.mem a = Memory.read s.mem a) ∧ t.poison = s.poison) ∧
  (∀ (i : Instr) (s t : State), tableNode i = true → exec i s = .next t →
    t.aroundTables = s.aroundTables ∧ SameContexts s t ∧ SameTrine s t ∧
    ((∀ r, i ≠ .sts r) → t.pointers = s.pointers) ∧
    ((∀ r, i ≠ .ldt r) → (∀ a, ∃ m, m ≤ 3 ∧ Memory.read t.mem a = Memory.read s.mem a ||| BitVec.ofNat 8 (8 * m)) ∧
      t.poison = s.poison)) ∧
  (∀ (r : Rec) (s t : State) (h k n g : Nat), s.cur = .node h k n → (s.slot h k).region = some g → exec (.ldt r) s = .next t →
    let e := forwardAddr s.forwards (s.tidAddr (s.region g).ctx (agbTid (s.binding g r)))
    ∀ a, a < e ∨ e + 64 ≤ a → ∃ m, m ≤ 3 ∧ Memory.read t.mem a = Memory.read s.mem a ||| BitVec.ofNat 8 (8 * m)) ∧
  (∀ (r : Rec) (s t : State), exec (.snap r) s = .next t →
    { t.aroundTables with snapInc := s.snapInc, snapOvf := s.snapOvf, snapCyc := s.snapCyc, snapCopies := s.snapCopies } = s.aroundTables ∧
    SameContexts s t ∧ SameTrine s t ∧ t.pointers = s.pointers ∧
    (bit r.lit32.toNat 0 = false → t.mem = s.mem ∧ t.poison = s.poison))

/-- The steps of the module that write nothing (slots, requests, markers, regions, links, host registers and their like) leave
every byte of memory as it was. -/
def Obligations.EventsKeepMemory : Prop :=
  ∀ (i : Instr) (s t : State), quietEvent i = true → exec i s = .next t → ∀ a, Memory.read t.mem a = Memory.read s.mem a

/-! ### Faults and registers -/

/-- R60, R254, R259: the first fault at a node purges the activation that fired, without a trace of its staged effects, names the
node in the kernel's fault record, moves the kernel to Faulting with STATUS 1, and points FAULT_PTR of its context at the record;
memory, queues and module registers stay as they were. -/
def Obligations.NodeFaultsStopTheirKernel : Prop :=
  ∀ (s : State) (g h k n c w x d e : Nat), (s.region g).kernel = some e →
    ((s.kernel e).st = .ready ∨ (s.kernel e).st = .bound ∨ (s.kernel e).st = .running ∨ (s.kernel e).st = .draining) →
    (s.colour g c).active = true → (s.colour g c).committed = false →
    let t := s.nodeFault g h k n c w x d
    (t.colour g c).st = .purging ∧ (t.colour g c).staged = [] ∧ (t.kernel e).st = .faulting ∧ (t.kernel e).status = 1 ∧
    (∃ f : FaultRecord, (t.kernel e).fault = some f ∧ f.cause = x ∧ f.die = dieOf h ∧ f.x = colOf h ∧ f.y = rowOf h ∧
      f.ctx = (s.region g).ctx ∧ f.slot = k ∧ f.node = n ∧ f.col = c ∧ f.wave = w ∧ f.detail = d ∧ f.cycle = s.cycle) ∧
    (t.context (s.kernel e).ctx).faultPtr = (s.kernel e).cra + 0x40 ∧ t.around = s.around

/-- R57, R60, R275: a firing of WRSR to a privileged register, of a PRIO that names a context, of HALT or of SNAP in a region whose
context is not privileged takes the fault PRIV, and so does an ENQ or a TAIL that names a queue of another context there, or in any
region a queue that the host keeps (HOST = 1). -/
def Obligations.PrivilegedUseFaults : Prop :=
  let faults := fun (i : Rec → Instr) (o : Nat) (p : FireSpec) (kept : Bool) (use : Rec → State → Nat → Prop) =>
    ∀ (r : Rec) (s : State) (h k n : Nat) (f : Fire), s.cur = .node h k n → s.canFire p h k n o r = some f →
      let u := if kept then s.noteFiring f else s.taken f
      use r u (u.region f.g).ctx → exec (i r) s = .next ((u.nodeFault f.g f.h f.k f.n f.col f.wave 0x01 0).rejoined f r)
  let unprivileged := fun (use : Rec → Bool) (r : Rec) (s : State) (m : Nat) => use r = true ∧ (s.context m).priv = false
  let foreign := fun (r : Rec) (s : State) (m : Nat) =>
    let q := s.queue (r.lit32.toNat % 512)
    q.host = true ∨ (q.ctx ≠ m ∧ (s.context m).priv = false)
  faults .wrsr 0x289 { breach := fun f s => regPrivileged (f.lit % 256) && f.plain s
                       badWidth := fun f => decide (0x40 ≤ f.lit % 256) && f.ta.wid != 2 } false
    (unprivileged (fun r => regPrivileged (r.lit32.toNat % 256))) ∧
  faults .prio 0x285 { breach := fun f s => bit f.lit 7 && f.plain s } false (unprivileged (fun r => bit r.lit32.toNat 7)) ∧
  faults .halt 0x28A { breach := Fire.plain } false (unprivileged (fun _ => true)) ∧
  faults .snap 0x287 { ready := snapFree, breach := Fire.plain, badWidth := fun f => bit f.lit 0 && decide (f.ta.wid < 2) } true
    (unprivileged (fun _ => true)) ∧
  faults .enq 0x240 enqSpec true foreign ∧ faults .tail 0x241 { breach := queueBreach } false foreign

/-- R46, R60, R78: an instruction whose operand tokens differ in WID takes WIDTH when it is ready to fire, whatever its lanes
qualify, and one whose operands break SCL = 01 or 10 takes SCLTAG unless WIDTH comes first; one whose token is wider than its
colour was granted takes WIDTH. R86, R120, R123, R135, R137, R158, R164, R243, R260, R313: so do the widths that CALLOC, SPAWN,
DQNTB, SMRG, TDLD, TDSET, TDREG, HAD, CDXSET, WRSR and SNAP do not take. -/
def Obligations.WidthsAndScalesFault : Prop :=
  (let mixed := fun (f : Fire) => ∃ t ∈ f.operands, ∃ u ∈ f.operands, t.wid ≠ u.wid
  let clash := fun (f : Fire) => (f.nrec.scl = 1 ∧ ∃ e ∈ f.tokens, e.1 ≠ 3 ∧ e.2.sc = true) ∨
    (f.nrec.scl = 2 ∧ ∃ e ∈ f.tokens, e.1 ≠ 3 ∧ e.2.sc = false)
  let tokens : List ((Rec → Instr) × Nat) :=
    [(.pass, 0x001), (.const, 0x002), (.steer, 0x003), (.merge, 0x004), (.mergeu, 0x005), (.gate, 0x006), (.sync, 0x007),
     (.sel, 0x008), (.cfree, 0x00C), (.cbind, 0x00D), (.pack, 0x00F), (.unpack, 0x010), (.inject, 0x011),
     (.cntf, 0x013), (.trap, 0x015), (.pred, 0x017), (.pand, 0x018), (.por, 0x019), (.pxor, 0x01A), (.pnot, 0x01B),
     (.vote, 0x01C), (.flags, 0x01D), (.tsget, 0x01F)]
  let integers : List ((Rec → Instr) × Nat) :=
    [(.add, 0x040), (.sub, 0x041), (.mul, 0x042), (.mulh, 0x043), (.mulhu, 0x044), (.mad, 0x045), (.div, 0x046),
     (.divu, 0x047), (.rem, 0x048), (.remu, 0x049), (.neg, 0x04A), (.abs, 0x04B), (.min, 0x04C), (.max, 0x04D),
     (.minu, 0x04E), (.maxu, 0x04F), (.and, 0x050), (.or, 0x051), (.xor, 0x052), (.not, 0x053), (.andn, 0x054),
     (.shl, 0x055), (.shr, 0x056), (.sra, 0x057), (.rol, 0x058), (.clz, 0x059), (.popc, 0x05A), (.brev, 0x05B),
     (.bfx, 0x05C), (.bfi, 0x05D), (.adds, 0x05E), (.subs, 0x05F), (.cmpeq, 0x060), (.cmpne, 0x061), (.cmplt, 0x062),
     (.cmple, 0x063), (.cmpltu, 0x064), (.cmpleu, 0x065), (.idx, 0x068), (.idx2, 0x069), (.wrap, 0x06A),
     (.shuf, 0x06C), (.lanex, 0x06D), (.bcast, 0x06F), (.rsum, 0x070), (.rmin, 0x071), (.rmax, 0x072)]
  let floats : List ((Rec → Instr) × Nat) :=
    [(.fadd, 0x0C0), (.fsub, 0x0C1), (.fmul, 0x0C2), (.fma, 0x0C3), (.fnma, 0x0C4), (.fmin, 0x0C5), (.fmax, 0x0C6),
     (.fabs, 0x0C7), (.fneg, 0x0C8), (.fcmpeq, 0x0C9), (.fcmplt, 0x0CA), (.fcmple, 0x0CB), (.fcmpun, 0x0CC),
     (.fclass, 0x0CD), (.fdiv, 0x0CE), (.fsqrt, 0x0CF), (.frcp, 0x0D0), (.frsq, 0x0D1), (.fexp2, 0x0D2),
     (.flog2, 0x0D3), (.fsin, 0x0D4), (.fcos, 0x0D5), (.ftanh, 0x0D6), (.fsigm, 0x0D7), (.fsilu, 0x0D8),
     (.cvtf, 0x0E0), (.cvtfi, 0x0E1), (.cvtif, 0x0E2), (.expsel, 0x0E5), (.scl, 0x0E8), (.uscl, 0x0E9),
     (.frsum, 0x0F0), (.frmax, 0x0F1), (.frmin, 0x0F2)]
  let others : List ((Rec → Instr) × Nat) :=
    [(.wptr, 0x1E2), (.seqrd, 0x242), (.retg, 0x282), (.yield, 0x286), (.rdsr, 0x288), (.wdog, 0x28B)]
  (∀ x ∈ tokens ++ integers ++ floats ++ others, FaultsFirst x.1 x.2 {} false (fun f _ => mixed f) 0x04) ∧
  (∀ x ∈ tokens ++ integers ++ floats ++ others, FaultsFirst x.1 x.2 {} false (fun f _ => ¬ mixed f ∧ clash f) 0x05)) ∧
  (let wider := fun (tok : Fire → Token) (f : Fire) (s : State) => (tok f).col = f.col ∧ (s.colour f.g f.col).wid < (tok f).wid
  Faults .pass 0x001 {} (wider Fire.passed) 0x04 (fun _ => 0) ∧ Faults .gate 0x006 {} (wider Fire.passed) 0x04 (fun _ => 0) ∧
  Faults .steer 0x003 {} (wider Fire.passed) 0x04 (fun _ => 0) ∧
  Faults .bcast 0x06F {} (wider (fun f => { f.token f.ta.fmt (List.replicate
    (if f.nrec.lit32.toNat % 64 = 0 then f.wid else f.nrec.lit32.toNat % 64) (f.ta.lanes.headD 0)) 0 f.ta.scw with sc := f.ta.sc }))
    0x04 (fun _ => 0)) ∧
  (let narrow := fun (i : Rec → Instr) (o : Nat) (p : FireSpec) (held : Bool) (bad : Fire → Prop) =>
    FaultsFirst i o p held (fun f _ => bad f) 0x04
  narrow .calloc 0x00B { ready := colourFree, badWidth := fun f => decide (32 < callocWidth f) } false
    (fun f => 32 < (if f.nrec.lit32.toNat % 64 = 0 then f.ta.wid else f.nrec.lit32.toNat % 64)) ∧
  narrow .spawn 0x014 { badWidth := fun f => decide (f.ta.wid < 2) } false (fun f => f.ta.wid < 2) ∧
  narrow .dqntb 0x0E4 { badWidth := dqntbBeyond } false (fun f => dqntbBeyond f = true) ∧
  narrow .smrg 0x0F3 { badWidth := fun f => decide (f.wid < 2) } false (fun f => f.wid < 2) ∧
  narrow .tdld 0x140 { anyWidth := true, badWidth := fun f => f.ta.wid != 16 } false (fun f => f.ta.wid ≠ 16) ∧
  narrow .tdset 0x141 { anyWidth := true, badWidth := fun f => decide (32 < fieldWidth f.code) && decide (f.ta.wid < 2) } false
    (fun f => 32 < fieldWidth f.code ∧ f.ta.wid < 2) ∧
  narrow .tdreg 0x144 { anyWidth := true, badWidth := fun f => decide (f.ta.wid < 2) } false (fun f => f.ta.wid < 2) ∧
  narrow .cdxset 0x15C { anyWidth := true, badWidth := fun f => f.ta.wid != 16 } false (fun f => f.ta.wid ≠ 16) ∧
  narrow .had 0x154 { badWidth := fun f => unevenRuns f.nrec.fmt.toNat (16 * 2 ^ (f.nrec.lit32.toNat % 4)) f } false
    (fun f => f.ta.lanes.length * elemsPerLane f.nrec.fmt.toNat % (16 * 2 ^ (f.nrec.lit32.toNat % 4)) ≠ 0) ∧
  FaultsFirst .wrsr 0x289 { breach := fun f s => regPrivileged (f.lit % 256) && f.plain s
                            badWidth := fun f => decide (0x40 ≤ f.lit % 256) && f.ta.wid != 2 } false
    (fun f s => (s.context (s.region f.g).ctx).priv = true ∧ 0x40 ≤ f.nrec.lit32.toNat % 256 ∧ f.ta.wid ≠ 2) 0x04 ∧
  FaultsFirst .snap 0x287 { ready := snapFree, breach := Fire.plain, badWidth := fun f => bit f.lit 0 && decide (f.ta.wid < 2) } true
    (fun f s => (s.context (s.region f.g).ctx).priv = true ∧ bit f.nrec.lit32.toNat 0 = true ∧ f.ta.wid < 2) 0x04)

/-- R78, R86 to R88: CBIND and INJECT into a colour that is not Live and CRET under a group colour take COLOUR; CALLOC takes TSLATE
for a timestamp below the horizon and COLEXH where the frame run fits nowhere; CFREE takes PCOUNT where a token of its colour is
left. R227, R228, R229, R231: CALLG at the depth limit takes CALLDEPTH; a directory entry, an image or an entry that fails, RETG at
depth 0 or under another colour than the call's and TAILG under another than its depth's base take CALLBAD. R60, R78, R417: a
token takes ARITY, WIDTH or PCOUNT on arrival, and one for a colour that is Free stops the kernel with COLOUR. -/
def Obligations.ColoursAndCallsFault : Prop :=
  (let none' := fun (_ : Fire) => 0
  let bases := fun (f : Fire) (s : State) => (s.region f.g).isBase f.col
  let left := fun (f : Fire) (s : State) => s.unfinished f.g f.col = none ∧ s.surplus f.g f.col = true
  let cfgn := fun (f : Fire) => bits f.nrec.lit32.toNat 31 24
  let limit := fun (f : Fire) (s : State) => (match (s.region f.g).kernel with
    | some e => min 64 (s.kernel e).psn
    | none => 1)
  let bad := fun (u : State) (f : Fire) (r : Rec) (detail : Nat) =>
    (u.nodeFault f.g f.h f.k f.n f.col f.wave 0x18 detail).rejoined f r
  let site := fun (f : Fire) (s : State) => (s.region f.g).site f.g
  Faults .cbind 0x00D {} (fun f s => (s.colour f.g ((f.tc.lanes.headD 0).toNat % 4096)).st ≠ .live) 0x07 none' ∧
  Faults .inject 0x011 {} (fun f s => (s.colour f.g f.col).st ≠ .live) 0x07 none' ∧
  Faults .cret 0x00E { ready := unreservedFree } (fun f s => (s.colour f.g f.col).group ≠ none) 0x07 none' ∧
  Faults .calloc 0x00B { ready := colourFree, badWidth := fun f => decide (32 < callocWidth f) }
    (fun f s => callocTs f ≠ 0 ∧ callocTs f < s.horizon f.g) 0x16 none' ∧
  Faults .calloc 0x00B { ready := colourFree, badWidth := fun f => decide (32 < callocWidth f) }
    (fun f s => (callocTs f = 0 ∨ s.horizon f.g ≤ callocTs f) ∧ (s.region f.g).allocate (s.ovsz f.g)
      (f.want s (callocWidth f) (callocTs f) (bits f.nrec.lit32.toNat 11 6) (bits f.nrec.lit32.toNat 15 12)) false = .exhausted)
    0x09 none' ∧
  Faults .cfree 0x00C {} left 0x06 none' ∧
  Faults .callg 0x281 { ready := callReady } (fun f s => limit f s ≤ (s.region f.g).depth) 0x17 none' ∧
  (∀ (r : Rec) (s : State) (f : Fire) (d : Nat), s.fires { ready := callReady } 0x281 r f = true →
    let u := s.taken f
    (u.region f.g).depth < limit f u → u.directory f.g (cfgn f) = .error d →
    exec (.callg r) s = .next (bad (u.directoryRead f.g (cfgn f)) f r d)) ∧
  (∀ (r : Rec) (s : State) (f : Fire) (x : Nat × Nat), s.fires { ready := callReady } 0x281 r f = true →
    let u := s.taken f
    let v := u.directoryRead f.g (cfgn f)
    (u.region f.g).depth < limit f u → u.directory f.g (cfgn f) = .ok x →
    (u.region f.g).allocate (v.ovsz f.g) (f.want v f.ta.wid (v.colour f.g f.col).ts 0 0) false = .exhausted →
    exec (.callg r) s = .next ((v.nodeFault f.g f.h f.k f.n f.col f.wave 0x09 0).rejoined f r)) ∧
  Faults .retg 0x282 {} (fun f s => (s.region f.g).depth = 0 ∨ bases f s = false) 0x18 none' ∧
  Faults .retg 0x282 {} (fun f s => (s.region f.g).depth ≠ 0 ∧ bases f s = true ∧ left f s) 0x06 none' ∧
  Faults .tailg 0x283 { ready := tailReady } (fun f s => bases f s = false) 0x18 none' ∧
  Faults .tailg 0x283 { ready := tailReady } (fun f s => bases f s = true ∧ left f s) 0x06 none' ∧
  (let goesOn := fun (f : Fire) (s : State) => bases f s = true ∧ s.unfinished f.g f.col = none ∧ s.surplus f.g f.col = false
  (∀ (r : Rec) (s : State) (f : Fire) (d : Nat), s.fires { ready := tailReady } 0x283 r f = true → goesOn f (s.taken f) →
    (s.taken f).directory f.g (cfgn f) = .error d →
    exec (.tailg r) s = .next (bad ((s.taken f).directoryRead f.g (cfgn f)) f r d)) ∧
  (∀ (r : Rec) (s : State) (f : Fire) (va id : Nat) (e : LoadFail), s.fires { ready := tailReady } 0x283 r f = true →
    goesOn f (s.taken f) → (s.taken f).directory f.g (cfgn f) = .ok (va, id) →
    let u := s.taken f
    u.loadImage (u.region f.g).ctx va (site f u) = .error e →
    exec (.tailg r) s = .next (bad ((u.directoryRead f.g (cfgn f)).loadRead (u.region f.g).ctx va (site f u)) f r
      (e.status + 256 * e.reason))) ∧
  (∀ (r : Rec) (s : State) (f : Fire) (va id : Nat) (i : Image), s.fires { ready := tailReady } 0x283 r f = true →
    goesOn f (s.taken f) → (s.taken f).directory f.g (cfgn f) = .ok (va, id) →
    let u := s.taken f
    u.loadImage (u.region f.g).ctx va (site f u) = .ok i →
    i.hasEntry (bits f.nrec.lit32.toNat 23 17) (bits f.nrec.lit32.toNat 16 10) (bits f.nrec.lit32.toNat 9 6) = false →
    exec (.tailg r) s = .next (bad ((u.directoryRead f.g (cfgn f)).loadRead (u.region f.g).ctx va (site f u)) f r 0)))) ∧
  (let comes := fun (id : Nat) (f : Flight) (s : State) => Tab.find s.flights id = some f ∧ f.arrive ≤ s.cycle ∧ f.tok.mark = .data
  let whole := fun (f : Flight) (s : State) => (s.colour f.region f.tok.col).st ≠ .purging ∧ (s.colour f.region f.tok.col).st ≠ .free ∧
    f.corrupt = false
  let port := fun (f : Flight) (s : State) => ∃ o r, s.record f.h f.k f.tok.node = some (o, r) ∧ recHasPort r f.tok.port = true
  let fits := fun (f : Flight) (s : State) => 0 < f.tok.wid ∧ f.tok.wid ≤ 32 ∧ f.tok.wid ≤ (s.colour f.region f.tok.col).wid
  let faulted := fun (id : Nat) (f : Flight) (cause : Nat) (s : State) =>
    (s.dropFlight id).nodeFault f.region f.h f.k f.tok.node f.tok.col f.tok.wave cause 0
  (∀ id f, Does .tokenArrival (.flight id) (fun s => comes id f s ∧ whole f s ∧ ¬ port f s) (faulted id f 0x03)) ∧
  (∀ id f, Does .tokenArrival (.flight id) (fun s => comes id f s ∧ whole f s ∧ port f s ∧ ¬ fits f s) (faulted id f 0x04)) ∧
  (∀ id f, Does .tokenArrival (.flight id)
    (fun s => comes id f s ∧ whole f s ∧ port f s ∧ fits f s ∧ (s.colour f.region f.tok.col).st = .ended) (faulted id f 0x06)) ∧
  (∀ id f e, Does .tokenArrival (.flight id)
    (fun s => comes id f s ∧ (s.colour f.region f.tok.col).st = .free ∧ (s.region f.region).kernel = some e)
    (fun s => (s.dropFlight id).kernelFault e
      (nodeRecord (s.dropFlight id) f.region f.h f.k f.tok.node f.tok.col f.tok.wave 0x07 0))))

/-- R137: a write of an identifier at or above TID_CNT takes TIDRANGE and one that breaks Table 7-1 takes TIDBAD, with the
identifier as detail. R141, R157, R164: a descriptor that breaks R141 takes CDXBAD at CDXSET and where a contraction begins;
R150, R157 to R163: a stay register that does not hold what is asked for takes STAYBAD, an accumulation that is another's ACHAIN,
accumulators beyond 1,023 ACCRANGE, and a token that does not belong to the block in the transposition buffer TXBLK; R146: a
contraction whose operands run short, over or uneven takes TLEN. -/
def Obligations.TensorsAndTrinesFault : Prop :=
  (let tb := fun (f : Fire) => (f.tb.lanes.headD 0).toNat % 4096
  let ta := fun (f : Fire) => if f.nrec.lit = 2 then f.nrec.lit32.toNat % 4096 else (f.ta.lanes.headD 0).toNat % 4096
  let count := fun (f : Fire) (s : State) => (s.context (s.region f.g).ctx).tidCntNow
  let writes := fun (i : Rec → Instr) (o : Nat) (p : FireSpec) (t : Fire → Nat) (bad : Fire → Prop) =>
    Faults i o p (fun f s => count f s ≤ t f) 0x0B t ∧ Faults i o p (fun f s => t f < count f s ∧ bad f) 0x0C t
  writes .tdld 0x140 { anyWidth := true, badWidth := fun f => f.ta.wid != 16 } tb (fun f => imageOk (imageOf f.ta) = false) ∧
  writes .tdset 0x141 { anyWidth := true, badWidth := fun f => decide (32 < fieldWidth f.code) && decide (f.ta.wid < 2) } tb
    (fun f => fieldOk f.code (tdsetValue f) = false) ∧
  writes .tddrop 0x142 { anyWidth := true } ta (fun _ => False) ∧
  writes .tdkeep 0x143 { anyWidth := true } ta (fun _ => False) ∧
  writes .tdreg 0x144 { anyWidth := true, badWidth := fun f => decide (f.ta.wid < 2) } tb
    (fun f => wideValue f.ta true % 64 ≠ 0 ∨ 2 ^ 55 ≤ wideValue f.ta true)) ∧
  Faults .cdxset 0x15C { anyWidth := true, badWidth := fun f => f.ta.wid != 16 } (fun f _ => cdxOk (imageOf f.ta) = false) 0x0D
    (fun f => (f.tb.lanes.headD 0).toNat % 16) ∧
  (let stay := fun (f : Fire) (s : State) => s.stayFile f.h (s.region f.g).ctx
  let none' := fun (_ : Fire) => 0
  let begins := fun (i : Rec → Instr) (o : Nat) =>
    FaultsHeld i o trineSpec (fun f s => beginOk f s = false) 0x0D (fun f => f.nrec.lit32.toNat % 16) ∧
    FaultsHeld i o trineSpec (fun f s => beginOk f s = true ∧ heldOf f s = true ∧ (stay f s).fmt ≠ f.nrec.fmt.toNat) 0x10 none' ∧
    FaultsHeld i o trineSpec (fun f s => beginOk f s = true ∧ (heldOf f s = true → (stay f s).fmt = f.nrec.fmt.toNat) ∧
      cdxAcc (s.descriptor f.g f.nrec).toNat = true ∧ s.chained f = false) 0x11 none'
  let base := fun (f : Fire) => bits f.nrec.lit32.toNat 9 0
  let lutm : FireSpec := { ready := trineIdle, lut := true, usesAcc := true, usesStay := fun _ _ => true
                           badWidth := fun f => unevenRuns 10 (4 * (bits f.lit 14 10 + 1)) f }
  let lutp : FireSpec := { ready := trineIdle, lut := true, usesStay := fun _ _ => true
                           badWidth := fun f => unevenRuns f.nrec.fmt.toNat 4 f }
  let table := fun (f : Fire) (s : State) => (stay f s).fmt = 16
  begins .tric 0x150 ∧ begins .mma 0x151 ∧ begins .tris 0x152 ∧ begins .mmas 0x153 ∧
  Faults .accld 0x159 accSpec (fun f _ => 1024 < base f + f.wid) 0x12 none' ∧
  Faults .accx 0x15D accSpec (fun f s => s.chained f = false) 0x11 none' ∧
  Faults .accx 0x15D accSpec (fun f s => s.chained f = true ∧ 1024 < base f + f.wid) 0x12 none' ∧
  Faults .lutp 0x155 lutp (fun f _ => 32 < f.nrec.lit32.toNat % 32 + (elemsOf f.nrec.fmt.toNat f.ta.lanes).length / 4) 0x10 none' ∧
  Faults .lutm 0x156 lutm (fun f s => ¬ table f s) 0x10 none' ∧
  Faults .lutm 0x156 lutm (fun f s => table f s ∧ s.chained f = false) 0x11 none' ∧
  Faults .lutm 0x156 lutm (fun f s => table f s ∧ s.chained f = true ∧
    1024 < f.nrec.lit32.toNat % 1024 + (elemsOf 10 f.ta.lanes).length / (4 * (bits f.nrec.lit32.toNat 14 10 + 1))) 0x12 none' ∧
  Faults .tstay 0x15A { ready := trineIdle, usesStay := fun _ _ => true }
    (fun f s =>
      let fmt := f.nrec.fmt.toNat
      let b := if bit f.nrec.lit32.toNat 13 then (stay f s).cnt else f.nrec.lit32.toNat % 8192
      16384 < (b + (elemsOf fmt f.ta.lanes).length) * elemWidth fmt ∨
      (b ≠ 0 ∧ ((stay f s).fmt ≠ fmt ∨ ((fmt = 8 ∨ fmt = 9) ∧ (stay f s).scw ≠ f.ta.scw)))) 0x10 none' ∧
  Faults .txpr 0x15B { ready := blockReady } (fun f s => ∃ t, (s.slot f.h f.k).transpose = some t ∧
    (t.scw ≠ f.ta.scw ∨ t.tag ≠ (f.col, f.wave) ∨ 1024 < t.elems.length + (elemsOf f.nrec.fmt.toNat f.ta.lanes).length)) 0x13 none') ∧
  (∀ h k g c p n e, Does .contractionStep (.slot h k)
    (fun s => (s.slot h k).region = some g ∧ (s.slot h k).contraction = some c ∧ s.stepDue h k = true ∧
      c.foreign c.walk (s.node h k c.node) = some (p, n, e))
    (fun s => (s.modSlot h k (fun v => { v with contraction := none })).nodeFault g h k c.node c.col c.wave 0x0E
      (tlenDetail p n e))) ∧
  (∀ h k g c cause detail, Does .contractionStep (.slot h k)
    (fun s => (s.slot h k).region = some g ∧ (s.slot h k).contraction = some c ∧ s.stepDue h k = true ∧
      c.foreign c.walk (s.node h k c.node) = none ∧
      stepFault c c.walk (c.taking c.walk (s.node h k c.node)) = some (cause, detail))
    (fun s => (s.modSlot h k (fun v => { v with contraction := none })).nodeFault g h k c.node c.col c.wave cause detail))

/-- R167, R168: a memory node that finds an access fault issues nothing and withholds the access: AGBINV for a binding with V = 0,
then ALIGN, LIMIT, TRANS and SPACE as Table 9-2 orders them, for the whole access or for the first lane that fails, with the number
of address tokens that the node has consumed under the colour. R174: an STS that does not start at its pointer takes WPORD when it
issues, and a run that stages another scale word SCWMIX. The detail word of a cause other than TRANS is the model's (log 6). -/
def Obligations.MemoryNodesWithhold : Prop :=
  (let bind := fun (f : Fire) (s : State) => s.binding f.g f.nrec
  let o := fun (f : Fire) => (f.ta.lanes.headD 0).toNat
  let whole := fun (i : Rec → Instr) (op : Nat) (p : FireSpec) (lane : Bool) (n : Fire → Nat) (align : Nat) =>
    Withholds i op p lane (fun f s cause addr detail => agbV (bind f s) = false ∧ cause = 1 ∧ addr = o f ∧ detail = 1) ∧
    Withholds i op p lane (fun f s cause addr detail => agbV (bind f s) = true ∧
      FaultsAccess f s (bind f s) (o f) (n f) align cause addr detail)
  let lanes := fun (i : Rec → Instr) (op : Nat) (p : FireSpec) (n align : Nat) (write : Bool) =>
    Withholds i op p false (fun f s cause addr detail => agbV (bind f s) = false ∧ cause = 1 ∧ addr = o f ∧ detail = 1) ∧
    Withholds i op p false (fun f s cause addr detail => agbV (bind f s) = true ∧ ∃ before a after ps,
      laneAsks f n write align (agbBase (bind f s)) = before ++ a :: after ∧ s.reachAll f.g f.h (bind f s) before = .ok ps ∧
      FaultsAccess f s (bind f s) a.o n align cause addr detail)
  let w := fun (f : Fire) => 4 * (bits f.nrec.lit32.toNat 13 9 + 1)
  let b := fun (f : Fire) => 4 * f.tb.wid
  whole .ld 0x1C1 (specLd.fires true) true w 4 ∧ whole .ldn 0x1C8 (specLdn.fires true) true w 4 ∧
  whole .lds 0x1C4 (specLds.fires true) true w 4 ∧ lanes .ldx 0x1C3 (specLdx.fires false) 4 4 false ∧
  whole .st 0x1C2 (specSt.fires true) true b 4 ∧ whole .sts 0x1C5 (specSts.fires true) true b 4 ∧
  whole .mcast 0x1E1 (specMcast.fires true) false b 4 ∧ whole .optst 0x1DA (specOptst.fires true) false b 64 ∧
  lanes .retw 0x1DB (specRetw.fires false) 1 1 true ∧
  (let atomic' := fun (i : Rec → Instr) (op : Nat) => lanes i (0x1D0 + op) (specAtomic.fires false) 4 4 true
  atomic' .aadd 0 ∧ atomic' .afadd 1 ∧ atomic' .amin 2 ∧ atomic' .amax 3 ∧ atomic' .aand 4 ∧ atomic' .aor 5 ∧
  atomic' .axor 6 ∧ atomic' .axchg 7 ∧ atomic' .acas 8 ∧ atomic' .ainc 9)) ∧
  (∀ h k id g q n o b, Does .requestIssue (.request h k id)
    (fun s => (s.slot h k).region = some g ∧ s.request h k id = some q ∧ s.mayIssue g h k q = true ∧
      q.pointer = some (n, o, b) ∧ s.pointer (dieOf h) n ≠ o)
    (fun s => s.nodeFault g h k q.node q.col q.wave 0x14 0)) ∧
  (∀ h k id g q a v x, Does .requestIssue (.request h k id)
    (fun s => (s.slot h k).region = some g ∧ s.request h k id = some q ∧ s.mayIssue g h k q = true ∧
      (∀ n o b, q.pointer = some (n, o, b) → s.pointer (dieOf h) n = o) ∧ q.mix = some (a, v) ∧
      x ∈ (s.colour g q.col).blocks ∧ forwardAddr s.forwards x.1 = forwardAddr s.forwards a ∧ x.2 ≠ v)
    (fun s => s.nodeFault g h k q.node q.col q.wave 0x15 0))

/-- R25: a context's RND_DEF is 0 at reset; a write of a mode from 000 to 100 stores it, one of 101, 110 or 111 stores 000, no
bit above the mode reads as anything but zero after a write, and the registers of the other contexts stay. -/
def Obligations.RndDefKeepsItsMode : Prop :=
  (∀ m, (State.reset.context m).rndDef = 0) ∧
  (∀ (s : State) (g h c d v : Nat),
    let t := s.applyRegister g h 0x03 v
    (v ≤ 4 → t.statusReg g c d 0x03 = v) ∧ (v = 5 ∨ v = 6 ∨ v = 7 → t.statusReg g c d 0x03 = 0) ∧ t.statusReg g c d 0x03 < 8 ∧
    (∀ x, x ≠ (s.region g).ctx → t.context x = s.context x))

/-! ### Tokens and colours -/

/-- PASS and GATE emit A unchanged, STEER sends it to the side that its predicate names, TRAP lets it pass when no qualifying lane
is non-zero and otherwise takes a TRAP fault that carries LIT32, and CONST puts its literal in every lane of A's token (R81,
R84, R92). MERGE emits the arm that its predicate names and MERGEU the token it found, SEL chooses lane by lane, and SYNC
emits A to D0 and B to D1 (R81 to R83). What a predicate token adds to SC and FLG of the emitted token is DEDUCED (logs 114
and 115). -/
def Obligations.PassingAndJoiningNodesEmit : Prop :=
  Gives .pass 0x001 {} 1 (fun f _ => f.passed) ∧
  Gives .gate 0x006 {} 1 (fun f _ => f.passed) ∧
  Gives .steer 0x003 {} 1 (fun f _ => f.passed) ∧
  Gives .const 0x002 {} 1 (fun f _ =>
    { f.token f.nrec.fmt.toNat (List.replicate f.wid f.nrec.lit32) 0 0 with sc := f.nrec.scl == 3 }) ∧
  (∀ (r : Rec) (s : State) (f : Fire), s.fires {} 0x015 r f = true → trapped f = false →
    (s.taken f).tooWide f.g f f.passed = false →
    exec (.trap r) s = .next (((s.taken f).emitted f 1 f.passed).rejoined f r)) ∧
  Faults .trap 0x015 {} (fun f _ => ∃ i, f.qual.getD i false = true ∧ f.ta.lanes.getD i 0 ≠ 0) 0x0A
    (fun f => f.nrec.lit32.toNat) ∧
  Gives .merge 0x004 {} 1 (fun f _ => f.moved (if (f.tp.lanes.headD 0).toNat % 2 = 1 then f.ta else f.tb)) ∧
  Gives .mergeu 0x005 {} 1 (fun f _ => f.moved (f.a.getD f.tb)) ∧
  Gives .sel 0x008 {} 1 (fun f _ => f.token f.ta.fmt
    (f.blend (List.zipWith (fun (x : Word) (y : Word × Word) => if x.toNat % 2 = 1 then y.1 else y.2) f.tc.lanes
      (f.ta.lanes.zip f.tb.lanes))) 0 f.ta.scw) ∧
  Acts .sync 0x007 {} (fun _ _ => True) (fun f s => s.emittedPair f (f.moved f.ta) (f.moved f.tb))

/-- PACK, UNPACK and the predicate instructions compute their lanes as R89 and R93 give them; FLAGS stages A's flags and emits
them in every lane, or A's payload, without flags (R94); TSGET emits the tag as R95 lays it out; and bit L of a comparison's
predicate is the comparison of the lanes L, with SC 0 (R104). -/
def Obligations.PredicatesAndComparisonsEmit : Prop :=
  Gives .pack 0x00F {} 1 (fun f _ => f.token f.ta.fmt
    (List.zipWith (fun a b => BitVec.ofNat 32 (a.toNat % 65536 + 65536 * (b.toNat % 65536))) f.ta.lanes f.tb.lanes) 0 f.ta.scw) ∧
  Acts .unpack 0x010 {} (fun _ _ => True) (fun f s => s.emittedPair f
    (f.token f.ta.fmt (f.ta.lanes.map (fun w => BitVec.ofNat 32 (w.toNat % 65536))) 0 f.ta.scw)
    (f.token f.ta.fmt (f.ta.lanes.map (fun w => BitVec.ofNat 32 (w.toNat / 65536))) 0 f.ta.scw)) ∧
  Gives .pred 0x017 {} 1 (fun f _ => f.predicate
    (f.ta.lanes.map (fun w => (laneElems f.nrec.fmt.toNat w).any (elemTrue f.nrec.fmt.toNat f.ta.scw))) 0) ∧
  Gives .pand 0x018 {} 1 (fun f _ => f.predicate
    (List.zipWith (fun a b => a.toNat % 2 == 1 && b.toNat % 2 == 1) f.ta.lanes f.tb.lanes) 0) ∧
  Gives .por 0x019 {} 1 (fun f _ => f.predicate
    (List.zipWith (fun a b => a.toNat % 2 == 1 || b.toNat % 2 == 1) f.ta.lanes f.tb.lanes) 0) ∧
  Gives .pxor 0x01A {} 1 (fun f _ => f.predicate
    (List.zipWith (fun a b => (a.toNat + b.toNat) % 2 == 1) f.ta.lanes f.tb.lanes) 0) ∧
  Gives .pnot 0x01B {} 1 (fun f _ => f.predicate (f.ta.lanes.map (fun a => a.toNat % 2 == 0)) 0) ∧
  Gives .vote 0x01C {} 2 (fun f _ =>
    let n := (f.ta.lanes.filter (fun a => a.toNat % 2 == 1)).length
    f.predicate (List.replicate f.wid
      (match f.nrec.lit32.toNat % 4 with
       | 0 => decide (0 < n)
       | 1 => decide (n = f.ta.lanes.length)
       | _ => n % 2 == 1)) 0) ∧
  GivesFrom .flags 0x01D {} 1 (fun f s =>
    (s.stageToken f.g f.col f.ta.flg false,
     if f.nrec.lit32.toNat % 2 = 0 then
       { f.token 0 (List.replicate f.wid (BitVec.ofNat 32 f.ta.flg.toNat)) 0 0 with flg := 0 }
     else { f.passed with flg := 0 })) ∧
  Gives .tsget 0x01F {} 2 (fun f s =>
    let c := s.colour f.g f.col
    let ls := match f.nrec.lit32.toNat % 4 with
      | 0 => [c.ts % 2 ^ 32, c.ts / 2 ^ 32]
      | 1 => [f.col + 2 ^ 12 * f.wave + 2 ^ 20 * c.wid, c.owave + 2 ^ 8 * c.nwave + 2 ^ 16 * c.km1]
      | _ => [c.pcol + 2 ^ 12 * c.pwave, 0]
    f.token 0 ((List.range f.wid).map (fun i => BitVec.ofNat 32 (ls.getD i 0))) 0 0) ∧
  (let by' := fun (op : Word → Word → Bool) (f : Fire) (_ : State) =>
    { f.predicate (List.zipWith op f.ta.lanes f.tb.lanes) 0 with sc := false }
  Gives .cmpeq 0x060 {} 1 (by' (fun a b => decide (a = b))) ∧
  Gives .cmpne 0x061 {} 1 (by' (fun a b => decide (a ≠ b))) ∧
  Gives .cmplt 0x062 {} 1 (by' (fun a b => decide (a.toInt < b.toInt))) ∧
  Gives .cmple 0x063 {} 1 (by' (fun a b => decide (a.toInt ≤ b.toInt))) ∧
  Gives .cmpltu 0x064 {} 1 (by' (fun a b => decide (a.toNat < b.toNat))) ∧
  Gives .cmpleu 0x065 {} 1 (by' (fun a b => decide (a.toNat ≤ b.toNat))))

/-- SINK consumes A whatever its predicate (R90); CNTF counts, and emits every n-th (R91); DELAY holds A for n cycles (R81);
MARK emits A and then its marker (R318); SPAWN stages a kernel and passes A (R260). -/
def Obligations.CountingNodesAct : Prop :=
  Acts .sink 0x012 { always := true } (fun _ _ => True)
    (fun f s => (s.pipe f 1).stageToken f.g f.col (flagsOf f.operands) false) ∧
  (∀ (r : Rec) (s : State) (f : Fire), s.fires {} 0x013 r f = true →
    let u := s.taken f
    let c := u.colour f.g f.col
    let x := countSlot (u.slot f.h f.k).frames f.n f.col (c.owave % (c.km1 + 1)) f.wave
    x.count + 1 ≠ f.nrec.lit32.toNat →
    let y : FrameSlot := { x with count := x.count + 1, flg := x.flg ||| f.ta.flg, tnt := x.tnt || f.ta.tnt }
    exec (.cntf r) s = .next
      (((u.pipe f 1).modSlot f.h f.k (fun v => { v with frames := putSlot v.frames y })).rejoined f r)) ∧
  (∀ (r : Rec) (s : State) (f : Fire), s.fires {} 0x013 r f = true →
    let u := s.taken f
    let c := u.colour f.g f.col
    let x := countSlot (u.slot f.h f.k).frames f.n f.col (c.owave % (c.km1 + 1)) f.wave
    let t := { f.passed with flg := x.flg ||| f.ta.flg, tnt := x.tnt || f.ta.tnt }
    x.count + 1 = f.nrec.lit32.toNat → u.tooWide f.g f t = false →
    exec (.cntf r) s = .next (((u.modSlot f.h f.k (fun v =>
      { v with frames := putSlot v.frames { x with count := 0, flg := 0, tnt := false } })).emitted f 1 t).rejoined f r)) ∧
  Acts .delay 0x01E { ready := unreservedFree } (fun _ _ => True) (fun f s =>
    (s.pipe f (f.nrec.lit32.toNat % 256)).hold f
      { kind := .delay, tok := { f.passed with since := s.cycle }, nrec := f.nrec, due := s.cycle + f.nrec.lit32.toNat % 256
        ready := false, col := f.col, pser := 0 }) ∧
  ActsHeld .mark 0x016 { ready := firstEmission } (fun f s => s.tooWide f.g f f.passed = false)
    (fun f s => (s.setEmitted f 1).emitted f 1 f.passed) ∧
  ActsHeld .markMarkerEmission 0x016 { ready := markerReady }
    (fun f s => ((s.setEmitted f 0).consume f).tooWide f.g f (markMarker f) = false)
    (fun f s => ((s.setEmitted f 0).consume f).emitted f 1 (markMarker f)) ∧
  (∀ (r : Rec) (s : State) (f : Fire), s.fires { badWidth := fun f => decide (f.ta.wid < 2) } 0x014 r f = true →
    (s.taken f).tooWide f.g f f.passed = false →
    exec (.spawn r) s = .next ((((s.taken f).stageEffect f
      (.spawn (laneAddress f.ta) (bit f.nrec.lit32.toNat 0) (bit f.nrec.lit32.toNat 1))).emitted f 1 f.passed).rejoined f r))

/-- WAVE and WEXIT count their firing and move A to the wave the loop gives it (R71, R85); CALLOC allocates a colour and moves A,
widened, into it (R86); CFREE ends its colour when nothing of it is left (R87); CBIND and INJECT move A into a Live colour
(R88); CRET's token waits for the commit of its colour (R88). DEDUCED: a WAVE that opens a loop is judged with the OWAVE of
its colour (log 94), and an INJECT of a purged sender's token brings that purge's notice (log 129). -/
def Obligations.ColourNodesAct : Prop :=
  GivesFrom .wave 0x009 (waveSpec true) 1 (fun f s =>
    (s.countWave f.g f.h f.k f.col f.wave true, { f.passed with wave := (f.wave + 1) % 256 })) ∧
  GivesFrom .wexit 0x00A (waveSpec false) 1 (fun f s =>
    (s.countWave f.g f.h f.k f.col f.wave false,
     { f.passed with wave := if (s.colour f.g f.col).loop then (s.colour f.g f.col).lwave else f.wave })) ∧
  (∀ (r : Rec) (s : State) (f : Fire) (n : Nat) (g' : Region),
    s.fires { ready := colourFree, badWidth := fun f => decide (32 < callocWidth f) } 0x00B r f = true →
    let u := s.taken f
    let w := if f.nrec.lit32.toNat % 64 = 0 then f.ta.wid else f.nrec.lit32.toNat % 64
    let out : Token := { f.passed with col := n, wave := 0, wid := w, lanes := widen w f.ta.lanes
                                       res := if w = f.ta.wid then f.ta.res else tokenResidue f.ta.fmt (widen w f.ta.lanes) }
    (callocTs f = 0 ∨ u.horizon f.g ≤ callocTs f) →
    (u.region f.g).allocate (u.ovsz f.g)
      (f.want u w (callocTs f) (bits f.nrec.lit32.toNat 11 6) (bits f.nrec.lit32.toNat 15 12)) false = .granted n g' →
    let v := (u.setRegion f.g g').modColour f.g n (fun c => { c with copy := some out })
    v.tooWide f.g f out = false →
    exec (.calloc r) s = .next ((v.emitted f 2 out).rejoined f r)) ∧
  Acts .cfree 0x00C {} (fun f s => s.unfinished f.g f.col = none ∧ s.surplus f.g f.col = false)
    (fun f s => ((s.modColour f.g f.col (fun c => { c with st := .ended })).pipe f 1).stageToken f.g f.col
      (flagsOf f.operands) false) ∧
  (∀ (r : Rec) (s : State) (f : Fire), s.fires {} 0x00D r f = true →
    let u := s.taken f
    let c := (f.tc.lanes.headD 0).toNat % 4096
    let out := { f.passed with col := c, wave := 0 }
    (u.colour f.g c).st = .live →
    let v := if c = f.col then u
      else (u.modRegion f.g (fun x => x.recordSender c f.g f.col)).dependOn f.g c f.g f.col (u.colour f.g f.col).ser
    v.tooWide f.g f out = false →
    exec (.cbind r) s = .next ((v.emitted f 1 out).rejoined f r)) ∧
  Acts .cret 0x00E { ready := unreservedFree } (fun f s => (s.colour f.g f.col).group = none) (fun f s =>
    (s.pipe f 1).hold f
      { kind := .cret
        tok := { f.passed with col := (s.colour f.g f.col).pcol, wave := (s.colour f.g f.col).pwave, since := s.cycle }
        nrec := f.nrec, due := s.cycle, ready := false, col := f.col, wave := f.wave, pser := (s.colour f.g f.col).pser }) ∧
  (∀ (r : Rec) (s : State) (f : Fire), s.fires {} 0x011 r f = true → ((s.taken f).colour f.g f.col).st = .live →
    let u := s.taken f
    let v := match f.ta.sender with
      | none => u
      | some (g', c, ser) =>
        let t := (u.modRegion f.g (fun x => x.recordSender f.col g' c)).dependOn f.g f.col g' c ser
        if u.isGone (g', c, ser) then
          t.modRegion f.g (fun x => { x with notices := x.notices ++ [({ source := g', col := c, arrive := u.cycle, corrects := false } : PurgeNotice)] })
        else t
    v.tooWide f.g f f.passed = false →
    exec (.inject r) s = .next ((v.emitted f 1 f.passed).rejoined f r))

/-! ### Integers -/

/-- The arithmetic instructions compute every element exactly and keep it as R98 says (R100); the residue of a sum, a difference
and, at w = 32, a product is predicted from the operands' residues unless an element was clamped (R103). DEDUCED (log 93): the
residues that Table 5-3 takes of signed factors are those of the signed values. -/
def Obligations.IntegerArithmeticEmits : Prop :=
  let sum := fun (a b : Int) => a + b
  let difference := fun (a b : Int) => a - b
  let product := fun (a b : Int) => a * b
  let none' := fun (f : Fire) => f.ta.lanes.map (fun _ => (0 : Int))
  let narrow := fun (f : Fire) => f.width != 32
  Gives .add 0x040 {} 1 (fun f _ => f.foretold (f.each2 (fun a b => f.kept (f.num a + f.num b)))
    (clamps f f.sat (exactPair f.fmt sum)) (addResidue f)) ∧
  Gives .sub 0x041 {} 1 (fun f _ => f.foretold (f.each2 (fun a b => f.kept (f.num a - f.num b)))
    (clamps f f.sat (exactPair f.fmt difference)) (subResidue f)) ∧
  Gives .mul 0x042 {} 3 (fun f _ => f.foretold (f.each2 (fun a b => f.kept (f.num a * f.num b)))
    (clamps f f.sat (exactPair f.fmt product) || narrow f) (mulResidue f (none' f) ((exactProducts f (none' f)).map upperHalf))) ∧
  Gives .mulh 0x043 {} 3 (fun f _ => f.foretold (f.each2 (fun a b => f.wrapped (f.snum a * f.snum b / (2 ^ f.width : Nat))))
    (narrow f) (highResidue true f)) ∧
  Gives .mulhu 0x044 {} 3 (fun f _ => f.foretold (f.each2 (fun a b => f.wrapped ((a * b / 2 ^ f.width : Nat) : Int)))
    (narrow f) (highResidue false f)) ∧
  Gives .mad 0x045 {} 3 (fun f _ => f.foretold (f.blend (List.zipWith (fun (x : Word × Word) c =>
    laneOf f.nrec.fmt.toNat (List.zipWith (fun (y : Nat × Nat) z => f.kept (f.num y.1 * f.num y.2 + f.num z))
      ((laneElems f.nrec.fmt.toNat x.1).zip (laneElems f.nrec.fmt.toNat x.2)) (laneElems f.nrec.fmt.toNat c)))
    (f.ta.lanes.zip f.tb.lanes) f.tc.lanes)) (madClamps f || narrow f)
    (mulResidue f (valueResidues (fmtSigned f.fmt) f.tc)
      ((exactProducts f (f.tc.lanes.map (fun c => intElem f.fmt c.toNat))).map upperHalf))) ∧
  Gives .neg 0x04A {} 1 (fun f _ => f.foretold (f.each1 (fun a => f.kept (-f.num a)))
    (f.sat && (List.zipWith (fun (q : Bool) (a : Word) => q && (laneElems f.fmt a).any (fun x => f.clamped (-f.num x) != -f.num x))
      f.qual f.ta.lanes).contains true) (negResidue f)) ∧
  Gives .abs 0x04B {} 1 (fun f _ => f.ints (f.each1 (fun a => f.kept (if f.num a < 0 then -f.num a else f.num a)))) ∧
  Gives .min 0x04C {} 1 (fun f _ => f.ints (f.each2 (fun a b => f.wrapped (min (f.snum a) (f.snum b))))) ∧
  Gives .max 0x04D {} 1 (fun f _ => f.ints (f.each2 (fun a b => f.wrapped (max (f.snum a) (f.snum b))))) ∧
  Gives .minu 0x04E {} 1 (fun f _ => f.ints (f.each2 (fun a b => f.wrapped ((min a b : Nat) : Int)))) ∧
  Gives .maxu 0x04F {} 1 (fun f _ => f.ints (f.each2 (fun a b => f.wrapped ((max a b : Nat) : Int)))) ∧
  Gives .adds 0x05E {} 1 (fun f _ => f.foretold (f.each2 (fun a b => f.wrapped (f.clamped (f.num a + f.num b))))
    (clamps f true (exactPair f.fmt sum)) (addResidue f)) ∧
  Gives .subs 0x05F {} 1 (fun f _ => f.foretold (f.each2 (fun a b => f.wrapped (f.clamped (f.num a - f.num b))))
    (clamps f true (exactPair f.fmt difference)) (subResidue f))

/-- R101: quotients are truncated toward zero, a remainder has its dividend's sign, a zero divisor gives all ones and the
dividend, and the least value divided by −1 gives itself, or the greatest where DIV saturates, and remainder 0. Residues are
generated; which of Table 5-3's quotients the check of the unit sees is DEDUCED (log 119). -/
def Obligations.DivisionEmits : Prop :=
  Gives .div 0x046 {} 12 (fun f _ => f.ints (f.each2 (fun x y =>
    let a := f.snum x
    let b := f.snum y
    f.wrapped (if b = 0 then (2 ^ f.width : Nat) - 1
      else if a = -(2 ^ (f.width - 1) : Nat) ∧ b = -1 then
        (if f.nrec.sat = 1 then (2 ^ (f.width - 1) : Nat) - 1 else -(2 ^ (f.width - 1) : Nat))
      else Int.tdiv a b)))) ∧
  Gives .divu 0x047 {} 12 (fun f _ => f.ints (f.each2 (fun a b =>
    f.wrapped (if b = 0 then (2 ^ f.width : Nat) - 1 else ((a / b : Nat) : Int))))) ∧
  Gives .rem 0x048 {} 12 (fun f _ => f.ints (f.each2 (fun x y =>
    let a := f.snum x
    let b := f.snum y
    f.wrapped (if b = 0 then a
      else if a = -(2 ^ (f.width - 1) : Nat) ∧ b = -1 then 0 else Int.tmod a b)))) ∧
  Gives .remu 0x049 {} 12 (fun f _ => f.ints (f.each2 (fun a b =>
    f.wrapped (if b = 0 then (a : Int) else ((a % b : Nat) : Int)))))

/-- R102: the bitwise instructions act on whole lanes; shifts, rotations, counts and fields act element by element. R103: the
bitwise instructions predict their residue, those on A and B once the check of their unit has passed, and are a residue error at
the node where it fails. -/
def Obligations.LogicAndShiftsEmit : Prop :=
  (let both := fun (f : Fire) => f.sumQualified (List.zipWith (fun a b => ((a &&& b).toNat : Int)) f.ta.lanes f.tb.lanes)
  let differ := fun (f : Fire) => f.sumQualified (List.zipWith (fun a b => ((a ^^^ b).toNat : Int)) f.ta.lanes f.tb.lanes)
  let bitwise' := fun (i : Rec → Instr) (o : Nat) (op : Word → Word → Word) (res : Fire → Int) =>
    GivesWhen i o {} (fun f _ => f.bitsAgree) 1 (fun f s =>
      (s, f.foretold (f.blend (List.zipWith op f.ta.lanes f.tb.lanes)) false (f.unqualified f.ta + res f))) ∧
    Acts i o {} (fun f _ => ¬ f.bitsAgree) (fun f s => s.purgeCorrected f.g [f.col])
  bitwise' .and 0x050 (fun a b => a &&& b) both ∧
  bitwise' .or 0x051 (fun a b => a ||| b) (fun f => differ f + both f) ∧
  bitwise' .xor 0x052 (fun a b => a ^^^ b) differ ∧
  bitwise' .andn 0x054 (fun a b => a &&& ~~~b) (fun f => f.qualified f.ta - both f)) ∧
  Gives .not 0x053 {} 1 (fun f _ => f.foretold (f.blend (f.ta.lanes.map (fun a => ~~~a))) false (notResidue f)) ∧
  Gives .shl 0x055 {} 1 (fun f _ => f.ints (f.each2 (fun a n => f.kept (f.num a * (2 ^ n : Nat))))) ∧
  Gives .shr 0x056 {} 1 (fun f _ => f.ints (f.each2 (fun a n => if n < f.width then a / 2 ^ n else 0))) ∧
  Gives .sra 0x057 {} 1 (fun f _ => f.ints (f.each2 (fun a n => f.wrapped (f.snum a / (2 ^ min n (f.width - 1) : Nat))))) ∧
  Gives .rol 0x058 {} 1 (fun f _ => f.ints (f.each2 (fun a n =>
    a * 2 ^ (n % f.width) % 2 ^ f.width + a / 2 ^ (f.width - n % f.width)))) ∧
  Gives .clz 0x059 {} 1 (fun f _ => f.ints (f.each1 (fun a => f.width - (if a = 0 then 0 else Nat.log2 a + 1)))) ∧
  Gives .popc 0x05A {} 1 (fun f _ => f.ints (f.each1 (fun a => ((List.range f.width).filter (fun i => a.testBit i)).length))) ∧
  Gives .brev 0x05B {} 1 (fun f _ => f.ints (f.each1 (reverseBits f.width))) ∧
  Gives .bfx 0x05C {} 1 (fun f _ => f.ints (f.each1 (fun a =>
    let x := a / 2 ^ bits f.nrec.lit32.toNat 4 0 % 2 ^ bits f.nrec.lit32.toNat 10 5
    if fmtSigned f.nrec.fmt.toNat then f.wrapped (signedElem (bits f.nrec.lit32.toNat 10 5) x) else x))) ∧
  Gives .bfi 0x05D {} 1 (fun f _ => f.ints (f.each2 (fun a b =>
    insertField f.width (bits f.nrec.lit32.toNat 4 0) (bits f.nrec.lit32.toNat 10 5) a b)))

/-- R106: IDX and IDX2 form a linear index in each lane, modulo 2^32, whatever SAT says. R107: WRAP maps a position to a slot
and a wrap generation. -/
def Obligations.LinearIndexAndWrapEmit : Prop :=
  Gives .idx 0x068 {} 3 (fun f _ => f.ints (f.blend (f.ta.lanes.mapIdx (fun i a =>
    BitVec.ofInt 32 (a.toNat * bits f.nrec.lit32.toNat 15 0 + i * signedElem 16 (bits f.nrec.lit32.toNat 31 16)))))) ∧
  Gives .idx2 0x069 {} 3 (fun f _ => f.ints (f.blend (List.zipWith (fun a b =>
    BitVec.ofNat 32 (a.toNat * bits f.nrec.lit32.toNat 31 16 + b.toNat * bits f.nrec.lit32.toNat 15 0)) f.ta.lanes f.tb.lanes))) ∧
  Gives .wrap 0x06A {} 3 (fun f _ => f.ints (f.blend (f.ta.lanes.map (fun a =>
    let sink := bits f.nrec.lit32.toNat 31 16
    let win := bits f.nrec.lit32.toNat 15 0
    let p := a.toNat
    if p < sink then BitVec.ofNat 32 p
    else
      let d := p - sink
      BitVec.ofNat 32 (sink + d % win + 2 ^ 16 * ((d / win + 1) % 2 ^ 16))))))

/-- R108: emission j of RANGE carries its lanes of the progression; A leaves its queue with the last one. R169: AGEN and its later
emissions give the offsets of its binding's pattern. -/
def Obligations.ProgressionsEmit : Prop :=
  (let last := fun (f : Fire) (s : State) => bits f.nrec.lit32.toNat 15 0 ≤ (s.node f.h f.k f.n).emitted + 1
  let tok := fun (f : Fire) (j : Nat) => f.ints ((List.range f.wid).map (fun i =>
    BitVec.ofInt 32 ((f.ta.lanes.headD 0).toNat + (j * f.wid + i : Nat) * signedElem 16 (bits f.nrec.lit32.toNat 31 16))))
  let next := fun (f : Fire) (s : State) =>
    if last f s then (s.setEmitted f 0).consume f else s.setEmitted f ((s.node f.h f.k f.n).emitted + 1)
  let fits := fun (f : Fire) (s : State) => (next f s).tooWide f.g f (tok f (s.node f.h f.k f.n).emitted) = false
  let go := fun (f : Fire) (s : State) => (next f s).emitted f 1 (tok f (s.node f.h f.k f.n).emitted)
  ActsHeld .range 0x06B { ready := firstEmission } fits go ∧
  ActsHeld .rangeEmission 0x06B { ready := laterEmission } fits go) ∧
  (let b := fun (f : Fire) (s : State) => s.binding f.g f.nrec
  let j := fun (f : Fire) (s : State) => (s.node f.h f.k f.n).emitted
  let n := fun (f : Fire) (s : State) (d : Nat) => agbN (b f s) d
  let count := fun (f : Fire) (s : State) =>
    match f.code with
    | 0 => n f s 0
    | 1 => n f s 0 * n f s 1
    | 2 => n f s 0 * n f s 1 * n f s 2
    | _ => 1
  let one := fun (f : Fire) (w : Word) => f.token 1 [w] 0 0
  let tok := fun (f : Fire) (s : State) =>
    let start : Int := (agbStart (b f s) : Int) + (if f.nrec.ary = 1 then ((f.ta.lanes.headD 0).toNat : Int) else 0)
    let at' := fun (i : Nat) (x : Nat) => (x : Int) * agbStr (b f s) i
    f.token 1
      (match f.code with
       | 0 => [BitVec.ofInt 32 (start + at' 0 (j f s))]
       | 1 => [BitVec.ofInt 32 (start + at' 0 (j f s % n f s 0) + at' 1 (j f s / n f s 0 % n f s 1))]
       | 2 => [BitVec.ofInt 32 (start + at' 0 (j f s % n f s 0) + at' 1 (j f s / n f s 0 % n f s 1)
           + at' 2 (j f s / (n f s 0 * n f s 1)))]
       | _ => f.ta.lanes.map (fun a => BitVec.ofInt 32 (agbStart (b f s) + (a.toNat : Int) * agbStr (b f s) 0))) 0 0
  let after := fun (f : Fire) (s : State) =>
    (if count f s ≤ j f s + 1 then ((s.unwithhold f).setEmitted f 0).consume f else (s.unwithhold f).setEmitted f (j f s + 1)).countElem f
  let ok := fun (f : Fire) (s : State) => f.code < 4 ∧ (j f s = 0 → agbV (b f s) = true) ∧
    (after f s).tooWide f.g f (tok f s) = false
  let go := fun (f : Fire) (s : State) => (after f s).emitted f 1 (tok f s)
  ActsHeld .agen 0x1C0 (agenSpec firstEmission) ok go ∧
  ActsHeld .agenEmission 0x1C0 (agenSpec laterEmission) ok go ∧
  (∀ (r : Rec) (s : State) (f : Fire) (w : Word), s.firesHeld (agenSpec firstEmission) 0x1C0 r f = true → f.code = 4 →
    let u := s.noteFiring f
    let v := ((u.unwithhold f).consume f).countElem f
    j f u = 0 → agbV (b f u) = true → linkOffset f (b f u) = some w → v.tooWide f.g f (one f w) = false →
    exec (.agen r) s = .next ((v.emitted f 1 (one f w)).rejoined f r)))

/-- R109: the lane instructions move whole lanes and keep A's FMT, SC and SCW. R110: the reductions take every element of A,
read as FMT says, into one 32-bit lane. -/
def Obligations.LaneMovesAndReductionsEmit : Prop :=
  (let tok := fun (f : Fire) (out : List Word) =>
    { f.token f.ta.fmt out 0 f.ta.scw with sc := f.ta.sc }
  Gives .shuf 0x06C {} 1 (fun f _ => tok f (f.tb.lanes.map (fun b =>
    if b.toNat % 32 < f.wid then f.ta.lanes.getD (b.toNat % 32) 0 else 0))) ∧
  Gives .lanex 0x06D {} 1 (fun f _ => tok f [f.ta.lanes.getD (f.nrec.lit32.toNat % 32) 0]) ∧
  Gives .lanei 0x06E { anyWidth := true } 1 (fun f _ => tok f (f.ta.lanes.set (f.nrec.lit32.toNat % 32) (f.tb.lanes.headD 0))) ∧
  Gives .bcast 0x06F {} 1 (fun f _ => tok f (List.replicate
    (if f.nrec.lit32.toNat % 64 = 0 then f.wid else f.nrec.lit32.toNat % 64) (f.ta.lanes.headD 0)))) ∧
  (let all := fun (f : Fire) => (elemsOf f.nrec.fmt.toNat f.ta.lanes).map f.num
  let tok := fun (f : Fire) (x : Int) => f.token (if fmtSigned f.nrec.fmt.toNat then 0 else 1) [BitVec.ofInt 32 x] 0 0
  let bound := fun (f : Fire) (x : Int) =>
    if f.nrec.sat = 1 then
      (if fmtSigned f.nrec.fmt.toNat then max (-2 ^ 31) (min (2 ^ 31 - 1) x) else max 0 (min (2 ^ 32 - 1) x))
    else x
  Gives .rsum 0x070 {} 4 (fun f _ => tok f (bound f ((all f).foldl (· + ·) 0))) ∧
  Gives .rmin 0x071 {} 4 (fun f _ => tok f ((all f).tail.foldl min ((all f).headD 0))) ∧
  Gives .rmax 0x072 {} 4 (fun f _ => tok f ((all f).tail.foldl max ((all f).headD 0))))

/-! ### Floating point -/

/-- R113, R121: every element is computed exactly and rounded once; SCL marks its token scaled and USCL clears the mark. R113,
R114, R122: the instructions that choose, compare or classify raise NV for a signalling NaN, or for any NaN where the
comparison is ordered, and round nothing; where SAT = 1 an infinite result is the largest finite value of its sign (R26). The
model's choices: USCL with SCL = 3 emits SC = 1 (log 85), and a stochastic rounding above the largest finite value that
truncates to it raises NX only (log 91). -/
def Obligations.FloatArithmeticEmits : Prop :=
  GivesFrom .fadd 0x0C0 {} 3 (fun f s => f.rounded s (fun m a b _ => addVal m a b)) ∧
  GivesFrom .fsub 0x0C1 {} 3 (fun f s => f.rounded s (fun m a b _ => addVal m a b.negate)) ∧
  GivesFrom .fmul 0x0C2 {} 3 (fun f s => f.rounded s (fun _ a b _ => mulVal a b)) ∧
  GivesFrom .fma 0x0C3 {} 4 (fun f s => f.rounded s (fun m a b c => fmaVal m a b c)) ∧
  GivesFrom .fnma 0x0C4 {} 4 (fun f s => f.rounded s (fun m a b c => fmaVal m a.negate b c)) ∧
  GivesFrom .fdiv 0x0CE {} 14 (fun f s => f.rounded s (fun _ a b _ => divVal a b)) ∧
  GivesFrom .fsqrt 0x0CF {} 14 (fun f s => f.rounded s (fun _ a _ _ => sqrtVal a)) ∧
  GivesFrom .scl 0x0E8 {} 3 (fun f s =>
    ((f.rounded s (fun _ a b _ => mulVal a b)).1, { (f.rounded s (fun _ a b _ => mulVal a b)).2 with sc := true })) ∧
  GivesFrom .uscl 0x0E9 {} 3 (fun f s =>
    ((f.rounded s (fun _ a b _ => mulVal a b)).1,
     { (f.rounded s (fun _ a b _ => mulVal a b)).2 with sc := f.nrec.scl == 3 })) ∧
  (let anyNan := fun (a b : Val) => if a.isNan || b.isNan then flagNV else 0
  let sNan := fun (a b : Val) => nanFlags [a, b]
  Gives .fmin 0x0C5 {} 1 (fun f _ => f.chosen (fun fmt a b => saturate fmt (f.nrec.sat == 1) (minMax fmt false a b))) ∧
  Gives .fmax 0x0C6 {} 1 (fun f _ => f.chosen (fun fmt a b => saturate fmt (f.nrec.sat == 1) (minMax fmt true a b))) ∧
  Gives .fabs 0x0C7 {} 1 (fun f _ => f.chosen (fun fmt a _ =>
    saturate fmt (f.nrec.sat == 1) (if (decodeFloat fmt a).isNan then (quietNan fmt, 0) else (a % 2 ^ signBit fmt, 0)))) ∧
  Gives .fneg 0x0C8 {} 1 (fun f _ => f.chosen (fun fmt a _ =>
    saturate fmt (f.nrec.sat == 1) (if (decodeFloat fmt a).isNan then (quietNan fmt, 0)
      else (if 2 ^ signBit fmt ≤ a then a - 2 ^ signBit fmt else a + 2 ^ signBit fmt, 0)))) ∧
  Gives .fcmpeq 0x0C9 {} 1 (fun f _ => f.compared eqVal sNan) ∧
  Gives .fcmplt 0x0CA {} 1 (fun f _ => f.compared ltVal anyNan) ∧
  Gives .fcmple 0x0CB {} 1 (fun f _ => f.compared (fun a b => ltVal a b || eqVal a b) anyNan) ∧
  Gives .fcmpun 0x0CC {} 1 (fun f _ => f.compared (fun a b => a.isNan || b.isNan) sNan) ∧
  Gives .fclass 0x0CD {} 1 (fun f _ => f.token 1 (f.ta.lanes.map (fun w => BitVec.ofNat 32
    ((laneElems f.nrec.fmt.toNat w).foldr (fun x a => classOf f.nrec.fmt.toNat x + 65536 * a) 0))) 0 0) ∧
  Gives .frmax 0x0F1 {} 4 (fun f _ =>
    let r := saturate f.nrec.fmt.toNat (f.nrec.sat == 1) (pickInOrder f.nrec.fmt.toNat true (elemsOf f.nrec.fmt.toNat f.ta.lanes))
    f.token f.nrec.fmt.toNat [BitVec.ofNat 32 r.1] r.2 0) ∧
  Gives .frmin 0x0F2 {} 4 (fun f _ =>
    let r := saturate f.nrec.fmt.toNat (f.nrec.sat == 1) (pickInOrder f.nrec.fmt.toNat false (elemsOf f.nrec.fmt.toNat f.ta.lanes))
    f.token f.nrec.fmt.toNat [BitVec.ofNat 32 r.1] r.2 0) ∧
  GivesFrom .frsum 0x0F0 {} 8 (fun f s =>
    let fmt := f.nrec.fmt.toNat
    let xs := elemsOf fmt f.ta.lanes
    let d := f.draws s 1
    let t := sumInOrder fmt (decodeFloat fmt (xs.headD 0)) xs.tail
    let o := roundWith fmt (f.mode s) (d.1.headD 0) (f.nrec.sat == 1) t.1.exact
    (d.2, f.token fmt [BitVec.ofNat 32 o.1] (o.2 ||| t.2) 0)))

/-- R115: whenever FRCP, FRSQ, FEXP2, FLOG2, FSIN, FCOS, FTANH, FSIGM or FSILU fires it completes and emits after 10 cycles the
token whose every element is the function's. That element is on a special input the value of Table 6-2 with its flags, in FP32
and in BF16 (an infinity being the largest finite value where SAT = 1, R26, and a NaN the canonical one); on any other input
it is one of the two values that bracket the exact result, which of them being free (log 2), or the exact result itself; and
FRCP of a power of two is exact. Tininess follows the neighbour delivered (log 120). -/
def Obligations.SpecialFunctionsEmit : Prop :=
  let tok := fun (fn : Nat) (f : Fire) => f.chosen (fun fmt a _ => specialElem fn fmt (f.nrec.sat == 1) a)
  let completes := fun (i : Rec → Instr) (o fn : Nat) =>
    ∀ (r : Rec) (s : State) (f : Fire), s.fires {} o r f = true → (s.taken f).tooWide f.g f (tok fn f) = false →
      exec (i r) s = .next (((s.taken f).emitted f 10 (tok fn f)).rejoined f r)
  completes .frcp 0x0D0 0 ∧ completes .frsq 0x0D1 1 ∧ completes .fexp2 0x0D2 2 ∧ completes .flog2 0x0D3 3 ∧
  completes .fsin 0x0D4 4 ∧ completes .fcos 0x0D5 5 ∧ completes .ftanh 0x0D6 6 ∧ completes .fsigm 0x0D7 7 ∧
  completes .fsilu 0x0D8 8 ∧
  (∀ (fmt : Nat) (sat : Bool), fmt = 2 ∨ fmt = 3 →
    let top := if fmt = 2 then 0x7F800000 else 0x7F80
    let sign := if fmt = 2 then 0x80000000 else 0x8000
    let nan := if fmt = 2 then 0x7FC00000 else 0x7FC0
    let one := if fmt = 2 then 0x3F800000 else 0x3F80
    let half := if fmt = 2 then 0x3F000000 else 0x3F00
    let inf := if sat then top - 1 else top
    let at' := fun (x : Nat) => (List.range 9).map (fun fn => specialElem fn fmt sat x)
    at' (sign + top) = [(sign, 0), (nan, flagNV), (0, 0), (nan, flagNV), (nan, flagNV), (nan, flagNV), (sign + one, 0), (0, 0),
      (sign, 0)] ∧
    at' sign = [(sign + inf, flagDZ), (sign + inf, flagDZ), (one, 0), (sign + inf, flagDZ), (sign, 0), (one, 0), (sign, 0),
      (half, 0), (sign, 0)] ∧
    at' 0 = [(inf, flagDZ), (inf, flagDZ), (one, 0), (sign + inf, flagDZ), (0, 0), (one, 0), (0, 0), (half, 0), (0, 0)] ∧
    at' top = [(0, 0), (0, 0), (inf, 0), (inf, 0), (nan, flagNV), (nan, flagNV), (one, 0), (one, 0), (inf, 0)] ∧
    (∀ x n m e, decodeFloat fmt x = .fin n m e → n = true → m ≠ 0 →
      specialElem 1 fmt sat x = (nan, flagNV) ∧ specialElem 3 fmt sat x = (nan, flagNV))) ∧
  (∀ (fn fmt x : Nat) (sat n n' sticky : Bool) (m m' : Nat) (e e' : Int), decodeFloat fmt x = .fin n m e → m ≠ 0 →
    (fn = 1 ∨ fn = 3 → n = false) → specialFinite fn n m e = .num n' m' e' sticky → m' ≠ 0 →
    aboveMax fmt m' e' sticky = false → (fn = 2 → belowLeast fmt m' e' = false) →
    specialElem fn fmt sat x = roundFloat fmt 1 0 sat n' m' e' sticky ∨
    specialElem fn fmt sat x = roundFloat fmt 5 0 sat n' m' e' sticky) ∧
  (∀ (n : Bool) (k : Nat) (e : Int), specialFinite 0 n (2 ^ k) e = .num n (2 ^ 121) (-(e + k) - 121) false)

/-- R117 to R120, R123, R124: the conversions, the block formats, the softmax merge and the rotation. The model's choices: lane 0
of SMRG is the maximum unrounded and takes its draw (log 91); in ROPE the odd last element takes no draw, the flags of c and s
are dropped, a zero factor is +0 (log 92), and c and s are FP32 (log 121). DEDUCED: elements outside the selected group are 0
and take no draw (log 113). -/
def Obligations.ConversionsEmit : Prop :=
  let conv := fun (op : Fire → Nat → Nat → Nat → Nat → Nat × BitVec 5) (f : Fire) (s : State) =>
    let fmt := f.nrec.fmt.toNat
    let ofmt := bits f.nrec.lit32.toNat 3 0
    let per := min (elemsPerLane fmt) (elemsPerLane ofmt)
    let d := f.draws s (f.qualCount * per)
    let r := floatLanes ofmt per (fun i ds => convertLane (op f ofmt (f.mode s)) (elemsPerLane fmt) (elemsPerLane ofmt)
      (bits f.nrec.lit32.toNat 5 4) (laneElems fmt (f.ta.lanes.getD i 0)) ds) f.qual 0 d.1
    (d.2, f.token ofmt r.1 r.2 0)
  GivesFrom .cvtf 0x0E0 {} 2 (conv (fun f o m d x =>
    roundWith o m d (f.nrec.sat == 1) (decodeFloat f.nrec.fmt.toNat x).exact)) ∧
  GivesFrom .cvtfi 0x0E1 {} 2 (conv (fun f o m d x => floatToInt o m d (decodeFloat f.nrec.fmt.toNat x))) ∧
  GivesFrom .cvtif 0x0E2 {} 2 (conv (fun f o m d x => roundExact o m d (f.nrec.sat == 1) (exactInt (f.num x)))) ∧
  GivesFrom .qntb 0x0E3 { anyWidth := true } 3 (fun f s =>
    let fmt := f.nrec.fmt.toNat
    let ifmt := f.nrec.lit32.toNat % 16
    let scw := (f.tb.lanes.headD 0).toNat % 65536
    let xs := elemsOf ifmt f.ta.lanes
    let d := f.draws s xs.length
    let es := encodeAll fmt scw (f.mode s) ifmt xs d.1
    (d.2.modColour f.g f.col (fun c => c.count (es.foldl (fun a e => a + e.nan) 0) 0 (es.foldl (fun a e => a + e.sat) 0)),
     f.token fmt (packLanes fmt (cdiv (f.wid * elemsPerLane ifmt) (elemsPerLane fmt)) (es.map (fun e => e.bits)))
       (es.foldl (fun a e => a ||| e.flags) 0) scw)) ∧
  (∀ (r : Rec) (s : State) (f : Fire), s.fires { badWidth := dqntbBeyond } 0x0E4 r f = true →
    let fmt := r.fmt.toNat
    let ofmt := r.lit32.toNat % 16
    let part := bits r.lit32.toNat 5 4
    let no := elemsPerLane ofmt
    let n := cdiv (f.wid * elemsPerLane fmt) no
    let lanes := min n (32 * part + 32) - 32 * part
    let xs := ((elemsOf fmt f.ta.lanes).drop (32 * part * no)).take (lanes * no)
    let d := f.draws (s.taken f) xs.length
    let es := decodeAll fmt f.ta.scw ofmt (f.mode (s.taken f)) (r.sat == 1) xs d.1
    let out := f.token ofmt (packLanes ofmt lanes (es.map (fun e => e.1))) (es.foldl (fun a e => a ||| e.2) 0) 0
    d.2.tooWide f.g f out = false →
    exec (.dqntb r) s = .next ((d.2.emitted f 2 out).rejoined f r)) ∧
  Gives .expsel 0x0E5 {} 3 (fun f _ =>
    let m := maxFinite f.nrec.fmt.toNat (elemsOf f.nrec.fmt.toNat f.ta.lanes)
    f.token 1 [BitVec.ofNat 32 (chooseScale (f.nrec.lit32.toNat % 16) (bits f.nrec.lit32.toNat 8 4) m.1 m.2)] 0 0) ∧
  GivesFrom .rope 0x0F4 { anyWidth := true } 6 (fun f s =>
    let fmt := f.nrec.fmt.toNat
    let xs := elemsOf fmt f.ta.lanes
    let d := f.draws s (xs.length / 2 * 2)
    let es := ropePairs fmt (f.mode s) (f.nrec.sat == 1) (bit f.nrec.lit32.toNat 0) f.tb.lanes 0 xs d.1
    (d.2, f.token fmt (packLanes fmt f.wid (es.map (fun e => e.1))) (es.foldl (fun a e => a ||| e.2) 0) 0)) ∧
  (∀ (r : Rec) (s : State) (f : Fire), s.fires { badWidth := fun f => decide (f.wid < 2) } 0x0F3 r f = true →
    let a0 := (f.ta.lanes.headD 0).toNat
    let b0 := (f.tb.lanes.headD 0).toNat
    let ma := decodeFloat 2 a0
    let mb := decodeFloat 2 b0
    let d := f.draws (s.taken f) f.wid
    let mx := (minMax 2 true a0 b0).1
    let fa := partialFactor ma (decodeFloat 2 mx)
    let fb := partialFactor mb (decodeFloat 2 mx)
    let es := mergeLanes (f.mode (s.taken f)) (r.sat == 1) fa.1 fb.1 (f.ta.lanes.zip f.tb.lanes).tail d.1.tail
    let out := if ma.isNan || mb.isNan then
        f.token 2 (List.replicate f.wid (BitVec.ofNat 32 0x7FC00000)) (nanFlags [ma, mb]) 0
      else f.token 2 (BitVec.ofNat 32 mx :: es.map (fun e => BitVec.ofNat 32 e.1))
        (es.foldl (fun x e => x ||| e.2) (fa.2 ||| fb.2)) 0
    d.2.tooWide f.g f out = false →
    exec (.smrg r) s = .next ((d.2.emitted f 12 out).rejoined f r))

/-! ### Tensors and contractions -/

/-- R135, R137: a write to an identifier in range that breaks no rule of Table 7-1 is staged in the activation, and the identifier
is emitted; TDDROP and TDKEEP set and clear the drop mark. The latency of TDQ (R138) is a free value (log 4); which of its
cycles are hits is not modelled apart. -/
def Obligations.TensorWritesStage : Prop :=
  let put := fun (t : Fire → Nat) (w : Fire → BitVec 512 × BitVec 512) (f : Fire) (s : State) =>
    (s.stageEffect f (.tensor (s.region f.g).ctx (t f) (w f).1 (w f).2), f.token 1 [BitVec.ofNat 32 (t f)] 0 0)
  let tb := fun (f : Fire) => (f.tb.lanes.headD 0).toNat % 4096
  let ta := fun (f : Fire) => if f.nrec.lit = 2 then f.nrec.lit32.toNat % 4096 else (f.ta.lanes.headD 0).toNat % 4096
  let known := fun (t : Fire → Nat) (f : Fire) (s : State) => t f < (s.context (s.region f.g).ctx).tidCntNow
  GivesWhen .tdld 0x140 { anyWidth := true, badWidth := fun f => f.ta.wid != 16 }
    (fun f s => known tb f s ∧ imageOk (imageOf f.ta) = true) 2
    (put tb (fun f => (maskBits 511 0, BitVec.ofNat 512 (imageOf f.ta) &&& ~~~(maskBits 454 454 ||| maskBits 127 112)))) ∧
  GivesWhen .tdset 0x141 { anyWidth := true, badWidth := fun f => decide (32 < fieldWidth f.code) && decide (f.ta.wid < 2) }
    (fun f s => known tb f s ∧ fieldOk f.code (tdsetValue f) = true) 2
    (put tb (fun f => fieldWrite f.code (tdsetValue f))) ∧
  GivesWhen .tddrop 0x142 { anyWidth := true } (known ta) 2 (put ta (fun _ => (maskBits 455 455, maskBits 455 455))) ∧
  GivesWhen .tdkeep 0x143 { anyWidth := true } (known ta) 2 (put ta (fun _ => (maskBits 455 454, 0))) ∧
  GivesWhen .tdreg 0x144 { anyWidth := true, badWidth := fun f => decide (f.ta.wid < 2) }
    (fun f s => known tb f s ∧ wideValue f.ta true % 64 = 0 ∧ wideValue f.ta true < 2 ^ 55) 2
    (put tb (fun f => fieldWrite 8 (wideValue f.ta true))) ∧
  (∀ (r : Rec) (s : State) (f : Fire), s.fires { anyWidth := true } 0x145 r f = true →
    let u := s.taken f
    let v := match u.tidEntry (u.region f.g).ctx (ta f) with
      | some e => fieldRead f.code e
      | none => 0
    let d := max (u.freeDelay.1 + 3) ((u.node f.h f.k f.n).sentAt + 1 - u.cycle)
    let x := f.token 1 [BitVec.ofNat 32 v, BitVec.ofNat 32 (v / 2 ^ 32)] 0 0
    let out := { x with tnt := x.tnt || u.tidTaint (u.region f.g).ctx (ta f) }
    (u.freeDelay.2.inFlight f d).tooWide f.g f out = false →
    exec (.tdq r) s = .next (((u.freeDelay.2.inFlight f d).emitted f d out).rejoined f r)) ∧
  GivesWhen .cdxset 0x15C { anyWidth := true, badWidth := fun f => f.ta.wid != 16 } (fun f _ => cdxOk (imageOf f.ta) = true) 2 (fun f s =>
    let i := (f.tb.lanes.headD 0).toNat % 16
    (s.stageEffect f (.descriptor i (BitVec.ofNat 512 (imageOf f.ta))), f.token 1 [BitVec.ofNat 32 i] 0 0))

/-- R157: a contraction whose descriptor, stay register and accumulation pass the checks begins, with ACOL set unless it
continues one, and takes its first step. -/
def Obligations.ContractionsBegin : Prop :=
  let ok := fun (f : Fire) (s : State) =>
    let d := (s.descriptor f.g f.nrec).toNat
    let c := startContraction f s
    beginOk f s = true ∧ (heldOf f s = true → (s.stayFile f.h (s.region f.g).ctx).fmt = f.nrec.fmt.toNat) ∧
    (cdxAcc d = true → s.chained f = true) ∧ stepFault c c.walk (c.taking c.walk (s.node f.h f.k f.n)) = none
  let go := fun (f : Fire) (s : State) =>
    (if cdxAcc (s.descriptor f.g f.nrec).toNat then s else s.setAcol f).trineStep f.g f.h f.k (startContraction f s)
  ActsHeld .tric 0x150 trineSpec ok go ∧ ActsHeld .mma 0x151 trineSpec ok go ∧
  ActsHeld .tris 0x152 trineSpec ok go ∧ ActsHeld .mmas 0x153 trineSpec ok go

/-- R160, R161: the accumulator instructions read, clear, load and add to a run of the context's accumulators. -/
def Obligations.AccumulatorsAct : Prop :=
  let base := fun (f : Fire) => bits f.nrec.lit32.toNat 9 0
  let file := fun (f : Fire) (s : State) => s.accFile f.h (s.region f.g).ctx
  let own := fun (f : Fire) (a : AccFile) => { a with acol := some (f.k, f.col) }
  let count := fun (f : Fire) => f.token 1 [BitVec.ofNat 32 f.wid] 0 0
  GivesFrom .accz 0x158 accSpec 1 (fun f s =>
    (s.setAcc f.h (s.region f.g).ctx (own f (clearRun (file f s) (base f) (bits f.nrec.lit32.toNat 19 10 + 1))), f.passed)) ∧
  GivesWhen .accld 0x159 accSpec (fun f _ => base f + f.wid ≤ 1024) 2 (fun f s =>
    (s.setAcc f.h (s.region f.g).ctx (own f (loadAccs f.ta.flg f.ta.tnt (file f s) (base f) f.ta.lanes)), count f)) ∧
  GivesWhen .accx 0x15D accSpec (fun f s => (file f s).acol = some (f.k, f.col) ∧ base f + f.wid ≤ 1024) 2 (fun f s =>
    let r := addLanes f.ta.flg f.ta.tnt (file f s, 0, 0) (base f) f.ta.lanes
    ((s.setAcc f.h (s.region f.g).ctx r.1).modColour f.g f.col (fun c => c.count r.2.1 r.2.2 0), count f)) ∧
  GivesFrom .accrd 0x157 { accSpec with anyWidth := true } 4 (fun f s =>
    let fmt := f.nrec.fmt.toNat
    let w := bits f.nrec.lit32.toNat 15 10
    let n := w * elemsPerLane fmt
    let scw := if fmt = 8 ∨ fmt = 9 then (f.tb.lanes.headD 0).toNat % 65536 else 0
    let a := file f s
    let is := (List.range n).map (fun i => base f + i)
    let d := f.draws s n
    let es := readAll fmt scw (f.mode s) (f.nrec.sat == 1) (is.map (accVal a)) d.1
    let raised := es.foldl (fun x e => x ||| e.flags) 0 ||| is.foldl (fun x i => x ||| accAf a i) 0
    let t := f.token fmt (packLanes fmt w (es.map (fun e => e.bits))) raised scw
    ((d.2.setAcc f.h (s.region f.g).ctx
        (if bit f.nrec.lit32.toNat 16 then own f (clearRun a (base f) n) else a)).modColour f.g f.col
      (fun c => c.count (es.foldl (fun x e => x + e.nan) 0) 0 (es.foldl (fun x e => x + e.sat) 0)),
     { t with tnt := t.tnt || is.any (accTnt a) }))

/-- R158, R159, R162, R163: the Hadamard transform, the tables, the stay register and the transposition buffer. DEDUCED:
infinities of both signs in a run of HAD make its outputs NaN (log 25), LUTM carries A's FLG and TNT into AF and AT (log 26),
and TXPR waits while a block goes out and ORs FLG, TNT and SC of a block (log 27). -/
def Obligations.TrineUnitsAct : Prop :=
  let stay := fun (f : Fire) (s : State) => s.stayFile f.h (s.region f.g).ctx
  let reals := fun (f : Fire) => (elemsOf f.nrec.fmt.toNat f.ta.lanes).map (decodeFloat f.nrec.fmt.toNat)
  let count := fun (f : Fire) (n : Nat) (raised : BitVec 5) => f.token 1 [BitVec.ofNat 32 n] raised 0
  GivesFrom .had 0x154 { badWidth := fun f => unevenRuns f.nrec.fmt.toNat (16 * 2 ^ (f.nrec.lit32.toNat % 4)) f } 6 (fun f s =>
    let fmt := f.nrec.fmt.toNat
    let xs := reals f
    let d := f.draws s xs.length
    let out := roundAll fmt (f.mode s) (f.nrec.sat == 1)
      ((chunks (16 * 2 ^ (f.nrec.lit32.toNat % 4)) xs.length xs).flatMap (hadRun (f.mode s) (bits f.nrec.lit32.toNat 5 2))) d.1
    (d.2, f.token fmt (packLanes fmt f.wid (out.map (fun x => x.1))) (out.foldl (fun a x => a ||| x.2) 0) 0)) ∧
  GivesWhen .lutp 0x155 { ready := trineIdle, lut := true, usesStay := fun _ _ => true
                          badWidth := fun f => unevenRuns f.nrec.fmt.toNat 4 f }
    (fun f _ => f.nrec.lit32.toNat % 32 + (reals f).length / 4 ≤ 32) 4 (fun f s =>
      let es := (chunks 4 (reals f).length (reals f)).flatMap (fun g => (List.range 16).map (tableEntry g))
      (s.setStay f.h (s.region f.g).ctx
        { stay f s with lanes := putLanes (stay f s).lanes (16 * (f.nrec.lit32.toNat % 32)) (es.map (fun e => e.1)), fmt := 16 },
       count f ((reals f).length / 4) (es.foldl (fun a e => a ||| e.2) 0))) ∧
  GivesWhen .lutm 0x156 { ready := trineIdle, lut := true, usesAcc := true, usesStay := fun _ _ => true
                          badWidth := fun f => unevenRuns 10 (4 * (bits f.nrec.lit32.toNat 14 10 + 1)) f }
    (fun f s =>
      let p := 4 * (bits f.nrec.lit32.toNat 14 10 + 1)
      let ws := elemsOf 10 f.ta.lanes
      (stay f s).fmt = 16 ∧ s.chained f = true ∧ f.nrec.lit32.toNat % 1024 + ws.length / p ≤ 1024) 4
    (fun f s =>
      let p := 4 * (bits f.nrec.lit32.toNat 14 10 + 1)
      let ws := elemsOf 10 f.ta.lanes
      let sums := (chunks p ws.length ws).map (lutSum (stay f s) (bits f.nrec.lit32.toNat 19 15))
      (s.setAcc f.h (s.region f.g).ctx
        (addSums f.ta.flg f.ta.tnt (s.accFile f.h (s.region f.g).ctx) (f.nrec.lit32.toNat % 1024) sums),
       count f (ws.length / p) 0)) ∧
  GivesWhen .tstay 0x15A { ready := trineIdle, usesStay := fun _ _ => true }
    (fun f s =>
      let fmt := f.nrec.fmt.toNat
      let b := if bit f.nrec.lit32.toNat 13 then (stay f s).cnt else f.nrec.lit32.toNat % 8192
      (b + (elemsOf fmt f.ta.lanes).length) * elemWidth fmt ≤ 16384 ∧
      (b = 0 ∨ ((stay f s).fmt = fmt ∧ ((fmt = 8 ∨ fmt = 9) → (stay f s).scw = f.ta.scw)))) 2
    (fun f s =>
      let fmt := f.nrec.fmt.toNat
      let b := if bit f.nrec.lit32.toNat 13 then (stay f s).cnt else f.nrec.lit32.toNat % 8192
      let xs := elemsOf fmt f.ta.lanes
      (s.setStay f.h (s.region f.g).ctx
        { stay f s with lanes := putElems fmt (stay f s).lanes b xs, cnt := b + xs.length, fmt := fmt, scw := f.ta.scw },
       count f (b + xs.length) 0)) ∧
  (∀ (r : Rec) (s : State) (f : Fire), s.fires { ready := blockReady } 0x15B r f = true →
    let u := s.taken f
    let fmt := r.fmt.toNat
    let xs := elemsOf fmt f.ta.lanes
    let old : Transpose := match (u.slot f.h f.k).transpose with
      | some t => t
      | none => { node := f.n, tag := (f.col, f.wave), scw := f.ta.scw, elems := [], widths := [], flg := 0, tnt := false
                  sc := false, out := [], nrec := r, due := 0 }
    let t : Transpose :=
      { old with elems := old.elems ++ xs, widths := old.widths ++ [f.wid], flg := old.flg ||| flagsOf f.operands
                 tnt := old.tnt || taintOf f.operands, sc := old.sc || f.scOut, due := u.cycle + 2 }
    let t := if t.elems.length = 1024 then { t with out := blockTokens f.k fmt t t.widths (transposed t.elems) } else t
    old.scw = f.ta.scw → old.tag = (f.col, f.wave) → old.elems.length + xs.length ≤ 1024 →
    exec (.txpr r) s = .next (((u.pipe f 2).modSlot f.h f.k (fun x => { x with transpose := some t })).rejoined f r))

/-! ### Memory and queue nodes -/

/-- R173: a load asks for its lanes, one word after another, and enters the read set but for LDN; LDX asks for one word for each
qualifying lane and keeps A's lane elsewhere; PREF asks for no data. A latency of 0 stands for one that the spec leaves
variable (log 4); a pass over a dropped tensor whose PROD is 0 takes DROPPED (log 123). -/
def Obligations.LoadsAsk : Prop :=
  let w := fun (f : Fire) => bits f.nrec.lit32.toNat 13 9 + 1
  let b := fun (f : Fire) (s : State) => s.binding f.g f.nrec
  let run := fun (local' tracked : Bool) (lat : Nat) (f : Fire) (s t : State) (x : Plan) => t = s ∧ ∃ ps,
    Reaches f s (4 * w f) 4 false local' ps ∧
    x = { reads := (List.range (w f)).map (fun i => laneAtPart ps (4 * i) 4), tracked := tracked
          leaves := leavesOf (b f s) false ps, tok := f.token f.nrec.fmt.toNat (List.replicate (w f) 0) 0 0
          lat := if agbLoc (b f s) then lat else 0, answer := .atReply, t3 := inT3 ps }
  Asks .ld 0x1C1 (specLd.fires true) false true (run false true 4) ∧
  Asks .ldn 0x1C8 (specLdn.fires true) false true (run false false 4) ∧
  Asks .lds 0x1C4 (specLds.fires true) false true (run true true 3) ∧
  Asks .ldx 0x1C3 (specLdx.fires false) false false (fun f s t x => t = s ∧ ∃ pss, ReachesEach f s 4 false pss ∧
    x = { reads := laneReads f.qual f.ta.lanes pss, tracked := true, leaves := pss.flatMap (leavesOf (b f s) false)
          tok := f.token f.nrec.fmt.toNat f.ta.lanes 0 0, lat := if agbLoc (b f s) then 4 else 0, answer := .atReply
          t3 := pss.any inT3 }) ∧
  Asks .ldt 0x1C6 (specLdt.fires true) false false (fun f s t x => ∃ e ps sp, agbV (b f s) = true ∧
    passEntry f true s = (t, .ok e) ∧ tensorReach f t e (4 * w f) false = .ok (ps, sp) ∧
    x = { reads := (List.range (w f)).map (fun i => laneAtPart ps (4 * i) 4), tracked := true
          scw := if sp.isEmpty then none else some (laneAtPart sp 0 2), leaves := leavesOf (b f s) false (ps ++ sp)
          tok := f.token f.code (List.replicate (w f) 0) 0 0, answer := .atReply, lat := 0, t3 := inT3 ps }) ∧
  Asks .pref 0x1C9 (specPref.fires true) false false (fun f s t x => t = s ∧
    x = { tok := f.passed
          leaves := if bit f.nrec.lit32.toNat 4 || !agbV (b f s) then []
            else match s.reach f.g f.h (b f s) { o := (f.ta.lanes.headD 0).toNat, n := 4, write := false, align := 4
                                                 local' := false, base := agbBase (b f s) } with
              | .ok ps => leavesOf (b f s) false ps
              | .error _ => [] }) ∧
  Asks .fence 0x1E0 (specFence.fires true) false false (fun f s t x => t = s ∧
    x = { tok := f.passed, lat := 0, answer := .fenced (bits f.nrec.lit32.toNat 8 6) })

/-- R174 to R178, R180, R304: a store asks to write B's bytes at A's offset and emits their number; an atomic asks for one entry
and one old word for each qualifying lane; OPTST writes the granules that its row meets, RETW one byte for each qualifying
lane, and MCAST passes B on in the firing itself. Their operands' flags are staged. DEDUCED (log 111): the cut of an OPTST's
row at granules, and its shifted word grid where BASE is no multiple of 4. -/
def Obligations.StoresAsk : Prop :=
  let b := fun (f : Fire) (s : State) => s.binding f.g f.nrec
  let run := fun (local' : Bool) (tok : Fire → Token) (f : Fire) (s t : State) (x : Plan) => t = s ∧ ∃ ps,
    Reaches f s (4 * f.tb.wid) 4 true local' ps ∧
    x = { writes := storeEntries f f.tb.tnt ps (bytesOf f.tb.lanes), leaves := leavesOf (b f s) true ps, tok := tok f
          pointer := if local' && agbWpe (b f s) then some (agbWpn (b f s), (f.ta.lanes.headD 0).toNat, 4 * f.tb.wid) else none
          t3 := inT3 ps }
  let stored := fun (f : Fire) => f.token 1 [BitVec.ofNat 32 (4 * f.tb.wid)] 0 0
  let atom := fun (op : Nat) (f : Fire) (s t : State) (x : Plan) => t = s ∧ ∃ pss, ReachesEach f s 4 true pss ∧
    x = { reads := laneReads f.qual f.ta.lanes pss, tracked := true, compare := op == 8
          writes := atomicEntries f op pss (qualLanes f f.tb) (if op = 8 then qualLanes f f.tc else [])
          leaves := pss.flatMap (leavesOf (b f s) true), tok := f.token f.code f.ta.lanes 0 0, lat := 0
          answer := .atReply, t3 := pss.any inT3 }
  let atomic' := fun (i : Rec → Instr) (op : Nat) => Asks i (0x1D0 + op) (specAtomic.fires false) true false (atom op)
  Asks .st 0x1C2 (specSt.fires true) true true (run false stored) ∧
  Asks .sts 0x1C5 (specSts.fires true) true true (run true stored) ∧
  AsksAndGives .mcast 0x1E1 (specMcast.fires true) true (run false (fun f => f.moved f.tb)) ∧
  Asks .stt 0x1C7 (specStt.fires true) true false (fun f s t x => ∃ e ps sp, agbV (b f s) = true ∧
    passEntry f false s = (t, .ok e) ∧ tensorReach f t e (4 * f.tb.wid) true = .ok (ps, sp) ∧
    x = { writes := storeEntries f f.tb.tnt ps (bytesOf f.tb.lanes) ++ storeEntries f f.tb.tnt sp (leBytes 2 f.tb.scw)
          mix := if sp.isEmpty then none else some (partAddr sp 0, f.tb.scw % 65536)
          leaves := leavesOf (b f s) true (ps ++ sp), tok := stored f, t3 := inT3 ps }) ∧
  atomic' .aadd 0 ∧ atomic' .afadd 1 ∧ atomic' .amin 2 ∧ atomic' .amax 3 ∧ atomic' .aand 4 ∧ atomic' .aor 5 ∧
  atomic' .axor 6 ∧ atomic' .axchg 7 ∧ atomic' .acas 8 ∧ atomic' .ainc 9 ∧
  Asks .optst 0x1DA (specOptst.fires true) true false (fun f s t x => t = s ∧ ∃ ps,
    Reaches f s (4 * f.tb.wid) 64 true false ps ∧
    x = { writes := optEntries f (f.tc.lanes.getD 0 0).toNat (f.tc.lanes.getD 1 0).toNat ps f.tb.wid 0 f.tb.lanes
          leaves := leavesOf (b f s) true ps, tok := f.token 1 [BitVec.ofNat 32 f.tb.wid] 0 0, t3 := inT3 ps }) ∧
  Asks .retw 0x1DB (specRetw.fires false) true false (fun f s t x => t = s ∧ ∃ pss, ReachesEach f s 1 true pss ∧
    x = { writes := retEntries f pss (qualLanes f f.tb), leaves := pss.flatMap (leavesOf (b f s) true)
          tok := f.token 1 [BitVec.ofNat 32 pss.length] 0 0, t3 := pss.any inT3 })

/-- R182, R275, R277, R278: the pointer and queue instructions. An ENQ stores its entry with the link fields clear through the
damper and stages the append; TAIL stages its advance. The latencies that the manual leaves variable are free (log 4). DEDUCED
(log 30): SEQRD gives the count of its firing's cycle. Latencies are free values (log 4). -/
def Obligations.PointersAndQueuesAct : Prop :=
  let q := fun (f : Fire) => f.nrec.lit32.toNat % 512
  let late := fun (f : Fire) (s : State) => max s.freeDelay.1 ((s.node f.h f.k f.n).sentAt + 1 - s.cycle)
  let two := fun (f : Fire) (v : Nat) => f.token 1 [BitVec.ofNat 32 v, BitVec.ofNat 32 (v / 2 ^ 32)] 0 0
  Gives .wptr 0x1E2 {} 2 (fun f s => two f (s.pointer (dieOf f.h) (f.nrec.lit32.toNat % 64))) ∧
  (∀ (r : Rec) (s : State) (f : Fire), s.fires { ready := pointerReached, anyWidth := true } 0x1E3 r f = true →
    let u := (s.taken f).freeDelay.2.inFlight f (late f (s.taken f))
    u.tooWide f.g f f.passed = false → exec (.wpwait r) s = .next ((u.emitted f (late f (s.taken f)) f.passed).rejoined f r)) ∧
  (∀ (r : Rec) (s : State) (f : Fire),
    s.firesHeld enqSpec 0x240 r f = true →
    let u := s.noteFiring f
    let a := laneAddress f.tb
    ∀ ps, a % 64 = 0 → u.virtParts (sectorUnit f.h) (u.region f.g).ctx a 64 true = .ok ps →
    let v := ((((u.unwithhold f).consume f).countElem f).stageOperands f true).stageEffect f (.append (q f) a f.h u.cycle)
    let bytes := leBytes 64 (BitVec.ofNat 512 (imageOf f.ta) &&&
      ~~~(maskBits 54 6 ||| maskBits 119 111 ||| maskBits 109 109 ||| maskBits 511 448)).toNat
    let x : Plan := { writes := storeEntries f f.ta.tnt ps bytes, leaves := ps.map (fun p => (p.1, p.2.2, true)), tok := f.moved f.tb
                      t3 := inT3 ps }
    exec (.enq r) s = .next ((v.fresh.2.issue f.g f.h f.k
      { requestOf f x false with id := v.fresh.1, seq := 63, pred := 0, succ := 0 }).rejoined f r)) ∧
  GivesFrom .tail 0x241 { breach := queueBreach } 1 (fun f s =>
    (s.stageEffect f (.tail (q f) (bits f.nrec.lit32.toNat 31 16) f.h s.cycle), f.passed)) ∧
  (∀ (r : Rec) (s : State) (f : Fire), s.fires {} 0x242 r f = true →
    let u := s.taken f
    let d := late f u
    let v := match bits r.lit32.toNat 10 9 with
      | 0 => (u.queue (q f)).done
      | 1 => (u.queue (q f)).tailn
      | _ => (u.queue (q f)).appn
    (u.freeDelay.2.inFlight f d).tooWide f.g f (two f v) = false →
    exec (.seqrd r) s = .next (((u.freeDelay.2.inFlight f d).emitted f d (two f v)).rejoined f r)) ∧
  (∀ (r : Rec) (s : State) (f : Fire), s.fires { ready := seqReached } 0x243 r f = true →
    let u := (s.taken f).freeDelay.2.inFlight f (late f (s.taken f))
    u.tooWide f.g f f.passed = false → exec (.seqwait r) s = .next ((u.emitted f (late f (s.taken f)) f.passed).rejoined f r))

/-! ### Regions, contexts and markers -/

/-- R222, R223, R228, R229: CFGLD starts a load whose header passes; CALLG allocates the call colour, leaves the region
CallPending and keeps its operand; RETG ends the call colour, keeps the result and stages A's flags; TAILG leaves the region
LoadingInPlace with the new configuration. R308, R313, R316: DRAIN notes its marker in the region and every source node owes
one; SNAP latches the registers, and in MODE 1 begins a marker snapshot; WDOG sets the region's limit and clears its count.
DEDUCED: a lane that CFGLD's tokens lack reads as 0 (log 15), and (log 19) a snapshot's identifier counts every SNAP firing of
the region, modulo 65,536. -/
def Obligations.RegionAndMarkerNodesAct : Prop :=
  (let asked := fun (f : Fire) (s : State) => (s.pipe f 1).readUsed s.agent (f.context s) (laneAddress f.ta) 64
  let b := fun (f : Fire) => (f.tb.lanes.headD 0).toNat
  let site := fun (f : Fire) => ({ die := dieOf f.h, x := bits (b f) 13 7, y := bits (b f) 20 14, k := f.k, within := none
                                   own := some f.g, mine := [] } : Site)
  ∀ hd : Nat, Acts .cfgld 0x280 { anyWidth := true, ready := fun f s => !s.readWaits s.agent (f.context s) (laneAddress f.ta) 64 }
    (fun f s => bits (b f) 6 0 = 0 ∧ bits (b f) 31 21 = 0 ∧
      s.loadHead (f.context s) (laneAddress f.ta) (site f) = .ok hd)
    (fun f s =>
      let u := asked f s
      let l : Load :=
        { h := f.h, k := f.k, n := f.n, nrec := f.nrec, tok := f.token 1 [0, 0] 0 0, va := laneAddress f.ta, head := hd
          origin := hearthAt (dieOf f.h) (bits (b f) 13 7) (bits (b f) 20 14), w := bits hd 463 456, height := bits hd 455 448, due := 0
          region := 0, prior := [], dropped := false }
      ({ u with loads := u.loads ++ [l] } : State).advanceLoad f.h f.k f.n)) ∧
  (∀ (r : Rec) (s : State) (f : Fire) (n va cfgid : Nat) (g' : Region), s.fires { ready := callReady } 0x281 r f = true →
    let u := s.taken f
    (u.region f.g).depth < u.depthLimit f.g →
    u.directory f.g (bits f.nrec.lit32.toNat 31 24) = .ok (va, cfgid) →
    let v := u.directoryRead f.g (bits f.nrec.lit32.toNat 31 24)
    (u.region f.g).allocate (v.ovsz f.g) (f.want v f.ta.wid (v.colour f.g f.col).ts 0 0) false = .granted n g' →
    let c : Call :=
      { h := f.h, n := f.n, nrec := f.nrec, operand := f.ta, col := n, cfgn := bits f.nrec.lit32.toNat 31 24, va := va, cfgid := cfgid
        ex := bits f.nrec.lit32.toNat 23 17, ey := bits f.nrec.lit32.toNat 16 10, enode := bits f.nrec.lit32.toNat 9 6, saved := {}
        result := none, done := false, dead := false, again := none }
    exec (.callg r) s = .next (((((v.setRegion f.g { g' with calls := c :: g'.calls, st := .callPending }).modColour f.g n
      (fun x => { x with copy := some { f.passed with col := n, wave := 0 } })).pipe f 1).rejoined f r))) ∧
  Acts .retg 0x282 {}
    (fun f s => (s.region f.g).depth ≠ 0 ∧ (s.region f.g).isBase f.col = true ∧ s.unfinished f.g f.col = none ∧
      s.surplus f.g f.col = false)
    (fun f s => (((s.modColour f.g f.col (fun c => { c with st := .ended })).modRegion f.g (fun r =>
      { r with calls := r.calls.map (fun c => if c.col = f.col then { c with result := some f.passed } else c) })).pipe f 1).stageToken
      f.g f.col (flagsOf f.operands) false) ∧
  (∀ (r : Rec) (s : State) (f : Fire) (va cfgid : Nat) (i : Image), s.fires { ready := tailReady } 0x283 r f = true →
    let u := s.taken f
    let ex := bits f.nrec.lit32.toNat 23 17
    let ey := bits f.nrec.lit32.toNat 16 10
    let en := bits f.nrec.lit32.toNat 9 6
    (u.region f.g).isBase f.col = true → u.unfinished f.g f.col = none → u.surplus f.g f.col = false →
    u.directory f.g (bits f.nrec.lit32.toNat 31 24) = .ok (va, cfgid) →
    u.loadImage (u.region f.g).ctx va ((u.region f.g).site f.g) = .ok i → i.hasEntry ex ey en = true →
    exec (.tailg r) s = .next (((((u.directoryRead f.g (bits f.nrec.lit32.toNat 31 24)).loadRead (u.region f.g).ctx va ((u.region f.g).site f.g)).modRegion f.g
      (fun x => { x with st := .loadingInPlace, tailg := some (
      { image := i, ex := ex, ey := ey, enode := en, tok := { f.passed with col := f.col, wave := 0 } } : TailSwap) })).pipe f 1).rejoined f r)) ∧
  (let counted := fun (f : Fire) (s : State) =>
    (((s.unwithhold f).consume f).modRegion f.g (fun r => { r with snapCount := r.snapCount + 1 })).latch
  Acts .drain 0x284 { ready := fun f s => (s.region f.g).drain.isNone } (fun _ _ => True) (fun f s =>
    let id := (f.ta.lanes.headD 0).toNat % 65536
    ((s.modRegion f.g (fun r => { r with drain := some (
      { h := f.h, n := f.n, nrec := f.nrec, id := id, tok := f.token 1 [0] 0 0, absorbed := [], lost := false
        reissued := false, depth := (s.region f.g).depth } : Drain) })).oweMarkers
      f.g (markerToken f.k f.col f.wave id .barrier)).pipe f 1) ∧
  ActsHeld .snap 0x287 { ready := snapFree, breach := Fire.plain, badWidth := fun f => bit f.lit 0 && decide (f.ta.wid < 2) }
    (fun f s => bit f.nrec.lit32.toNat 0 = false ∧ (counted f s).tooWide f.g f (f.token 1 [0] 0 0) = false)
    (fun f s => (counted f s).emitted f 1 (f.token 1 [0] 0 0)) ∧
  ActsHeld .snap 0x287 { ready := snapFree, breach := Fire.plain, badWidth := fun f => bit f.lit 0 && decide (f.ta.wid < 2) }
    (fun f s => bit f.nrec.lit32.toNat 0 = true ∧ ∃ ps, snapReach f s = .ok ps)
    (fun f s => ((counted f s).beginSnapshot f (((s.region f.g).snapCount + 1) % 65536)).endSnapshot f.g |>.pipe f 1) ∧
  GivesFrom .wdog 0x28B {} 1 (fun f s =>
    (s.modRegion f.g (fun r =>
      { r with wdogLim := if f.nrec.lit = 2 then f.nrec.lit32.toNat else (f.ta.lanes.headD 0).toNat, wdogCnt := 0 }), f.passed)))

/-- R242 to R245: RDSR reads a status register, WRSR, PRIO and HALT stage their change, and YIELD puts its slot last for N cycles.
The model's choices: RDSR's latency is a free value (log 4), and an unprivileged PRIO is bounded by CTX_PMAX as it stands at
the firing (log 22). -/
def Obligations.ContextNodesAct : Prop :=
  (∀ (r : Rec) (s : State) (f : Fire), s.fires {} 0x288 r f = true →
    let u := s.taken f
    let v := u.statusReg f.g f.col (dieOf f.h) (r.lit32.toNat % 256)
    let out := f.token 1 [BitVec.ofNat 32 v, BitVec.ofNat 32 (v / 2 ^ 32)] 0 0
    let d := max u.freeDelay.1 ((u.node f.h f.k f.n).sentAt + 1 - u.cycle)
    (u.freeDelay.2.inFlight f d).tooWide f.g f out = false →
    exec (.rdsr r) s = .next (((u.freeDelay.2.inFlight f d).emitted f d out).rejoined f r)) ∧
  GivesFrom .wrsr 0x289 { breach := fun f s => regPrivileged (f.lit % 256) && f.plain s
                          badWidth := fun f => decide (0x40 ≤ f.lit % 256) && f.ta.wid != 2 } 1 (fun f s =>
      (s.stageEffect f (.register f.h f.k (f.nrec.lit32.toNat % 256) (wrsrValue f)), f.passed)) ∧
  GivesFrom .prio 0x285 { breach := fun f s => bit f.lit 7 && f.plain s } 1 (fun f s =>
    let m := (s.region f.g).ctx
    (s.stageEffect f (if bit f.nrec.lit32.toNat 7 then
        .priority (bits f.nrec.lit32.toNat 6 4) (bits f.nrec.lit32.toNat 2 0)
      else .priority m (min (bits f.nrec.lit32.toNat 2 0) (s.context m).pmax)), f.passed)) ∧
  GivesFrom .yield 0x286 {} 1 (fun f s =>
    (s.modSlot f.h f.k (fun x => { x with yieldUntil := s.cycle + f.nrec.lit32.toNat % 65536 + 1 }), f.passed)) ∧
  Acts .halt 0x28A { breach := Fire.plain } (fun _ _ => True) (fun f s =>
    ((s.stageEffect f (.halt (if bit f.nrec.lit32.toNat 3 then (s.region f.g).ctx else bits f.nrec.lit32.toNat 2 0))).pipe f 1).stageToken
      f.g f.col (flagsOf f.operands) false)

/-! ### Events of tokens, requests and slots -/

/-- R33, R170, R171, R168, R329, R361: a request issues when it may; its reply gives the lanes as memory holds them then, and its
receiver checks their residue; a request without answer for the limit is withheld with cause TMO; and the message of a
withheld access goes out once. DEDUCED (log 83): a load performs in the cycle of its reply. -/
def Obligations.RequestsGoOn : Prop :=
  let held := fun (h k : Nat) (q : Request) (s : State) =>
    (s.setRequest h k { q with held := true }).modNode h k q.node (fun x => { x with withheld := some (
      { cause := 11, addr := (match q.reads with
          | .mem ((pa, _) :: _) :: _ => pa
          | _ => 0)
        elem := x.counted q.col - 1, detail := 11, col := q.col, wave := q.wave, found := s.cycle, sent := false, recompute := none
        resumed := false } : WithheldAccess) })
  (∀ h k id g q, Does .requestIssue (.request h k id)
    (fun s => (s.slot h k).region = some g ∧ s.request h k id = some q ∧ s.mayIssue g h k q = true) (fun s => s.issue g h k q)) ∧
  (let given := fun (q : Request) (s : State) =>
    let ls := q.reads.map (s.laneNow q.crit)
    (match q.answer with
     | .fenced _ => q.tok
     | _ =>
       { q.tok with lanes := ls, wid := ls.length, res := residue ls, tnt := q.tok.tnt || q.lanes.any (s.lanePoison q.crit)
                    scw := (match q.scw with
                      | some r => (s.laneNow q.crit r).toNat % 65536
                      | none => q.tok.scw) } : Token)
  let heard := fun (h k : Nat) (q : Request) (s : State) =>
    ((((s.usePort (readAddrs q.lanes)).critDone q.crit).dropRequest h k q.id).modSlot h k (fun x => { x with heardAt := some s.cycle }))
  let answers := fun (g h : Nat) (q : Request) (s : State) =>
    s.replies q h (s.region g).ctx
      (!(if q.compare then failedLanes q.reads (given q s).lanes q.writes else []).isEmpty) (given q s).res
  let sound := fun (q : Request) (s : State) =>
    ((given q s).disturbed q.noise).res == tokenResidue ((given q s).disturbed q.noise).fmt ((given q s).disturbed q.noise).lanes
  (∀ h k id g q, Does .loadReply (.request h k id)
    (fun s => (s.slot h k).region = some g ∧ s.request h k id = some q ∧ s.replyReady h k q = true ∧ sound q s = true)
    (fun s =>
      let failed := if q.compare then failedLanes q.reads (given q s).lanes q.writes else []
      let u := (heard h k q s).modHearth h (fun x => { x with damper := x.damper.filter (fun e => !failed.contains e.id) })
      ((u.modColour g q.col (fun c => c.inPipe u.cycle)).sendAll g h k q.node q.nrec false u.cycle
        ((given q s).disturbed q.noise)).sendMessages (answers g h q s))) ∧
  (∀ h k id g q, Does .loadReply (.request h k id)
    (fun s => (s.slot h k).region = some g ∧ s.request h k id = some q ∧ s.replyReady h k q = true ∧ sound q s = false)
    (fun s => ((heard h k q s).purgeCorrected g [q.col]).sendMessages (answers g h q s)))) ∧
  (∀ h k id q, Does .requestTimeout (.request h k id)
    (fun s => s.request h k id = some q ∧ q.t3 = false ∧ s.timedOut q = true) (held h k q)) ∧
  (∀ h k id q, Does .linkFaultTimeout (.request h k id)
    (fun s => s.request h k id = some q ∧ q.t3 = true ∧ s.timedOut q = true) (held h k q)) ∧
  (∀ h k n g w, Does .faultMessageSend (.node h k n)
    (fun s => (s.slot h k).region = some g ∧ (s.node h k n).withheld = some w ∧ w.due s.cycle = true)
    (fun s =>
      let e := (s.region g).kernel
      (s.modNode h k n (fun v => { v with withheld := some { w with sent := true } })).faultMessage 0xFFFF
        (match e with
         | some i => (s.kernel i).rtag
         | none => 0) (s.withheldRecord g h k n w)
        (match e with
         | some i => (s.kernel i).pair
         | none => none) (some (s.region g).ctx)))

/-- R33, R54, R68, R81, R418, R163, R71: what carries a token from one firing to the next. DEDUCED: a mesh token whose queue is
full waits in its interface (log 35), and reserved bits of a body that are not zero are a mesh error (log 36). -/
def Obligations.TokensMoveOn : Prop :=
  (∀ id f, Does .tokenArrival (.flight id)
    (fun s => Tab.find s.flights id = some f ∧ f.arrive ≤ s.cycle ∧ (s.colour f.region f.tok.col).st = .live ∧
      f.corrupt = false ∧ f.tok.mark = .data ∧ s.arrivalFault f.region f = none)
    (fun s => s.enterNode id f.region f)) ∧
  (∀ id f, Does .tokenArrival (.flight id)
    (fun s => Tab.find s.flights id = some f ∧ f.arrive ≤ s.cycle ∧ (s.colour f.region f.tok.col).st = .live ∧ f.corrupt = true)
    (fun s => (s.dropFlight id).purgeCorrected f.region [f.tok.col])) ∧
  (∀ id m, Does .meshMessageReceive (.flight id)
    (fun s => Tab.find s.messages id = some m ∧ m.arrive ≤ s.cycle ∧ m.bad = true)
    (fun s => { s with messages := Tab.drop s.messages id, meshErrors := s.meshErrors + 1 })) ∧
  (∀ id m t g, Does .meshMessageReceive (.flight id)
    (fun s => Tab.find s.messages id = some m ∧ m.arrive ≤ s.cycle ∧ m.bad = false ∧ m.token = some t ∧
      (if m.cls = 5 then m.source else s.homeOf (hearthAt m.ddie m.dx m.dy) m.mctx) = some g)
    (fun s => ({ s with messages := Tab.drop s.messages id } : State).deliver id g (hearthAt m.ddie m.dx m.dy) t m.expect)) ∧
  (∀ h k n p f t, Does .frameSlotEntry (.port h k n p)
    (fun s => s.slotEntry h k n p = some (f, t) ∧ t.res = tokenResidue t.fmt t.lanes)
    (fun s => (s.modNode h k n (fun x => x.pop p s.cycle)).modSlot h k
      (fun x => { x with frames := putSlot x.frames (f.setPort p (some { t with since := s.cycle })) }))) ∧
  (∀ h k n p f t g, Does .frameSlotEntry (.port h k n p)
    (fun s => s.slotEntry h k n p = some (f, t) ∧ t.res ≠ tokenResidue t.fmt t.lanes ∧ (s.slot h k).region = some g)
    (fun s => (s.modNode h k n (fun x => x.pop p s.cycle)).purgeCorrected g [t.col])) ∧
  (∀ h k n g x rest, Does .deferredTokenSend (.node h k n)
    (fun s => (s.slot h k).region = some g ∧ firstReady s.cycle (s.node h k n).holds = some (x, rest) ∧ s.firing g = true ∧
      s.roomAll (s.bothTargets g h k n x.nrec) = true)
    (fun s =>
      let u := s.modNode h k n (fun v => { v with holds := rest })
      (if x.kind = .result then u.modSlot h k (fun v => { v with contraction := none }) else u).sendAll g h k n x.nrec true
        s.cycle x.tok)) ∧
  (∀ h k n, Does .delayExpiry (.node h k n)
    (fun s => ∃ e ∈ (s.node h k n).holds, e.kind = .delay ∧ e.ready = false ∧ e.due ≤ s.cycle)
    (fun s => (s.modNode h k n (fun x => { x with holds := x.holds.map (fun e =>
      if e.kind = .delay ∧ e.due ≤ s.cycle then { e with ready := true } else e) })).push [.event .deferredTokenSend (.node h k n)])) ∧
  (∀ h k g t x more, Does .txprOutput (.slot h k)
    (fun s => (s.slot h k).region = some g ∧ (s.slot h k).transpose = some t ∧ t.out = x :: more ∧ s.blockDue h k = true)
    (fun s => (s.modSlot h k (fun v => { v with transpose := (match more with
        | [] => none
        | _ => some { t with out := more, due := s.cycle + 1 }) })).sendAll g h k t.node t.nrec true s.cycle x)) ∧
  (∀ g c, Does .waveRetire (.colour g c)
    (fun s => (s.colour g c).loop = true ∧ (s.colour g c).vm1 + 1 ≤ (s.colour g c).vcnt ∧ (s.colour g c).back = false)
    (fun s =>
      let x := s.colour g c
      ((s.dropWaves g [c]).dropChains g c (fun w => w == x.lwave)).setColour g c
        { x with loop := false, owave := x.lwave, nwave := x.lwave, vcnt := 0, back := false })) ∧
  (∀ g c, Does .waveRetire (.colour g c)
    (fun s => (s.colour g c).loop = true ∧ (s.colour g c).vm1 + 1 ≤ (s.colour g c).vcnt ∧ (s.colour g c).back = true)
    (fun s =>
      let x := s.colour g c
      let w := (x.owave + 1) % 256
      let came := s.slots.foldl (fun a e => if e.2.region == some g then
        e.2.waves.foldl (fun a y => if y.col == c && y.wave == w then (a.1 + y.cnt, a.2 || y.bk) else a) a else a) (0, false)
      let u := ((s.takeWave g c w).dropChains g c (fun v => v != (w + 254) % 256 || v == x.lwave)).setColour g c
        { x with owave := w, vcnt := came.1, back := came.2 }
      if x.vm1 + 1 ≤ came.1 then u.push [.event .waveRetire (.colour g c)] else u))

/-- R72, R73, R238, R244: the weights of a slot's nodes, its starving mark and the end of a YIELD; R144, R145: a contraction's
steps and its end; R151: the microtrap that brings a context's accumulators, or its stay register, to a hearth. DEDUCED: where
a spilled file goes (R238) is logs 82 and 108. DEDUCED: nodes are re-weighted before the cycle counts (log 117), and a file
that no one owns is claimed without a microtrap (log 124). -/
def Obligations.SlotEventsAct : Prop :=
  (∀ h k, Does .reweight (.slot h k) (fun s => s.cycle % 1024 = 0)
    (fun s => s.modSlot h k (fun x => { x with cfg := { x.cfg with nodes := x.cfg.nodes.map (fun e =>
      let wgt := (match Tab.find x.cfg.store e.1 with
        | some w => (decodeFields w).wgt.toNat
        | none => 0)
      (e.1, { e.2 with weight := min 8 (wgt + 1 + e.2.qsum / 1024 / 4), qsum := 0 })) } }))) ∧
  (∀ h k, Does .starving (.slot h k) (fun s => 65536 ≤ (s.slot h k).starve ∧ (s.hearth h).starving = none)
    (fun s => s.modHearth h (fun x => { x with starving := some 0 }))) ∧
  (∀ h k, Does .yieldExpiry (.slot h k) (fun s => (s.slot h k).yieldUntil ≤ s.cycle)
    (fun s => s.modSlot h k (fun x => { x with yieldUntil := 0 }))) ∧
  (∀ h k g c, Does .contractionStep (.slot h k)
    (fun s => (s.slot h k).region = some g ∧ (s.slot h k).contraction = some c ∧ s.stepDue h k = true ∧
      c.foreign c.walk (s.node h k c.node) = none ∧ stepFault c c.walk (c.taking c.walk (s.node h k c.node)) = none)
    (fun s => s.trineStep g h k c)) ∧
  (∀ h k g c x, Does .contractionEnd (.slot h k)
    (fun s => (s.slot h k).region = some g ∧ (s.slot h k).contraction = some c ∧ c.last = some x ∧ c.done = true ∧
      c.lastStep + 8 ≤ s.cycle)
    (fun s => s.endContraction g h k c x)) ∧
  (let begins := fun (h m : Nat) (stay : Bool) (s : State) => (s.hearth h).spills.find? (fun e => e.2.1 == stay) = none ∧
    (if stay then s.hasStay h m else s.hasAcc h m) = false
  let half := fun (stay : Bool) => if stay then 64 else 128
  let back := fun (h m : Nat) (stay : Bool) (s : State) => if (s.hearth h).placeOf m stay = .home then half stay else 0
  let counted := fun (m : Nat) (s : State) => s.modContext m (fun c => { c with accSpill := min 0xFFFFFFFF (c.accSpill + 1) })
  (∀ h m stay, Does .accumulatorSpill (.touch h m stay) (begins h m stay) (fun s => s.beginSpill h m stay)) ∧
  (∀ h m stay, Does .accumulatorSpill (.touch h m stay)
    (fun s => begins h m stay s ∧ (s.hearth h).owner stay = none ∧ (s.hearth h).placeOf m stay ≠ .t1Home)
    (fun s => counted m (s.modHearth h (fun x => { x with spills := x.spills ++ [(m, stay, s.cycle + back h m stay s)] })))) ∧
  (∀ h m o stay, Does .accumulatorSpill (.touch h m stay)
    (fun s => begins h m stay s ∧ (s.hearth h).owner stay = some o ∧ o ≠ m ∧ s.t1HomeAt h o = none ∧
      ((s.hearth h).homes.contains o = true ∨ s.statePlanes h < 4) ∧ (s.hearth h).placeOf m stay ≠ .t1Home)
    (fun s => counted m ((s.modHearth h (fun x => x.setPlace o stay .home)).modHearth h (fun x =>
      { x with spills := x.spills ++ [(m, stay, s.cycle + half stay + back h m stay s)] }))))) ∧
  (∀ h m n t stay, Does .accumulatorSpill (.touch h m stay)
    (fun s => (s.hearth h).spills.find? (fun e => e.2.1 == stay) = some (n, stay, t) ∧ t ≤ s.cycle)
    (fun s => s.modHearth h (fun x =>
      { x.claim n stay with spills := x.spills.filter (fun e => !(e.1 == n && e.2.1 == stay)) })))

/-! ### Commit and recovery -/

/-- R177, R189, R190, R335, R340: an Ended activation that nothing holds sends its damper entries and commits once all are sent, a
compare-and-swap that no longer finds its word aborts it, and it takes the prepare phase back if something holds it again; its
entries age and are logged, and its writes are sent again after a refusal or a silence until they are given up. The model's
choices: an Eligible entry is logged as soon as the log has room (log 55), a lost write poisons its granule (log 58), what a
damper sends in a cycle (log 100), and that an activation takes its prepared entries back (log 101). DEDUCED: a refused write
behind an earlier one of its granule taints in its turn (log 130). -/
def Obligations.CommitsGoOn : Prop :=
  (let sent := fun (g c : Nat) (s : State) => (s.modColour g c (fun y => { y with preparing := true })).sendEntries g c
  (∀ g c, Does .activationCommit (.colour g c)
    (fun s => (s.colour g c).committed = false ∧ s.mayCommit g c = true ∧ s.acasWaits g c = false ∧
      acasFails (entryGroups (s.entriesOf g c)) s = false ∧ (sent g c s).allSent g c = true)
    (fun s => ((sent g c s).commitPoint g c).applyPhase g c)) ∧
  (∀ g c, Does .activationCommit (.colour g c)
    (fun s => (s.colour g c).committed = false ∧ s.mayCommit g c = true ∧ s.acasWaits g c = false ∧
      acasFails (entryGroups (s.entriesOf g c)) s = false ∧ (sent g c s).allSent g c = false)
    (sent g c)) ∧
  (∀ g c, Does .activationCommit (.colour g c)
    (fun s => (s.colour g c).committed = false ∧ s.mayCommit g c = true ∧ s.acasWaits g c = false ∧
      acasFails (entryGroups (s.entriesOf g c)) s = true)
    (fun s => s.purge g [c] true false)) ∧
  (∀ g c, Does .activationCommit (.colour g c)
    (fun s => (s.colour g c).committed = false ∧ s.mayCommit g c = false ∧ (s.colour g c).preparing = true)
    (fun s => s.retreat g c)) ∧
  (∀ g c, Does .activationCommit (.colour g c) (fun s => (s.colour g c).committed = true) (fun s => s.applyPhase g c))) ∧
  (∀ h id e, Does .damperEntryEligible (.entry h id)
    (fun s => s.damperEntry h id = some e ∧ e.st = .held ∧ e.born + 128 ≤ s.cycle)
    (fun s => s.modDamper e.id (fun x => { x with st := .eligible }))) ∧
  (∀ h id e, Does .damperEntryEligible (.entry h id)
    (fun s => s.damperEntry h id = some e ∧ e.st = .eligible ∧ (s.colour e.region e.col).oldest.contains h = true ∧
      s.logRoom e.region = true)
    (fun s => s.modDamper e.id (fun x => { x with st := .logged, inLog := true }))) ∧
  (let again := fun (h : Nat) (e : DamperEntry) (n : Nat) (s : State) =>
    { ((s.drain h e).tellWrite h e).modDamper e.id (fun x => { x with resent := x.resent + n, sentAt := s.cycle, again := 0 }) with
      unacked := dropOne e.id s.unacked }
  let later := fun (e : DamperEntry) (n : Nat) (s : State) => s.modDamper e.id (fun x => { x with again := n, sentAt := s.cycle })
  let silent := fun (h id : Nat) (e : DamperEntry) (s : State) =>
    s.damperEntry h id = some e ∧ e.order ≠ 0 ∧ e.sentAt + Config.requestTimeout ≤ s.cycle
  (∀ h id e, Does .commitWriteRefused (.entry h id)
    (fun s => s.damperEntry h id = some e ∧ e.order ≠ 0 ∧ e.resent % 4 < 2 ∧ s.drainRoom h e = true) (again h e 1)) ∧
  (∀ h id e, Does .commitWriteRefused (.entry h id)
    (fun s => s.damperEntry h id = some e ∧ e.order ≠ 0 ∧ e.resent % 4 < 2 ∧ s.drainRoom h e = false) (later e 1)) ∧
  (∀ h id e, Does .commitWriteRefused (.entry h id)
    (fun s => s.damperEntry h id = some e ∧ e.order ≠ 0 ∧ 2 ≤ e.resent % 4 ∧ s.standsBehind e = true)
    (fun s => (({ s with unacked := dropOne e.id s.unacked } : State).modDamper e.id (fun x => { x with tnt := true })).taintHolder
      e.region)) ∧
  (∀ h id e, Does .commitWriteRefused (.entry h id)
    (fun s => s.damperEntry h id = some e ∧ e.order ≠ 0 ∧ 2 ≤ e.resent % 4 ∧ s.standsBehind e = false)
    (fun s =>
      let g := ((entryGroups (s.entriesOf e.region e.col)).find? (fun g => g.any (fun y => y.id == e.id))).getD [e]
      let u := (s.applyGroup g).1.modHolder e.region (fun k => { k with flagsK := k.flagsK ||| (s.applyGroup g).2 })
      g.foldl (fun s y => s.settleT3 y) (((u.poisonGranule e).freeEntries (g.map (fun y => y.id))).taintHolder e.region))) ∧
  (∀ h id e, Does .commitWriteTimeout (.entry h id)
    (fun s => silent h id e s ∧ e.resent / 4 = 0 ∧ s.drainRoom h e = true) (again h e 4)) ∧
  (∀ h id e, Does .commitWriteTimeout (.entry h id)
    (fun s => silent h id e s ∧ e.resent / 4 = 0 ∧ s.drainRoom h e = false) (later e 4)) ∧
  (∀ h id e k, Does .commitWriteTimeout (.entry h id)
    (fun s => silent h id e s ∧ e.resent / 4 ≠ 0 ∧ (s.region e.region).kernel = some k ∧
      (((((s.poisonGranule e).freeEntries [e.id]).taintHolder e.region).settleT3 e).region e.region).kernel = some k)
    (fun s =>
      let f : FaultRecord :=
        { cause := faultUncorr, die := dieOf h, x := colOf h, y := rowOf h, ctx := (s.region e.region).ctx, slot := e.slot
          col := e.col % 4096, detail := 4 + 2 ^ 64 * (forwardAddr s.forwards e.pa / 64 * 64), cycle := s.cycle }
      ((((s.poisonGranule e).freeEntries [e.id]).taintHolder e.region).settleT3 e).kernelFault k f)))

/-- R36, R38, R64: when a commit ends, the activation's staged flags are ORed into FLAGS_K of the kernel that holds its region and
its staged counts added to the kernel's counters, which stay at 0xFFFFFFFF once they reach it; the verdict becomes poisoned where a
tainted token was staged; and the colour is Free. A purge discards what is staged. R174, R182: an STS raises its pointer by its bytes, modulo
2^48, when it issues. R243: a register that WRSR writes takes its value at the commit: RND_DEF, LFSR_SEED, KV_THRESH, TID_BASE and
TID_CNT of the context, WDOG_LIM of the region, and the write pointers of the die of the node that wrote. -/
def Obligations.CommitsMergeAndRegistersChange : Prop :=
  (∀ (s : State) (g c e : Nat), (s.region g).kernel = some e → (s.colour g c).committed = true → (s.colour g c).staged = [] →
    s.cur = .colour g c → s.entriesOf g c = [] → s.orphans g c = [] → s.queueWaits g c = false →
    s.spawnWaits g c = false →
    ∃ t, exec .activationCommit s = .next t ∧
      (t.kernel e).flagsK = (s.kernel e).flagsK ||| (s.colour g c).flagsSt ∧
      (t.kernel e).mxcNan = min 0xFFFFFFFF ((s.kernel e).mxcNan + (s.colour g c).mxcNan) ∧
      (t.kernel e).mxcOvf = min 0xFFFFFFFF ((s.kernel e).mxcOvf + (s.colour g c).mxcOvf) ∧
      (t.kernel e).mxcSat = min 0xFFFFFFFF ((s.kernel e).mxcSat + (s.colour g c).mxcSat) ∧
      (t.kernel e).verdict = (if (s.colour g c).taint then 2 else (s.kernel e).verdict) ∧
      (t.colour g c).st = .free ∧ (∀ d, d ≠ c → (t.colour g d).flagsSt = (s.colour g d).flagsSt) ∧ t.mem = s.mem) ∧
  (∀ (s : State) (g c : Nat) (a b : Bool), (s.colour g c).active = true → (s.colour g c).committed = false →
    ((s.purge g [c] a b).colour g c).flagsSt = 0 ∧ ((s.purge g [c] a b).colour g c).mxcNan = 0 ∧
    ((s.purge g [c] a b).colour g c).mxcOvf = 0 ∧ ((s.purge g [c] a b).colour g c).mxcSat = 0 ∧
    ∀ e, ((s.purge g [c] a b).kernel e).flagsK = (s.kernel e).flagsK) ∧
  (∀ (s t : State) (h k id g n o b : Nat) (q : Request), s.cur = .request h k id → (s.slot h k).region = some g →
    s.request h k id = some q → s.mayIssue g h k q = true → q.pointer = some (n, o, b) → s.pointer (dieOf h) n = o →
    s.mixes g q.col q.mix = false → n < 64 → exec .requestIssue s = .next t →
    t.pointer (dieOf h) n = (o + b) % 2 ^ 48 ∧
    ∀ d m, m < 64 → (d ≠ dieOf h ∨ m ≠ n) → t.pointer d m = s.pointer d m) ∧
  (∀ (s : State) (g c h k r v d : Nat),
    let t := s.applyStaged g c (.register h k r v)
    (r = 0x04 → t.statusReg g c d 0x04 = v % 2 ^ 32) ∧ (r = 0x0C → t.statusReg g c d 0x0C = v % 2 ^ 32) ∧
    (r = 0x12 → t.statusReg g c d 0x12 = v % 256) ∧ (r = 0x16 → t.statusReg g c d 0x16 = v % 2 ^ 32) ∧
    (r = 0x17 → t.statusReg g c d 0x17 = min v 4096) ∧
    (0x40 ≤ r → r ≤ 0x7F → t.statusReg g c (dieOf h) r = v % 2 ^ 48) ∧
    (∀ m, m ≠ (s.region g).ctx → t.context m = s.context m) ∧ t.mem = s.mem ∧ t.poison = s.poison ∧ t.kernels = s.kernels)

/-- R342, R344, R345, R346, R348, R350: a reissue is made in its turn; a purged colour becomes Free; a strike is counted for the
module and its hearth, reported and scrubbed; a notice purges its receivers, or the region where senders are not tracked; and
an uncorrectable error is handled where it lies. DEDUCED: the scrub of a strike acts in the cycle of its report (log 54), and
a reissue whose frame run fits nowhere takes COLEXH (log 95). -/
def Obligations.RecoveryGoesOn : Prop :=
  (∀ g x rest t, Does .reissue (.region g)
    (fun s => (s.region g).reissues = x :: rest ∧ s.tryReissue g x = some t) (fun _ => t)) ∧
  (∀ g c, Does .purgeComplete (.colour g c)
    (fun s => (s.colour g c).st = .purging ∧ s.sentBefore g (s.colour g c).purgedAt = false) (fun s => s.freeColour g c)) ∧
  (∀ h t, Does .strikeReport (.strike h t)
    (fun s => s.strikes.find? (fun x => x.h == h && x.s == t) = none ∧ t ≤ s.cycle ∧ s.cycle ≤ t + 128)
    (fun s =>
      let r := s.strikePurge h t
      (({ r.1 with strikeStrk := min 0xFFFF (r.1.strikeStrk + 1), reports := r.1.reports ++ [(h, t, r.2)] } : State).modHearth h
        (fun x => { x with strikes := satAdd x.strikes 1 })).scrub (squareOf h))) ∧
  (∀ g src c n, Does .purgeNotice (.notice g src c)
    (fun s => (s.region g).notices = [n] ∧ n.source = src ∧ n.col = c ∧ n.arrive ≤ s.cycle)
    (fun s =>
      let u := s.modRegion g (fun r => { r with notices := [] })
      let r := u.region g
      if r.untracked.isSome then u.rollback g
      else if n.corrects then u.purgeCorrected g (r.receivers src c)
      else u.purge g (r.receivers src c) true false)) ∧
  (let at_ := fun (w : ErrorSite) (ok : State → Prop) (act : State → State) => Does (.uncorrectableError w) .module ok act
  (∀ h k c g, at_ (.token h k c) (fun s => (s.slot h k).region = some g) (fun s => s.purgeCorrected g [c])) ∧
  (∀ h id e, at_ (.damper h id) (fun s => s.damperEntry h id = some e ∧ e.order = 0) (fun s => s.purgeCorrected e.region [e.col])) ∧
  (∀ h id e, at_ (.damper h id) (fun s => s.damperEntry h id = some e ∧ e.order ≠ 0) (fun s => s)) ∧
  (∀ h i g c, at_ (.accumulator h i) (fun s => s.accOwner h = some (g, c)) (fun s => s.purgeCorrected g [c])) ∧
  (∀ h i, at_ (.accumulator h i) (fun s => s.accOwner h = none) (fun s => s)) ∧
  (∀ h k, at_ (.plane h k) (fun _ => True) (fun s => s.rollbackSlot h k)) ∧
  (∀ g c, at_ (.colour g c) (fun _ => True) (fun s => s.rollback g)) ∧
  (let lost := fun (h k n code g e : Nat) (s : State) =>
    (s.kernelFault e (nodeRecord s g h k n 0 0 faultUncorr code)).loseRegions [g] false
  let held := fun (h k g e : Nat) (s : State) => (s.slot h k).region = some g ∧ (s.region g).kernel = some e
  (∀ h k n g e, at_ (.nodeStore h k n) (held h k g e) (lost h k n 1 g e)) ∧
  (∀ h k g e, at_ (.switchTable h k) (held h k g e) (lost h k 0 2 g e)) ∧
  (∀ h k g e, at_ (.bindings h k) (held h k g e) (lost h k 0 3 g e))) ∧
  (∀ a g c, at_ (.granule a) (fun s => s.slotsAt (a / 64) = some (g, c)) (fun s => s.purgeCorrected g [c])) ∧
  (∀ a g, at_ (.granule a) (fun s => s.slotsAt (a / 64) = none ∧ s.tableAt (a / 64) = some g) (fun s => s.rollback g)) ∧
  (∀ a, at_ (.granule a) (fun s => s.slotsAt (a / 64) = none ∧ s.tableAt (a / 64) = none) (fun s => s.poisonAt (a / 64))) ∧
  (∀ h k id noise q, at_ (.reply h k id noise) (fun s => s.request h k id = some q)
    (fun s => s.setRequest h k { q with noise := noise })) ∧
  (∀ d, at_ (.distributor d) (fun _ => True) (fun s => s.fenceDie d)) ∧
  (let redone := fun (c : CurrentEntry) => if c.retried.1 = (c.progress, c.off) then c.retried.2 + 1 else 1
  let noted := fun (c : CurrentEntry) => { c with retried := ((c.progress, c.off), redone c) }
  (∀ q c, at_ (.engine q) (fun s => (s.queue q).cur = some c ∧ redone c ≤ 3)
    (fun s => s.modQueue q (fun u => { u with cur := some { noted c with busyUntil := max c.busyUntil (s.cycle + 1) } }))) ∧
  (∀ q c, at_ (.engine q) (fun s => (s.queue q).cur = some c ∧ 3 < redone c)
    (fun s => s.modQueue q (fun u => { u with cur := some { noted c with poison := true } }))) ∧
  (∀ q, at_ (.engine q) (fun s => (s.queue q).cur = none)
    (fun s => s.modQueue q (fun u => { u with errors := u.errors + 1, again := max u.again (s.cycle + 1) })))))

/-- R307 to R311, R315: markers go through a region: nodes align barriers and snapshots, sources send the markers that they owe, a
drain answers its DRAIN, a snapshot too old is abandoned, and a starved region takes QUIESCE. R266, R245: a die that has been
silent for four heartbeats is fenced, the lowest live die becomes master, and a context halts when its regions let it. The
model's choices: latencies (log 4), a marker takes one cycle (log 17), a terminal that nothing reaches does not count for a
drain (log 18), and one dependence table stands for all mirrors (log 103). -/
def Obligations.MarkersAndHaltsGoOn : Prop :=
  (let due := fun (g : Nat) (s : State) => (s.region g).st = .running ∧ (s.region g).wdogLim ≠ 0 ∧
      (s.region g).wdogLim ≤ (s.region g).wdogCnt ∧ (s.region g).wdogHit = false
  let detail := fun (g : Nat) (s : State) => (s.region g).wdogLim + min (s.waiters g).length 0xFFFFFFFF * 2 ^ 32 +
      (s.region g).x * 2 ^ 64 + (s.region g).y * 2 ^ 72
  let hit := fun (g : Nat) (s : State) => s.modRegion g (fun r => { r with wdogHit := true })
  (∀ g e a h n c w, Does .quiesce (.region g)
    (fun s => due g s ∧ (s.region g).kernel = some e ∧ oldestWaiter (s.waiters g) = some (a, h, n, c, w))
    (fun s => (hit g s).kernelFault e (nodeRecord s g h (s.region g).slot n c w faultQuiesce (detail g s)))) ∧
  (∀ g e, Does .quiesce (.region g)
    (fun s => due g s ∧ (s.region g).kernel = some e ∧ oldestWaiter (s.waiters g) = none)
    (fun s => (hit g s).kernelFault e (nodeRecord s g (s.region g).origin (s.region g).slot 0 0 0 faultQuiesce (detail g s)))) ∧
  (∀ g, Does .quiesce (.region g) (fun s => due g s ∧ (s.region g).kernel = none) (hit g))) ∧
  (let due := fun (h k n g o : Nat) (r : Rec) (s : State) =>
    (s.slot h k).region = some g ∧ s.barrierDue g h k n = true ∧ s.record h k n = some (o, r)
  let eaten := fun (h k n g : Nat) (s : State) =>
    (s.modNode h k n (fun x => (s.connected g h n).foldl (fun x p => x.pop p s.cycle) x)).modSlot h k
      (fun x => { x with firedAt := some s.cycle })
  (∀ h k n g o r t, Does .barrierAlign (.node h k n)
    (fun s => due h k n g o r s ∧ markerClash (s.node h k n) (s.connected g h n) = some t)
    (fun s => s.nodeFault g h k n t.col t.wave faultJoinOrd 0)) ∧
  (∀ h k n g o r t, Does .barrierAlign (.node h k n)
    (fun s => due h k n g o r s ∧ markerClash (s.node h k n) (s.connected g h n) = none ∧
      barrierAligned (s.node h k n) (s.connected g h n) = some t ∧ terminalNode o r = true)
    (fun s => (eaten h k n g s).modRegion g (fun r => { r with drain := r.drain.map (fun d => d.absorb h n t.markerId) }))) ∧
  (∀ h k n g o r t, Does .barrierAlign (.node h k n)
    (fun s => due h k n g o r s ∧ markerClash (s.node h k n) (s.connected g h n) = none ∧
      barrierAligned (s.node h k n) (s.connected g h n) = some t ∧ terminalNode o r = false)
    (fun s => (eaten h k n g s).sendMarker g h k n r (markerToken k t.col t.wave t.markerId .barrier)))) ∧
  (let first := fun (h k n p g : Nat) (t : Token) (s : State) =>
    (s.slot h k).region = some g ∧ t ∈ (s.node h k n).waiting p ∧ t.mark = .snapshot
  (∀ h k n p g t, Does .snapshotFirstMarker (.port h k n p)
    (fun s => first h k n p g t s ∧ (s.connected g h n).contains p = true)
    (fun s => s.modNode h k n (fun x => { x with marked := insertRising x.marked p, stopped := !(insertRising x.marked p).isEmpty }))) ∧
  (∀ h k n p g t, Does .snapshotFirstMarker (.port h k n p)
    (fun s => first h k n p g t s ∧ (s.connected g h n).contains p = false)
    (fun s => s.modNode h k n (fun x => { x with stopped := !x.marked.isEmpty })))) ∧
  (let due := fun (h k n g o : Nat) (r : Rec) (t : Token) (s : State) => (s.slot h k).region = some g ∧
    s.snapReady g h k n = true ∧ s.record h k n = some (o, r) ∧ snapAgreed (s.node h k n) (s.connected g h n) = some t
  let noted := fun (h k n g : Nat) (s : State) => (((s.connected g h n).foldl (fun s p => s.snapPort g h k n p) s)).nodeRecordOut g h n
  let eaten := fun (h k n _ : Nat) (ps : List Nat) (now : Nat) (s : State) => (s.modNode h k n (fun x =>
      (ps.foldl (fun x p => (x.setQueue p (unmark (x.queue p))).refill p now Config.queueDepth) x).unrecord)).modSlot h k
        (fun x => { x with firedAt := some s.cycle })
  let on := fun (h k n g o : Nat) (r : Rec) (t : Token) (s : State) =>
    if terminalNode o r then s else s.sendMarker g h k n r (markerToken k t.col t.wave t.markerId .snapshot)
  (∀ h k n g o r t, Does .snapshotAlign (.node h k n)
    (fun s => due h k n g o r t s ∧ s.snapping g t.markerId = false)
    (fun s => on h k n g o r t (eaten h k n g (s.connected g h n) s.cycle s))) ∧
  (∀ h k n g o r t, Does .snapshotAlign (.node h k n)
    (fun s => due h k n g o r t s ∧ s.snapping g t.markerId = true)
    (fun s => ((on h k n g o r t (eaten h k n g (s.connected g h n) (noted h k n g s).cycle (noted h k n g s))).snapAligned g h
      n).endSnapshot g))) ∧
  (let go := fun (x : Snapshot) (now : Nat) (v : SlotState) => v.mapNodes (fun n => n.release x.id now)
  let dropped := fun (g : Nat) (x : Snapshot) (s : State) =>
    ({ s with slots := s.slots.map (fun e => if e.2.region == some g then (e.1, go x s.cycle e.2) else e)
              snapInc := true, snapOvf := !x.full.isEmpty, snapCnt := min 0xFFFF (s.snapCnt + 1) } : State).modRegion g (fun r =>
      { r with snapshot := none, abandoned := insertRising r.abandoned x.id, image := r.image.map (fun e => (e.1, go x s.cycle e.2)) })
  (∀ g x, Does .snapshotAbandon (.region g)
    (fun s => (s.region g).snapshot = some x ∧ x.started + Config.snapshotLimit ≤ s.cycle ∧ x.dropped = true) (dropped g x)) ∧
  (∀ g x, Does .snapshotAbandon (.region g)
    (fun s => (s.region g).snapshot = some x ∧ x.started + Config.snapshotLimit ≤ s.cycle ∧ x.dropped = false)
    (fun s => (dropped g x s).holdStatus g x.h x.depth x.n x.nrec x.tok 1))) ∧
  (∀ h k n g o r t more, Does .drainSourceMarker (.node h k n)
    (fun s => (s.slot h k).region = some g ∧ s.record h k n = some (o, r) ∧ (s.node h k n).owed = t :: more ∧
      s.firing g = true ∧ s.markersFit g h k n r = true ∧ t.mark = .barrier)
    (fun s => (s.modNode h k n (fun x => { x with owed := more })).sendMarker g h k n r t)) ∧
  (∀ g d st, Does .drainComplete (.region g)
    (fun s => (s.region g).drain = some d ∧ s.drainStatus g d = some st)
    (fun s =>
      let ls : List Word := [BitVec.ofNat 32 (st + 2 ^ 16 * d.id)]
      let u := s.modRegion g (fun r => { r with drain := none })
      (u.modNodeAt g d.h d.depth d.n (fun x => { x with holds := x.holds ++
        [{ kind := .status, tok := { d.tok with wid := 1, fmt := 1, lanes := ls, res := residue ls, scw := 0 }, nrec := d.nrec
           due := u.cycle, ready := true, col := d.tok.col, pser := 0 }] })).push
        (if (u.region g).inPlace d.depth then [.event .deferredTokenSend (.node d.h (u.region g).slot d.n)] else []))) ∧
  (∀ d, Does .heartbeat (.die d)
    (fun s => s.cycle % 1024 = 0 ∧ s.fencedDies.contains d = false ∧ s.silent.contains d = false)
    (fun s => { s with missed := Tab.set s.missed d 0 })) ∧
  (∀ d, Does .heartbeat (.die d)
    (fun s => s.cycle % 1024 = 0 ∧ s.fencedDies.contains d = false ∧ s.silent.contains d = true ∧ 3 ≤ Tab.get 0 s.missed d)
    (fun s => ({ s with missed := Tab.set s.missed d (Tab.get 0 s.missed d + 1) } : State).push [.event .dieFence (.die d)])) ∧
  (∀ d, Does .dieFence (.die d) (fun s => s.fencedDies.contains d = false)
    (fun s =>
      let v : State := { s with fencedDies := insertRising s.fencedDies d }
      let v : State := { v with kernels := v.kernels.map (fun k =>
        if k.2.first then (k.1, { k.2 with fences := k.2.fences ++ [(d, v.liveDies)] }) else k) }
      let u := v.loseRegions (v.regionsOn d) true
      let w : State :=
        { u with queues := u.queues.map (fun q => if q.1 / 128 = d then (q.1, q.2.cut) else q)
                 engines := u.engines.map (fun e => if e.1 / 8 = d then (e.1, { e.2 with busy := false }) else e)
                 moves := u.moves.filter (fun m => m.1 / 128 != d) }
      if w.master = d ∧ (w.phase = 4 ∨ w.phase = 5) then
        { w.freeDelay.2 with election := some (w.freeDelay.2.cycle + min w.freeDelay.1 2048) }
      else w)) ∧
  (∀ t, Does .electionEnd .module (fun s => s.election = some t ∧ t ≤ s.cycle)
    (fun s => { s with election := none, master := s.liveDies.headD s.master })) ∧
  (let stops := fun (m : Nat) (s : State) => (s.regionsIn m).foldl (fun s g =>
    if s.haltsNow g then s.modRegion g (fun r => { r with halted := true }) else s) s
  let due := fun (m : Nat) (s : State) => (s.context m).halting = true ∧ s.cycle % 16 = 0
  (∀ m, Does .contextHalt (.context m)
    (fun s => due m s ∧ ((stops m s).regionsIn m).all (fun g => ((stops m s).region g).halted) = false) (stops m)) ∧
  (∀ m, Does .contextHalt (.context m)
    (fun s => due m s ∧ ((stops m s).regionsIn m).all (fun g => ((stops m s).region g).halted) = true)
    (fun s =>
      let u := (stops m s).modContext m (fun c => { c with st := .halted })
      let u := (u.regionsIn m).foldl (fun s g => s.dropRegion g) u
      let u := ((u.kernels.filter (fun x => x.2.ctx == m)).map (fun x => x.1)).foldl (fun s e => s.haltKernel e) u
      ({ u with regions := u.regions.map (fun x => if x.2.ctx = m then (x.1, { x.2 with halted := false }) else x) } : State).modContext m
        (fun c => { c with st := .halted, halting := false }))))

/-! ### Kernels and regions -/

/-- R247 to R258, R265: a submission is journaled and taken in, or waits for a journal entry; a kernel is bound to a region that
matches it, its pending groups are handed out to a region that stands ready, and when its groups are over and no activation is
left it completes, its record is written, and it becomes Visible; a load ends in a resident configuration. DEDUCED: the
directory is kept as acceptance read it (log 41), a completion record that cannot be written is tried again (log 48), and a
group lost while its kernel is Draining is reissued there (log 49). -/
def Obligations.KernelsGoOn : Prop :=
  let settled := fun (e : Nat) (s : State) =>
    ((s.settleGroups e).regionsOf e).foldl (fun u g => u.releaseUnit e g) (s.settleGroups e) |>.modKernel e Kernel.drained
  let left := fun (e : Nat) (s : State) => if (s.kernel e).released then s.detachAll e else s
  (∀ a, Does (.kernelAccept a) .module (fun s => s.journalRoom = true) (fun s =>
    (s.journal (if a.pair.isSome then 0x01 else 0x80) (a.pair.getD 0xFF) a.ctx 0 a.cid a.lra).takeIn { sub := a, seq := s.jrnlNext, read := none })) ∧
  (∀ a, Does (.kernelAccept a) .module (fun s => s.journalRoom = false) (fun s => { s with waiting := s.waiting ++ [a] })) ∧
  (let due := fun (e : Nat) (rest : List Nat) (g : Nat) (s : State) => s.election = none ∧ s.bindOrder = e :: rest ∧
    s.bindWaits (s.kernel e) (s.regionIndex e) = false ∧ s.matchFor e = some g
  (∀ e rest g t, Does .bindRegion .module
    (fun s => due e rest g s ∧ s.clearTable (s.kernel e) (s.regionIndex e) = .ok t)
    (fun s =>
      let u := t.readsUsed t.agent (t.kernel e).ctx (t.jmaxReads (t.kernel e))
      (({ u with slots := u.slots.map (fun x => if x.2.region == some g then (x.1, { x.2 with waves := [], starve := 0, shown := [] }) else x) }
        : State).modRegion g (fun r =>
        { r with kernel := some e, index := s.regionIndex e, jmax := t.jmaxOf (t.kernel e), depth := 0, planeLim := (t.kernel e).plim
                 cols := [], serial := 0, calls := [], tailg := none, reissues := [], senders := [], gone := [], untracked := none
                 drain := none, snapshot := none, wdogLim := 0x01000000, wdogCnt := 0, wdogHit := false, notices := [], slow := []
                 unit := none, tableShown := [], copyShown := [], until_ := u.cycle + max 768 0 })).noteBinding e)) ∧
  (∀ e rest g f d va, Does .bindRegion .module
    (fun s => due e rest g s ∧ s.clearTable (s.kernel e) (s.regionIndex e) = .error ((f, d), va))
    (fun s => s.kernelFault e { cause := faultAccess, die := s.master, x := 0xFF, y := 0xFF, ctx := (s.kernel e).ctx
                                addr := va, detail := d, cycle := s.cycle }))) ∧
  (∀ g e p, Does .groupHandout (.region g)
    (fun s => (s.region g).kernel = some e ∧ ((s.kernel e).st = .bound ∨ (s.kernel e).st = .running) ∧ s.takesGroups g = true ∧
      lowestFree 0 (s.region g).cols < 4096 ∧ (s.kernel e).firstPending (s.mayRun e g) = some p)
    (fun s =>
      let u := (s.startKernel e).startRegion e g
      let k := u.kernel e
      let u := u.setKernel e { k with groups := Tab.set k.groups p (.running g), broken := k.broken.filter (fun q => q != p) }
      let u := match k.shallowest [3, 4] with
        | some i => u.modRegion g (fun r => { r with unit := some (k.unitOf i p) })
        | none => u
      match (u.region g).allocate (u.ovsz g) { groupWant p with depth := (u.region g).depth } true with
      | .wait => u
      | .exhausted => (u.breakGroups g [p]).kernelFault e (nodeRecord u g (u.region g).origin (u.region g).slot 0 0 0 faultColExh 0)
      | .granted n rg =>
        let t := groupStart (u.region g).slot n p
        ((u.setRegion g rg).modColour g n (fun c => { c with copy := some t })).sendStarts g t)) ∧
  (∀ e, Does .kernelComplete (.kernel e)
    (fun s => (s.kernel e).st = .draining ∧ ((settled e s).kernel e).st = .draining ∧ ((settled e s).kernel e).groupsOver = true ∧
      (settled e s).allApplied e = true)
    (fun s => left e (((settled e s).complete e 0).writeRecord e))) ∧
  (∀ e, Does .kernelComplete (.kernel e) (fun s => (s.kernel e).st = .faulting ∧ ((s.settleGroups e).modKernel e Kernel.abandonPending).allApplied e = true)
    (fun s => left e ((((s.settleGroups e).modKernel e Kernel.abandonPending).complete e 1).writeRecord e))) ∧
  (∀ e, Does .kernelComplete (.kernel e)
    (fun s => (s.kernel e).st = .complete ∧ (s.kernel e).recordWritten = true ∧ (s.kernel e).t3Pending = 0)
    (fun s => s.detachAll e)) ∧
  (∀ e, Does .kernelVisible (.kernel e)
    (fun s => (s.kernel e).st = .complete ∧ (s.kernel e).recordWritten = true ∧ (s.kernel e).t3Pending = 0)
    (fun s => ((s.setKernel e { s.kernel e with st := .visible }).journalState (s.kernel e).seq 1).kernelMessage (s.kernel e) 0)) ∧
  (∀ g, Does .configLoad (.region g)
    (fun s => (s.region g).st = .loading ∧ (s.region g).kernel.isSome = true ∧ (s.region g).until_ ≤ s.cycle)
    (fun s => s.modRegion g (fun r => { r with st := .resident }))) ∧
  (let due := fun (h k n : Nat) (l : Load) (s : State) => s.loads.find? (fun x => x.h == h && x.k == k && x.n == n) = some l ∧
    l.due ≠ 0 ∧ l.due ≤ s.cycle ∧ s.imageWaits (s.region l.region).ctx l.va = false
  let begun := fun (l : Load) (s : State) => { s with loads := dropLoad s.loads l.h l.k l.n }
  let answer := fun (l : Load) (f : LoadFail) (w : Nat) (s : State) => (s.modNode l.h l.k l.n (fun x => { x with holds := x.holds ++
      [{ kind := .status, tok := statusToken l.tok l.k f w, nrec := l.nrec, due := s.cycle, ready := true, col := l.tok.col, pser := 0 }]
        })).push [.event .deferredTokenSend (.node l.h l.k l.n)]
  let loaded := fun (l : Load) (i : Image) (s : State) =>
    (l.prior.foldl (fun s p => s.unbind p) ((begun l s).imageRead ((begun l s).region l.region).ctx l.va)).becomeResident l.region i
  let failed := fun (l : Load) (s : State) =>
    let u := l.prior.foldl (fun s p => s.modRegion p (fun r => if r.st == .loading then { r with st := .resident } else r))
      ((begun l s).imageRead ((begun l s).region l.region).ctx l.va)
    ({ u with regions := Tab.drop u.regions l.region } : State)
  let read := fun (l : Load) (s : State) => (begun l s).loadFrom ((begun l s).region l.region).ctx l.va l.head
      (l.site ((begun l s).slot l.h l.k).region)
  (∀ h k n l i, Does .configLoad (.node h k n) (fun s => due h k n l s ∧ read l s = .ok i ∧ l.dropped = false)
    (fun s => answer l { status := 0, hearth := some 0 } 0 (loaded l i s))) ∧
  (∀ h k n l i, Does .configLoad (.node h k n) (fun s => due h k n l s ∧ read l s = .ok i ∧ l.dropped = true) (loaded l i)) ∧
  (∀ h k n l f d, Does .configLoad (.node h k n)
    (fun s => due h k n l s ∧ read l s = .error f ∧ f.hearth = some d ∧ l.dropped = false)
    (fun s => answer l f d (failed l s))) ∧
  (∀ h k n l f d, Does .configLoad (.node h k n)
    (fun s => due h k n l s ∧ read l s = .error f ∧ f.hearth = some d ∧ l.dropped = true) (failed l)))

/-- R224, R227 to R229: a region that may cover keeps its planes and leaves for its callee; the callee starts at the boundary
after it is in place, and only a Live call colour starts one; after RETG the plane is copied back in 24 cycles and released, and
the caller goes on at the next boundary; TAILG's configuration replaces the running one. -/
def Obligations.CallsGoOn : Prop :=
  (let kept := fun (g : Nat) (r : Region) (h : Nat) (s : State) =>
    let u := s.modSlot h r.slot (fun x =>
      let x := x.abandon r.planeLim (s.diePlanes h + s.otherUps h r.slot)
      { x with planes := { place := .onDie, cfg := { x.cfg with output := x.transpose }, arrivals := [], frozenAt := s.cycle, moving := none
                           stages := s.flights.filter (fun f => f.2.region == g && f.2.h == h) } :: x.planes
               cfg := {}, transpose := none, lift := false })
    ({ u with flights := u.flights.filter (fun f => !(f.2.region == g && f.2.h == h)) } : State).spillExtension h r.slot 0
  let left := fun (g : Nat) (s : State) => (s.region g).hearths.foldl (fun u h => kept g (s.region g) h u) s
  let due := fun (g : Nat) (c : Call) (more : List Call) (s : State) => s.coverReady g = true ∧ (s.region g).calls = c :: more
  (∀ g c more, Does .cover (.region g)
    (fun s => due g c more s ∧ (left g s).heldCallee g { c with saved := (s.region g).cfg } = true)
    (fun s => (left g s).modRegion g (fun r =>
      { r with st := .covering, calls := { c with saved := (s.region g).cfg } :: more, until_ := (left g s).cycle + 24 + 8 }))) ∧
  (∀ g c more, Does .cover (.region g)
    (fun s => due g c more s ∧ (left g s).heldCallee g { c with saved := (s.region g).cfg } = false)
    (fun s => (left g s).freeDelay.2.modRegion g (fun r =>
      { r with st := .covering, calls := { c with saved := (s.region g).cfg } :: more
               until_ := (left g s).freeDelay.2.cycle + 24 + (left g s).freeDelay.1 })))) ∧
  (∀ g c more t a, Does .calleeStart (.region g)
    (fun s => s.regionDue g .covering = true ∧ (s.region g).calls = c :: more ∧ c.dead = false ∧ c.again = none ∧
      (s.colour g c.col).st = .live ∧ s.imageWaits (s.region g).ctx c.va = false ∧ s.placeCallee g c = .ok t ∧ t.entryPresent g c.ex c.ey c.enode = true ∧
      (t.colour g c.col).copy = some a)
    (fun _ => (t.modRegion g (fun r => { r with st := .running, depth := r.depth + 1 })).startEntry g c.ex c.ey c.enode a)) ∧
  (∀ g, Does .rekindle (.region g) (fun s => s.rekindleReady g = true)
    (fun s => ((s.region g).hearths.foldl (fun u h => u.modSlot h (s.region g).slot (fun x => { x with cfg := {} })) s).modRegion g
      (fun r => { r with st := .rekindling, until_ := s.cycle + 23 }))) ∧
  (let due := fun (g : Nat) (c : Call) (s : State) => (s.region g).currentCall = some c ∧ (s.region g).st = .rekindling ∧
      (s.region g).residence = .resident ∧ (s.region g).until_ ≤ s.cycle
  let back := fun (g : Nat) (c : Call) (s : State) =>
    ((s.region g).hearths.foldl (fun s' h => s'.thawSlot g h (s.region g).slot (nextBoundary s.cycle))
      (s.modRegion g (fun r => { r with cfg := c.saved }))).modRegion g (fun r =>
        { r with st := .resuming, depth := r.depth - 1, calls := (s.region g).calls.tail, until_ := nextBoundary s.cycle })
  let ups := fun (g : Nat) (s : State) => (s.region g).hearths.map (fun h => (.event .planeMoveUp (.slot h (s.region g).slot) : Turn)) ++
    ((s.region g).hearths.filter (fun h => s.restoreBad h (s.region g).slot 0 false)).map (fun h =>
      (.event (.uncorrectableError (.plane h (s.region g).slot)) .module : Turn))
  (∀ g c, Does .callerResume (.region g) (fun s => due g c s ∧ c.returned = none) (fun s => (back g c s).push (ups g s))) ∧
  (∀ g c t, Does .callerResume (.region g) (fun s => due g c s ∧ c.returned = some t)
    (fun s => (((back g c s).modNode c.h (s.region g).slot c.n (fun x => { x with holds := x.holds ++
      [{ kind := .returned, tok := { t with ctx := (s.region g).slot }, nrec := c.nrec, due := nextBoundary s.cycle, ready := true
         col := t.col, pser := 0 }] })).modColour g t.col (fun x => x.inPipe (nextBoundary s.cycle))).push (ups g s)))) ∧
  (∀ g, Does .callerResume (.region g) (fun s => s.regionDue g .resuming = true)
    (fun s => s.modRegion g (fun r => { r with st := .running }))) ∧
  (∀ g w, Does .tailgSwap (.region g)
    (fun s => (s.region g).tailg = some w ∧ s.regionDue g .loadingInPlace = true)
    (fun s =>
      let u : State := { s with flights := s.flights.filter (fun f => f.2.region != g) }
      (((u.installBlocks g w.image).modRegion g (fun r => { r with st := .running, tailg := none, cfgid := if (u.region g).depth = 0 then w.image.cfgid else (u.region g).cfgid })).startEntry
        g w.ex w.ey w.enode w.tok)))

/-- R226, R235 to R237, R409: planes move between the die, the state die and T1 in 192 cycles a move where the rules let them; a
region that is being evicted freezes at a boundary where its hearths have an image slot, and is gone 832 cycles later, and
comes back in as many. DEDUCED: which plane moves down where a slot has none on the die (log 33), and over which occupants an
evicted region comes back (log 107). -/
def Obligations.PlanesAndImagesMove : Prop :=
  (let now := fun (h k : Nat) (s : State) => (s.abandonUps h k).finishMoves h k
  let sends := fun (h j : Nat) (s : State) => s.modSlot h j (fun x =>
    { x with planes := changeLast (fun p => p.rests .onDie) (fun p => { p with moving := some (.stateDie, s.cycle + 192) }) x.planes })
  let wants := fun (h k : Nat) (s : State) => (now h k s).wantsPlane h k = true ∧ (now h k s).movingDown h .stateDie = false
  (∀ h k, Does .planeMoveDown (.slot h k)
    (fun s => wants h k s ∧ (now h k s).statePlanes h < 4 ∧ ((now h k s).slot h k).planes.any (fun p => p.rests .onDie) = true)
    (fun s => sends h k (now h k s))) ∧
  (∀ h k j, Does .planeMoveDown (.slot h k)
    (fun s => wants h k s ∧ (now h k s).statePlanes h < 4 ∧ ((now h k s).slot h k).planes.any (fun p => p.rests .onDie) = false ∧
      (now h k s).oldestSpare h = some j)
    (fun s => sends h j (now h k s))) ∧
  (∀ h k, Does .planeMoveDown (.slot h k) (fun s => wants h k s ∧ 4 ≤ (now h k s).statePlanes h)
    (fun s => (now h k s).moveToT1 h)) ∧
  (∀ h k, Does .planeMoveDown (.slot h k) (fun s => (now h k s).wantsPlane h k = false) (now h k)) ∧
  (∀ h k, Does .planeMoveUp (.slot h k) (fun s => (s.slot h k).planes.any (fun p => p.moving.isSome) = true) (now h k)) ∧
  (let rises := fun (h k g : Nat) (p : Plane) (s : State) => (s.slot h k).planes.any (fun p => p.moving.isSome) = false ∧
    ((now h k s).slot h k).region = some g ∧ ((now h k s).slot h k).lift = true ∧ ((now h k s).slot h k).movingUp = 0 ∧
    ((now h k s).slot h k).onDie < ((now h k s).region g).planeLim ∧ (now h k s).diePlanes h + (now h k s).otherUps h k < 4 ∧
    ((now h k s).slot h k).planes.find? (fun p => p.place != .onDie && p.moving.isNone) = some p
  let rise := fun (n : Nat) (s : State) (ps : List Plane) =>
    changeFirst (fun p => p.place != .onDie && p.moving.isNone) (fun p => { p with moving := some (.onDie, s.cycle + n) }) ps
  let up := fun (h k n : Nat) (s : State) => s.modSlot h k (fun x => { x with lift := false, planes := rise n s x.planes })
  (∀ h k g p, Does .planeMoveUp (.slot h k) (fun s => rises h k g p s ∧ p.place = .stateDie) (fun s => up h k 192 (now h k s))) ∧
  (∀ h k g p, Does .planeMoveUp (.slot h k) (fun s => rises h k g p s ∧ p.place = .t1)
    (fun s => up h k (now h k s).freeDelay.1 (now h k s).freeDelay.2)))) ∧
  (∀ g, Does .contextEvict (.region g)
    (fun s => (s.region g).residence = .evicting ∧ (s.region g).image = [] ∧ s.mayFreeze g = true ∧ s.imageRoom g g = true)
    (fun s => s.freezeRegion g)) ∧
  (∀ g, Does .contextEvict (.region g)
    (fun s => (s.region g).residence = .evicting ∧ (s.region g).image ≠ [] ∧ (s.region g).until_ ≤ s.cycle)
    (fun s => (s.clearSlots g).modRegion g (fun r => { r with residence := .evicted }))) ∧
  (∀ g, Does .contextRestore (.region g)
    (fun s => (s.region g).residence = .restoring ∧ s.cycle % 16 = 0 ∧ (s.region g).until_ ≤ s.cycle)
    (fun s => s.finishRestore g)) ∧
  (∀ out g, Does .contextSwap (.swap out g)
    (fun s => (s.region out).residence = .evicting ∧ (s.region out).image = [] ∧ (s.region g).residence = .evicted ∧
      s.mayFreeze out = true ∧ s.imageRoom out g = true ∧ ((s.freezeRegion out).finishEvict out).mayRestore g (s.region out).slot = true)
    (fun s => ((s.freezeRegion out).finishEvict out).startRestore g (s.region out).slot))

/-! ### Engines -/

/-- R59, R274, R276, R289: at the end of its start, an entry of a kind that its engine does not perform, known or not, ends with
BADKIND, one that was withdrawn with WITHDRAWN, and one with a reserved header bit set with BADARG. -/
def Obligations.EntriesTurnedAwayEnd : Prop :=
  (∀ (i : Instr) (k : BitVec 8) (e : EntryHeader) (b : BitVec 320) (s : State) (q : Nat) (c : CurrentEntry),
      entryOf i = some (k, e, b) → s.turn q c → c.begun = false →
      (performs q k.toNat = false → exec i s = .next (s.finishEntry q 0x02)) ∧
      (i.wellFormed = true → performs q k.toNat = true → (s.queue q).withdrew c = true → exec i s = .next (s.finishEntry q 0x01)) ∧
      (i.wellFormed = true → performs q k.toNat = true → (s.queue q).withdrew c = false → headerBad e = true →
        exec i s = .next (s.finishEntry q 0x03))) ∧
  (∀ (k : BitVec 8) (e : EntryHeader) (b : BitVec 320) (s : State) (q : Nat) (c : CurrentEntry), s.turn q c →
    exec (.badkind e k b) s = .next (s.finishEntry q 0x02))

/-- R281 to R286: COPY, FILL, GATH and SCAT move one granule of the destination a turn and end when all is moved; a COPY whose writes
would reach source bytes that it has still to read takes them all first; COPYT and PERM write one access of the destination from
the elements that it takes from the source, then the scale words, and end when all are written; COPYT of a square onto itself exchanges
a block with its mirror block a turn. The model's choice: 4w granules a block count in the turn, which takes 2w cycles (log 78). -/
def Obligations.CopiesMoveData : Prop :=
  let m := fun (s : State) (q : Nat) => (s.queue q).ctx
  let size := fun (a i n : Nat) => min (64 - (a + i) % 64) (n - i)
  let reads := fun (s t : State) (q va n : Nat) (bs : List (Byte × Bool)) => s.readRange (m s q) va n = .ok (t, bs)
  let tainted := fun (bs : List (Byte × Bool)) => bs.any (fun x => x.2)
  let row := fun (b : RowsBody) (c : CurrentEntry) => c.latch.getD (c.progress / b.rsz.toNat) 0 * b.rstr.toNat + c.progress % b.rsz.toNat
  let dense := fun (b : RowsBody) (c : CurrentEntry) => c.progress / b.rsz.toNat * b.rsz.toNat + c.progress % b.rsz.toNat
  let rows := fun (i : RowsBody → EntryHeader → Instr) (from' to' : RowsBody → CurrentEntry → Nat) =>
    ∀ (b : RowsBody) (t u : State) (bs : List (Byte × Bool)), Runs (i b)
      (fun s q c =>
        let n := size (to' b c - c.progress % b.rsz.toNat) (c.progress % b.rsz.toNat) b.rsz.toNat
        c.progress < b.nidx.toNat * b.rsz.toNat ∧ reads s t q (from' b c) n bs ∧ t.writeTagged (m s q) (to' b c) bs = .ok u)
      (fun _ q c => u.movedOn q (size (to' b c - c.progress % b.rsz.toNat) (c.progress % b.rsz.toNat) b.rsz.toNat) (tainted bs))
  (∀ (b : XferBody) (t u : State) (bs : List (Byte × Bool)), Runs (fun e => .copy e b)
    (fun s q c => c.progress < b.len.toNat ∧ copyAhead b = false ∧ c.buffer = [] ∧
      reads s t q (b.src.toNat + c.progress) (size b.dst.toNat c.progress b.len.toNat) bs ∧
      t.writeTagged (m s q) (b.dst.toNat + c.progress) bs = .ok u)
    (fun _ q c => (u.movedOn q (size b.dst.toNat c.progress b.len.toNat) (tainted bs)).risePointer q b.wpc
      (size b.dst.toNat c.progress b.len.toNat))) ∧
  (∀ (b : XferBody) (t : State) (bs : List (Byte × Bool)), Runs (fun e => .copy e b)
    (fun s q c => c.progress < b.len.toNat ∧ copyAhead b = true ∧ c.buffer = [] ∧
      s.atLength (fun s' => s'.readRange (m s q) b.src.toNat b.len.toNat) = .ok (t, bs))
    (fun _ q _ => t.modEntry q (fun x => { x with buffer := bs }))) ∧
  (∀ (b : XferBody) (u : State), Runs (fun e => .copy e b)
    (fun s q c => c.progress < b.len.toNat ∧ c.buffer ≠ [] ∧
      s.writeTagged (m s q) (b.dst.toNat + c.progress) ((c.buffer.drop c.progress).take (size b.dst.toNat c.progress b.len.toNat)) = .ok u)
    (fun _ q c => (u.movedOn q (size b.dst.toNat c.progress b.len.toNat)
      (tainted ((c.buffer.drop c.progress).take (size b.dst.toNat c.progress b.len.toNat)))).risePointer q b.wpc
      (size b.dst.toNat c.progress b.len.toNat))) ∧
  (∀ b : XferBody, EndsWith (fun e => .copy e b) (fun _ _ c => b.len.toNat ≤ c.progress) CurrentEntry.moved) ∧
  (∀ (b : XferBody) (u : State), Runs (fun e => .fill e b)
    (fun s q c => c.progress < b.len.toNat ∧ s.engineWrite (m s q) (b.dst.toNat + c.progress)
      (List.replicate (size b.dst.toNat c.progress b.len.toNat / 4) (leBytes 4 b.pat.toNat)).flatten false = .ok u)
    (fun _ q c => (u.movedOn q (size b.dst.toNat c.progress b.len.toNat) false).risePointer q b.wpc
      (size b.dst.toNat c.progress b.len.toNat))) ∧
  (∀ b : XferBody, EndsWith (fun e => .fill e b) (fun _ _ c => b.len.toNat ≤ c.progress) CurrentEntry.moved) ∧
  rows (fun b e => .gath e b) (fun b c => b.src.toNat + row b c) (fun b c => b.dst.toNat + dense b c) ∧
  rows (fun b e => .scat e b) (fun b c => b.src.toNat + dense b c) (fun b c => b.dst.toNat + row b c) ∧
  (∀ b : RowsBody, EndsWith (fun e => .gath e b) (fun _ _ c => b.nidx.toNat * b.rsz.toNat ≤ c.progress) CurrentEntry.moved) ∧
  (∀ b : RowsBody, EndsWith (fun e => .scat e b) (fun _ _ c => b.nidx.toNat * b.rsz.toNat ≤ c.progress) CurrentEntry.moved) ∧
  (let src := fun (c : CurrentEntry) => c.latch.getD 0 0
  let dst := fun (c : CurrentEntry) => c.latch.getD 1 0
  let width := fun (c : CurrentEntry) => elemWidth (tdFmt (dst c))
  let scales := fun (c : CurrentEntry) => if hasScale (dst c) = true then scaleBytes (dst c) / 2 else 0
  let tensor := fun (i : TensorBody → EntryHeader → Instr) (code : TensorBody → Nat) (unit : Nat) (ok : CurrentEntry → Prop) =>
    let run := fun (c : CurrentEntry) => c.progress / runAccesses (dst c) unit
    let from' := fun (c : CurrentEntry) => c.progress % runAccesses (dst c) unit * (8 * unit)
    let wanted := fun (b : TensorBody) (c : CurrentEntry) =>
      (List.range (min (8 * unit) ((writeRuns (dst c)).2 - from' c) / width c)).map (fun i =>
        (runElem (dst c) (run c) (from' c + i * width c)).map (fun p => permSource (code b) p.1 p.2.1 p.2.2))
    (∀ (b : TensorBody) (t u : State) (xs : List (Nat × Bool)), Runs (i b)
      (fun s q c => ok c ∧ c.progress < elementAccesses (dst c) unit ∧
        s.atLength (readElems (m s q) (src c) (wanted b c)) = .ok (t, xs) ∧
        t.writeElements (m s q) (tdBase (dst c) + runStart (dst c) (run c) / 8 + from' c / 8) (width c) xs = .ok u)
      (fun _ q _ => u.movedOn q 1 (xs.any (fun x => x.2)))) ∧
    (∀ (b : TensorBody) (t u : State) (bs : List Byte) (p : Bool), Runs (i b)
      (fun s q c => ok c ∧ elementAccesses (dst c) unit ≤ c.progress ∧ c.progress < elementAccesses (dst c) unit + scales c ∧
        (let k := c.progress - elementAccesses (dst c) unit
        let n0 := cdiv (tdExt0 (dst c)) 32
        let n1 := cdiv (tdExt1 (dst c)) 32
        let p' := permSource (code b) (k / n0 / n1) (32 * (k / n0 % n1)) (32 * (k % n0))
        s.engineRead (m s q) (scaleAddr (src c) p'.1 p'.2.1 p'.2.2) 2 = .ok (t, bs, p)) ∧
        t.engineWrite (m s q) (tdScb (dst c) + 2 * (c.progress - elementAccesses (dst c) unit)) bs p = .ok u)
      (fun _ q _ => u.movedOn q 1 p)) ∧
    (∀ b : TensorBody, EndsWith (i b) (fun _ _ c => ok c ∧ elementAccesses (dst c) unit + scales c ≤ c.progress) CurrentEntry.moved)
  tensor (fun b e => .copyt e b) (fun _ => 0) 64 (fun c => inPlace (src c) (dst c) = false) ∧
  tensor (fun b e => .perm e b) (fun b => b.pcode.toNat) 4 (fun _ => True) ∧
  (let e := fun (c : CurrentEntry) => if tdLay (src c) % 2 = 0 then src c else dst c
  let ew := fun (c : CurrentEntry) => elemWidth (tdFmt (e c))
  (∀ (b : TensorBody) (i j : Nat) (u : State) (p : Bool), Runs (fun e => .copyt e b)
    (fun s q c => inPlace (src c) (dst c) = true ∧ (mirrorPairs (tdExt0 (e c) / 32))[c.progress]? = some (i, j) ∧
      s.atLength (fun s' => s'.exchangeBlocks (m s q) (e c) i j) = .ok (u, p))
    (fun s q c => ((u.movedOn q 1 p).countGranules q (4 * ew c - 1)).modEntry q (fun x => { x with busyUntil := s.cycle + 2 * ew c }))) ∧
  (∀ b : TensorBody, EndsWith (fun e => .copyt e b)
    (fun _ _ c => inPlace (src c) (dst c) = true ∧ (mirrorPairs (tdExt0 (e c) / 32))[c.progress]? = none) CurrentEntry.moved)))

/-- R297 to R302: COPYR and KVPATCH rewrite a slot by five writes: its tag with V = 0, the key row and the value row granule by
granule, the retention byte, and its tag with V = 1. A KVPATCH passes a stale slot, clears the vacated slots' tags, and ends with
KVSTALE if it passed one. COMPACT walks the positions, reads a slot's tag again after its rows, and writes the rows that it keeps. The
model's choices: a rewrite waits while another queue is in the middle of one of the same slot (log 122), how many cycles a moved
granule takes (log 69), and that a slot's rows are read at once (log 109). -/
def Obligations.SequencesAreRewritten : Prop :=
  let m := fun (s : State) (q : Nat) => (s.queue q).ctx
  let sd := fun (c : CurrentEntry) => c.latch.getD 0 0
  let step := fun (q n off : Nat) (s : State) => s.modEntry q (fun x => { x with progress := n, off := off })
  let piece := fun (va n : Nat) (c : CurrentEntry) => min (64 - (va + c.off) % 64) (n - c.off)
  let part := fun (va n skip : Nat) (c : CurrentEntry) => (c.buffer.drop (skip + c.off)).take (piece va n c)
  let wrote := fun (va n skip cost next q : Nat) (c : CurrentEntry) (u : State) =>
    let v := (u.countGranules q 1).modEntry q (fun x =>
      { x with busyUntil := (u.countGranules q 1).cycle + cost, poison := x.poison || (part va n skip c).any (fun y => y.2) })
    if c.off + piece va n c = n then step q next 0 v else step q c.progress (c.off + piece va n c) v
  let free := fun (s : State) (q : Nat) (c : CurrentEntry) (p : Nat) => s.slotTaken q (sdTga (sd c) + 4 * sdSlot (sd c) p) = false
  let opens := fun (q p : Nat) (c : CurrentEntry) (_ : List (Byte × Bool)) (t u : State) =>
    t.retag (m t q) (sdTga (sd c) + 4 * sdSlot (sd c) p) (fun w => tagWord false (bits w 30 16 + 1) (bits w 15 0)) = .ok u
  let opened := fun (q p : Nat) (c : CurrentEntry) (buf : List (Byte × Bool)) (u : State) =>
    step q (c.progress + 1) 0 (u.modEntry q (fun x => { x with buffer := buf, slot := some (sdTagAddr (sd c) (sdSlot (sd c) p)) }))
  let writes := fun {β : Type} (i : β → EntryHeader → Instr) (n : β → Nat) (pos : β → CurrentEntry → Nat) (val : β → Bool) (cost : β → Nat)
      (done : Nat → State → State) =>
    let at_ := fun (b : β) (k : Nat) (c : CurrentEntry) => c.progress % 5 = k ∧ c.progress / 5 < n b
    let base := fun (c : CurrentEntry) => c.progress / 5 * 5
    let key := fun (b : β) (c : CurrentEntry) => sdKb (sd c) + sdSlot (sd c) (pos b c) * sdRsz (sd c)
    let value := fun (b : β) (c : CurrentEntry) => sdVb (sd c) + sdSlot (sd c) (pos b c) * sdRsz (sd c)
    (∀ (b : β) (u : State), Runs (i b)
      (fun s q c => at_ b 1 c ∧ s.writeTagged (m s q) (key b c + c.off) (part (key b c) (sdRsz (sd c)) 0 c) = .ok u)
      (fun _ q c => wrote (key b c) (sdRsz (sd c)) 0 (cost b) (base c + (if val b then 2 else 3)) q c u)) ∧
    (∀ (b : β) (u : State), Runs (i b)
      (fun s q c => at_ b 2 c ∧ s.writeTagged (m s q) (value b c + c.off) (part (value b c) (sdRsz (sd c)) (sdRsz (sd c)) c) = .ok u)
      (fun _ q c => wrote (value b c) (sdRsz (sd c)) (sdRsz (sd c)) 0 (base c + 3) q c u)) ∧
    (∀ (b : β) (u : State), Runs (i b)
      (fun s q c => at_ b 3 c ∧
        s.writeTagged (m s q) (sdRta (sd c) + sdSlot (sd c) (pos b c)) (c.buffer.drop (c.buffer.length - 1)) = .ok u)
      (fun _ q c => step q (base c + 4) 0 (u.modEntry q (fun x =>
        { x with poison := x.poison || (c.buffer.drop (c.buffer.length - 1)).any (fun y => y.2) })))) ∧
    (∀ (b : β) (u : State), Runs (i b)
      (fun s q c => at_ b 4 c ∧ s.retag (m s q) (sdTga (sd c) + 4 * sdSlot (sd c) (pos b c))
        (fun w => tagWord true (bits w 30 16 + 1) (sdGen (sd c) (pos b c))) = .ok u)
      (fun _ q c => done q (step q (base c + 5) 0 (u.modEntry q (fun x => { x with slot := none })))))
  let copied := fun (b : CopyrBody) (c : CurrentEntry) => b.dpos.toNat + c.progress / 5
  let source := fun (b : PatchBody) (c : CurrentEntry) => patchOrder b (c.progress / 5)
  let moved := fun (b : PatchBody) (c : CurrentEntry) => (source b c + patchShift b : Int).toNat
  (∀ (b : CopyrBody) (t u : State) (buf : List (Byte × Bool)), Runs (fun e => .copyr e b)
    (fun s q c => c.progress % 5 = 0 ∧ c.progress / 5 < b.nrow.toNat ∧ free s q c (copied b c) ∧
      s.atLength (fun v => v.copyrRows (m v q) (sd c) b (c.progress / 5)) = .ok (t, buf) ∧ opens q (copied b c) c buf t u)
    (fun _ q c => opened q (copied b c) c buf u)) ∧
  writes (fun (b : CopyrBody) e => .copyr e b) (fun b => b.nrow.toNat) copied (fun b => b.srcv != 0) (fun _ => 1) (fun _ s => s) ∧
  (∀ b : CopyrBody, EndsWith (fun e => .copyr e b) (fun _ _ c => b.nrow.toNat ≤ c.progress / 5) CurrentEntry.moved) ∧
  (let due := fun (b : PatchBody) (s : State) (q : Nat) (c : CurrentEntry) => c.progress % 5 = 0 ∧ c.progress / 5 < patchCount b ∧
    free s q c (source b c) ∧ free s q c (moved b c)
  let tag := fun (b : PatchBody) (s t : State) (q : Nat) (c : CurrentEntry) (bs : List Byte) (p : Bool) =>
    s.engineRead (m s q) (sdTga (sd c) + 4 * sdSlot (sd c) (source b c)) 4 = .ok (t, bs, p)
  (∀ (b : PatchBody) (t : State) (bs : List Byte) (p : Bool), Runs (fun e => .kvpatch e b)
    (fun s q c => due b s q c ∧ tag b s t q c bs p ∧ tagHolds (sd c) (source b c) (leNat bs) = false)
    (fun _ q c => step q (c.progress + 5) 0 (t.modEntry q (fun x => { x with r1 := x.r1 + 1 })))) ∧
  (∀ (b : PatchBody) (t u v : State) (bs : List Byte) (p : Bool) (buf : List (Byte × Bool)), Runs (fun e => .kvpatch e b)
    (fun s q c => due b s q c ∧ tag b s t q c bs p ∧ tagHolds (sd c) (source b c) (leNat bs) = true ∧
      t.atLength (fun w => w.slotRows (m s q) (sd c) (sdSlot (sd c) (source b c)) (if b.rot = 1 then some (patchShift b) else none)) =
        .ok (u, buf) ∧ opens q (moved b c) c buf u v)
    (fun _ q c => opened q (moved b c) c buf v))) ∧
  writes (fun (b : PatchBody) e => .kvpatch e b) patchCount moved (fun _ => true) (fun b => b.rot.toNat)
    (fun q s => s.modEntry q (fun x => { x with r0 := x.r0 + 1 })) ∧
  (∀ (b : PatchBody) (u : State), Runs (fun e => .kvpatch e b)
    (fun s q c => patchCount b ≤ c.progress / 5 ∧ c.progress - 5 * patchCount b < (patchShift b).natAbs ∧
      free s q c (patchVacated b (c.progress - 5 * patchCount b)) ∧
      s.retag (m s q) (sdTga (sd c) + 4 * sdSlot (sd c) (patchVacated b (c.progress - 5 * patchCount b)))
        (fun w => tagWord false (bits w 30 16 + 1) 0) = .ok u)
    (fun _ q c => step q (c.progress + 1) 0 u)) ∧
  (∀ (b : PatchBody), EndsWith (fun e => .kvpatch e b)
    (fun _ _ c => patchCount b ≤ c.progress / 5 ∧ (patchShift b).natAbs ≤ c.progress - 5 * patchCount b)
    (fun c => if c.r1 = 0 then c.moved else 0x11)) ∧
  (let thr := fun (c : CurrentEntry) => c.latch.getD 1 0
  let i := fun (c : CurrentEntry) => c.progress / 5
  let p := fun (b : CompactBody) (c : CurrentEntry) => compactPosition b (sd c) (i c)
  let tagAt := fun (b : CompactBody) (c : CurrentEntry) => sdTga (sd c) + 4 * sdSlot (sd c) (p b c)
  let at_ := fun (b : CompactBody) (k : Nat) (c : CurrentEntry) => c.progress % 5 = k ∧ i c < compactWalked b (sd c)
  let out := fun (base : BitVec 64) (c : CurrentEntry) => base.toNat + c.r0 * sdRsz (sd c)
  (∀ (b : CompactBody) (t u : State) (bs : List Byte) (z : Bool) (buf : List (Byte × Bool)), Runs (fun e => .compact e b)
    (fun s q c => at_ b 0 c ∧ (step q (5 * i c) 0 s).engineRead (m (step q (5 * i c) 0 s) q) (tagAt b c) 4 = .ok (t, bs, z) ∧
      m (step q (5 * i c) 0 s) q = m s q ∧
      tagHolds (sd c) (p b c) (leNat bs) = true ∧
      t.atLength (fun w => w.slotRows (m s q) (sd c) (sdSlot (sd c) (p b c)) none) = .ok (u, buf))
    (fun _ q c => step q (5 * i c + 1) 0 (u.modEntry q (fun x => { x with buffer := buf, lastRead := leNat bs })))) ∧
  (∀ (b : CompactBody) (t : State) (bs : List Byte) (z : Bool), Runs (fun e => .compact e b)
    (fun s q c => at_ b 1 c ∧ s.engineRead (m s q) (tagAt b c) 4 = .ok (t, bs, z) ∧ leNat bs ≠ c.lastRead)
    (fun _ q c => step q (5 * i c) 0 t)) ∧
  (∀ (b : CompactBody) (t : State) (bs : List Byte) (z : Bool), Runs (fun e => .compact e b)
    (fun s q c => at_ b 1 c ∧ s.engineRead (m s q) (tagAt b c) 4 = .ok (t, bs, z) ∧ leNat bs = c.lastRead ∧
      (p b c < sdSink (sd c) ∨ thr c ≤ leNat ((c.buffer.drop (c.buffer.length - 1)).map (fun x => x.1))))
    (fun _ q c => step q (5 * i c + 2) 0 t)) ∧
  (∀ (b : CompactBody) (t : State) (bs : List Byte) (z : Bool), Runs (fun e => .compact e b)
    (fun s q c => at_ b 1 c ∧ s.engineRead (m s q) (tagAt b c) 4 = .ok (t, bs, z) ∧ leNat bs = c.lastRead ∧
      sdSink (sd c) ≤ p b c ∧ leNat ((c.buffer.drop (c.buffer.length - 1)).map (fun x => x.1)) < thr c)
    (fun _ q c => step q (5 * (i c + 1)) 0 t)) ∧
  (∀ (b : CompactBody) (u : State), Runs (fun e => .compact e b)
    (fun s q c => at_ b 2 c ∧ s.writeTagged (m s q) (out b.outk c + c.off) (part (out b.outk c) (sdRsz (sd c)) 0 c) = .ok u)
    (fun _ q c => wrote (out b.outk c) (sdRsz (sd c)) 0 0 (5 * i c + (if b.outv = 0 then 4 else 3)) q c u)) ∧
  (∀ (b : CompactBody) (u : State), Runs (fun e => .compact e b)
    (fun s q c => at_ b 3 c ∧ s.writeTagged (m s q) (out b.outv c + c.off) (part (out b.outv c) (sdRsz (sd c)) (sdRsz (sd c)) c) = .ok u)
    (fun _ q c => wrote (out b.outv c) (sdRsz (sd c)) (sdRsz (sd c)) 0 (5 * i c + 4) q c u)) ∧
  (∀ (b : CompactBody) (u : State), Runs (fun e => .compact e b)
    (fun s q c => at_ b 4 c ∧ b.outp ≠ 0 ∧ s.engineWrite (m s q) (b.outp.toNat + 4 * c.r0) (leBytes 4 (p b c)) false = .ok u)
    (fun _ q c => step q (5 * (i c + 1)) 0 (u.modEntry q (fun x => { x with r0 := x.r0 + 1 })))) ∧
  (∀ b : CompactBody, Runs (fun e => .compact e b) (fun _ _ c => at_ b 4 c ∧ b.outp = 0)
    (fun s q c => step q (5 * (i c + 1)) 0 (s.modEntry q (fun x => { x with r0 := x.r0 + 1 })))) ∧
  (∀ (b : CompactBody), EndsWith (fun e => .compact e b) (fun _ _ c => compactWalked b (sd c) ≤ i c) CurrentEntry.moved))

/-- R325, R330 to R332: PROMO and DEMO copy the page granule by granule, copy again the granules that writes have met, and then switch
its leaf, with a forward that waits for the activations that are alive; a promotion that comes too late takes LATE, or is
discarded where its entry says so; they end when the forward is gone; XLINV drops cached translations after a while, a free time (log
4). The model's choices: writes are held in the cycle of the switch (log 75) and LATE stands before POISON (log 97, with log 77). -/
def Obligations.PagesMove : Prop :=
  let granule := fun (i : PageBody → EntryHeader → Instr) => ∀ b : PageBody, Runs (i b)
    (fun s _ c => c.switched = none ∧ c.progress < c.latch.getD 2 0 ∧ s.preparedRange (c.latch.getD 1 0 + c.progress) 64 = false ∧
      s.portRoom (moveBytes (c.latch.getD 1 0 + c.progress) (b.dpa.toNat + c.progress)) = true)
    (fun s q c => ((s.copyGranule (c.latch.getD 0 0) (c.latch.getD 1 0 + c.progress) (b.dpa.toNat + c.progress)).usePort
      (moveBytes (c.latch.getD 1 0 + c.progress) (b.dpa.toNat + c.progress))).movedOn q 64
      (s.moveTaint (c.latch.getD 0 0) (c.latch.getD 1 0 + c.progress)))
  let ends := fun (i : PageBody → EntryHeader → Instr) => ∀ (b : PageBody) (st : Nat), EndsWith (i b)
    (fun s q c => c.switched = some st ∧ ∀ f ∈ s.forwards, f.queue ≠ q) (fun _ => st)
  let la := fun (c : CurrentEntry) => c.latch.getD 0 0
  let old := fun (c : CurrentEntry) => c.latch.getD 1 0
  let again := fun (b : PageBody) (s : State) (q : Nat) (c : CurrentEntry) =>
    let u := (s.marked q).foldl (fun u g => (u.modEntry q (fun x => { x with poison := x.poison || u.moveTaint (la c) (64 * g) })).copyGranule
      (la c) (64 * g) (b.dpa.toNat + (64 * g - old c))) s
    ({ u with moves := u.moves.filter (fun x => x.1 != q) } : State)
  let turned := fun (b : PageBody) (s : State) (q : Nat) (c : CurrentEntry) =>
    let u := ((again b s q c).putLeaf (la c) (fun e => switchedLeaf e b.dpa.toNat (c.latch.getD 3 0))).dropPage (s.queue q).ctx b.va.toNat
    ({ u with forwards := u.forwards ++ [{ old := old c, new := b.dpa.toNat, size := c.latch.getD 2 0, waits := u.alive, queue := q }] }
      : State)
  let full := fun (c : CurrentEntry) => c.switched = none ∧ c.latch.getD 2 0 ≤ c.progress
  let late := fun (b : PageBody) (s : State) (q : Nat) (c : CurrentEntry) => (again b s q c).tooLate (s.queue q).ctx b.krtag.toNat
  let switches := fun (i : PageBody → EntryHeader → Instr) =>
    (∀ b : PageBody, Runs (i b) (fun s q c => full c ∧ late b s q c = false)
      (fun s q c => (turned b s q c).modEntry q (fun x => { x with switched := some x.moved }))) ∧
    (∀ b : PageBody, Runs (i b) (fun s q c => full c ∧ late b s q c = true ∧ b.flags.getLsbD 0 = false)
      (fun s q c => ({ turned b s q c with promoLate := min 0xFFFFFFFF ((turned b s q c).promoLate + 1) } : State).modEntry q
        (fun x => { x with switched := some 0x19 }))) ∧
    (∀ b : PageBody, Runs (i b) (fun s q c => full c ∧ late b s q c = true ∧ b.flags.getLsbD 0 = true)
      (fun s q c => ((again b s q c).putLeaf (la c) (fun e => withMig e 0)).finishEntry q 0x1A))
  switches (fun b e => .promo e b) ∧ switches (fun b e => .demo e b) ∧
  granule (fun b e => .promo e b) ∧ granule (fun b e => .demo e b) ∧ ends (fun b e => .promo e b) ∧ ends (fun b e => .demo e b) ∧
  (∀ (s : State) (la a b : Nat), s.forwards = [] → bit (s.fetchLe la 8) 2 = false →
    (s.copyGranule la a b).mem = (s.put b (s.fetch a 64) (s.tainted a 64)).mem ∧
    (s.copyGranule la a b).poison = (s.put b (s.fetch a 64) (s.tainted a 64)).poison) ∧
  (∀ q, Does .forwardRetire (.queue q) (fun _ => True)
    (fun s => { s with forwards := s.forwards.filter (fun f => !(f.queue == q && f.waits.all (fun x =>
      !((s.colour x.1 x.2.1).held && (s.colour x.1 x.2.1).ser == x.2.2)))) })) ∧
  (∀ v : BitVec 64, Does (.xlinv v) .module (fun s => s.xlinvBusy = none ∧ xlinvBad v.toNat = false)
    (fun s => { s.freeDelay.2 with xlinv := v.toNat % 2 ^ 63, xlinvBusy := some (s.cycle + s.freeDelay.1) })) ∧
  (∀ t, Does .xlinvComplete .module (fun s => s.xlinvBusy = some t ∧ t ≤ s.cycle)
    (fun s =>
      let m := bits s.xlinv 58 56
      let va := bits s.xlinv 54 16 * 65536
      { (if bit s.xlinv 59 then s.mapCaches (fun t => t.withoutContext m) else s.dropPage m va) with xlinvBusy := none }))

/-- R357 to R360: a collective takes what its neighbours have sent and writes a final chunk that it holds; ALLGA's member reads its own
chunk and sends it on; a member of the others reads its own chunk, folds it with what has come in the order of the topology, and
passes the partial on or, where it is complete, rounds it once; then it announces its end, and completes when every member
has, with a map of the incomplete chunks. A SEND takes the oldest RECV that matches, gives its bytes to the link, and ends when they
have performed; a RECV writes what has come; a member that is lost is noted once. The model's choices: what a turn does (log 56), the
messages of the peers (log 73), and that an older SEND with the same tag goes first (log 137). -/
def Obligations.CollectivesGoOn : Prop :=
  let m := fun (s : State) (q : Nat) => (s.queue q).ctx
  let heard := fun (s : State) (q : Nat) (c : CurrentEntry) => c.neighbours.foldl (fun u r => u.takeFrom q r) s
  let u := fun (s : State) (q : Nat) (c : CurrentEntry) => (heard s q c).workEntry q
  let works := fun (s : State) (q : Nat) (c c' : CurrentEntry) => ((heard s q c).queue q).cur = some c' ∧ c'.coll.mismatch = false ∧
    c'.ready = true ∧ c'.coll.began = true
  let all3 := fun (ok : State → Nat → CurrentEntry → Prop) (act : State → Nat → CurrentEntry → State) => ∀ b : CollBody,
    Runs (fun e => .redsc e b) ok act ∧ Runs (fun e => .allga e b) ok act ∧ Runs (fun e => .allrd e b) ok act
  let after := fun (c : CurrentEntry) => (c.rank + 1) % c.nm
  let quiet := fun (c : CurrentEntry) => c.coll.results = [] ∧
    ((c.gathering = .allGather ∧ c.coll.passed.contains c.rank = true) ∨ (c.gathering ≠ .allGather ∧ c.nextChunk = none))
  let folds := fun (c : CurrentEntry) (i : Nat) (got : List Part) => c.coll.results = [] ∧ c.gathering ≠ .allGather ∧ c.nextChunk = some (i, got)
  let op := fun (c : CurrentEntry) => foldElem c.collBody.op.toNat (tdFmt c.piece)
  let own := fun (c : CurrentEntry) (xs : List Nat) => xs.map (asPartial (tdFmt c.piece))
  let folded := fun (c : CurrentEntry) (got : List Part) (xs : List Nat) => match c.ring, got with
    | true, g :: _ => List.zipWith (op c) g.elems (own c xs)
    | _, _ => got.foldl (fun p g => List.zipWith (op c) p g.elems) (own c xs)
  let tainted := fun (got : List Part) (p : Bool) => p || got.any (fun g => g.tnt)
  let noted := fun (q i : Nat) (c : CurrentEntry) (got : List Part) (v : State) =>
    (v.contribute q i (c.entered got)).modColl q (fun y => { y with passed := addOnce y.passed i })
  let ending := fun (s : State) (q : Nat) (c c' : CurrentEntry) => works s q c c' ∧ quiet c'
  (∀ c' i xs p rest v, all3
    (fun s q c => works s q c c' ∧ c'.coll.results = (i, xs, p) :: rest ∧
      (u s q c).putElems (m (u s q c) q) c'.piece (c'.chunk i).1 xs p = .ok v)
    (fun _ q _ => ((v.modColl q (fun y => { y with results := y.results.tail, complete := addOnce y.complete i })).modEntry q
      (fun x => { x with poison := x.poison || p })).countGranules q (cdiv (xs.length * elemWidth (tdFmt c'.piece)) 512))) ∧
  (∀ c' v xs p, all3
    (fun s q c => works s q c c' ∧ c'.coll.results = [] ∧ c'.gathering = .allGather ∧ c'.coll.passed.contains c'.rank = false ∧
      (u s q c).ownChunk (m (u s q c) q) c' c'.rank = .ok (v, xs, p))
    (fun _ q _ =>
      let w := (v.contribute q c'.rank (2 ^ c'.rank)).modColl q (fun y =>
        { y with passed := addOnce y.passed c'.rank, complete := addOnce y.complete c'.rank })
      let item : FlueItem := .piece c'.collBody.ctag c'.rank c'.rank true xs p (2 ^ c'.rank)
      if c'.ring then w.sendTo c' (after c') item else w.sendAround c' none item)) ∧
  (∀ c' i got v xs p, all3
    (fun s q c => works s q c c' ∧ folds c' i got ∧ (u s q c).ownChunk (m (u s q c) q) c' i = .ok (v, xs, p) ∧
      (if c'.ring then c'.rank ≠ i else c'.rank ≠ 0))
    (fun _ q _ => (noted q i c' got v).sendTo c' (if c'.ring then after c' else (c'.rank - 1) / 2)
      (.piece c'.collBody.ctag c'.rank i false (folded c' got xs) (tainted got p) (c'.entered got)))) ∧
  (∀ c' i got v xs p, all3
    (fun s q c => works s q c c' ∧ folds c' i got ∧ (u s q c).ownChunk (m (u s q c) q) c' i = .ok (v, xs, p) ∧ c'.ring = true ∧ c'.rank = i)
    (fun _ q _ =>
      let out := (folded c' got xs).map (asFinal (tdFmt c'.piece))
      let w := (noted q i c' got v).modColl q (fun x => { x with results := x.results ++ [(i, out, tainted got p)] })
      if c'.gathering = .allReduce then
        w.sendTo c' (after c') (.piece c'.collBody.ctag c'.rank i true out (tainted got p) (2 ^ c'.nm - 1))
      else w)) ∧
  (∀ c' i got v xs p, all3
    (fun s q c => works s q c c' ∧ folds c' i got ∧ (u s q c).ownChunk (m (u s q c) q) c' i = .ok (v, xs, p) ∧ c'.ring = false ∧ c'.rank = 0)
    (fun _ q _ => (noted q i c' got v).takeFinal q c' 0 i ((folded c' got xs).map (asFinal (tdFmt c'.piece))) (tainted got p) (2 ^ c'.nm - 1))) ∧
  (∀ c', all3 (fun s q c => ending s q c c' ∧ c'.coll.isOver = false ∧ c'.exhausted = true)
    (fun s q c => ((u s q c).modColl q (fun x => { x with isOver := true, ends := x.ends ++ [(c'.rank, c'.ownMaps)] })).sendAround c' none
      (.ended c'.collBody.ctag c'.rank c'.ownMaps))) ∧
  (∀ c', all3 (fun s q c => ending s q c c' ∧ ((c'.coll.isOver = false ∧ c'.exhausted = false) ∨ (c'.coll.isOver = true ∧ c'.allEnded = false)))
    (fun s q c => (u s q c).waitEntry q)) ∧
  (∀ c', all3 (fun s q c => ending s q c c' ∧ c'.coll.isOver = true ∧ c'.allEnded = true)
    (fun s q c => ((((u s q c).leaveColl c').workEntry q).modEntry q (fun x => { x with r0 := c'.finalMap })).finishEntry q
      (if c'.finalMap = 0 then c'.moved else 0x0B))) ∧
  (let taken := fun (s : State) (q : Nat) (rest : List Posted) => ({ s with posted := rest } : State).workEntry q
  (∀ (b : PeerBody) (p : Posted) (rest : List Posted), Runs (fun e => .send e b)
    (fun s q c => c.coll.id = none ∧ s.matchPosted q c = some (p, rest) ∧ p.len = b.len.toNat)
    (fun s q _ => (taken s q rest).modColl q (fun x => { x with id := some p.id }))) ∧
  (∀ (b : PeerBody) (p : Posted) (rest : List Posted), Runs (fun e => .send e b)
    (fun s q c => c.coll.id = none ∧ s.matchPosted q c = some (p, rest) ∧ p.len ≠ b.len.toNat)
    (fun s q _ => ((taken s q rest).flueSend b.link.toNat [.sent p.id b.len.toNat [] false]).finishEntry q 0x03))) ∧
  (∀ (b : PeerBody) (n : Nat) (t : State) (bs : List Byte) (p : Bool), Runs (fun e => .send e b)
    (fun s q c => c.coll.id = some n ∧ c.progress < b.len.toNat ∧ c.coll.lost.contains 0 = false ∧
      s.engineRead (m s q) (b.buf.toNat + c.progress) (min (64 - (b.buf.toNat + c.progress) % 64) (b.len.toNat - c.progress)) =
        .ok (t, bs, p))
    (fun _ q c => (t.flueSend b.link.toNat [.sent n b.len.toNat bs p]).movedOn q
      (min (64 - (b.buf.toNat + c.progress) % 64) (b.len.toNat - c.progress)) p)) ∧
  (∀ (b : PeerBody) (n k l : Nat) (rest : List FlueItem), Runs (fun e => .send e b)
    (fun s _ c => c.coll.id = some n ∧ b.len.toNat ≤ c.progress ∧ s.nextItem c = some (l, .performed k, rest))
    (fun s q c => ((s.modLink l (fun x => { x with inbox := rest })).workEntry q).finishEntry q c.moved)) ∧
  (∀ (b : PeerBody) (k n l : Nat) (bs : List Byte) (p : Bool) (rest : List FlueItem), Runs (fun e => .recv e b)
    (fun s _ c => c.buffer = [] ∧ c.progress < b.len.toNat ∧ s.nextItem c = some (l, .sent k n bs p, rest) ∧ n = b.len.toNat)
    (fun s q _ => ((s.modLink l (fun x => { x with inbox := rest })).workEntry q).modEntry q (fun x =>
      { x with buffer := (bs.take (n - x.progress)).map (fun y => (y, p)) }))) ∧
  (∀ (b : PeerBody) (u : State), Runs (fun e => .recv e b)
    (fun s q c => c.buffer ≠ [] ∧
      s.writeTagged (m s q) (b.buf.toNat + c.progress) (c.buffer.take (min (64 - (b.buf.toNat + c.progress) % 64) c.buffer.length)) = .ok u)
    (fun _ q c =>
      let k := min (64 - (b.buf.toNat + c.progress) % 64) c.buffer.length
      ((u.modEntry q (fun c => { c with buffer := c.buffer.drop k })).movedOn q k ((c.buffer.take k).any (fun x => x.2))).risePointer q
        b.wpc k)) ∧
  (∀ (b : PeerBody) (n : Nat), Runs (fun e => .recv e b)
    (fun _ _ c => c.buffer = [] ∧ b.len.toNat ≤ c.progress ∧ c.coll.id = some n)
    (fun s q c => (s.flueSend b.link.toNat [.performed n]).finishEntry q c.moved)) ∧
  (∀ q r c, Does .collectiveMemberLost (.member q r)
    (fun s => (s.queue q).cur = some c ∧ c.begun = true ∧ c.coll.lost.contains r = false ∧ s.memberGone c r = true)
    (fun s =>
      let u := s.modColl q (fun x => { x with lost := addOnce x.lost r })
      if isCollective c then u.sendAround c (some r) (.lost c.collBody.ctag r) else u))

/-- R287 to R292: a QFENCE completes once the entries that it names have; WDRAW withdraws the kernels and marks the entries that
its tag reaches; SIGNAL writes its word once, or adds to it; WAITV completes when its word compares, reads it again, or ends
with TIMEOUT. DEDUCED (log 67): WDRAW compares the headers of waiting entries as they are when it performs. -/
def Obligations.GeneralCommandsAct : Prop :=
  let m := fun (s : State) (q : Nat) => (s.queue q).ctx
  let met := fun (b : WaitBody) (w : Nat) =>
    match b.cmp.toNat with
    | 0 => b.val.toNat ≤ w
    | 1 => w = b.val.toNat
    | _ => w ≠ b.val.toNat
  let inTime := fun (b : WaitBody) (c : CurrentEntry) (s : State) => b.tmo.toNat = 0 ∨ s.cycle ≤ c.started + b.tmo.toNat
  (∀ b : FenceBody, Runs (fun e => .qfence e b) (fun s _ c => ∀ x ∈ c.names, x.2 < (s.queue x.1).done)
    (fun s q _ => (s.workEntry q).finishEntry q 0x00)) ∧
  (∀ b : WithdrawBody, Runs (fun e => .wdraw e b) (fun _ _ _ => True)
    (fun s q _ =>
      let u := s.tellDies (s.queue q).done q
      let u := (u.tagged (m s q) b.tag.toNat b.mask.toNat).foldl (fun u e => u.withdrawKernel e) u
      ((u.queues.map (fun x => x.1)).foldl (fun u x => u.withdrawQueue (m s q) b.tag.toNat b.mask.toNat x) u).finishEntry q 0x00)) ∧
  (∀ (b : SignalBody) (u : State), Runs (fun e => .signal e b)
    (fun s q c => c.progress = 0 ∧ b.op = 0 ∧ s.engineWrite (m s q) b.va.toNat (leBytes 8 b.val.toNat) false = .ok u)
    (fun _ q _ => u.movedOn q 1 false)) ∧
  (∀ (b : SignalBody) (t u : State) (bs : List Byte) (p : Bool), Runs (fun e => .signal e b)
    (fun s q c => c.progress = 0 ∧ b.op ≠ 0 ∧ s.engineRead (m s q) b.va.toNat 8 = .ok (t, bs, p) ∧
      t.engineWrite (m s q) b.va.toNat (leBytes 8 ((leNat bs + b.val.toNat) % 2 ^ 64)) p = .ok u)
    (fun _ q _ => u.movedOn q 1 p)) ∧
  (∀ b : SignalBody, EndsWith (fun e => .signal e b) (fun _ _ c => c.progress ≠ 0) CurrentEntry.moved) ∧
  (let read := fun (b : WaitBody) (q : Nat) (s t : State) (bs : List Byte) (p : Bool) => s.engineRead (m s q) b.va.toNat 8 = .ok (t, bs, p)
  let known := fun (b : WaitBody) (s t : State) (bs : List Byte) (p : Bool) (q : Nat) (c : CurrentEntry) =>
    inTime b c s ∧ read b q s t bs p
  let again := fun (t : State) (q now : Nat) => (t.modEntry q (fun c => { c with lastRead := now })).waitEntry q
  let rereads := fun (q : Nat) (c : CurrentEntry) (b : WaitBody) (s : State) => (s.queue q).waitv = some (c, b) ∧ (s.queue q).st = .waiting ∧
      (s.queue q).withheld = none ∧ c.lastRead < s.cycle ∧ c.busyUntil ≤ s.cycle
  (∀ (b : WaitBody) (t : State) (bs : List Byte) (p : Bool),
    Runs (fun e => .waitv e b) (fun s q c => (s.queue q).st = .running ∧ known b s t bs p q c ∧ c.poison = false ∧ met b (leNat bs))
      (fun _ q _ => (t.workEntry q).finishEntry q 0x00) ∧
    Runs (fun e => .waitv e b) (fun s q c => (s.queue q).st = .running ∧ known b s t bs p q c ∧ c.poison = false ∧ ¬ met b (leNat bs))
      (fun s q _ => again t q s.cycle) ∧
    Runs (fun e => .waitv e b) (fun s q c => (s.queue q).st = .running ∧ known b s t bs p q c ∧ c.poison = true)
      (fun _ q _ => (t.workEntry q).finishEntry q 0x09)) ∧
  (∀ b : WaitBody, Runs (fun e => .waitv e b) (fun s q c => (s.queue q).st = .running ∧ ¬ inTime b c s)
    (fun s q _ => (s.workEntry q).finishEntry q 0x0A)) ∧
  (∀ q c b t bs p,
    Does .waitvRecheck (.queue q) (fun s => rereads q c b s ∧ known b s t bs p q c ∧ c.poison = false ∧ met b (leNat bs))
      (fun _ => (t.workEntry q).finishEntry q 0x00) ∧
    Does .waitvRecheck (.queue q) (fun s => rereads q c b s ∧ known b s t bs p q c ∧ c.poison = false ∧ ¬ met b (leNat bs))
      (fun s => again t q s.cycle) ∧
    Does .waitvRecheck (.queue q) (fun s => rereads q c b s ∧ known b s t bs p q c ∧ c.poison = true)
      (fun _ => (t.workEntry q).finishEntry q 0x09)) ∧
  (∀ q c b, Does .waitvRecheck (.queue q) (fun s => rereads q c b s ∧ ¬ inTime b c s) (fun s => (s.workEntry q).finishEntry q 0x0A)) ∧
  (∀ q c b, Does .waitvTimeout (.queue q)
    (fun s => (s.queue q).waitv = some (c, b) ∧ b.tmo.toNat ≠ 0 ∧ c.started + b.tmo.toNat ≤ s.cycle)
    (fun s => ((s.modQueue q (fun u => { u with withheld := none })).workEntry q).finishEntry q 0x0A)))

/-! ### Links, host and power -/

/-- R352 to R355, Table 20-1: a link goes from Disabled through Down, Detect, Train and Config to Active, where it signs what its
partner asks and trusts the partner's signature; it takes flits in order, asks again for a bad one, sends again what is asked for, goes
to Recovery at the eighth request for one SEQ, and comes back with a replay or is fenced after three failed retrainings. The model's
choices: an abstract item stands beside a flit's bytes (log 118), the nonce is a free value (log 5), what happens to items of ended
collectives (log 136), a free time stands for lock and convergence (log 72), and inputs act in the cycle in which they come (log 75). -/
def Obligations.LinksGoOn : Prop :=
  let is := fun (a : LinkState) (l : Nat) (s : State) => (s.link l).st = a
  let on := fun (b : LinkState) (l : Nat) (s : State) => (s.modLink l (fun x => { x with since := s.cycle })).moveLink l b
  let wrote := fun (l : Nat) (en fe : Bool) (s : State) => s.setLink l { s.link l with enable := en, fence := fe }
  let signed := fun (s : State) (o : ConfigOffer) =>
    ({ moduleId := s.identity.moduleId, lanes := s.identity.lanes, format := s.identity.format, nonce := o.asks } : ConfigSide)
  let trusted := fun (l : Nat) (o : ConfigOffer) (s : State) => (∃ k, o.key = some k ∧ s.boot.firmware.moduleKeys.contains k = true) ∧
    o.side.nonce = (s.link l).nonce ∧ o.side.format = s.identity.format
  let asked := fun (l n : Nat) (s : State) => Tab.modify 0 (s.link l).retries n (fun k => k + 1)
  (∀ l, Does (.flueEnable true) (.link l) (fun s => (s.link l).st = .disabled) (fun s => (wrote l true false s).moveLink l .down)) ∧
  (∀ l, Does (.flueEnable true) (.link l) (fun s => (s.link l).st ≠ .disabled) (wrote l true false)) ∧
  (∀ l, Does (.flueEnable false) (.link l) (fun s => (s.link l).st = .fenced) (fun s => (wrote l false false s).moveLink l .disabled)) ∧
  (∀ l, Does (.flueEnable false) (.link l) (fun s => (s.link l).st ≠ .fenced) (wrote l false false)) ∧
  (∀ l, Does .flueFence (.link l) (fun s => (s.link l).st ≠ .disabled ∧ (s.link l).st ≠ .fenced)
    (fun s => (wrote l (s.link l).enable true s).fenceLink l)) ∧
  (∀ l, Does .flueFence (.link l) (fun s => (s.link l).st = .disabled ∧ (s.link l).enable = true)
    (fun s => (wrote l true true s).moveLink l .down)) ∧
  (∀ l, Does .flueFence (.link l) (fun s => ((s.link l).st = .disabled ∧ (s.link l).enable = false) ∨ (s.link l).st = .fenced)
    (fun s => wrote l (s.link l).enable true s)) ∧
  (∀ l, Does .electricalIdleExit (.link l) (is .down l) (on .detect l)) ∧
  (∀ l, Does .laneLock (.link l) (is .detect l) (on .train l)) ∧
  (∀ l, Does .equalisationConverge (.link l) (is .train l) (fun s => ((s.modLink l (fun x => { x with since := s.cycle })).chooseNonce l).moveLink l .config)) ∧
  (∀ l, Does .detectTimeout (.link l) (fun s => (s.link l).st = .detect ∧ (s.link l).since + Config.lockLimit ≤ s.cycle)
    (fun s => s.moveLink l .down)) ∧
  (∀ l o, Does (.configExchange o.side o.key o.asks) (.link l) (fun s => (s.link l).st = .config ∧ trusted l o s)
    (fun s => (s.setLink l { s.link l with peer := o.side.moduleId.toNat, offered := some (signed s o), seqOut := 0, seqIn := 4095
                                           replay := [], retries := [], attempts := 0, asked := [], pending := [], inbox := []
                                           skips := [], outbox := [] }).moveLink l .active)) ∧
  (∀ l o, Does (.configExchange o.side o.key o.asks) (.link l) (fun s => (s.link l).st = .config ∧ ¬ trusted l o s)
    (fun s => (s.setLink l { s.link l with offered := some (signed s o) }).fenceLink l)) ∧
  (∀ l f, Does (.flitReceive f) (.link l) (fun s => (s.link l).st = .active ∧ flitGood f = false)
    (fun s => s.setLink l { s.link l with asked := (s.link l).asked ++ [f.seq.toNat]
                                          outbox := (s.link l).outbox ++ [(s.link l).retryFlit f.seq.toNat] })) ∧
  (let ahead := fun (l : Nat) (f : Flit) (s : State) => (s.link l).st = .active ∧ flitGood f = true ∧ f.typ = 0 ∧
      f.seq.toNat = (((s.link l).acked f.ack.toNat).seqIn + 1) % 4096
  let x := fun (l : Nat) (f : Flit) (s : State) => { (s.link l).acked f.ack.toNat with seqIn := f.seq.toNat }
  (∀ l f, Does (.flitReceive f) (.link l) (fun s => ahead l f s ∧ f.payload = []) (fun s => s.setLink l (x l f s))) ∧
  (∀ l f t n id, Does (.flitReceive f) (.link l) (fun s => ahead l f s ∧ f.payload = [.posted t n id])
    (fun s => { s.setLink l (x l f s) with posted := (s.setLink l (x l f s)).posted ++ [{ link := l, mtag := t, len := n, id := id }] })) ∧
  (∀ l f i, (∀ t n id, i ≠ .posted t n id) → itemOpening i = none →
    Does (.flitReceive f) (.link l)
      (fun s => ahead l f s ∧ f.payload = [i] ∧ (s.setLink l (x l f s)).link l = x l f s ∧ (s.setLink l (x l f s)).wanted l i = true)
      (fun s => (s.setLink l (x l f s)).setLink l { x l f s with inbox := (x l f s).inbox ++ [i] }))) ∧
  (∀ l f, Does (.flitReceive f) (.link l) (fun s => (s.link l).st = .active ∧ flitGood f = true ∧ f.typ = 2)
    (fun s => (s.setLink l ((s.link l).acked f.ack.toNat)).push [.event (.retryRequest f.seq.toNat) (.link l)])) ∧
  (∀ l f, Does (.flitReceive f) (.link l)
    (fun s => (s.link l).st = .active ∧ flitGood f = true ∧ f.typ = 0 ∧
      f.seq.toNat ≠ (((s.link l).acked f.ack.toNat).seqIn + 1) % 4096)
    (fun s => s.setLink l ((s.link l).acked f.ack.toNat))) ∧
  (∀ l n, Does (.retryRequest n) (.link l) (fun s => (s.link l).st = .active ∧ Tab.get 0 (asked l n s) n < 8)
    (fun s =>
      let again := ((s.link l).replay.dropWhile (fun f => f.seq.toNat != n)).map (fun f => flitAcking f (s.link l).seqIn)
      s.setLink l { s.link l with retries := asked l n s, outbox := (s.link l).outbox ++ again })) ∧
  (∀ l n, Does (.retryRequest n) (.link l) (fun s => (s.link l).st = .active ∧ 8 ≤ Tab.get 0 (asked l n s) n)
    (fun s => ((s.setLink l { s.link l with retries := asked l n s, attempts := 0 }).chooseNonce l).moveLink l .recovery)) ∧
  (∀ l o, Does (.recoveryRetrain (some o)) (.link l) (fun s => (s.link l).st = .recovery ∧ trusted l o s)
    (fun s =>
      let x := s.link l
      let again := x.replay.map (fun f => flitAcking f x.seqIn)
      (((s.setLink l { x with retries := [], attempts := 0, offered := some (signed s o), outbox := x.outbox ++ again }).moveLink l
        .active).modLink l Link.flush))) ∧
  (∀ l o, Does (.recoveryRetrain o) (.link l)
    (fun s => (s.link l).st = .recovery ∧ (∀ x, o = some x → ¬ trusted l x s) ∧ (s.link l).attempts < 2)
    (fun s => (s.setLink l { s.link l with attempts := (s.link l).attempts + 1 }).chooseNonce l)) ∧
  (∀ l o, Does (.recoveryRetrain o) (.link l)
    (fun s => (s.link l).st = .recovery ∧ (∀ x, o = some x → ¬ trusted l x s) ∧ 2 ≤ (s.link l).attempts)
    (fun s => s.fenceLink l))

/-- R254, R363, R364, R371: doorbells move an enabled pair's indices within its rings, PCTL enables a pair, and each command is
answered with its CID, all but LAUNCH after a journal entry of STATE 2. DEDUCED (log 70): a doorbell of a disabled pair is
discarded, and RELEASE, WITHDRAW and RETIRE act on the newest entry of CTX and RTAG. -/
def Obligations.CommandsAreAnswered : Prop :=
  let answered := fun (p : Nat) (cid : BitVec 32) (status : Nat) (s : State) =>
    (s.setPair p { s.pair p with sqHead := ((s.pair p).sqHead + 1) % (s.pair p).sqSize, blocked := false }).message
      (2 ^ 8 * status + 2 ^ 32 * cid.toNat) (some p) none
  let waiting := fun (p : Nat) (s : State) => (s.pair p).en = true ∧ (s.pair p).sqHead ≠ (s.pair p).sqTail
  let command := fun (i : Instr) (opc : Nat) (cid : BitVec 32) (go : State → State) =>
    ∀ p, Does i (.pair p) (fun s => waiting p s ∧ s.journalRoom = true) (fun s => go (answered p cid 0
      (s.journal opc p (s.pair p).ctx 2 cid.toNat (s.fetchLe ((s.pair p).headAddr + 8) 8))))
  let kernelOf := fun (m : BitVec 8) (tag : BitVec 32) (f : State → Nat → State) (s : State) =>
    match s.newest m.toNat tag.toNat with
    | some e => f s e
    | none => s
  (∀ p v, Does (.sqTailDoorbell v) (.pair p) (fun s => s.served = true ∧ (s.pair p).en = true ∧ v < (s.pair p).sqSize)
    (fun s => s.setPair p { s.pair p with sqTail := v })) ∧
  (∀ p v, Does (.cqHeadDoorbell v) (.pair p) (fun s => s.served = true ∧ (s.pair p).en = true ∧ v < (s.pair p).cqSize)
    (fun s => s.setPair p { s.pair p with cqHead := v })) ∧
  (∀ p v, Does (.viroftPairEnable v) (.pair p)
    (fun s => s.served = true ∧ (s.pair p).en = false ∧ v < 256 ∧ bits v 6 3 = 0 ∧ bit v 7 = true ∧
      Pair.valid { s.pair p with ctx := bits v 2 0 } = true)
    (fun s => s.setPair p { s.pair p with ctx := bits v 2 0, en := true, sqTail := 0, sqHead := 0, cqHead := 0, cqTail := 0
                                          blocked := false })) ∧
  (∀ p cid lra, let a := fun (s : State) => ({ lra := BitVec.toNat lra, ctx := (s.pair p).ctx, cid := BitVec.toNat cid, pair := some p
                                               parent := none, after := false, at' := false, recompute := none } : Submission)
    Does (.launch cid lra) (.pair p) (fun s => waiting p s ∧ s.journalRoom = true)
      (fun s => (answered p cid 0 s).push [.event (.kernelAccept (a s)) .module])) ∧
  (∀ cid w, command (.resume cid w) 0x02 cid (fun s => s.withNamed w State.resumeNode (fun s q => (s.resumeLink q).resumeEntry q))) ∧
  (∀ cid w, command (.abort cid w) 0x03 cid (fun s => s.withNamed w State.abortNode State.abortEntry)) ∧
  (∀ cid tag m, command (.release cid tag m) 0x04 cid (kernelOf m tag (fun s e =>
    s.modKernel e (fun k => if k.st = .held then { k with st := .ready } else k)))) ∧
  (∀ cid tag m, command (.withdraw cid tag m) 0x05 cid (kernelOf m tag (fun s e => s.withdrawKernel e))) ∧
  (∀ cid tag m, command (.retire cid tag m) 0x06 cid (kernelOf m tag State.retireKernel)) ∧
  (∀ cid (m : BitVec 8), command (.ctxres cid m) 0x07 cid (fun s =>
    if m.toNat < 8 ∧ (s.context m.toNat).st = .halted then
      (s.modContext m.toNat (fun c => { c with st := .idle, halting := false })).releaseEvicted m.toNat
    else s)) ∧
  (∀ p cid opc, Does (.unknownCommand cid opc) (.pair p) (waiting p) (answered p cid 1))

/-- R270, R311, R312, R341, R363, R366, R368, R371, R373: what a host write of a register does while the module is served. R366,
R373: a host read of the register space answers over CXL.io from phase 4 on, and in the failed state, and nothing before; it
gives each byte of a register low byte first, and zero at an address that no register or latched copy covers. That a read is a
function of the state, for which no opcode stands, is the model's form (log 125). DEDUCED (log 76): a write of part of
ATT_NONCE starts a report. -/
def Obligations.HostWritesAct : Prop :=
  (let served := fun (s : State) => s.served = true
  Does (.snapTrig 1) .module served (fun s => s.latch) ∧
  (∀ v, v ≠ 1 → Does (.snapTrig v) .module served (fun s => s)) ∧
  (∀ n, Does (.attNonce n) .module served (fun s => { s with attNonce := n, attDone := false, attCount := s.attCount + 1 })) ∧
  (∀ v : BitVec 64, v.toNat % 65536 = 0 → Does (.jrnlBase v) .module (fun s => served s ∧ s.phase = 4)
    (fun s => { s with jrnlBase := v.toNat })) ∧
  (∀ v : BitVec 32, 10 ≤ v.toNat → v.toNat ≤ 20 → Does (.jrnlSize v) .module (fun s => served s ∧ s.phase = 4)
    (fun s => { s with jrnlSize := v.toNat })) ∧
  (∀ v : BitVec 32, Does (.pwrLim v) .module served
    (fun s => { s with pwrLim := if v.toNat < 600 then 600 else if 2400 < v.toNat then 2400 else v.toNat })) ∧
  (∀ q, Does (.queueEnWrite true) (.queue q)
    (fun s => served s ∧ (s.queue q).en = false ∧ s.fencedDies.contains (q / 128) = false ∧ (s.queue q).withheld = none ∧
      (s.queue q).cur = none ∧ (s.queue q).done < (s.queue q).tailn)
    (fun s => s.setQueue q { s.queue q with en := true, st := .running })) ∧
  (∀ q, Does (.queueEnWrite false) (.queue q)
    (fun s => served s ∧ (s.queue q).st ≠ .running)
    (fun s => s.setQueue q { s.queue q with en := false, st := .disabled })) ∧
  Does (.counterClear 0x100000300) .module served (fun s => { s with strikeStrk := 0, strikeRoll := 0 }) ∧
  Does (.counterClear 0x100000304) .module served (fun s => { s with snapInc := false, snapOvf := false, snapCnt := 0 }) ∧
  Does (.counterClear 0x100000308) .module served (fun s => { s with promoLate := 0 }) ∧
  (∀ m, m < 8 → Does (.counterClear (0x100001018 + 0x40 * m)) .module served
    (fun s => s.modContext m (fun c => { c with accSpill := 0 }))) ∧
  (let at_ := fun (o : Nat) (bs : List Byte) (ok : State → Prop) (act : State → State) =>
    Does (.registerWrite (0x100000000 + o) bs) .module (fun s => served s ∧ ok s) act
  let value := fun (o a n : Nat) (bs : List Byte) (s : State) => leNat (overwrite (leBytes n (s.heldIn a n)) (o - a) (bs.take (a + n - o)))
  (∀ o bs a n, bs ≠ [] → registerAt o = some (a, n) → bs.length ≤ a + n - o →
    at_ o bs (fun _ => True) (fun s => s.writeRegister a (value o a n bs s))) ∧
  (∀ o bs a n, registerAt o = some (a, n) → o < a + n → a + n - o < bs.length →
    at_ o bs (fun _ => True) (fun s =>
      writeBytesAt (bs.length - 1) (a + n) (bs.drop (a + n - o)) (s.writeRegister a (value o a n bs s)))) ∧
  (∀ o x, registerAt o = none → at_ o [x] (fun _ => True) (fun s => s)) ∧
  (∀ o x bs, registerAt o = none → at_ o (x :: bs) (fun _ => True) (fun s => writeBytesAt bs.length (o + 1) bs s)) ∧
  (∀ a bs, a < 0x100000000 → Does (.registerWrite a bs) .module served (fun s => s)) ∧
  (∀ (s : State) (o v : Nat) (i : Instr) (l : Locus), registerStep o v = some (i, l) → (o < 0x3000 ∨ 0x3060 ≤ o) →
    s.writeRegister o v = s.push [.event i l]) ∧
  (∀ (s : State) (m v : Nat), m < 8 → s.idle m = true →
    s.writeRegister (0x2000 + 8 * m) v = s.modContext m (fun c => { c with ptroot := BitVec.ofNat 64 v &&& 0x000FFFFFFFFF0001 })) ∧
  (∀ (s : State) (m v : Nat), m < 8 → s.idle m = false → s.writeRegister (0x2000 + 8 * m) v = s) ∧
  (∀ (s : State) (q i v : Nat), q < 512 → i < 4 →
    s.writeRegister (0x400000 + 64 * q + 8 * i) v = s.modQueue q (fun u => u.write i v))) ∧
  (∀ on, Does (.thermalThrottle on) .module (fun _ => True) (fun s => { s with throttled := on }))) ∧
  (∀ (s : State) (a n : Nat), (s.cxlUp = false ∨ s.phase < 4) → s.mmioRead a n = none) ∧
  (∀ (s : State) (a n i : Nat), s.cxlUp = true → (s.phase = 4 ∨ s.phase = 5 ∨ s.phase = 15) → i < n →
    ∃ bs, s.mmioRead a n = some bs ∧ bs.length = n ∧ bs.getD i 0 = s.registerByte (a + i)) ∧
  (let covers := fun (r : Nat × Nat × Nat) (a : Nat) => r.1 ≤ a ∧ a < r.1 + r.2.1
  let latched := fun (s : State) (a : Nat) => ∃ c ∈ s.snapCopies, c.1 ≤ a ∧ c.2 / 256 ^ (a - c.1) % 256 ≠ 0
  (∀ (s : State) (a : Nat), (∀ r ∈ s.registers, ¬ covers r a) → ¬ latched s a → s.registerByte a = 0) ∧
  (∀ (s : State) (r : Nat × Nat × Nat) (i : Nat), r ∈ s.registers → i < r.2.1 →
    (∀ q ∈ s.registers, covers q (r.1 + i) → q = r) → ¬ latched s (r.1 + i) →
    s.registerByte (r.1 + i) = BitVec.ofNat 8 (r.2.2 / 256 ^ i))) ∧
  (∀ (s : State) (a w v : Nat),
    (a, w, v) = (0x100000000, 4, s.bootSt) ∨ (a, w, v) = (0x100000300, 4, s.strikeStrk + 2 ^ 16 * s.strikeRoll) ∨
    (a, w, v) = (0x100000304, 4, s.snapTmo) ∨ (a, w, v) = (0x100000308, 4, s.promoLate) ∨ (a, w, v) = (0x10000030C, 4, 128) ∨
    (a, w, v) = (0x100008000, 8, s.jrnlBase) ∨ (a, w, v) = (0x100008010, 8, s.jrnlNext) ∨ (a, w, v) = (0x100009000, 4, s.pwrLim) →
    v % 256 ^ w ≠ 0 → (a, w, v % 256 ^ w) ∈ s.registers)

/-- R366, R367, R372: power, boot, the host link and what goes out over it. The model's choices: phases 0 to 3 of power-up are one
step that keeps host memory (log 74), and the report's layout and signature are free values of what R368 says it holds (log
3). -/
def Obligations.HostLinkAndPowerAct : Prop :=
  (∀ a bs, Does (.cxlMemRequest a (some bs) bs.length) .module (fun s => s.served = true ∧ deviceMemory a bs.length = true)
    (fun s => s.put a bs false)) ∧
  (∀ a n, Does (.cxlMemRequest a none n) .module
    (fun s => s.served = true ∧ deviceMemory a n = true ∧ s.preparedRange a n = false)
    (fun s => { s with cxlReplies := s.cxlReplies ++ [(a, s.fetch a n, s.tainted a n)] })) ∧
  Does .cxlLinkUp .module (fun s => s.phase ≠ 0 ∧ s.bootErr = 0) (fun s => { s with cxlUp := true }) ∧
  Does .cxlLinkUp .module (fun s => s.phase ≠ 0 ∧ s.bootErr ≠ 0) (fun s => { s with cxlUp := true, phase := 15 }) ∧
  Does .cxlLinkUp .module (fun s => s.phase = 0) (fun s => s) ∧
  Does .cxlLinkLoss .module (fun _ => True) (fun s => { s with cxlUp := false }) ∧
  (∀ msg p rest, Does .completionEntry .module (fun s => s.cxlUp = true ∧ nextMessage s [] [] s.outgoing = some (msg, p, rest))
    (fun s =>
      let u := s.putPhys ((s.pair p).cqbase + 64 * (s.pair p).cqTail) (leBytes 64 msg.body)
      ({ u with outgoing := rest } : State).setPair p { s.pair p with cqTail := ((s.pair p).cqTail + 1) % (s.pair p).cqSize })) ∧
  Does .attReport .module (fun s => s.attDone = false ∧ s.attCount ≠ 0)
    (fun s => 
      let byte := Config.reportByte s.boot.firmware.bodyDigest s.bootSt s.topology s.attNonce s.deviceKey
      { s with attDone := true, attReport := (List.range reportSize).map byte }) ∧
  (∀ s : State, s.cur = .module → ∃ t, exec .powerOnReset s = .next t ∧
    t.phase = (s.boot.result s.romDigest s.minVersion).1 ∧ t.bootErr = (s.boot.result s.romDigest s.minVersion).2 ∧
    t.boot = s.boot ∧ t.romDigest = s.romDigest ∧ t.minVersion = s.minVersion ∧ t.identity = s.identity ∧ t.attDone = false ∧
    t.jrnlNext = 0 ∧ t.cxlUp = false ∧ t.regions = [] ∧ t.slots = [] ∧ t.kernels = [] ∧ t.cycle = 0 ∧
    (∀ c ∈ t.mem, c ∈ s.mem ∧ tierOf c.1 = some .t3)) ∧
  Does .bootReady .module (fun s => s.phase = 4 ∧ s.cxlUp = true ∧ s.journalValid = true) (fun s => { s with phase := 5 }) ∧
  (∀ s : State, s.cur = .module → ∃ t, exec .thermalShutdown s = .next t ∧
    t.mem = ((List.range 4).foldl (fun u d => u.fenceDie d) s).mem.filter (fun c => !inT1 c.1) ∧
    t.regions = ((List.range 4).foldl (fun u d => u.fenceDie d) s).regions)
end

