-- ==== Sys2Proof/Laws/State.lean ====
section
/-! SUPPORT. What each update of the state leaves as it was, field by field, and what an accessor reads after an update. -/

namespace Sys2Proof.Machine

/-! ### Tables -/

theorem Tab.get_set_same {α : Type} (d : α) (t : Tab α) (i : Nat) (x : α) : Tab.get d (Tab.set t i x) i = x := by
  induction t with
  | nil => simp [Tab.set, Tab.get]
  | cons e t ih =>
    obtain ⟨k, v⟩ := e
    simp only [Tab.set]
    split
    · simp [Tab.get]
    · split
      · simp [Tab.get]
      · rename_i h _
        simp [Tab.get, h, ih]

theorem Tab.get_set_other {α : Type} (d : α) (t : Tab α) (i j : Nat) (x : α) (h : i ≠ j) :
    Tab.get d (Tab.set t i x) j = Tab.get d t j := by
  induction t with
  | nil => simp [Tab.set, Tab.get, h]
  | cons e t ih =>
    obtain ⟨k, v⟩ := e
    simp only [Tab.set]
    split
    · rename_i hk
      subst hk
      simp [Tab.get, h]
    · split
      · simp [Tab.get, h]
      · simp [Tab.get, ih]

/-! ### `setSlot` -/

@[simp] theorem State.setSlot_cycle (s : State) (h k : Nat) (x : SlotState) : (s.setSlot h k x).cycle = s.cycle := rfl
@[simp] theorem State.setSlot_agenda (s : State) (h k : Nat) (x : SlotState) : (s.setSlot h k x).agenda = s.agenda := rfl
@[simp] theorem State.setSlot_cur (s : State) (h k : Nat) (x : SlotState) : (s.setSlot h k x).cur = s.cur := rfl
@[simp] theorem State.setSlot_inputs (s : State) (h k : Nat) (x : SlotState) : (s.setSlot h k x).inputs = s.inputs := rfl
@[simp] theorem State.setSlot_free (s : State) (h k : Nat) (x : SlotState) : (s.setSlot h k x).free = s.free := rfl
@[simp] theorem State.setSlot_unacked (s : State) (h k : Nat) (x : SlotState) : (s.setSlot h k x).unacked = s.unacked := rfl
@[simp] theorem State.setSlot_badWords (s : State) (h k : Nat) (x : SlotState) : (s.setSlot h k x).badWords = s.badWords := rfl
@[simp] theorem State.setSlot_misreads (s : State) (h k : Nat) (x : SlotState) : (s.setSlot h k x).misreads = s.misreads := rfl
@[simp] theorem State.setSlot_windows (s : State) (h k : Nat) (x : SlotState) : (s.setSlot h k x).windows = s.windows := rfl
@[simp] theorem State.setSlot_nextId (s : State) (h k : Nat) (x : SlotState) : (s.setSlot h k x).nextId = s.nextId := rfl
@[simp] theorem State.setSlot_mem (s : State) (h k : Nat) (x : SlotState) : (s.setSlot h k x).mem = s.mem := rfl
@[simp] theorem State.setSlot_poison (s : State) (h k : Nat) (x : SlotState) : (s.setSlot h k x).poison = s.poison := rfl
@[simp] theorem State.setSlot_hearths (s : State) (h k : Nat) (x : SlotState) : (s.setSlot h k x).hearths = s.hearths := rfl
@[simp] theorem State.setSlot_regions (s : State) (h k : Nat) (x : SlotState) : (s.setSlot h k x).regions = s.regions := rfl
@[simp] theorem State.setSlot_flights (s : State) (h k : Nat) (x : SlotState) : (s.setSlot h k x).flights = s.flights := rfl
@[simp] theorem State.setSlot_messages (s : State) (h k : Nat) (x : SlotState) : (s.setSlot h k x).messages = s.messages := rfl
@[simp] theorem State.setSlot_meshErrors (s : State) (h k : Nat) (x : SlotState) : (s.setSlot h k x).meshErrors = s.meshErrors := rfl
@[simp] theorem State.setSlot_loads (s : State) (h k : Nat) (x : SlotState) : (s.setSlot h k x).loads = s.loads := rfl
@[simp] theorem State.setSlot_contexts (s : State) (h k : Nat) (x : SlotState) : (s.setSlot h k x).contexts = s.contexts := rfl
@[simp] theorem State.setSlot_kernels (s : State) (h k : Nat) (x : SlotState) : (s.setSlot h k x).kernels = s.kernels := rfl
@[simp] theorem State.setSlot_queues (s : State) (h k : Nat) (x : SlotState) : (s.setSlot h k x).queues = s.queues := rfl
@[simp] theorem State.setSlot_engines (s : State) (h k : Nat) (x : SlotState) : (s.setSlot h k x).engines = s.engines := rfl
@[simp] theorem State.setSlot_forwards (s : State) (h k : Nat) (x : SlotState) : (s.setSlot h k x).forwards = s.forwards := rfl
@[simp] theorem State.setSlot_moves (s : State) (h k : Nat) (x : SlotState) : (s.setSlot h k x).moves = s.moves := rfl
@[simp] theorem State.setSlot_pointers (s : State) (h k : Nat) (x : SlotState) : (s.setSlot h k x).pointers = s.pointers := rfl
@[simp] theorem State.setSlot_links (s : State) (h k : Nat) (x : SlotState) : (s.setSlot h k x).links = s.links := rfl
@[simp] theorem State.setSlot_posted (s : State) (h k : Nat) (x : SlotState) : (s.setSlot h k x).posted = s.posted := rfl
@[simp] theorem State.setSlot_pairs (s : State) (h k : Nat) (x : SlotState) : (s.setSlot h k x).pairs = s.pairs := rfl
@[simp] theorem State.setSlot_outgoing (s : State) (h k : Nat) (x : SlotState) : (s.setSlot h k x).outgoing = s.outgoing := rfl
@[simp] theorem State.setSlot_strikes (s : State) (h k : Nat) (x : SlotState) : (s.setSlot h k x).strikes = s.strikes := rfl
@[simp] theorem State.setSlot_reports (s : State) (h k : Nat) (x : SlotState) : (s.setSlot h k x).reports = s.reports := rfl
@[simp] theorem State.setSlot_traffic (s : State) (h k : Nat) (x : SlotState) : (s.setSlot h k x).traffic = s.traffic := rfl
@[simp] theorem State.setSlot_long (s : State) (h k : Nat) (x : SlotState) : (s.setSlot h k x).long = s.long := rfl
@[simp] theorem State.setSlot_drained (s : State) (h k : Nat) (x : SlotState) : (s.setSlot h k x).drained = s.drained := rfl
@[simp] theorem State.setSlot_commits (s : State) (h k : Nat) (x : SlotState) : (s.setSlot h k x).commits = s.commits := rfl
@[simp] theorem State.setSlot_waiting (s : State) (h k : Nat) (x : SlotState) : (s.setSlot h k x).waiting = s.waiting := rfl
@[simp] theorem State.setSlot_accepted (s : State) (h k : Nat) (x : SlotState) : (s.setSlot h k x).accepted = s.accepted := rfl
@[simp] theorem State.setSlot_failing (s : State) (h k : Nat) (x : SlotState) : (s.setSlot h k x).failing = s.failing := rfl
@[simp] theorem State.setSlot_fencedDies (s : State) (h k : Nat) (x : SlotState) : (s.setSlot h k x).fencedDies = s.fencedDies := rfl
@[simp] theorem State.setSlot_master (s : State) (h k : Nat) (x : SlotState) : (s.setSlot h k x).master = s.master := rfl
@[simp] theorem State.setSlot_missed (s : State) (h k : Nat) (x : SlotState) : (s.setSlot h k x).missed = s.missed := rfl
@[simp] theorem State.setSlot_silent (s : State) (h k : Nat) (x : SlotState) : (s.setSlot h k x).silent = s.silent := rfl
@[simp] theorem State.setSlot_election (s : State) (h k : Nat) (x : SlotState) : (s.setSlot h k x).election = s.election := rfl
@[simp] theorem State.setSlot_phase (s : State) (h k : Nat) (x : SlotState) : (s.setSlot h k x).phase = s.phase := rfl
@[simp] theorem State.setSlot_bootErr (s : State) (h k : Nat) (x : SlotState) : (s.setSlot h k x).bootErr = s.bootErr := rfl
@[simp] theorem State.setSlot_boot (s : State) (h k : Nat) (x : SlotState) : (s.setSlot h k x).boot = s.boot := rfl
@[simp] theorem State.setSlot_romDigest (s : State) (h k : Nat) (x : SlotState) : (s.setSlot h k x).romDigest = s.romDigest := rfl
@[simp] theorem State.setSlot_minVersion (s : State) (h k : Nat) (x : SlotState) : (s.setSlot h k x).minVersion = s.minVersion := rfl
@[simp] theorem State.setSlot_identity (s : State) (h k : Nat) (x : SlotState) : (s.setSlot h k x).identity = s.identity := rfl
@[simp] theorem State.setSlot_deviceKey (s : State) (h k : Nat) (x : SlotState) : (s.setSlot h k x).deviceKey = s.deviceKey := rfl
@[simp] theorem State.setSlot_cxlUp (s : State) (h k : Nat) (x : SlotState) : (s.setSlot h k x).cxlUp = s.cxlUp := rfl
@[simp] theorem State.setSlot_cxlReplies (s : State) (h k : Nat) (x : SlotState) : (s.setSlot h k x).cxlReplies = s.cxlReplies := rfl
@[simp] theorem State.setSlot_strikeStrk (s : State) (h k : Nat) (x : SlotState) : (s.setSlot h k x).strikeStrk = s.strikeStrk := rfl
@[simp] theorem State.setSlot_strikeRoll (s : State) (h k : Nat) (x : SlotState) : (s.setSlot h k x).strikeRoll = s.strikeRoll := rfl
@[simp] theorem State.setSlot_promoLate (s : State) (h k : Nat) (x : SlotState) : (s.setSlot h k x).promoLate = s.promoLate := rfl
@[simp] theorem State.setSlot_snapInc (s : State) (h k : Nat) (x : SlotState) : (s.setSlot h k x).snapInc = s.snapInc := rfl
@[simp] theorem State.setSlot_snapOvf (s : State) (h k : Nat) (x : SlotState) : (s.setSlot h k x).snapOvf = s.snapOvf := rfl
@[simp] theorem State.setSlot_snapCnt (s : State) (h k : Nat) (x : SlotState) : (s.setSlot h k x).snapCnt = s.snapCnt := rfl
@[simp] theorem State.setSlot_snapCyc (s : State) (h k : Nat) (x : SlotState) : (s.setSlot h k x).snapCyc = s.snapCyc := rfl
@[simp] theorem State.setSlot_snapCopies (s : State) (h k : Nat) (x : SlotState) : (s.setSlot h k x).snapCopies = s.snapCopies := rfl
@[simp] theorem State.setSlot_xlinv (s : State) (h k : Nat) (x : SlotState) : (s.setSlot h k x).xlinv = s.xlinv := rfl
@[simp] theorem State.setSlot_xlinvBusy (s : State) (h k : Nat) (x : SlotState) : (s.setSlot h k x).xlinvBusy = s.xlinvBusy := rfl
@[simp] theorem State.setSlot_caches (s : State) (h k : Nat) (x : SlotState) : (s.setSlot h k x).caches = s.caches := rfl
@[simp] theorem State.setSlot_jrnlBase (s : State) (h k : Nat) (x : SlotState) : (s.setSlot h k x).jrnlBase = s.jrnlBase := rfl
@[simp] theorem State.setSlot_jrnlSize (s : State) (h k : Nat) (x : SlotState) : (s.setSlot h k x).jrnlSize = s.jrnlSize := rfl
@[simp] theorem State.setSlot_jrnlNext (s : State) (h k : Nat) (x : SlotState) : (s.setSlot h k x).jrnlNext = s.jrnlNext := rfl
@[simp] theorem State.setSlot_pwrLim (s : State) (h k : Nat) (x : SlotState) : (s.setSlot h k x).pwrLim = s.pwrLim := rfl
@[simp] theorem State.setSlot_throttled (s : State) (h k : Nat) (x : SlotState) : (s.setSlot h k x).throttled = s.throttled := rfl
@[simp] theorem State.setSlot_attNonce (s : State) (h k : Nat) (x : SlotState) : (s.setSlot h k x).attNonce = s.attNonce := rfl
@[simp] theorem State.setSlot_attDone (s : State) (h k : Nat) (x : SlotState) : (s.setSlot h k x).attDone = s.attDone := rfl
@[simp] theorem State.setSlot_attCount (s : State) (h k : Nat) (x : SlotState) : (s.setSlot h k x).attCount = s.attCount := rfl
@[simp] theorem State.setSlot_attReport (s : State) (h k : Nat) (x : SlotState) : (s.setSlot h k x).attReport = s.attReport := rfl

/-! ### `setRegion` -/

@[simp] theorem State.setRegion_cycle (s : State) (g : Nat) (x : Region) : (s.setRegion g x).cycle = s.cycle := rfl
@[simp] theorem State.setRegion_agenda (s : State) (g : Nat) (x : Region) : (s.setRegion g x).agenda = s.agenda := rfl
@[simp] theorem State.setRegion_cur (s : State) (g : Nat) (x : Region) : (s.setRegion g x).cur = s.cur := rfl
@[simp] theorem State.setRegion_inputs (s : State) (g : Nat) (x : Region) : (s.setRegion g x).inputs = s.inputs := rfl
@[simp] theorem State.setRegion_free (s : State) (g : Nat) (x : Region) : (s.setRegion g x).free = s.free := rfl
@[simp] theorem State.setRegion_unacked (s : State) (g : Nat) (x : Region) : (s.setRegion g x).unacked = s.unacked := rfl
@[simp] theorem State.setRegion_badWords (s : State) (g : Nat) (x : Region) : (s.setRegion g x).badWords = s.badWords := rfl
@[simp] theorem State.setRegion_misreads (s : State) (g : Nat) (x : Region) : (s.setRegion g x).misreads = s.misreads := rfl
@[simp] theorem State.setRegion_windows (s : State) (g : Nat) (x : Region) : (s.setRegion g x).windows = s.windows := rfl
@[simp] theorem State.setRegion_nextId (s : State) (g : Nat) (x : Region) : (s.setRegion g x).nextId = s.nextId := rfl
@[simp] theorem State.setRegion_mem (s : State) (g : Nat) (x : Region) : (s.setRegion g x).mem = s.mem := rfl
@[simp] theorem State.setRegion_poison (s : State) (g : Nat) (x : Region) : (s.setRegion g x).poison = s.poison := rfl
@[simp] theorem State.setRegion_hearths (s : State) (g : Nat) (x : Region) : (s.setRegion g x).hearths = s.hearths := rfl
@[simp] theorem State.setRegion_slots (s : State) (g : Nat) (x : Region) : (s.setRegion g x).slots = s.slots := rfl
@[simp] theorem State.setRegion_flights (s : State) (g : Nat) (x : Region) : (s.setRegion g x).flights = s.flights := rfl
@[simp] theorem State.setRegion_messages (s : State) (g : Nat) (x : Region) : (s.setRegion g x).messages = s.messages := rfl
@[simp] theorem State.setRegion_meshErrors (s : State) (g : Nat) (x : Region) : (s.setRegion g x).meshErrors = s.meshErrors := rfl
@[simp] theorem State.setRegion_loads (s : State) (g : Nat) (x : Region) : (s.setRegion g x).loads = s.loads := rfl
@[simp] theorem State.setRegion_contexts (s : State) (g : Nat) (x : Region) : (s.setRegion g x).contexts = s.contexts := rfl
@[simp] theorem State.setRegion_kernels (s : State) (g : Nat) (x : Region) : (s.setRegion g x).kernels = s.kernels := rfl
@[simp] theorem State.setRegion_queues (s : State) (g : Nat) (x : Region) : (s.setRegion g x).queues = s.queues := rfl
@[simp] theorem State.setRegion_engines (s : State) (g : Nat) (x : Region) : (s.setRegion g x).engines = s.engines := rfl
@[simp] theorem State.setRegion_forwards (s : State) (g : Nat) (x : Region) : (s.setRegion g x).forwards = s.forwards := rfl
@[simp] theorem State.setRegion_moves (s : State) (g : Nat) (x : Region) : (s.setRegion g x).moves = s.moves := rfl
@[simp] theorem State.setRegion_pointers (s : State) (g : Nat) (x : Region) : (s.setRegion g x).pointers = s.pointers := rfl
@[simp] theorem State.setRegion_links (s : State) (g : Nat) (x : Region) : (s.setRegion g x).links = s.links := rfl
@[simp] theorem State.setRegion_posted (s : State) (g : Nat) (x : Region) : (s.setRegion g x).posted = s.posted := rfl
@[simp] theorem State.setRegion_pairs (s : State) (g : Nat) (x : Region) : (s.setRegion g x).pairs = s.pairs := rfl
@[simp] theorem State.setRegion_outgoing (s : State) (g : Nat) (x : Region) : (s.setRegion g x).outgoing = s.outgoing := rfl
@[simp] theorem State.setRegion_strikes (s : State) (g : Nat) (x : Region) : (s.setRegion g x).strikes = s.strikes := rfl
@[simp] theorem State.setRegion_reports (s : State) (g : Nat) (x : Region) : (s.setRegion g x).reports = s.reports := rfl
@[simp] theorem State.setRegion_traffic (s : State) (g : Nat) (x : Region) : (s.setRegion g x).traffic = s.traffic := rfl
@[simp] theorem State.setRegion_long (s : State) (g : Nat) (x : Region) : (s.setRegion g x).long = s.long := rfl
@[simp] theorem State.setRegion_drained (s : State) (g : Nat) (x : Region) : (s.setRegion g x).drained = s.drained := rfl
@[simp] theorem State.setRegion_commits (s : State) (g : Nat) (x : Region) : (s.setRegion g x).commits = s.commits := rfl
@[simp] theorem State.setRegion_waiting (s : State) (g : Nat) (x : Region) : (s.setRegion g x).waiting = s.waiting := rfl
@[simp] theorem State.setRegion_accepted (s : State) (g : Nat) (x : Region) : (s.setRegion g x).accepted = s.accepted := rfl
@[simp] theorem State.setRegion_failing (s : State) (g : Nat) (x : Region) : (s.setRegion g x).failing = s.failing := rfl
@[simp] theorem State.setRegion_fencedDies (s : State) (g : Nat) (x : Region) : (s.setRegion g x).fencedDies = s.fencedDies := rfl
@[simp] theorem State.setRegion_master (s : State) (g : Nat) (x : Region) : (s.setRegion g x).master = s.master := rfl
@[simp] theorem State.setRegion_missed (s : State) (g : Nat) (x : Region) : (s.setRegion g x).missed = s.missed := rfl
@[simp] theorem State.setRegion_silent (s : State) (g : Nat) (x : Region) : (s.setRegion g x).silent = s.silent := rfl
@[simp] theorem State.setRegion_election (s : State) (g : Nat) (x : Region) : (s.setRegion g x).election = s.election := rfl
@[simp] theorem State.setRegion_phase (s : State) (g : Nat) (x : Region) : (s.setRegion g x).phase = s.phase := rfl
@[simp] theorem State.setRegion_bootErr (s : State) (g : Nat) (x : Region) : (s.setRegion g x).bootErr = s.bootErr := rfl
@[simp] theorem State.setRegion_boot (s : State) (g : Nat) (x : Region) : (s.setRegion g x).boot = s.boot := rfl
@[simp] theorem State.setRegion_romDigest (s : State) (g : Nat) (x : Region) : (s.setRegion g x).romDigest = s.romDigest := rfl
@[simp] theorem State.setRegion_minVersion (s : State) (g : Nat) (x : Region) : (s.setRegion g x).minVersion = s.minVersion := rfl
@[simp] theorem State.setRegion_identity (s : State) (g : Nat) (x : Region) : (s.setRegion g x).identity = s.identity := rfl
@[simp] theorem State.setRegion_deviceKey (s : State) (g : Nat) (x : Region) : (s.setRegion g x).deviceKey = s.deviceKey := rfl
@[simp] theorem State.setRegion_cxlUp (s : State) (g : Nat) (x : Region) : (s.setRegion g x).cxlUp = s.cxlUp := rfl
@[simp] theorem State.setRegion_cxlReplies (s : State) (g : Nat) (x : Region) : (s.setRegion g x).cxlReplies = s.cxlReplies := rfl
@[simp] theorem State.setRegion_strikeStrk (s : State) (g : Nat) (x : Region) : (s.setRegion g x).strikeStrk = s.strikeStrk := rfl
@[simp] theorem State.setRegion_strikeRoll (s : State) (g : Nat) (x : Region) : (s.setRegion g x).strikeRoll = s.strikeRoll := rfl
@[simp] theorem State.setRegion_promoLate (s : State) (g : Nat) (x : Region) : (s.setRegion g x).promoLate = s.promoLate := rfl
@[simp] theorem State.setRegion_snapInc (s : State) (g : Nat) (x : Region) : (s.setRegion g x).snapInc = s.snapInc := rfl
@[simp] theorem State.setRegion_snapOvf (s : State) (g : Nat) (x : Region) : (s.setRegion g x).snapOvf = s.snapOvf := rfl
@[simp] theorem State.setRegion_snapCnt (s : State) (g : Nat) (x : Region) : (s.setRegion g x).snapCnt = s.snapCnt := rfl
@[simp] theorem State.setRegion_snapCyc (s : State) (g : Nat) (x : Region) : (s.setRegion g x).snapCyc = s.snapCyc := rfl
@[simp] theorem State.setRegion_snapCopies (s : State) (g : Nat) (x : Region) : (s.setRegion g x).snapCopies = s.snapCopies := rfl
@[simp] theorem State.setRegion_xlinv (s : State) (g : Nat) (x : Region) : (s.setRegion g x).xlinv = s.xlinv := rfl
@[simp] theorem State.setRegion_xlinvBusy (s : State) (g : Nat) (x : Region) : (s.setRegion g x).xlinvBusy = s.xlinvBusy := rfl
@[simp] theorem State.setRegion_caches (s : State) (g : Nat) (x : Region) : (s.setRegion g x).caches = s.caches := rfl
@[simp] theorem State.setRegion_jrnlBase (s : State) (g : Nat) (x : Region) : (s.setRegion g x).jrnlBase = s.jrnlBase := rfl
@[simp] theorem State.setRegion_jrnlSize (s : State) (g : Nat) (x : Region) : (s.setRegion g x).jrnlSize = s.jrnlSize := rfl
@[simp] theorem State.setRegion_jrnlNext (s : State) (g : Nat) (x : Region) : (s.setRegion g x).jrnlNext = s.jrnlNext := rfl
@[simp] theorem State.setRegion_pwrLim (s : State) (g : Nat) (x : Region) : (s.setRegion g x).pwrLim = s.pwrLim := rfl
@[simp] theorem State.setRegion_throttled (s : State) (g : Nat) (x : Region) : (s.setRegion g x).throttled = s.throttled := rfl
@[simp] theorem State.setRegion_attNonce (s : State) (g : Nat) (x : Region) : (s.setRegion g x).attNonce = s.attNonce := rfl
@[simp] theorem State.setRegion_attDone (s : State) (g : Nat) (x : Region) : (s.setRegion g x).attDone = s.attDone := rfl
@[simp] theorem State.setRegion_attCount (s : State) (g : Nat) (x : Region) : (s.setRegion g x).attCount = s.attCount := rfl
@[simp] theorem State.setRegion_attReport (s : State) (g : Nat) (x : Region) : (s.setRegion g x).attReport = s.attReport := rfl

/-! ### `setHearth` -/

@[simp] theorem State.setHearth_cycle (s : State) (h : Nat) (x : Hearth) : (s.setHearth h x).cycle = s.cycle := rfl
@[simp] theorem State.setHearth_agenda (s : State) (h : Nat) (x : Hearth) : (s.setHearth h x).agenda = s.agenda := rfl
@[simp] theorem State.setHearth_cur (s : State) (h : Nat) (x : Hearth) : (s.setHearth h x).cur = s.cur := rfl
@[simp] theorem State.setHearth_inputs (s : State) (h : Nat) (x : Hearth) : (s.setHearth h x).inputs = s.inputs := rfl
@[simp] theorem State.setHearth_free (s : State) (h : Nat) (x : Hearth) : (s.setHearth h x).free = s.free := rfl
@[simp] theorem State.setHearth_unacked (s : State) (h : Nat) (x : Hearth) : (s.setHearth h x).unacked = s.unacked := rfl
@[simp] theorem State.setHearth_badWords (s : State) (h : Nat) (x : Hearth) : (s.setHearth h x).badWords = s.badWords := rfl
@[simp] theorem State.setHearth_misreads (s : State) (h : Nat) (x : Hearth) : (s.setHearth h x).misreads = s.misreads := rfl
@[simp] theorem State.setHearth_windows (s : State) (h : Nat) (x : Hearth) : (s.setHearth h x).windows = s.windows := rfl
@[simp] theorem State.setHearth_nextId (s : State) (h : Nat) (x : Hearth) : (s.setHearth h x).nextId = s.nextId := rfl
@[simp] theorem State.setHearth_mem (s : State) (h : Nat) (x : Hearth) : (s.setHearth h x).mem = s.mem := rfl
@[simp] theorem State.setHearth_poison (s : State) (h : Nat) (x : Hearth) : (s.setHearth h x).poison = s.poison := rfl
@[simp] theorem State.setHearth_slots (s : State) (h : Nat) (x : Hearth) : (s.setHearth h x).slots = s.slots := rfl
@[simp] theorem State.setHearth_regions (s : State) (h : Nat) (x : Hearth) : (s.setHearth h x).regions = s.regions := rfl
@[simp] theorem State.setHearth_flights (s : State) (h : Nat) (x : Hearth) : (s.setHearth h x).flights = s.flights := rfl
@[simp] theorem State.setHearth_messages (s : State) (h : Nat) (x : Hearth) : (s.setHearth h x).messages = s.messages := rfl
@[simp] theorem State.setHearth_meshErrors (s : State) (h : Nat) (x : Hearth) : (s.setHearth h x).meshErrors = s.meshErrors := rfl
@[simp] theorem State.setHearth_loads (s : State) (h : Nat) (x : Hearth) : (s.setHearth h x).loads = s.loads := rfl
@[simp] theorem State.setHearth_contexts (s : State) (h : Nat) (x : Hearth) : (s.setHearth h x).contexts = s.contexts := rfl
@[simp] theorem State.setHearth_kernels (s : State) (h : Nat) (x : Hearth) : (s.setHearth h x).kernels = s.kernels := rfl
@[simp] theorem State.setHearth_queues (s : State) (h : Nat) (x : Hearth) : (s.setHearth h x).queues = s.queues := rfl
@[simp] theorem State.setHearth_engines (s : State) (h : Nat) (x : Hearth) : (s.setHearth h x).engines = s.engines := rfl
@[simp] theorem State.setHearth_forwards (s : State) (h : Nat) (x : Hearth) : (s.setHearth h x).forwards = s.forwards := rfl
@[simp] theorem State.setHearth_moves (s : State) (h : Nat) (x : Hearth) : (s.setHearth h x).moves = s.moves := rfl
@[simp] theorem State.setHearth_pointers (s : State) (h : Nat) (x : Hearth) : (s.setHearth h x).pointers = s.pointers := rfl
@[simp] theorem State.setHearth_links (s : State) (h : Nat) (x : Hearth) : (s.setHearth h x).links = s.links := rfl
@[simp] theorem State.setHearth_posted (s : State) (h : Nat) (x : Hearth) : (s.setHearth h x).posted = s.posted := rfl
@[simp] theorem State.setHearth_pairs (s : State) (h : Nat) (x : Hearth) : (s.setHearth h x).pairs = s.pairs := rfl
@[simp] theorem State.setHearth_outgoing (s : State) (h : Nat) (x : Hearth) : (s.setHearth h x).outgoing = s.outgoing := rfl
@[simp] theorem State.setHearth_strikes (s : State) (h : Nat) (x : Hearth) : (s.setHearth h x).strikes = s.strikes := rfl
@[simp] theorem State.setHearth_reports (s : State) (h : Nat) (x : Hearth) : (s.setHearth h x).reports = s.reports := rfl
@[simp] theorem State.setHearth_traffic (s : State) (h : Nat) (x : Hearth) : (s.setHearth h x).traffic = s.traffic := rfl
@[simp] theorem State.setHearth_long (s : State) (h : Nat) (x : Hearth) : (s.setHearth h x).long = s.long := rfl
@[simp] theorem State.setHearth_drained (s : State) (h : Nat) (x : Hearth) : (s.setHearth h x).drained = s.drained := rfl
@[simp] theorem State.setHearth_commits (s : State) (h : Nat) (x : Hearth) : (s.setHearth h x).commits = s.commits := rfl
@[simp] theorem State.setHearth_waiting (s : State) (h : Nat) (x : Hearth) : (s.setHearth h x).waiting = s.waiting := rfl
@[simp] theorem State.setHearth_accepted (s : State) (h : Nat) (x : Hearth) : (s.setHearth h x).accepted = s.accepted := rfl
@[simp] theorem State.setHearth_failing (s : State) (h : Nat) (x : Hearth) : (s.setHearth h x).failing = s.failing := rfl
@[simp] theorem State.setHearth_fencedDies (s : State) (h : Nat) (x : Hearth) : (s.setHearth h x).fencedDies = s.fencedDies := rfl
@[simp] theorem State.setHearth_master (s : State) (h : Nat) (x : Hearth) : (s.setHearth h x).master = s.master := rfl
@[simp] theorem State.setHearth_missed (s : State) (h : Nat) (x : Hearth) : (s.setHearth h x).missed = s.missed := rfl
@[simp] theorem State.setHearth_silent (s : State) (h : Nat) (x : Hearth) : (s.setHearth h x).silent = s.silent := rfl
@[simp] theorem State.setHearth_election (s : State) (h : Nat) (x : Hearth) : (s.setHearth h x).election = s.election := rfl
@[simp] theorem State.setHearth_phase (s : State) (h : Nat) (x : Hearth) : (s.setHearth h x).phase = s.phase := rfl
@[simp] theorem State.setHearth_bootErr (s : State) (h : Nat) (x : Hearth) : (s.setHearth h x).bootErr = s.bootErr := rfl
@[simp] theorem State.setHearth_boot (s : State) (h : Nat) (x : Hearth) : (s.setHearth h x).boot = s.boot := rfl
@[simp] theorem State.setHearth_romDigest (s : State) (h : Nat) (x : Hearth) : (s.setHearth h x).romDigest = s.romDigest := rfl
@[simp] theorem State.setHearth_minVersion (s : State) (h : Nat) (x : Hearth) : (s.setHearth h x).minVersion = s.minVersion := rfl
@[simp] theorem State.setHearth_identity (s : State) (h : Nat) (x : Hearth) : (s.setHearth h x).identity = s.identity := rfl
@[simp] theorem State.setHearth_deviceKey (s : State) (h : Nat) (x : Hearth) : (s.setHearth h x).deviceKey = s.deviceKey := rfl
@[simp] theorem State.setHearth_cxlUp (s : State) (h : Nat) (x : Hearth) : (s.setHearth h x).cxlUp = s.cxlUp := rfl
@[simp] theorem State.setHearth_cxlReplies (s : State) (h : Nat) (x : Hearth) : (s.setHearth h x).cxlReplies = s.cxlReplies := rfl
@[simp] theorem State.setHearth_strikeStrk (s : State) (h : Nat) (x : Hearth) : (s.setHearth h x).strikeStrk = s.strikeStrk := rfl
@[simp] theorem State.setHearth_strikeRoll (s : State) (h : Nat) (x : Hearth) : (s.setHearth h x).strikeRoll = s.strikeRoll := rfl
@[simp] theorem State.setHearth_promoLate (s : State) (h : Nat) (x : Hearth) : (s.setHearth h x).promoLate = s.promoLate := rfl
@[simp] theorem State.setHearth_snapInc (s : State) (h : Nat) (x : Hearth) : (s.setHearth h x).snapInc = s.snapInc := rfl
@[simp] theorem State.setHearth_snapOvf (s : State) (h : Nat) (x : Hearth) : (s.setHearth h x).snapOvf = s.snapOvf := rfl
@[simp] theorem State.setHearth_snapCnt (s : State) (h : Nat) (x : Hearth) : (s.setHearth h x).snapCnt = s.snapCnt := rfl
@[simp] theorem State.setHearth_snapCyc (s : State) (h : Nat) (x : Hearth) : (s.setHearth h x).snapCyc = s.snapCyc := rfl
@[simp] theorem State.setHearth_snapCopies (s : State) (h : Nat) (x : Hearth) : (s.setHearth h x).snapCopies = s.snapCopies := rfl
@[simp] theorem State.setHearth_xlinv (s : State) (h : Nat) (x : Hearth) : (s.setHearth h x).xlinv = s.xlinv := rfl
@[simp] theorem State.setHearth_xlinvBusy (s : State) (h : Nat) (x : Hearth) : (s.setHearth h x).xlinvBusy = s.xlinvBusy := rfl
@[simp] theorem State.setHearth_caches (s : State) (h : Nat) (x : Hearth) : (s.setHearth h x).caches = s.caches := rfl
@[simp] theorem State.setHearth_jrnlBase (s : State) (h : Nat) (x : Hearth) : (s.setHearth h x).jrnlBase = s.jrnlBase := rfl
@[simp] theorem State.setHearth_jrnlSize (s : State) (h : Nat) (x : Hearth) : (s.setHearth h x).jrnlSize = s.jrnlSize := rfl
@[simp] theorem State.setHearth_jrnlNext (s : State) (h : Nat) (x : Hearth) : (s.setHearth h x).jrnlNext = s.jrnlNext := rfl
@[simp] theorem State.setHearth_pwrLim (s : State) (h : Nat) (x : Hearth) : (s.setHearth h x).pwrLim = s.pwrLim := rfl
@[simp] theorem State.setHearth_throttled (s : State) (h : Nat) (x : Hearth) : (s.setHearth h x).throttled = s.throttled := rfl
@[simp] theorem State.setHearth_attNonce (s : State) (h : Nat) (x : Hearth) : (s.setHearth h x).attNonce = s.attNonce := rfl
@[simp] theorem State.setHearth_attDone (s : State) (h : Nat) (x : Hearth) : (s.setHearth h x).attDone = s.attDone := rfl
@[simp] theorem State.setHearth_attCount (s : State) (h : Nat) (x : Hearth) : (s.setHearth h x).attCount = s.attCount := rfl
@[simp] theorem State.setHearth_attReport (s : State) (h : Nat) (x : Hearth) : (s.setHearth h x).attReport = s.attReport := rfl

/-! ### `setContext` -/

@[simp] theorem State.setContext_cycle (s : State) (m : Nat) (x : Context) : (s.setContext m x).cycle = s.cycle := rfl
@[simp] theorem State.setContext_agenda (s : State) (m : Nat) (x : Context) : (s.setContext m x).agenda = s.agenda := rfl
@[simp] theorem State.setContext_cur (s : State) (m : Nat) (x : Context) : (s.setContext m x).cur = s.cur := rfl
@[simp] theorem State.setContext_inputs (s : State) (m : Nat) (x : Context) : (s.setContext m x).inputs = s.inputs := rfl
@[simp] theorem State.setContext_free (s : State) (m : Nat) (x : Context) : (s.setContext m x).free = s.free := rfl
@[simp] theorem State.setContext_unacked (s : State) (m : Nat) (x : Context) : (s.setContext m x).unacked = s.unacked := rfl
@[simp] theorem State.setContext_badWords (s : State) (m : Nat) (x : Context) : (s.setContext m x).badWords = s.badWords := rfl
@[simp] theorem State.setContext_misreads (s : State) (m : Nat) (x : Context) : (s.setContext m x).misreads = s.misreads := rfl
@[simp] theorem State.setContext_windows (s : State) (m : Nat) (x : Context) : (s.setContext m x).windows = s.windows := rfl
@[simp] theorem State.setContext_nextId (s : State) (m : Nat) (x : Context) : (s.setContext m x).nextId = s.nextId := rfl
@[simp] theorem State.setContext_mem (s : State) (m : Nat) (x : Context) : (s.setContext m x).mem = s.mem := rfl
@[simp] theorem State.setContext_poison (s : State) (m : Nat) (x : Context) : (s.setContext m x).poison = s.poison := rfl
@[simp] theorem State.setContext_hearths (s : State) (m : Nat) (x : Context) : (s.setContext m x).hearths = s.hearths := rfl
@[simp] theorem State.setContext_slots (s : State) (m : Nat) (x : Context) : (s.setContext m x).slots = s.slots := rfl
@[simp] theorem State.setContext_regions (s : State) (m : Nat) (x : Context) : (s.setContext m x).regions = s.regions := rfl
@[simp] theorem State.setContext_flights (s : State) (m : Nat) (x : Context) : (s.setContext m x).flights = s.flights := rfl
@[simp] theorem State.setContext_messages (s : State) (m : Nat) (x : Context) : (s.setContext m x).messages = s.messages := rfl
@[simp] theorem State.setContext_meshErrors (s : State) (m : Nat) (x : Context) : (s.setContext m x).meshErrors = s.meshErrors := rfl
@[simp] theorem State.setContext_loads (s : State) (m : Nat) (x : Context) : (s.setContext m x).loads = s.loads := rfl
@[simp] theorem State.setContext_kernels (s : State) (m : Nat) (x : Context) : (s.setContext m x).kernels = s.kernels := rfl
@[simp] theorem State.setContext_queues (s : State) (m : Nat) (x : Context) : (s.setContext m x).queues = s.queues := rfl
@[simp] theorem State.setContext_engines (s : State) (m : Nat) (x : Context) : (s.setContext m x).engines = s.engines := rfl
@[simp] theorem State.setContext_forwards (s : State) (m : Nat) (x : Context) : (s.setContext m x).forwards = s.forwards := rfl
@[simp] theorem State.setContext_moves (s : State) (m : Nat) (x : Context) : (s.setContext m x).moves = s.moves := rfl
@[simp] theorem State.setContext_pointers (s : State) (m : Nat) (x : Context) : (s.setContext m x).pointers = s.pointers := rfl
@[simp] theorem State.setContext_links (s : State) (m : Nat) (x : Context) : (s.setContext m x).links = s.links := rfl
@[simp] theorem State.setContext_posted (s : State) (m : Nat) (x : Context) : (s.setContext m x).posted = s.posted := rfl
@[simp] theorem State.setContext_pairs (s : State) (m : Nat) (x : Context) : (s.setContext m x).pairs = s.pairs := rfl
@[simp] theorem State.setContext_outgoing (s : State) (m : Nat) (x : Context) : (s.setContext m x).outgoing = s.outgoing := rfl
@[simp] theorem State.setContext_strikes (s : State) (m : Nat) (x : Context) : (s.setContext m x).strikes = s.strikes := rfl
@[simp] theorem State.setContext_reports (s : State) (m : Nat) (x : Context) : (s.setContext m x).reports = s.reports := rfl
@[simp] theorem State.setContext_traffic (s : State) (m : Nat) (x : Context) : (s.setContext m x).traffic = s.traffic := rfl
@[simp] theorem State.setContext_long (s : State) (m : Nat) (x : Context) : (s.setContext m x).long = s.long := rfl
@[simp] theorem State.setContext_drained (s : State) (m : Nat) (x : Context) : (s.setContext m x).drained = s.drained := rfl
@[simp] theorem State.setContext_commits (s : State) (m : Nat) (x : Context) : (s.setContext m x).commits = s.commits := rfl
@[simp] theorem State.setContext_waiting (s : State) (m : Nat) (x : Context) : (s.setContext m x).waiting = s.waiting := rfl
@[simp] theorem State.setContext_accepted (s : State) (m : Nat) (x : Context) : (s.setContext m x).accepted = s.accepted := rfl
@[simp] theorem State.setContext_failing (s : State) (m : Nat) (x : Context) : (s.setContext m x).failing = s.failing := rfl
@[simp] theorem State.setContext_fencedDies (s : State) (m : Nat) (x : Context) : (s.setContext m x).fencedDies = s.fencedDies := rfl
@[simp] theorem State.setContext_master (s : State) (m : Nat) (x : Context) : (s.setContext m x).master = s.master := rfl
@[simp] theorem State.setContext_missed (s : State) (m : Nat) (x : Context) : (s.setContext m x).missed = s.missed := rfl
@[simp] theorem State.setContext_silent (s : State) (m : Nat) (x : Context) : (s.setContext m x).silent = s.silent := rfl
@[simp] theorem State.setContext_election (s : State) (m : Nat) (x : Context) : (s.setContext m x).election = s.election := rfl
@[simp] theorem State.setContext_phase (s : State) (m : Nat) (x : Context) : (s.setContext m x).phase = s.phase := rfl
@[simp] theorem State.setContext_bootErr (s : State) (m : Nat) (x : Context) : (s.setContext m x).bootErr = s.bootErr := rfl
@[simp] theorem State.setContext_boot (s : State) (m : Nat) (x : Context) : (s.setContext m x).boot = s.boot := rfl
@[simp] theorem State.setContext_romDigest (s : State) (m : Nat) (x : Context) : (s.setContext m x).romDigest = s.romDigest := rfl
@[simp] theorem State.setContext_minVersion (s : State) (m : Nat) (x : Context) : (s.setContext m x).minVersion = s.minVersion := rfl
@[simp] theorem State.setContext_identity (s : State) (m : Nat) (x : Context) : (s.setContext m x).identity = s.identity := rfl
@[simp] theorem State.setContext_deviceKey (s : State) (m : Nat) (x : Context) : (s.setContext m x).deviceKey = s.deviceKey := rfl
@[simp] theorem State.setContext_cxlUp (s : State) (m : Nat) (x : Context) : (s.setContext m x).cxlUp = s.cxlUp := rfl
@[simp] theorem State.setContext_cxlReplies (s : State) (m : Nat) (x : Context) : (s.setContext m x).cxlReplies = s.cxlReplies := rfl
@[simp] theorem State.setContext_strikeStrk (s : State) (m : Nat) (x : Context) : (s.setContext m x).strikeStrk = s.strikeStrk := rfl
@[simp] theorem State.setContext_strikeRoll (s : State) (m : Nat) (x : Context) : (s.setContext m x).strikeRoll = s.strikeRoll := rfl
@[simp] theorem State.setContext_promoLate (s : State) (m : Nat) (x : Context) : (s.setContext m x).promoLate = s.promoLate := rfl
@[simp] theorem State.setContext_snapInc (s : State) (m : Nat) (x : Context) : (s.setContext m x).snapInc = s.snapInc := rfl
@[simp] theorem State.setContext_snapOvf (s : State) (m : Nat) (x : Context) : (s.setContext m x).snapOvf = s.snapOvf := rfl
@[simp] theorem State.setContext_snapCnt (s : State) (m : Nat) (x : Context) : (s.setContext m x).snapCnt = s.snapCnt := rfl
@[simp] theorem State.setContext_snapCyc (s : State) (m : Nat) (x : Context) : (s.setContext m x).snapCyc = s.snapCyc := rfl
@[simp] theorem State.setContext_snapCopies (s : State) (m : Nat) (x : Context) : (s.setContext m x).snapCopies = s.snapCopies := rfl
@[simp] theorem State.setContext_xlinv (s : State) (m : Nat) (x : Context) : (s.setContext m x).xlinv = s.xlinv := rfl
@[simp] theorem State.setContext_xlinvBusy (s : State) (m : Nat) (x : Context) : (s.setContext m x).xlinvBusy = s.xlinvBusy := rfl
@[simp] theorem State.setContext_caches (s : State) (m : Nat) (x : Context) : (s.setContext m x).caches = s.caches := rfl
@[simp] theorem State.setContext_jrnlBase (s : State) (m : Nat) (x : Context) : (s.setContext m x).jrnlBase = s.jrnlBase := rfl
@[simp] theorem State.setContext_jrnlSize (s : State) (m : Nat) (x : Context) : (s.setContext m x).jrnlSize = s.jrnlSize := rfl
@[simp] theorem State.setContext_jrnlNext (s : State) (m : Nat) (x : Context) : (s.setContext m x).jrnlNext = s.jrnlNext := rfl
@[simp] theorem State.setContext_pwrLim (s : State) (m : Nat) (x : Context) : (s.setContext m x).pwrLim = s.pwrLim := rfl
@[simp] theorem State.setContext_throttled (s : State) (m : Nat) (x : Context) : (s.setContext m x).throttled = s.throttled := rfl
@[simp] theorem State.setContext_attNonce (s : State) (m : Nat) (x : Context) : (s.setContext m x).attNonce = s.attNonce := rfl
@[simp] theorem State.setContext_attDone (s : State) (m : Nat) (x : Context) : (s.setContext m x).attDone = s.attDone := rfl
@[simp] theorem State.setContext_attCount (s : State) (m : Nat) (x : Context) : (s.setContext m x).attCount = s.attCount := rfl
@[simp] theorem State.setContext_attReport (s : State) (m : Nat) (x : Context) : (s.setContext m x).attReport = s.attReport := rfl

/-! ### `setKernel` -/

@[simp] theorem State.setKernel_cycle (s : State) (e : Nat) (x : Kernel) : (s.setKernel e x).cycle = s.cycle := rfl
@[simp] theorem State.setKernel_agenda (s : State) (e : Nat) (x : Kernel) : (s.setKernel e x).agenda = s.agenda := rfl
@[simp] theorem State.setKernel_cur (s : State) (e : Nat) (x : Kernel) : (s.setKernel e x).cur = s.cur := rfl
@[simp] theorem State.setKernel_inputs (s : State) (e : Nat) (x : Kernel) : (s.setKernel e x).inputs = s.inputs := rfl
@[simp] theorem State.setKernel_free (s : State) (e : Nat) (x : Kernel) : (s.setKernel e x).free = s.free := rfl
@[simp] theorem State.setKernel_unacked (s : State) (e : Nat) (x : Kernel) : (s.setKernel e x).unacked = s.unacked := rfl
@[simp] theorem State.setKernel_badWords (s : State) (e : Nat) (x : Kernel) : (s.setKernel e x).badWords = s.badWords := rfl
@[simp] theorem State.setKernel_misreads (s : State) (e : Nat) (x : Kernel) : (s.setKernel e x).misreads = s.misreads := rfl
@[simp] theorem State.setKernel_windows (s : State) (e : Nat) (x : Kernel) : (s.setKernel e x).windows = s.windows := rfl
@[simp] theorem State.setKernel_nextId (s : State) (e : Nat) (x : Kernel) : (s.setKernel e x).nextId = s.nextId := rfl
@[simp] theorem State.setKernel_mem (s : State) (e : Nat) (x : Kernel) : (s.setKernel e x).mem = s.mem := rfl
@[simp] theorem State.setKernel_poison (s : State) (e : Nat) (x : Kernel) : (s.setKernel e x).poison = s.poison := rfl
@[simp] theorem State.setKernel_hearths (s : State) (e : Nat) (x : Kernel) : (s.setKernel e x).hearths = s.hearths := rfl
@[simp] theorem State.setKernel_slots (s : State) (e : Nat) (x : Kernel) : (s.setKernel e x).slots = s.slots := rfl
@[simp] theorem State.setKernel_regions (s : State) (e : Nat) (x : Kernel) : (s.setKernel e x).regions = s.regions := rfl
@[simp] theorem State.setKernel_flights (s : State) (e : Nat) (x : Kernel) : (s.setKernel e x).flights = s.flights := rfl
@[simp] theorem State.setKernel_messages (s : State) (e : Nat) (x : Kernel) : (s.setKernel e x).messages = s.messages := rfl
@[simp] theorem State.setKernel_meshErrors (s : State) (e : Nat) (x : Kernel) : (s.setKernel e x).meshErrors = s.meshErrors := rfl
@[simp] theorem State.setKernel_loads (s : State) (e : Nat) (x : Kernel) : (s.setKernel e x).loads = s.loads := rfl
@[simp] theorem State.setKernel_contexts (s : State) (e : Nat) (x : Kernel) : (s.setKernel e x).contexts = s.contexts := rfl
@[simp] theorem State.setKernel_queues (s : State) (e : Nat) (x : Kernel) : (s.setKernel e x).queues = s.queues := rfl
@[simp] theorem State.setKernel_engines (s : State) (e : Nat) (x : Kernel) : (s.setKernel e x).engines = s.engines := rfl
@[simp] theorem State.setKernel_forwards (s : State) (e : Nat) (x : Kernel) : (s.setKernel e x).forwards = s.forwards := rfl
@[simp] theorem State.setKernel_moves (s : State) (e : Nat) (x : Kernel) : (s.setKernel e x).moves = s.moves := rfl
@[simp] theorem State.setKernel_pointers (s : State) (e : Nat) (x : Kernel) : (s.setKernel e x).pointers = s.pointers := rfl
@[simp] theorem State.setKernel_links (s : State) (e : Nat) (x : Kernel) : (s.setKernel e x).links = s.links := rfl
@[simp] theorem State.setKernel_posted (s : State) (e : Nat) (x : Kernel) : (s.setKernel e x).posted = s.posted := rfl
@[simp] theorem State.setKernel_pairs (s : State) (e : Nat) (x : Kernel) : (s.setKernel e x).pairs = s.pairs := rfl
@[simp] theorem State.setKernel_outgoing (s : State) (e : Nat) (x : Kernel) : (s.setKernel e x).outgoing = s.outgoing := rfl
@[simp] theorem State.setKernel_strikes (s : State) (e : Nat) (x : Kernel) : (s.setKernel e x).strikes = s.strikes := rfl
@[simp] theorem State.setKernel_reports (s : State) (e : Nat) (x : Kernel) : (s.setKernel e x).reports = s.reports := rfl
@[simp] theorem State.setKernel_traffic (s : State) (e : Nat) (x : Kernel) : (s.setKernel e x).traffic = s.traffic := rfl
@[simp] theorem State.setKernel_long (s : State) (e : Nat) (x : Kernel) : (s.setKernel e x).long = s.long := rfl
@[simp] theorem State.setKernel_drained (s : State) (e : Nat) (x : Kernel) : (s.setKernel e x).drained = s.drained := rfl
@[simp] theorem State.setKernel_commits (s : State) (e : Nat) (x : Kernel) : (s.setKernel e x).commits = s.commits := rfl
@[simp] theorem State.setKernel_waiting (s : State) (e : Nat) (x : Kernel) : (s.setKernel e x).waiting = s.waiting := rfl
@[simp] theorem State.setKernel_accepted (s : State) (e : Nat) (x : Kernel) : (s.setKernel e x).accepted = s.accepted := rfl
@[simp] theorem State.setKernel_failing (s : State) (e : Nat) (x : Kernel) : (s.setKernel e x).failing = s.failing := rfl
@[simp] theorem State.setKernel_fencedDies (s : State) (e : Nat) (x : Kernel) : (s.setKernel e x).fencedDies = s.fencedDies := rfl
@[simp] theorem State.setKernel_master (s : State) (e : Nat) (x : Kernel) : (s.setKernel e x).master = s.master := rfl
@[simp] theorem State.setKernel_missed (s : State) (e : Nat) (x : Kernel) : (s.setKernel e x).missed = s.missed := rfl
@[simp] theorem State.setKernel_silent (s : State) (e : Nat) (x : Kernel) : (s.setKernel e x).silent = s.silent := rfl
@[simp] theorem State.setKernel_election (s : State) (e : Nat) (x : Kernel) : (s.setKernel e x).election = s.election := rfl
@[simp] theorem State.setKernel_phase (s : State) (e : Nat) (x : Kernel) : (s.setKernel e x).phase = s.phase := rfl
@[simp] theorem State.setKernel_bootErr (s : State) (e : Nat) (x : Kernel) : (s.setKernel e x).bootErr = s.bootErr := rfl
@[simp] theorem State.setKernel_boot (s : State) (e : Nat) (x : Kernel) : (s.setKernel e x).boot = s.boot := rfl
@[simp] theorem State.setKernel_romDigest (s : State) (e : Nat) (x : Kernel) : (s.setKernel e x).romDigest = s.romDigest := rfl
@[simp] theorem State.setKernel_minVersion (s : State) (e : Nat) (x : Kernel) : (s.setKernel e x).minVersion = s.minVersion := rfl
@[simp] theorem State.setKernel_identity (s : State) (e : Nat) (x : Kernel) : (s.setKernel e x).identity = s.identity := rfl
@[simp] theorem State.setKernel_deviceKey (s : State) (e : Nat) (x : Kernel) : (s.setKernel e x).deviceKey = s.deviceKey := rfl
@[simp] theorem State.setKernel_cxlUp (s : State) (e : Nat) (x : Kernel) : (s.setKernel e x).cxlUp = s.cxlUp := rfl
@[simp] theorem State.setKernel_cxlReplies (s : State) (e : Nat) (x : Kernel) : (s.setKernel e x).cxlReplies = s.cxlReplies := rfl
@[simp] theorem State.setKernel_strikeStrk (s : State) (e : Nat) (x : Kernel) : (s.setKernel e x).strikeStrk = s.strikeStrk := rfl
@[simp] theorem State.setKernel_strikeRoll (s : State) (e : Nat) (x : Kernel) : (s.setKernel e x).strikeRoll = s.strikeRoll := rfl
@[simp] theorem State.setKernel_promoLate (s : State) (e : Nat) (x : Kernel) : (s.setKernel e x).promoLate = s.promoLate := rfl
@[simp] theorem State.setKernel_snapInc (s : State) (e : Nat) (x : Kernel) : (s.setKernel e x).snapInc = s.snapInc := rfl
@[simp] theorem State.setKernel_snapOvf (s : State) (e : Nat) (x : Kernel) : (s.setKernel e x).snapOvf = s.snapOvf := rfl
@[simp] theorem State.setKernel_snapCnt (s : State) (e : Nat) (x : Kernel) : (s.setKernel e x).snapCnt = s.snapCnt := rfl
@[simp] theorem State.setKernel_snapCyc (s : State) (e : Nat) (x : Kernel) : (s.setKernel e x).snapCyc = s.snapCyc := rfl
@[simp] theorem State.setKernel_snapCopies (s : State) (e : Nat) (x : Kernel) : (s.setKernel e x).snapCopies = s.snapCopies := rfl
@[simp] theorem State.setKernel_xlinv (s : State) (e : Nat) (x : Kernel) : (s.setKernel e x).xlinv = s.xlinv := rfl
@[simp] theorem State.setKernel_xlinvBusy (s : State) (e : Nat) (x : Kernel) : (s.setKernel e x).xlinvBusy = s.xlinvBusy := rfl
@[simp] theorem State.setKernel_caches (s : State) (e : Nat) (x : Kernel) : (s.setKernel e x).caches = s.caches := rfl
@[simp] theorem State.setKernel_jrnlBase (s : State) (e : Nat) (x : Kernel) : (s.setKernel e x).jrnlBase = s.jrnlBase := rfl
@[simp] theorem State.setKernel_jrnlSize (s : State) (e : Nat) (x : Kernel) : (s.setKernel e x).jrnlSize = s.jrnlSize := rfl
@[simp] theorem State.setKernel_jrnlNext (s : State) (e : Nat) (x : Kernel) : (s.setKernel e x).jrnlNext = s.jrnlNext := rfl
@[simp] theorem State.setKernel_pwrLim (s : State) (e : Nat) (x : Kernel) : (s.setKernel e x).pwrLim = s.pwrLim := rfl
@[simp] theorem State.setKernel_throttled (s : State) (e : Nat) (x : Kernel) : (s.setKernel e x).throttled = s.throttled := rfl
@[simp] theorem State.setKernel_attNonce (s : State) (e : Nat) (x : Kernel) : (s.setKernel e x).attNonce = s.attNonce := rfl
@[simp] theorem State.setKernel_attDone (s : State) (e : Nat) (x : Kernel) : (s.setKernel e x).attDone = s.attDone := rfl
@[simp] theorem State.setKernel_attCount (s : State) (e : Nat) (x : Kernel) : (s.setKernel e x).attCount = s.attCount := rfl
@[simp] theorem State.setKernel_attReport (s : State) (e : Nat) (x : Kernel) : (s.setKernel e x).attReport = s.attReport := rfl

/-! ### `setQueue` -/

@[simp] theorem State.setQueue_cycle (s : State) (q : Nat) (x : Queue) : (s.setQueue q x).cycle = s.cycle := rfl
@[simp] theorem State.setQueue_agenda (s : State) (q : Nat) (x : Queue) : (s.setQueue q x).agenda = s.agenda := rfl
@[simp] theorem State.setQueue_cur (s : State) (q : Nat) (x : Queue) : (s.setQueue q x).cur = s.cur := rfl
@[simp] theorem State.setQueue_inputs (s : State) (q : Nat) (x : Queue) : (s.setQueue q x).inputs = s.inputs := rfl
@[simp] theorem State.setQueue_free (s : State) (q : Nat) (x : Queue) : (s.setQueue q x).free = s.free := rfl
@[simp] theorem State.setQueue_unacked (s : State) (q : Nat) (x : Queue) : (s.setQueue q x).unacked = s.unacked := rfl
@[simp] theorem State.setQueue_badWords (s : State) (q : Nat) (x : Queue) : (s.setQueue q x).badWords = s.badWords := rfl
@[simp] theorem State.setQueue_misreads (s : State) (q : Nat) (x : Queue) : (s.setQueue q x).misreads = s.misreads := rfl
@[simp] theorem State.setQueue_windows (s : State) (q : Nat) (x : Queue) : (s.setQueue q x).windows = s.windows := rfl
@[simp] theorem State.setQueue_nextId (s : State) (q : Nat) (x : Queue) : (s.setQueue q x).nextId = s.nextId := rfl
@[simp] theorem State.setQueue_mem (s : State) (q : Nat) (x : Queue) : (s.setQueue q x).mem = s.mem := rfl
@[simp] theorem State.setQueue_poison (s : State) (q : Nat) (x : Queue) : (s.setQueue q x).poison = s.poison := rfl
@[simp] theorem State.setQueue_hearths (s : State) (q : Nat) (x : Queue) : (s.setQueue q x).hearths = s.hearths := rfl
@[simp] theorem State.setQueue_slots (s : State) (q : Nat) (x : Queue) : (s.setQueue q x).slots = s.slots := rfl
@[simp] theorem State.setQueue_regions (s : State) (q : Nat) (x : Queue) : (s.setQueue q x).regions = s.regions := rfl
@[simp] theorem State.setQueue_flights (s : State) (q : Nat) (x : Queue) : (s.setQueue q x).flights = s.flights := rfl
@[simp] theorem State.setQueue_messages (s : State) (q : Nat) (x : Queue) : (s.setQueue q x).messages = s.messages := rfl
@[simp] theorem State.setQueue_meshErrors (s : State) (q : Nat) (x : Queue) : (s.setQueue q x).meshErrors = s.meshErrors := rfl
@[simp] theorem State.setQueue_loads (s : State) (q : Nat) (x : Queue) : (s.setQueue q x).loads = s.loads := rfl
@[simp] theorem State.setQueue_contexts (s : State) (q : Nat) (x : Queue) : (s.setQueue q x).contexts = s.contexts := rfl
@[simp] theorem State.setQueue_kernels (s : State) (q : Nat) (x : Queue) : (s.setQueue q x).kernels = s.kernels := rfl
@[simp] theorem State.setQueue_engines (s : State) (q : Nat) (x : Queue) : (s.setQueue q x).engines = s.engines := rfl
@[simp] theorem State.setQueue_forwards (s : State) (q : Nat) (x : Queue) : (s.setQueue q x).forwards = s.forwards := rfl
@[simp] theorem State.setQueue_moves (s : State) (q : Nat) (x : Queue) : (s.setQueue q x).moves = s.moves := rfl
@[simp] theorem State.setQueue_pointers (s : State) (q : Nat) (x : Queue) : (s.setQueue q x).pointers = s.pointers := rfl
@[simp] theorem State.setQueue_links (s : State) (q : Nat) (x : Queue) : (s.setQueue q x).links = s.links := rfl
@[simp] theorem State.setQueue_posted (s : State) (q : Nat) (x : Queue) : (s.setQueue q x).posted = s.posted := rfl
@[simp] theorem State.setQueue_pairs (s : State) (q : Nat) (x : Queue) : (s.setQueue q x).pairs = s.pairs := rfl
@[simp] theorem State.setQueue_outgoing (s : State) (q : Nat) (x : Queue) : (s.setQueue q x).outgoing = s.outgoing := rfl
@[simp] theorem State.setQueue_strikes (s : State) (q : Nat) (x : Queue) : (s.setQueue q x).strikes = s.strikes := rfl
@[simp] theorem State.setQueue_reports (s : State) (q : Nat) (x : Queue) : (s.setQueue q x).reports = s.reports := rfl
@[simp] theorem State.setQueue_traffic (s : State) (q : Nat) (x : Queue) : (s.setQueue q x).traffic = s.traffic := rfl
@[simp] theorem State.setQueue_long (s : State) (q : Nat) (x : Queue) : (s.setQueue q x).long = s.long := rfl
@[simp] theorem State.setQueue_drained (s : State) (q : Nat) (x : Queue) : (s.setQueue q x).drained = s.drained := rfl
@[simp] theorem State.setQueue_commits (s : State) (q : Nat) (x : Queue) : (s.setQueue q x).commits = s.commits := rfl
@[simp] theorem State.setQueue_waiting (s : State) (q : Nat) (x : Queue) : (s.setQueue q x).waiting = s.waiting := rfl
@[simp] theorem State.setQueue_accepted (s : State) (q : Nat) (x : Queue) : (s.setQueue q x).accepted = s.accepted := rfl
@[simp] theorem State.setQueue_failing (s : State) (q : Nat) (x : Queue) : (s.setQueue q x).failing = s.failing := rfl
@[simp] theorem State.setQueue_fencedDies (s : State) (q : Nat) (x : Queue) : (s.setQueue q x).fencedDies = s.fencedDies := rfl
@[simp] theorem State.setQueue_master (s : State) (q : Nat) (x : Queue) : (s.setQueue q x).master = s.master := rfl
@[simp] theorem State.setQueue_missed (s : State) (q : Nat) (x : Queue) : (s.setQueue q x).missed = s.missed := rfl
@[simp] theorem State.setQueue_silent (s : State) (q : Nat) (x : Queue) : (s.setQueue q x).silent = s.silent := rfl
@[simp] theorem State.setQueue_election (s : State) (q : Nat) (x : Queue) : (s.setQueue q x).election = s.election := rfl
@[simp] theorem State.setQueue_phase (s : State) (q : Nat) (x : Queue) : (s.setQueue q x).phase = s.phase := rfl
@[simp] theorem State.setQueue_bootErr (s : State) (q : Nat) (x : Queue) : (s.setQueue q x).bootErr = s.bootErr := rfl
@[simp] theorem State.setQueue_boot (s : State) (q : Nat) (x : Queue) : (s.setQueue q x).boot = s.boot := rfl
@[simp] theorem State.setQueue_romDigest (s : State) (q : Nat) (x : Queue) : (s.setQueue q x).romDigest = s.romDigest := rfl
@[simp] theorem State.setQueue_minVersion (s : State) (q : Nat) (x : Queue) : (s.setQueue q x).minVersion = s.minVersion := rfl
@[simp] theorem State.setQueue_identity (s : State) (q : Nat) (x : Queue) : (s.setQueue q x).identity = s.identity := rfl
@[simp] theorem State.setQueue_deviceKey (s : State) (q : Nat) (x : Queue) : (s.setQueue q x).deviceKey = s.deviceKey := rfl
@[simp] theorem State.setQueue_cxlUp (s : State) (q : Nat) (x : Queue) : (s.setQueue q x).cxlUp = s.cxlUp := rfl
@[simp] theorem State.setQueue_cxlReplies (s : State) (q : Nat) (x : Queue) : (s.setQueue q x).cxlReplies = s.cxlReplies := rfl
@[simp] theorem State.setQueue_strikeStrk (s : State) (q : Nat) (x : Queue) : (s.setQueue q x).strikeStrk = s.strikeStrk := rfl
@[simp] theorem State.setQueue_strikeRoll (s : State) (q : Nat) (x : Queue) : (s.setQueue q x).strikeRoll = s.strikeRoll := rfl
@[simp] theorem State.setQueue_promoLate (s : State) (q : Nat) (x : Queue) : (s.setQueue q x).promoLate = s.promoLate := rfl
@[simp] theorem State.setQueue_snapInc (s : State) (q : Nat) (x : Queue) : (s.setQueue q x).snapInc = s.snapInc := rfl
@[simp] theorem State.setQueue_snapOvf (s : State) (q : Nat) (x : Queue) : (s.setQueue q x).snapOvf = s.snapOvf := rfl
@[simp] theorem State.setQueue_snapCnt (s : State) (q : Nat) (x : Queue) : (s.setQueue q x).snapCnt = s.snapCnt := rfl
@[simp] theorem State.setQueue_snapCyc (s : State) (q : Nat) (x : Queue) : (s.setQueue q x).snapCyc = s.snapCyc := rfl
@[simp] theorem State.setQueue_snapCopies (s : State) (q : Nat) (x : Queue) : (s.setQueue q x).snapCopies = s.snapCopies := rfl
@[simp] theorem State.setQueue_xlinv (s : State) (q : Nat) (x : Queue) : (s.setQueue q x).xlinv = s.xlinv := rfl
@[simp] theorem State.setQueue_xlinvBusy (s : State) (q : Nat) (x : Queue) : (s.setQueue q x).xlinvBusy = s.xlinvBusy := rfl
@[simp] theorem State.setQueue_caches (s : State) (q : Nat) (x : Queue) : (s.setQueue q x).caches = s.caches := rfl
@[simp] theorem State.setQueue_jrnlBase (s : State) (q : Nat) (x : Queue) : (s.setQueue q x).jrnlBase = s.jrnlBase := rfl
@[simp] theorem State.setQueue_jrnlSize (s : State) (q : Nat) (x : Queue) : (s.setQueue q x).jrnlSize = s.jrnlSize := rfl
@[simp] theorem State.setQueue_jrnlNext (s : State) (q : Nat) (x : Queue) : (s.setQueue q x).jrnlNext = s.jrnlNext := rfl
@[simp] theorem State.setQueue_pwrLim (s : State) (q : Nat) (x : Queue) : (s.setQueue q x).pwrLim = s.pwrLim := rfl
@[simp] theorem State.setQueue_throttled (s : State) (q : Nat) (x : Queue) : (s.setQueue q x).throttled = s.throttled := rfl
@[simp] theorem State.setQueue_attNonce (s : State) (q : Nat) (x : Queue) : (s.setQueue q x).attNonce = s.attNonce := rfl
@[simp] theorem State.setQueue_attDone (s : State) (q : Nat) (x : Queue) : (s.setQueue q x).attDone = s.attDone := rfl
@[simp] theorem State.setQueue_attCount (s : State) (q : Nat) (x : Queue) : (s.setQueue q x).attCount = s.attCount := rfl
@[simp] theorem State.setQueue_attReport (s : State) (q : Nat) (x : Queue) : (s.setQueue q x).attReport = s.attReport := rfl

/-! ### `setLink` -/

@[simp] theorem State.setLink_cycle (s : State) (l : Nat) (x : Link) : (s.setLink l x).cycle = s.cycle := rfl
@[simp] theorem State.setLink_agenda (s : State) (l : Nat) (x : Link) : (s.setLink l x).agenda = s.agenda := rfl
@[simp] theorem State.setLink_cur (s : State) (l : Nat) (x : Link) : (s.setLink l x).cur = s.cur := rfl
@[simp] theorem State.setLink_inputs (s : State) (l : Nat) (x : Link) : (s.setLink l x).inputs = s.inputs := rfl
@[simp] theorem State.setLink_free (s : State) (l : Nat) (x : Link) : (s.setLink l x).free = s.free := rfl
@[simp] theorem State.setLink_unacked (s : State) (l : Nat) (x : Link) : (s.setLink l x).unacked = s.unacked := rfl
@[simp] theorem State.setLink_badWords (s : State) (l : Nat) (x : Link) : (s.setLink l x).badWords = s.badWords := rfl
@[simp] theorem State.setLink_misreads (s : State) (l : Nat) (x : Link) : (s.setLink l x).misreads = s.misreads := rfl
@[simp] theorem State.setLink_windows (s : State) (l : Nat) (x : Link) : (s.setLink l x).windows = s.windows := rfl
@[simp] theorem State.setLink_nextId (s : State) (l : Nat) (x : Link) : (s.setLink l x).nextId = s.nextId := rfl
@[simp] theorem State.setLink_mem (s : State) (l : Nat) (x : Link) : (s.setLink l x).mem = s.mem := rfl
@[simp] theorem State.setLink_poison (s : State) (l : Nat) (x : Link) : (s.setLink l x).poison = s.poison := rfl
@[simp] theorem State.setLink_hearths (s : State) (l : Nat) (x : Link) : (s.setLink l x).hearths = s.hearths := rfl
@[simp] theorem State.setLink_slots (s : State) (l : Nat) (x : Link) : (s.setLink l x).slots = s.slots := rfl
@[simp] theorem State.setLink_regions (s : State) (l : Nat) (x : Link) : (s.setLink l x).regions = s.regions := rfl
@[simp] theorem State.setLink_flights (s : State) (l : Nat) (x : Link) : (s.setLink l x).flights = s.flights := rfl
@[simp] theorem State.setLink_messages (s : State) (l : Nat) (x : Link) : (s.setLink l x).messages = s.messages := rfl
@[simp] theorem State.setLink_meshErrors (s : State) (l : Nat) (x : Link) : (s.setLink l x).meshErrors = s.meshErrors := rfl
@[simp] theorem State.setLink_loads (s : State) (l : Nat) (x : Link) : (s.setLink l x).loads = s.loads := rfl
@[simp] theorem State.setLink_contexts (s : State) (l : Nat) (x : Link) : (s.setLink l x).contexts = s.contexts := rfl
@[simp] theorem State.setLink_kernels (s : State) (l : Nat) (x : Link) : (s.setLink l x).kernels = s.kernels := rfl
@[simp] theorem State.setLink_queues (s : State) (l : Nat) (x : Link) : (s.setLink l x).queues = s.queues := rfl
@[simp] theorem State.setLink_engines (s : State) (l : Nat) (x : Link) : (s.setLink l x).engines = s.engines := rfl
@[simp] theorem State.setLink_forwards (s : State) (l : Nat) (x : Link) : (s.setLink l x).forwards = s.forwards := rfl
@[simp] theorem State.setLink_moves (s : State) (l : Nat) (x : Link) : (s.setLink l x).moves = s.moves := rfl
@[simp] theorem State.setLink_pointers (s : State) (l : Nat) (x : Link) : (s.setLink l x).pointers = s.pointers := rfl
@[simp] theorem State.setLink_posted (s : State) (l : Nat) (x : Link) : (s.setLink l x).posted = s.posted := rfl
@[simp] theorem State.setLink_pairs (s : State) (l : Nat) (x : Link) : (s.setLink l x).pairs = s.pairs := rfl
@[simp] theorem State.setLink_outgoing (s : State) (l : Nat) (x : Link) : (s.setLink l x).outgoing = s.outgoing := rfl
@[simp] theorem State.setLink_strikes (s : State) (l : Nat) (x : Link) : (s.setLink l x).strikes = s.strikes := rfl
@[simp] theorem State.setLink_reports (s : State) (l : Nat) (x : Link) : (s.setLink l x).reports = s.reports := rfl
@[simp] theorem State.setLink_traffic (s : State) (l : Nat) (x : Link) : (s.setLink l x).traffic = s.traffic := rfl
@[simp] theorem State.setLink_long (s : State) (l : Nat) (x : Link) : (s.setLink l x).long = s.long := rfl
@[simp] theorem State.setLink_drained (s : State) (l : Nat) (x : Link) : (s.setLink l x).drained = s.drained := rfl
@[simp] theorem State.setLink_commits (s : State) (l : Nat) (x : Link) : (s.setLink l x).commits = s.commits := rfl
@[simp] theorem State.setLink_waiting (s : State) (l : Nat) (x : Link) : (s.setLink l x).waiting = s.waiting := rfl
@[simp] theorem State.setLink_accepted (s : State) (l : Nat) (x : Link) : (s.setLink l x).accepted = s.accepted := rfl
@[simp] theorem State.setLink_failing (s : State) (l : Nat) (x : Link) : (s.setLink l x).failing = s.failing := rfl
@[simp] theorem State.setLink_fencedDies (s : State) (l : Nat) (x : Link) : (s.setLink l x).fencedDies = s.fencedDies := rfl
@[simp] theorem State.setLink_master (s : State) (l : Nat) (x : Link) : (s.setLink l x).master = s.master := rfl
@[simp] theorem State.setLink_missed (s : State) (l : Nat) (x : Link) : (s.setLink l x).missed = s.missed := rfl
@[simp] theorem State.setLink_silent (s : State) (l : Nat) (x : Link) : (s.setLink l x).silent = s.silent := rfl
@[simp] theorem State.setLink_election (s : State) (l : Nat) (x : Link) : (s.setLink l x).election = s.election := rfl
@[simp] theorem State.setLink_phase (s : State) (l : Nat) (x : Link) : (s.setLink l x).phase = s.phase := rfl
@[simp] theorem State.setLink_bootErr (s : State) (l : Nat) (x : Link) : (s.setLink l x).bootErr = s.bootErr := rfl
@[simp] theorem State.setLink_boot (s : State) (l : Nat) (x : Link) : (s.setLink l x).boot = s.boot := rfl
@[simp] theorem State.setLink_romDigest (s : State) (l : Nat) (x : Link) : (s.setLink l x).romDigest = s.romDigest := rfl
@[simp] theorem State.setLink_minVersion (s : State) (l : Nat) (x : Link) : (s.setLink l x).minVersion = s.minVersion := rfl
@[simp] theorem State.setLink_identity (s : State) (l : Nat) (x : Link) : (s.setLink l x).identity = s.identity := rfl
@[simp] theorem State.setLink_deviceKey (s : State) (l : Nat) (x : Link) : (s.setLink l x).deviceKey = s.deviceKey := rfl
@[simp] theorem State.setLink_cxlUp (s : State) (l : Nat) (x : Link) : (s.setLink l x).cxlUp = s.cxlUp := rfl
@[simp] theorem State.setLink_cxlReplies (s : State) (l : Nat) (x : Link) : (s.setLink l x).cxlReplies = s.cxlReplies := rfl
@[simp] theorem State.setLink_strikeStrk (s : State) (l : Nat) (x : Link) : (s.setLink l x).strikeStrk = s.strikeStrk := rfl
@[simp] theorem State.setLink_strikeRoll (s : State) (l : Nat) (x : Link) : (s.setLink l x).strikeRoll = s.strikeRoll := rfl
@[simp] theorem State.setLink_promoLate (s : State) (l : Nat) (x : Link) : (s.setLink l x).promoLate = s.promoLate := rfl
@[simp] theorem State.setLink_snapInc (s : State) (l : Nat) (x : Link) : (s.setLink l x).snapInc = s.snapInc := rfl
@[simp] theorem State.setLink_snapOvf (s : State) (l : Nat) (x : Link) : (s.setLink l x).snapOvf = s.snapOvf := rfl
@[simp] theorem State.setLink_snapCnt (s : State) (l : Nat) (x : Link) : (s.setLink l x).snapCnt = s.snapCnt := rfl
@[simp] theorem State.setLink_snapCyc (s : State) (l : Nat) (x : Link) : (s.setLink l x).snapCyc = s.snapCyc := rfl
@[simp] theorem State.setLink_snapCopies (s : State) (l : Nat) (x : Link) : (s.setLink l x).snapCopies = s.snapCopies := rfl
@[simp] theorem State.setLink_xlinv (s : State) (l : Nat) (x : Link) : (s.setLink l x).xlinv = s.xlinv := rfl
@[simp] theorem State.setLink_xlinvBusy (s : State) (l : Nat) (x : Link) : (s.setLink l x).xlinvBusy = s.xlinvBusy := rfl
@[simp] theorem State.setLink_caches (s : State) (l : Nat) (x : Link) : (s.setLink l x).caches = s.caches := rfl
@[simp] theorem State.setLink_jrnlBase (s : State) (l : Nat) (x : Link) : (s.setLink l x).jrnlBase = s.jrnlBase := rfl
@[simp] theorem State.setLink_jrnlSize (s : State) (l : Nat) (x : Link) : (s.setLink l x).jrnlSize = s.jrnlSize := rfl
@[simp] theorem State.setLink_jrnlNext (s : State) (l : Nat) (x : Link) : (s.setLink l x).jrnlNext = s.jrnlNext := rfl
@[simp] theorem State.setLink_pwrLim (s : State) (l : Nat) (x : Link) : (s.setLink l x).pwrLim = s.pwrLim := rfl
@[simp] theorem State.setLink_throttled (s : State) (l : Nat) (x : Link) : (s.setLink l x).throttled = s.throttled := rfl
@[simp] theorem State.setLink_attNonce (s : State) (l : Nat) (x : Link) : (s.setLink l x).attNonce = s.attNonce := rfl
@[simp] theorem State.setLink_attDone (s : State) (l : Nat) (x : Link) : (s.setLink l x).attDone = s.attDone := rfl
@[simp] theorem State.setLink_attCount (s : State) (l : Nat) (x : Link) : (s.setLink l x).attCount = s.attCount := rfl
@[simp] theorem State.setLink_attReport (s : State) (l : Nat) (x : Link) : (s.setLink l x).attReport = s.attReport := rfl

/-! ### `setPair` -/

@[simp] theorem State.setPair_cycle (s : State) (p : Nat) (x : Pair) : (s.setPair p x).cycle = s.cycle := rfl
@[simp] theorem State.setPair_agenda (s : State) (p : Nat) (x : Pair) : (s.setPair p x).agenda = s.agenda := rfl
@[simp] theorem State.setPair_cur (s : State) (p : Nat) (x : Pair) : (s.setPair p x).cur = s.cur := rfl
@[simp] theorem State.setPair_inputs (s : State) (p : Nat) (x : Pair) : (s.setPair p x).inputs = s.inputs := rfl
@[simp] theorem State.setPair_free (s : State) (p : Nat) (x : Pair) : (s.setPair p x).free = s.free := rfl
@[simp] theorem State.setPair_unacked (s : State) (p : Nat) (x : Pair) : (s.setPair p x).unacked = s.unacked := rfl
@[simp] theorem State.setPair_badWords (s : State) (p : Nat) (x : Pair) : (s.setPair p x).badWords = s.badWords := rfl
@[simp] theorem State.setPair_misreads (s : State) (p : Nat) (x : Pair) : (s.setPair p x).misreads = s.misreads := rfl
@[simp] theorem State.setPair_windows (s : State) (p : Nat) (x : Pair) : (s.setPair p x).windows = s.windows := rfl
@[simp] theorem State.setPair_nextId (s : State) (p : Nat) (x : Pair) : (s.setPair p x).nextId = s.nextId := rfl
@[simp] theorem State.setPair_mem (s : State) (p : Nat) (x : Pair) : (s.setPair p x).mem = s.mem := rfl
@[simp] theorem State.setPair_poison (s : State) (p : Nat) (x : Pair) : (s.setPair p x).poison = s.poison := rfl
@[simp] theorem State.setPair_hearths (s : State) (p : Nat) (x : Pair) : (s.setPair p x).hearths = s.hearths := rfl
@[simp] theorem State.setPair_slots (s : State) (p : Nat) (x : Pair) : (s.setPair p x).slots = s.slots := rfl
@[simp] theorem State.setPair_regions (s : State) (p : Nat) (x : Pair) : (s.setPair p x).regions = s.regions := rfl
@[simp] theorem State.setPair_flights (s : State) (p : Nat) (x : Pair) : (s.setPair p x).flights = s.flights := rfl
@[simp] theorem State.setPair_messages (s : State) (p : Nat) (x : Pair) : (s.setPair p x).messages = s.messages := rfl
@[simp] theorem State.setPair_meshErrors (s : State) (p : Nat) (x : Pair) : (s.setPair p x).meshErrors = s.meshErrors := rfl
@[simp] theorem State.setPair_loads (s : State) (p : Nat) (x : Pair) : (s.setPair p x).loads = s.loads := rfl
@[simp] theorem State.setPair_contexts (s : State) (p : Nat) (x : Pair) : (s.setPair p x).contexts = s.contexts := rfl
@[simp] theorem State.setPair_kernels (s : State) (p : Nat) (x : Pair) : (s.setPair p x).kernels = s.kernels := rfl
@[simp] theorem State.setPair_queues (s : State) (p : Nat) (x : Pair) : (s.setPair p x).queues = s.queues := rfl
@[simp] theorem State.setPair_engines (s : State) (p : Nat) (x : Pair) : (s.setPair p x).engines = s.engines := rfl
@[simp] theorem State.setPair_forwards (s : State) (p : Nat) (x : Pair) : (s.setPair p x).forwards = s.forwards := rfl
@[simp] theorem State.setPair_moves (s : State) (p : Nat) (x : Pair) : (s.setPair p x).moves = s.moves := rfl
@[simp] theorem State.setPair_pointers (s : State) (p : Nat) (x : Pair) : (s.setPair p x).pointers = s.pointers := rfl
@[simp] theorem State.setPair_links (s : State) (p : Nat) (x : Pair) : (s.setPair p x).links = s.links := rfl
@[simp] theorem State.setPair_posted (s : State) (p : Nat) (x : Pair) : (s.setPair p x).posted = s.posted := rfl
@[simp] theorem State.setPair_outgoing (s : State) (p : Nat) (x : Pair) : (s.setPair p x).outgoing = s.outgoing := rfl
@[simp] theorem State.setPair_strikes (s : State) (p : Nat) (x : Pair) : (s.setPair p x).strikes = s.strikes := rfl
@[simp] theorem State.setPair_reports (s : State) (p : Nat) (x : Pair) : (s.setPair p x).reports = s.reports := rfl
@[simp] theorem State.setPair_traffic (s : State) (p : Nat) (x : Pair) : (s.setPair p x).traffic = s.traffic := rfl
@[simp] theorem State.setPair_long (s : State) (p : Nat) (x : Pair) : (s.setPair p x).long = s.long := rfl
@[simp] theorem State.setPair_drained (s : State) (p : Nat) (x : Pair) : (s.setPair p x).drained = s.drained := rfl
@[simp] theorem State.setPair_commits (s : State) (p : Nat) (x : Pair) : (s.setPair p x).commits = s.commits := rfl
@[simp] theorem State.setPair_waiting (s : State) (p : Nat) (x : Pair) : (s.setPair p x).waiting = s.waiting := rfl
@[simp] theorem State.setPair_accepted (s : State) (p : Nat) (x : Pair) : (s.setPair p x).accepted = s.accepted := rfl
@[simp] theorem State.setPair_failing (s : State) (p : Nat) (x : Pair) : (s.setPair p x).failing = s.failing := rfl
@[simp] theorem State.setPair_fencedDies (s : State) (p : Nat) (x : Pair) : (s.setPair p x).fencedDies = s.fencedDies := rfl
@[simp] theorem State.setPair_master (s : State) (p : Nat) (x : Pair) : (s.setPair p x).master = s.master := rfl
@[simp] theorem State.setPair_missed (s : State) (p : Nat) (x : Pair) : (s.setPair p x).missed = s.missed := rfl
@[simp] theorem State.setPair_silent (s : State) (p : Nat) (x : Pair) : (s.setPair p x).silent = s.silent := rfl
@[simp] theorem State.setPair_election (s : State) (p : Nat) (x : Pair) : (s.setPair p x).election = s.election := rfl
@[simp] theorem State.setPair_phase (s : State) (p : Nat) (x : Pair) : (s.setPair p x).phase = s.phase := rfl
@[simp] theorem State.setPair_bootErr (s : State) (p : Nat) (x : Pair) : (s.setPair p x).bootErr = s.bootErr := rfl
@[simp] theorem State.setPair_boot (s : State) (p : Nat) (x : Pair) : (s.setPair p x).boot = s.boot := rfl
@[simp] theorem State.setPair_romDigest (s : State) (p : Nat) (x : Pair) : (s.setPair p x).romDigest = s.romDigest := rfl
@[simp] theorem State.setPair_minVersion (s : State) (p : Nat) (x : Pair) : (s.setPair p x).minVersion = s.minVersion := rfl
@[simp] theorem State.setPair_identity (s : State) (p : Nat) (x : Pair) : (s.setPair p x).identity = s.identity := rfl
@[simp] theorem State.setPair_deviceKey (s : State) (p : Nat) (x : Pair) : (s.setPair p x).deviceKey = s.deviceKey := rfl
@[simp] theorem State.setPair_cxlUp (s : State) (p : Nat) (x : Pair) : (s.setPair p x).cxlUp = s.cxlUp := rfl
@[simp] theorem State.setPair_cxlReplies (s : State) (p : Nat) (x : Pair) : (s.setPair p x).cxlReplies = s.cxlReplies := rfl
@[simp] theorem State.setPair_strikeStrk (s : State) (p : Nat) (x : Pair) : (s.setPair p x).strikeStrk = s.strikeStrk := rfl
@[simp] theorem State.setPair_strikeRoll (s : State) (p : Nat) (x : Pair) : (s.setPair p x).strikeRoll = s.strikeRoll := rfl
@[simp] theorem State.setPair_promoLate (s : State) (p : Nat) (x : Pair) : (s.setPair p x).promoLate = s.promoLate := rfl
@[simp] theorem State.setPair_snapInc (s : State) (p : Nat) (x : Pair) : (s.setPair p x).snapInc = s.snapInc := rfl
@[simp] theorem State.setPair_snapOvf (s : State) (p : Nat) (x : Pair) : (s.setPair p x).snapOvf = s.snapOvf := rfl
@[simp] theorem State.setPair_snapCnt (s : State) (p : Nat) (x : Pair) : (s.setPair p x).snapCnt = s.snapCnt := rfl
@[simp] theorem State.setPair_snapCyc (s : State) (p : Nat) (x : Pair) : (s.setPair p x).snapCyc = s.snapCyc := rfl
@[simp] theorem State.setPair_snapCopies (s : State) (p : Nat) (x : Pair) : (s.setPair p x).snapCopies = s.snapCopies := rfl
@[simp] theorem State.setPair_xlinv (s : State) (p : Nat) (x : Pair) : (s.setPair p x).xlinv = s.xlinv := rfl
@[simp] theorem State.setPair_xlinvBusy (s : State) (p : Nat) (x : Pair) : (s.setPair p x).xlinvBusy = s.xlinvBusy := rfl
@[simp] theorem State.setPair_caches (s : State) (p : Nat) (x : Pair) : (s.setPair p x).caches = s.caches := rfl
@[simp] theorem State.setPair_jrnlBase (s : State) (p : Nat) (x : Pair) : (s.setPair p x).jrnlBase = s.jrnlBase := rfl
@[simp] theorem State.setPair_jrnlSize (s : State) (p : Nat) (x : Pair) : (s.setPair p x).jrnlSize = s.jrnlSize := rfl
@[simp] theorem State.setPair_jrnlNext (s : State) (p : Nat) (x : Pair) : (s.setPair p x).jrnlNext = s.jrnlNext := rfl
@[simp] theorem State.setPair_pwrLim (s : State) (p : Nat) (x : Pair) : (s.setPair p x).pwrLim = s.pwrLim := rfl
@[simp] theorem State.setPair_throttled (s : State) (p : Nat) (x : Pair) : (s.setPair p x).throttled = s.throttled := rfl
@[simp] theorem State.setPair_attNonce (s : State) (p : Nat) (x : Pair) : (s.setPair p x).attNonce = s.attNonce := rfl
@[simp] theorem State.setPair_attDone (s : State) (p : Nat) (x : Pair) : (s.setPair p x).attDone = s.attDone := rfl
@[simp] theorem State.setPair_attCount (s : State) (p : Nat) (x : Pair) : (s.setPair p x).attCount = s.attCount := rfl
@[simp] theorem State.setPair_attReport (s : State) (p : Nat) (x : Pair) : (s.setPair p x).attReport = s.attReport := rfl

/-! ### `push` -/

@[simp] theorem State.push_cycle (s : State) (ts : List Turn) : (s.push ts).cycle = s.cycle := rfl
@[simp] theorem State.push_cur (s : State) (ts : List Turn) : (s.push ts).cur = s.cur := rfl
@[simp] theorem State.push_inputs (s : State) (ts : List Turn) : (s.push ts).inputs = s.inputs := rfl
@[simp] theorem State.push_free (s : State) (ts : List Turn) : (s.push ts).free = s.free := rfl
@[simp] theorem State.push_unacked (s : State) (ts : List Turn) : (s.push ts).unacked = s.unacked := rfl
@[simp] theorem State.push_badWords (s : State) (ts : List Turn) : (s.push ts).badWords = s.badWords := rfl
@[simp] theorem State.push_misreads (s : State) (ts : List Turn) : (s.push ts).misreads = s.misreads := rfl
@[simp] theorem State.push_windows (s : State) (ts : List Turn) : (s.push ts).windows = s.windows := rfl
@[simp] theorem State.push_nextId (s : State) (ts : List Turn) : (s.push ts).nextId = s.nextId := rfl
@[simp] theorem State.push_mem (s : State) (ts : List Turn) : (s.push ts).mem = s.mem := rfl
@[simp] theorem State.push_poison (s : State) (ts : List Turn) : (s.push ts).poison = s.poison := rfl
@[simp] theorem State.push_hearths (s : State) (ts : List Turn) : (s.push ts).hearths = s.hearths := rfl
@[simp] theorem State.push_slots (s : State) (ts : List Turn) : (s.push ts).slots = s.slots := rfl
@[simp] theorem State.push_regions (s : State) (ts : List Turn) : (s.push ts).regions = s.regions := rfl
@[simp] theorem State.push_flights (s : State) (ts : List Turn) : (s.push ts).flights = s.flights := rfl
@[simp] theorem State.push_messages (s : State) (ts : List Turn) : (s.push ts).messages = s.messages := rfl
@[simp] theorem State.push_meshErrors (s : State) (ts : List Turn) : (s.push ts).meshErrors = s.meshErrors := rfl
@[simp] theorem State.push_loads (s : State) (ts : List Turn) : (s.push ts).loads = s.loads := rfl
@[simp] theorem State.push_contexts (s : State) (ts : List Turn) : (s.push ts).contexts = s.contexts := rfl
@[simp] theorem State.push_kernels (s : State) (ts : List Turn) : (s.push ts).kernels = s.kernels := rfl
@[simp] theorem State.push_queues (s : State) (ts : List Turn) : (s.push ts).queues = s.queues := rfl
@[simp] theorem State.push_engines (s : State) (ts : List Turn) : (s.push ts).engines = s.engines := rfl
@[simp] theorem State.push_forwards (s : State) (ts : List Turn) : (s.push ts).forwards = s.forwards := rfl
@[simp] theorem State.push_moves (s : State) (ts : List Turn) : (s.push ts).moves = s.moves := rfl
@[simp] theorem State.push_pointers (s : State) (ts : List Turn) : (s.push ts).pointers = s.pointers := rfl
@[simp] theorem State.push_links (s : State) (ts : List Turn) : (s.push ts).links = s.links := rfl
@[simp] theorem State.push_posted (s : State) (ts : List Turn) : (s.push ts).posted = s.posted := rfl
@[simp] theorem State.push_pairs (s : State) (ts : List Turn) : (s.push ts).pairs = s.pairs := rfl
@[simp] theorem State.push_outgoing (s : State) (ts : List Turn) : (s.push ts).outgoing = s.outgoing := rfl
@[simp] theorem State.push_strikes (s : State) (ts : List Turn) : (s.push ts).strikes = s.strikes := rfl
@[simp] theorem State.push_reports (s : State) (ts : List Turn) : (s.push ts).reports = s.reports := rfl
@[simp] theorem State.push_traffic (s : State) (ts : List Turn) : (s.push ts).traffic = s.traffic := rfl
@[simp] theorem State.push_long (s : State) (ts : List Turn) : (s.push ts).long = s.long := rfl
@[simp] theorem State.push_drained (s : State) (ts : List Turn) : (s.push ts).drained = s.drained := rfl
@[simp] theorem State.push_commits (s : State) (ts : List Turn) : (s.push ts).commits = s.commits := rfl
@[simp] theorem State.push_waiting (s : State) (ts : List Turn) : (s.push ts).waiting = s.waiting := rfl
@[simp] theorem State.push_accepted (s : State) (ts : List Turn) : (s.push ts).accepted = s.accepted := rfl
@[simp] theorem State.push_failing (s : State) (ts : List Turn) : (s.push ts).failing = s.failing := rfl
@[simp] theorem State.push_fencedDies (s : State) (ts : List Turn) : (s.push ts).fencedDies = s.fencedDies := rfl
@[simp] theorem State.push_master (s : State) (ts : List Turn) : (s.push ts).master = s.master := rfl
@[simp] theorem State.push_missed (s : State) (ts : List Turn) : (s.push ts).missed = s.missed := rfl
@[simp] theorem State.push_silent (s : State) (ts : List Turn) : (s.push ts).silent = s.silent := rfl
@[simp] theorem State.push_election (s : State) (ts : List Turn) : (s.push ts).election = s.election := rfl
@[simp] theorem State.push_phase (s : State) (ts : List Turn) : (s.push ts).phase = s.phase := rfl
@[simp] theorem State.push_bootErr (s : State) (ts : List Turn) : (s.push ts).bootErr = s.bootErr := rfl
@[simp] theorem State.push_boot (s : State) (ts : List Turn) : (s.push ts).boot = s.boot := rfl
@[simp] theorem State.push_romDigest (s : State) (ts : List Turn) : (s.push ts).romDigest = s.romDigest := rfl
@[simp] theorem State.push_minVersion (s : State) (ts : List Turn) : (s.push ts).minVersion = s.minVersion := rfl
@[simp] theorem State.push_identity (s : State) (ts : List Turn) : (s.push ts).identity = s.identity := rfl
@[simp] theorem State.push_deviceKey (s : State) (ts : List Turn) : (s.push ts).deviceKey = s.deviceKey := rfl
@[simp] theorem State.push_cxlUp (s : State) (ts : List Turn) : (s.push ts).cxlUp = s.cxlUp := rfl
@[simp] theorem State.push_cxlReplies (s : State) (ts : List Turn) : (s.push ts).cxlReplies = s.cxlReplies := rfl
@[simp] theorem State.push_strikeStrk (s : State) (ts : List Turn) : (s.push ts).strikeStrk = s.strikeStrk := rfl
@[simp] theorem State.push_strikeRoll (s : State) (ts : List Turn) : (s.push ts).strikeRoll = s.strikeRoll := rfl
@[simp] theorem State.push_promoLate (s : State) (ts : List Turn) : (s.push ts).promoLate = s.promoLate := rfl
@[simp] theorem State.push_snapInc (s : State) (ts : List Turn) : (s.push ts).snapInc = s.snapInc := rfl
@[simp] theorem State.push_snapOvf (s : State) (ts : List Turn) : (s.push ts).snapOvf = s.snapOvf := rfl
@[simp] theorem State.push_snapCnt (s : State) (ts : List Turn) : (s.push ts).snapCnt = s.snapCnt := rfl
@[simp] theorem State.push_snapCyc (s : State) (ts : List Turn) : (s.push ts).snapCyc = s.snapCyc := rfl
@[simp] theorem State.push_snapCopies (s : State) (ts : List Turn) : (s.push ts).snapCopies = s.snapCopies := rfl
@[simp] theorem State.push_xlinv (s : State) (ts : List Turn) : (s.push ts).xlinv = s.xlinv := rfl
@[simp] theorem State.push_xlinvBusy (s : State) (ts : List Turn) : (s.push ts).xlinvBusy = s.xlinvBusy := rfl
@[simp] theorem State.push_caches (s : State) (ts : List Turn) : (s.push ts).caches = s.caches := rfl
@[simp] theorem State.push_jrnlBase (s : State) (ts : List Turn) : (s.push ts).jrnlBase = s.jrnlBase := rfl
@[simp] theorem State.push_jrnlSize (s : State) (ts : List Turn) : (s.push ts).jrnlSize = s.jrnlSize := rfl
@[simp] theorem State.push_jrnlNext (s : State) (ts : List Turn) : (s.push ts).jrnlNext = s.jrnlNext := rfl
@[simp] theorem State.push_pwrLim (s : State) (ts : List Turn) : (s.push ts).pwrLim = s.pwrLim := rfl
@[simp] theorem State.push_throttled (s : State) (ts : List Turn) : (s.push ts).throttled = s.throttled := rfl
@[simp] theorem State.push_attNonce (s : State) (ts : List Turn) : (s.push ts).attNonce = s.attNonce := rfl
@[simp] theorem State.push_attDone (s : State) (ts : List Turn) : (s.push ts).attDone = s.attDone := rfl
@[simp] theorem State.push_attCount (s : State) (ts : List Turn) : (s.push ts).attCount = s.attCount := rfl
@[simp] theorem State.push_attReport (s : State) (ts : List Turn) : (s.push ts).attReport = s.attReport := rfl

/-! ### `put` -/

@[simp] theorem State.put_cycle (s : State) (pa : Nat) (bs : List Byte) (b : Bool) : (s.put pa bs b).cycle = s.cycle := rfl
@[simp] theorem State.put_agenda (s : State) (pa : Nat) (bs : List Byte) (b : Bool) : (s.put pa bs b).agenda = s.agenda := rfl
@[simp] theorem State.put_cur (s : State) (pa : Nat) (bs : List Byte) (b : Bool) : (s.put pa bs b).cur = s.cur := rfl
@[simp] theorem State.put_inputs (s : State) (pa : Nat) (bs : List Byte) (b : Bool) : (s.put pa bs b).inputs = s.inputs := rfl
@[simp] theorem State.put_free (s : State) (pa : Nat) (bs : List Byte) (b : Bool) : (s.put pa bs b).free = s.free := rfl
@[simp] theorem State.put_unacked (s : State) (pa : Nat) (bs : List Byte) (b : Bool) : (s.put pa bs b).unacked = s.unacked := rfl
@[simp] theorem State.put_badWords (s : State) (pa : Nat) (bs : List Byte) (b : Bool) : (s.put pa bs b).badWords = s.badWords := rfl
@[simp] theorem State.put_misreads (s : State) (pa : Nat) (bs : List Byte) (b : Bool) : (s.put pa bs b).misreads = s.misreads := rfl
@[simp] theorem State.put_windows (s : State) (pa : Nat) (bs : List Byte) (b : Bool) : (s.put pa bs b).windows = s.windows := rfl
@[simp] theorem State.put_nextId (s : State) (pa : Nat) (bs : List Byte) (b : Bool) : (s.put pa bs b).nextId = s.nextId := rfl
@[simp] theorem State.put_hearths (s : State) (pa : Nat) (bs : List Byte) (b : Bool) : (s.put pa bs b).hearths = s.hearths := rfl
@[simp] theorem State.put_slots (s : State) (pa : Nat) (bs : List Byte) (b : Bool) : (s.put pa bs b).slots = s.slots := rfl
@[simp] theorem State.put_regions (s : State) (pa : Nat) (bs : List Byte) (b : Bool) : (s.put pa bs b).regions = s.regions := rfl
@[simp] theorem State.put_flights (s : State) (pa : Nat) (bs : List Byte) (b : Bool) : (s.put pa bs b).flights = s.flights := rfl
@[simp] theorem State.put_messages (s : State) (pa : Nat) (bs : List Byte) (b : Bool) : (s.put pa bs b).messages = s.messages := rfl
@[simp] theorem State.put_meshErrors (s : State) (pa : Nat) (bs : List Byte) (b : Bool) : (s.put pa bs b).meshErrors = s.meshErrors := rfl
@[simp] theorem State.put_loads (s : State) (pa : Nat) (bs : List Byte) (b : Bool) : (s.put pa bs b).loads = s.loads := rfl
@[simp] theorem State.put_contexts (s : State) (pa : Nat) (bs : List Byte) (b : Bool) : (s.put pa bs b).contexts = s.contexts := rfl
@[simp] theorem State.put_kernels (s : State) (pa : Nat) (bs : List Byte) (b : Bool) : (s.put pa bs b).kernels = s.kernels := rfl
@[simp] theorem State.put_queues (s : State) (pa : Nat) (bs : List Byte) (b : Bool) : (s.put pa bs b).queues = s.queues := rfl
@[simp] theorem State.put_engines (s : State) (pa : Nat) (bs : List Byte) (b : Bool) : (s.put pa bs b).engines = s.engines := rfl
@[simp] theorem State.put_forwards (s : State) (pa : Nat) (bs : List Byte) (b : Bool) : (s.put pa bs b).forwards = s.forwards := rfl
@[simp] theorem State.put_pointers (s : State) (pa : Nat) (bs : List Byte) (b : Bool) : (s.put pa bs b).pointers = s.pointers := rfl
@[simp] theorem State.put_links (s : State) (pa : Nat) (bs : List Byte) (b : Bool) : (s.put pa bs b).links = s.links := rfl
@[simp] theorem State.put_posted (s : State) (pa : Nat) (bs : List Byte) (b : Bool) : (s.put pa bs b).posted = s.posted := rfl
@[simp] theorem State.put_pairs (s : State) (pa : Nat) (bs : List Byte) (b : Bool) : (s.put pa bs b).pairs = s.pairs := rfl
@[simp] theorem State.put_outgoing (s : State) (pa : Nat) (bs : List Byte) (b : Bool) : (s.put pa bs b).outgoing = s.outgoing := rfl
@[simp] theorem State.put_strikes (s : State) (pa : Nat) (bs : List Byte) (b : Bool) : (s.put pa bs b).strikes = s.strikes := rfl
@[simp] theorem State.put_reports (s : State) (pa : Nat) (bs : List Byte) (b : Bool) : (s.put pa bs b).reports = s.reports := rfl
@[simp] theorem State.put_traffic (s : State) (pa : Nat) (bs : List Byte) (b : Bool) : (s.put pa bs b).traffic = s.traffic := rfl
@[simp] theorem State.put_long (s : State) (pa : Nat) (bs : List Byte) (b : Bool) : (s.put pa bs b).long = s.long := rfl
@[simp] theorem State.put_drained (s : State) (pa : Nat) (bs : List Byte) (b : Bool) : (s.put pa bs b).drained = s.drained := rfl
@[simp] theorem State.put_commits (s : State) (pa : Nat) (bs : List Byte) (b : Bool) : (s.put pa bs b).commits = s.commits := rfl
@[simp] theorem State.put_waiting (s : State) (pa : Nat) (bs : List Byte) (b : Bool) : (s.put pa bs b).waiting = s.waiting := rfl
@[simp] theorem State.put_accepted (s : State) (pa : Nat) (bs : List Byte) (b : Bool) : (s.put pa bs b).accepted = s.accepted := rfl
@[simp] theorem State.put_failing (s : State) (pa : Nat) (bs : List Byte) (b : Bool) : (s.put pa bs b).failing = s.failing := rfl
@[simp] theorem State.put_fencedDies (s : State) (pa : Nat) (bs : List Byte) (b : Bool) : (s.put pa bs b).fencedDies = s.fencedDies := rfl
@[simp] theorem State.put_master (s : State) (pa : Nat) (bs : List Byte) (b : Bool) : (s.put pa bs b).master = s.master := rfl
@[simp] theorem State.put_missed (s : State) (pa : Nat) (bs : List Byte) (b : Bool) : (s.put pa bs b).missed = s.missed := rfl
@[simp] theorem State.put_silent (s : State) (pa : Nat) (bs : List Byte) (b : Bool) : (s.put pa bs b).silent = s.silent := rfl
@[simp] theorem State.put_election (s : State) (pa : Nat) (bs : List Byte) (b : Bool) : (s.put pa bs b).election = s.election := rfl
@[simp] theorem State.put_phase (s : State) (pa : Nat) (bs : List Byte) (b : Bool) : (s.put pa bs b).phase = s.phase := rfl
@[simp] theorem State.put_bootErr (s : State) (pa : Nat) (bs : List Byte) (b : Bool) : (s.put pa bs b).bootErr = s.bootErr := rfl
@[simp] theorem State.put_boot (s : State) (pa : Nat) (bs : List Byte) (b : Bool) : (s.put pa bs b).boot = s.boot := rfl
@[simp] theorem State.put_romDigest (s : State) (pa : Nat) (bs : List Byte) (b : Bool) : (s.put pa bs b).romDigest = s.romDigest := rfl
@[simp] theorem State.put_minVersion (s : State) (pa : Nat) (bs : List Byte) (b : Bool) : (s.put pa bs b).minVersion = s.minVersion := rfl
@[simp] theorem State.put_identity (s : State) (pa : Nat) (bs : List Byte) (b : Bool) : (s.put pa bs b).identity = s.identity := rfl
@[simp] theorem State.put_deviceKey (s : State) (pa : Nat) (bs : List Byte) (b : Bool) : (s.put pa bs b).deviceKey = s.deviceKey := rfl
@[simp] theorem State.put_cxlUp (s : State) (pa : Nat) (bs : List Byte) (b : Bool) : (s.put pa bs b).cxlUp = s.cxlUp := rfl
@[simp] theorem State.put_cxlReplies (s : State) (pa : Nat) (bs : List Byte) (b : Bool) : (s.put pa bs b).cxlReplies = s.cxlReplies := rfl
@[simp] theorem State.put_strikeStrk (s : State) (pa : Nat) (bs : List Byte) (b : Bool) : (s.put pa bs b).strikeStrk = s.strikeStrk := rfl
@[simp] theorem State.put_strikeRoll (s : State) (pa : Nat) (bs : List Byte) (b : Bool) : (s.put pa bs b).strikeRoll = s.strikeRoll := rfl
@[simp] theorem State.put_promoLate (s : State) (pa : Nat) (bs : List Byte) (b : Bool) : (s.put pa bs b).promoLate = s.promoLate := rfl
@[simp] theorem State.put_snapInc (s : State) (pa : Nat) (bs : List Byte) (b : Bool) : (s.put pa bs b).snapInc = s.snapInc := rfl
@[simp] theorem State.put_snapOvf (s : State) (pa : Nat) (bs : List Byte) (b : Bool) : (s.put pa bs b).snapOvf = s.snapOvf := rfl
@[simp] theorem State.put_snapCnt (s : State) (pa : Nat) (bs : List Byte) (b : Bool) : (s.put pa bs b).snapCnt = s.snapCnt := rfl
@[simp] theorem State.put_snapCyc (s : State) (pa : Nat) (bs : List Byte) (b : Bool) : (s.put pa bs b).snapCyc = s.snapCyc := rfl
@[simp] theorem State.put_snapCopies (s : State) (pa : Nat) (bs : List Byte) (b : Bool) : (s.put pa bs b).snapCopies = s.snapCopies := rfl
@[simp] theorem State.put_xlinv (s : State) (pa : Nat) (bs : List Byte) (b : Bool) : (s.put pa bs b).xlinv = s.xlinv := rfl
@[simp] theorem State.put_xlinvBusy (s : State) (pa : Nat) (bs : List Byte) (b : Bool) : (s.put pa bs b).xlinvBusy = s.xlinvBusy := rfl
@[simp] theorem State.put_caches (s : State) (pa : Nat) (bs : List Byte) (b : Bool) : (s.put pa bs b).caches = s.caches := rfl
@[simp] theorem State.put_jrnlBase (s : State) (pa : Nat) (bs : List Byte) (b : Bool) : (s.put pa bs b).jrnlBase = s.jrnlBase := rfl
@[simp] theorem State.put_jrnlSize (s : State) (pa : Nat) (bs : List Byte) (b : Bool) : (s.put pa bs b).jrnlSize = s.jrnlSize := rfl
@[simp] theorem State.put_jrnlNext (s : State) (pa : Nat) (bs : List Byte) (b : Bool) : (s.put pa bs b).jrnlNext = s.jrnlNext := rfl
@[simp] theorem State.put_pwrLim (s : State) (pa : Nat) (bs : List Byte) (b : Bool) : (s.put pa bs b).pwrLim = s.pwrLim := rfl
@[simp] theorem State.put_throttled (s : State) (pa : Nat) (bs : List Byte) (b : Bool) : (s.put pa bs b).throttled = s.throttled := rfl
@[simp] theorem State.put_attNonce (s : State) (pa : Nat) (bs : List Byte) (b : Bool) : (s.put pa bs b).attNonce = s.attNonce := rfl
@[simp] theorem State.put_attDone (s : State) (pa : Nat) (bs : List Byte) (b : Bool) : (s.put pa bs b).attDone = s.attDone := rfl
@[simp] theorem State.put_attCount (s : State) (pa : Nat) (bs : List Byte) (b : Bool) : (s.put pa bs b).attCount = s.attCount := rfl
@[simp] theorem State.put_attReport (s : State) (pa : Nat) (bs : List Byte) (b : Bool) : (s.put pa bs b).attReport = s.attReport := rfl

/-! ### An update through a function is an update -/

@[simp] theorem State.modSlot_eq (s : State) (h k : Nat) (f : SlotState → SlotState) :
    s.modSlot h k f = s.setSlot h k (f (s.slot h k)) := rfl
@[simp] theorem State.modNode_eq (s : State) (h k n : Nat) (f : NodeState → NodeState) :
    s.modNode h k n f = s.setSlot h k ((s.slot h k).setNode n (f (s.node h k n))) := rfl
@[simp] theorem State.modRegion_eq (s : State) (g : Nat) (f : Region → Region) :
    s.modRegion g f = s.setRegion g (f (s.region g)) := rfl
@[simp] theorem State.modColour_eq (s : State) (g c : Nat) (f : Colour → Colour) :
    s.modColour g c f = s.setColour g c (f (s.colour g c)) := rfl
@[simp] theorem State.setColour_eq (s : State) (g c : Nat) (x : Colour) :
    s.setColour g c x = s.setRegion g { s.region g with cols := Tab.set (s.region g).cols c x } := rfl
@[simp] theorem State.modHearth_eq (s : State) (h : Nat) (f : Hearth → Hearth) :
    s.modHearth h f = s.setHearth h (f (s.hearth h)) := rfl
@[simp] theorem State.modContext_eq (s : State) (m : Nat) (f : Context → Context) :
    s.modContext m f = s.setContext m (f (s.context m)) := rfl
@[simp] theorem State.modKernel_eq (s : State) (e : Nat) (f : Kernel → Kernel) :
    s.modKernel e f = s.setKernel e (f (s.kernel e)) := rfl
@[simp] theorem State.modQueue_eq (s : State) (q : Nat) (f : Queue → Queue) :
    s.modQueue q f = s.setQueue q (f (s.queue q)) := rfl

/-! ### An accessor after its update -/

@[simp] theorem State.setRegion_region (s : State) (i : Nat) (x : Region) : (s.setRegion i x).region i = x := Tab.get_set_same _ _ _ _
theorem State.setRegion_region_other (s : State) (i j : Nat) (x : Region) (h : i ≠ j) : (s.setRegion i x).region j = s.region j :=
  Tab.get_set_other _ _ _ _ _ h
@[simp] theorem State.setHearth_hearth (s : State) (i : Nat) (x : Hearth) : (s.setHearth i x).hearth i = x := Tab.get_set_same _ _ _ _
theorem State.setHearth_hearth_other (s : State) (i j : Nat) (x : Hearth) (h : i ≠ j) : (s.setHearth i x).hearth j = s.hearth j :=
  Tab.get_set_other _ _ _ _ _ h
@[simp] theorem State.setContext_context (s : State) (i : Nat) (x : Context) : (s.setContext i x).context i = x := Tab.get_set_same _ _ _ _
theorem State.setContext_context_other (s : State) (i j : Nat) (x : Context) (h : i ≠ j) : (s.setContext i x).context j = s.context j :=
  Tab.get_set_other _ _ _ _ _ h
@[simp] theorem State.setKernel_kernel (s : State) (i : Nat) (x : Kernel) : (s.setKernel i x).kernel i = x := Tab.get_set_same _ _ _ _
theorem State.setKernel_kernel_other (s : State) (i j : Nat) (x : Kernel) (h : i ≠ j) : (s.setKernel i x).kernel j = s.kernel j :=
  Tab.get_set_other _ _ _ _ _ h
@[simp] theorem State.setQueue_queue (s : State) (i : Nat) (x : Queue) : (s.setQueue i x).queue i = x := Tab.get_set_same _ _ _ _
theorem State.setQueue_queue_other (s : State) (i j : Nat) (x : Queue) (h : i ≠ j) : (s.setQueue i x).queue j = s.queue j :=
  Tab.get_set_other _ _ _ _ _ h
@[simp] theorem State.setLink_link (s : State) (i : Nat) (x : Link) : (s.setLink i x).link i = x := Tab.get_set_same _ _ _ _
theorem State.setLink_link_other (s : State) (i j : Nat) (x : Link) (h : i ≠ j) : (s.setLink i x).link j = s.link j :=
  Tab.get_set_other _ _ _ _ _ h
@[simp] theorem State.setPair_pair (s : State) (i : Nat) (x : Pair) : (s.setPair i x).pair i = x := Tab.get_set_same _ _ _ _
theorem State.setPair_pair_other (s : State) (i j : Nat) (x : Pair) (h : i ≠ j) : (s.setPair i x).pair j = s.pair j :=
  Tab.get_set_other _ _ _ _ _ h
@[simp] theorem State.setSlot_slot (s : State) (h k : Nat) (x : SlotState) : (s.setSlot h k x).slot h k = x := Tab.get_set_same _ _ _ _
theorem State.setSlot_slot_other (s : State) (h k h' k' : Nat) (x : SlotState) (n : 4 * h + k ≠ 4 * h' + k') :
    (s.setSlot h k x).slot h' k' = s.slot h' k' := Tab.get_set_other _ _ _ _ _ n

/-! ### An accessor after another update -/

@[simp] theorem State.setSlot_region (s : State) (h k : Nat) (x : SlotState) (g' : Nat) : (s.setSlot h k x).region g' = s.region g' := rfl
@[simp] theorem State.setSlot_hearth (s : State) (h k : Nat) (x : SlotState) (h' : Nat) : (s.setSlot h k x).hearth h' = s.hearth h' := rfl
@[simp] theorem State.setSlot_context (s : State) (h k : Nat) (x : SlotState) (m' : Nat) : (s.setSlot h k x).context m' = s.context m' := rfl
@[simp] theorem State.setSlot_kernel (s : State) (h k : Nat) (x : SlotState) (e' : Nat) : (s.setSlot h k x).kernel e' = s.kernel e' := rfl
@[simp] theorem State.setSlot_queue (s : State) (h k : Nat) (x : SlotState) (q' : Nat) : (s.setSlot h k x).queue q' = s.queue q' := rfl
@[simp] theorem State.setSlot_link (s : State) (h k : Nat) (x : SlotState) (l' : Nat) : (s.setSlot h k x).link l' = s.link l' := rfl
@[simp] theorem State.setSlot_pair (s : State) (h k : Nat) (x : SlotState) (p' : Nat) : (s.setSlot h k x).pair p' = s.pair p' := rfl
@[simp] theorem State.setRegion_hearth (s : State) (g : Nat) (x : Region) (h' : Nat) : (s.setRegion g x).hearth h' = s.hearth h' := rfl
@[simp] theorem State.setRegion_context (s : State) (g : Nat) (x : Region) (m' : Nat) : (s.setRegion g x).context m' = s.context m' := rfl
@[simp] theorem State.setRegion_kernel (s : State) (g : Nat) (x : Region) (e' : Nat) : (s.setRegion g x).kernel e' = s.kernel e' := rfl
@[simp] theorem State.setRegion_queue (s : State) (g : Nat) (x : Region) (q' : Nat) : (s.setRegion g x).queue q' = s.queue q' := rfl
@[simp] theorem State.setRegion_link (s : State) (g : Nat) (x : Region) (l' : Nat) : (s.setRegion g x).link l' = s.link l' := rfl
@[simp] theorem State.setRegion_pair (s : State) (g : Nat) (x : Region) (p' : Nat) : (s.setRegion g x).pair p' = s.pair p' := rfl
@[simp] theorem State.setRegion_slot (s : State) (g : Nat) (x : Region) (i' j' : Nat) : (s.setRegion g x).slot i' j' = s.slot i' j' := rfl
@[simp] theorem State.setHearth_region (s : State) (h : Nat) (x : Hearth) (g' : Nat) : (s.setHearth h x).region g' = s.region g' := rfl
@[simp] theorem State.setHearth_context (s : State) (h : Nat) (x : Hearth) (m' : Nat) : (s.setHearth h x).context m' = s.context m' := rfl
@[simp] theorem State.setHearth_kernel (s : State) (h : Nat) (x : Hearth) (e' : Nat) : (s.setHearth h x).kernel e' = s.kernel e' := rfl
@[simp] theorem State.setHearth_queue (s : State) (h : Nat) (x : Hearth) (q' : Nat) : (s.setHearth h x).queue q' = s.queue q' := rfl
@[simp] theorem State.setHearth_link (s : State) (h : Nat) (x : Hearth) (l' : Nat) : (s.setHearth h x).link l' = s.link l' := rfl
@[simp] theorem State.setHearth_pair (s : State) (h : Nat) (x : Hearth) (p' : Nat) : (s.setHearth h x).pair p' = s.pair p' := rfl
@[simp] theorem State.setHearth_slot (s : State) (h : Nat) (x : Hearth) (i' j' : Nat) : (s.setHearth h x).slot i' j' = s.slot i' j' := rfl
@[simp] theorem State.setContext_region (s : State) (m : Nat) (x : Context) (g' : Nat) : (s.setContext m x).region g' = s.region g' := rfl
@[simp] theorem State.setContext_hearth (s : State) (m : Nat) (x : Context) (h' : Nat) : (s.setContext m x).hearth h' = s.hearth h' := rfl
@[simp] theorem State.setContext_kernel (s : State) (m : Nat) (x : Context) (e' : Nat) : (s.setContext m x).kernel e' = s.kernel e' := rfl
@[simp] theorem State.setContext_queue (s : State) (m : Nat) (x : Context) (q' : Nat) : (s.setContext m x).queue q' = s.queue q' := rfl
@[simp] theorem State.setContext_link (s : State) (m : Nat) (x : Context) (l' : Nat) : (s.setContext m x).link l' = s.link l' := rfl
@[simp] theorem State.setContext_pair (s : State) (m : Nat) (x : Context) (p' : Nat) : (s.setContext m x).pair p' = s.pair p' := rfl
@[simp] theorem State.setContext_slot (s : State) (m : Nat) (x : Context) (i' j' : Nat) : (s.setContext m x).slot i' j' = s.slot i' j' := rfl
@[simp] theorem State.setKernel_region (s : State) (e : Nat) (x : Kernel) (g' : Nat) : (s.setKernel e x).region g' = s.region g' := rfl
@[simp] theorem State.setKernel_hearth (s : State) (e : Nat) (x : Kernel) (h' : Nat) : (s.setKernel e x).hearth h' = s.hearth h' := rfl
@[simp] theorem State.setKernel_context (s : State) (e : Nat) (x : Kernel) (m' : Nat) : (s.setKernel e x).context m' = s.context m' := rfl
@[simp] theorem State.setKernel_queue (s : State) (e : Nat) (x : Kernel) (q' : Nat) : (s.setKernel e x).queue q' = s.queue q' := rfl
@[simp] theorem State.setKernel_link (s : State) (e : Nat) (x : Kernel) (l' : Nat) : (s.setKernel e x).link l' = s.link l' := rfl
@[simp] theorem State.setKernel_pair (s : State) (e : Nat) (x : Kernel) (p' : Nat) : (s.setKernel e x).pair p' = s.pair p' := rfl
@[simp] theorem State.setKernel_slot (s : State) (e : Nat) (x : Kernel) (i' j' : Nat) : (s.setKernel e x).slot i' j' = s.slot i' j' := rfl
@[simp] theorem State.setQueue_region (s : State) (q : Nat) (x : Queue) (g' : Nat) : (s.setQueue q x).region g' = s.region g' := rfl
@[simp] theorem State.setQueue_hearth (s : State) (q : Nat) (x : Queue) (h' : Nat) : (s.setQueue q x).hearth h' = s.hearth h' := rfl
@[simp] theorem State.setQueue_context (s : State) (q : Nat) (x : Queue) (m' : Nat) : (s.setQueue q x).context m' = s.context m' := rfl
@[simp] theorem State.setQueue_kernel (s : State) (q : Nat) (x : Queue) (e' : Nat) : (s.setQueue q x).kernel e' = s.kernel e' := rfl
@[simp] theorem State.setQueue_link (s : State) (q : Nat) (x : Queue) (l' : Nat) : (s.setQueue q x).link l' = s.link l' := rfl
@[simp] theorem State.setQueue_pair (s : State) (q : Nat) (x : Queue) (p' : Nat) : (s.setQueue q x).pair p' = s.pair p' := rfl
@[simp] theorem State.setQueue_slot (s : State) (q : Nat) (x : Queue) (i' j' : Nat) : (s.setQueue q x).slot i' j' = s.slot i' j' := rfl
@[simp] theorem State.setLink_region (s : State) (l : Nat) (x : Link) (g' : Nat) : (s.setLink l x).region g' = s.region g' := rfl
@[simp] theorem State.setLink_hearth (s : State) (l : Nat) (x : Link) (h' : Nat) : (s.setLink l x).hearth h' = s.hearth h' := rfl
@[simp] theorem State.setLink_context (s : State) (l : Nat) (x : Link) (m' : Nat) : (s.setLink l x).context m' = s.context m' := rfl
@[simp] theorem State.setLink_kernel (s : State) (l : Nat) (x : Link) (e' : Nat) : (s.setLink l x).kernel e' = s.kernel e' := rfl
@[simp] theorem State.setLink_queue (s : State) (l : Nat) (x : Link) (q' : Nat) : (s.setLink l x).queue q' = s.queue q' := rfl
@[simp] theorem State.setLink_pair (s : State) (l : Nat) (x : Link) (p' : Nat) : (s.setLink l x).pair p' = s.pair p' := rfl
@[simp] theorem State.setLink_slot (s : State) (l : Nat) (x : Link) (i' j' : Nat) : (s.setLink l x).slot i' j' = s.slot i' j' := rfl
@[simp] theorem State.setPair_region (s : State) (p : Nat) (x : Pair) (g' : Nat) : (s.setPair p x).region g' = s.region g' := rfl
@[simp] theorem State.setPair_hearth (s : State) (p : Nat) (x : Pair) (h' : Nat) : (s.setPair p x).hearth h' = s.hearth h' := rfl
@[simp] theorem State.setPair_context (s : State) (p : Nat) (x : Pair) (m' : Nat) : (s.setPair p x).context m' = s.context m' := rfl
@[simp] theorem State.setPair_kernel (s : State) (p : Nat) (x : Pair) (e' : Nat) : (s.setPair p x).kernel e' = s.kernel e' := rfl
@[simp] theorem State.setPair_queue (s : State) (p : Nat) (x : Pair) (q' : Nat) : (s.setPair p x).queue q' = s.queue q' := rfl
@[simp] theorem State.setPair_link (s : State) (p : Nat) (x : Pair) (l' : Nat) : (s.setPair p x).link l' = s.link l' := rfl
@[simp] theorem State.setPair_slot (s : State) (p : Nat) (x : Pair) (i' j' : Nat) : (s.setPair p x).slot i' j' = s.slot i' j' := rfl
@[simp] theorem State.push_region (s : State) (ts : List Turn) (g' : Nat) : (s.push ts).region g' = s.region g' := rfl
@[simp] theorem State.push_hearth (s : State) (ts : List Turn) (h' : Nat) : (s.push ts).hearth h' = s.hearth h' := rfl
@[simp] theorem State.push_context (s : State) (ts : List Turn) (m' : Nat) : (s.push ts).context m' = s.context m' := rfl
@[simp] theorem State.push_kernel (s : State) (ts : List Turn) (e' : Nat) : (s.push ts).kernel e' = s.kernel e' := rfl
@[simp] theorem State.push_queue (s : State) (ts : List Turn) (q' : Nat) : (s.push ts).queue q' = s.queue q' := rfl
@[simp] theorem State.push_link (s : State) (ts : List Turn) (l' : Nat) : (s.push ts).link l' = s.link l' := rfl
@[simp] theorem State.push_pair (s : State) (ts : List Turn) (p' : Nat) : (s.push ts).pair p' = s.pair p' := rfl
@[simp] theorem State.push_slot (s : State) (ts : List Turn) (i' j' : Nat) : (s.push ts).slot i' j' = s.slot i' j' := rfl
@[simp] theorem State.put_region (s : State) (pa : Nat) (bs : List Byte) (b : Bool) (g' : Nat) : (s.put pa bs b).region g' = s.region g' := rfl
@[simp] theorem State.put_hearth (s : State) (pa : Nat) (bs : List Byte) (b : Bool) (h' : Nat) : (s.put pa bs b).hearth h' = s.hearth h' := rfl
@[simp] theorem State.put_context (s : State) (pa : Nat) (bs : List Byte) (b : Bool) (m' : Nat) : (s.put pa bs b).context m' = s.context m' := rfl
@[simp] theorem State.put_kernel (s : State) (pa : Nat) (bs : List Byte) (b : Bool) (e' : Nat) : (s.put pa bs b).kernel e' = s.kernel e' := rfl
@[simp] theorem State.put_queue (s : State) (pa : Nat) (bs : List Byte) (b : Bool) (q' : Nat) : (s.put pa bs b).queue q' = s.queue q' := rfl
@[simp] theorem State.put_link (s : State) (pa : Nat) (bs : List Byte) (b : Bool) (l' : Nat) : (s.put pa bs b).link l' = s.link l' := rfl
@[simp] theorem State.put_pair (s : State) (pa : Nat) (bs : List Byte) (b : Bool) (p' : Nat) : (s.put pa bs b).pair p' = s.pair p' := rfl
@[simp] theorem State.put_slot (s : State) (pa : Nat) (bs : List Byte) (b : Bool) (i' j' : Nat) : (s.put pa bs b).slot i' j' = s.slot i' j' := rfl

end Sys2Proof.Machine
end

