-- ==== Sys2Proof/Laws/Frame.lean ====
section
/-! SUPPORT. What the shared operations of a firing leave as it was. -/

namespace Sys2Proof.Machine

/-! ### `around` after each update -/

@[simp] theorem State.setSlot_around (s : State) (h k : Nat) (x : SlotState) : (s.setSlot h k x).around = s.around := rfl
@[simp] theorem State.setRegion_around (s : State) (g : Nat) (x : Region) : (s.setRegion g x).around = s.around := rfl
@[simp] theorem State.setHearth_around (s : State) (h : Nat) (x : Hearth) : (s.setHearth h x).around = s.around := rfl
@[simp] theorem State.setContext_around (s : State) (m : Nat) (x : Context) : (s.setContext m x).around = s.around := rfl
@[simp] theorem State.setKernel_around (s : State) (e : Nat) (x : Kernel) : (s.setKernel e x).around = s.around := rfl
@[simp] theorem State.push_around (s : State) (ts : List Turn) : (s.push ts).around = s.around := rfl
@[simp] theorem State.freeDelay_around (s : State) : s.freeDelay.2.around = s.around := rfl
@[simp] theorem State.freeWord_around (s : State) : s.freeWord.2.around = s.around := rfl
@[simp] theorem State.fresh_around (s : State) : s.fresh.2.around = s.around := rfl

/-! ### Sending -/

@[simp] theorem State.stageToken_around (s : State) (g c : Nat) (f : BitVec 5) (b : Bool) :
    (s.stageToken g c f b).around = s.around := rfl

@[simp] theorem State.useSlot_around (s : State) (h k p m q r : Nat) (fs : List (Nat × Flight)) :
    (s.useSlot h k p m q r fs).around = s.around := rfl

@[simp] theorem State.sendOne_around (s : State) (g h k n : Nat) (d : Dest) (r p : Nat) (t : Token) :
    (s.sendOne g h k n d r p t).around = s.around := by
  unfold State.sendOne
  split
  · rfl
  · dsimp only
    split
    · split <;> simp
    · split
      · simp
      · rfl
    · split
      · simp
      · split
        · rfl
        · rfl

@[simp] theorem State.sendAll_around (s : State) (g h k n : Nat) (r : Rec) (b : Bool) (p : Nat) (t : Token) :
    (s.sendAll g h k n r b p t).around = s.around := by
  unfold State.sendAll
  split
  · split <;> simp
  · simp

/-! ### Purge and fault -/

@[simp] theorem State.notify_around (s : State) (g : Nat) (cs : List Nat) (b : Bool) : (s.notify g cs b).around = s.around := rfl

@[simp] theorem State.purge_around (s : State) (g : Nat) (cs : List Nat) (a b : Bool) : (s.purge g cs a b).around = s.around := by
  unfold State.purge
  dsimp only
  split
  · rfl
  · simp only [State.notify_around]
    rfl

@[simp] theorem State.modHolder_around (s : State) (g : Nat) (f : Kernel → Kernel) : (s.modHolder g f).around = s.around := by
  unfold State.modHolder
  split <;> simp

@[simp] theorem State.breakGroups_around (s : State) (g : Nat) (ps : List Nat) : (s.breakGroups g ps).around = s.around := by
  simp [State.breakGroups]

@[simp] theorem State.purgeForGood_around (s : State) (g c : Nat) : (s.purgeForGood g c).around = s.around := by
  simp [State.purgeForGood]

@[simp] theorem State.dropRegion_around (s : State) (g : Nat) : (s.dropRegion g).around = s.around := by
  simp [State.dropRegion]

theorem foldl_around {α : Type} (f : State → α → State) (h : ∀ s a, (f s a).around = s.around) (l : List α) (s : State) :
    (l.foldl f s).around = s.around := by
  induction l generalizing s with
  | nil => rfl
  | cons a l ih => simp [ih, h]

@[simp] theorem State.dropKernel_around (s : State) (e : Nat) : (s.dropKernel e).around = s.around := by
  unfold State.dropKernel
  exact foldl_around _ (fun s g => by simp) _ _

@[simp] theorem State.failing_around (s : State) (l : List Nat) : ({ s with failing := l } : State).around = s.around := rfl

@[simp] theorem State.kernelFault_around (s : State) (e : Nat) (f : FaultRecord) : (s.kernelFault e f).around = s.around := by
  unfold State.kernelFault
  dsimp only
  split <;> try simp
  split
  · simp
  · split <;> simp

@[simp] theorem State.purgeCorrected_around (s : State) (g : Nat) (cs : List Nat) : (s.purgeCorrected g cs).around = s.around := by
  unfold State.purgeCorrected
  split <;> simp

@[simp] theorem State.nodeFault_around (s : State) (g h k n c w x d : Nat) : (s.nodeFault g h k n c w x d).around = s.around := by
  unfold State.nodeFault
  dsimp only
  split <;> simp

@[simp] theorem State.accessFault_around (s : State) (g h k n c w e a d : Nat) :
    (s.accessFault g h k n c w e a d).around = s.around := by
  unfold State.accessFault
  dsimp only
  split <;> simp

/-! ### Firing -/

@[simp] theorem State.consume_around (s : State) (f : Fire) : (s.consume f).around = s.around := by
  unfold State.consume
  dsimp only
  split <;> simp

@[simp] theorem State.noteFiring_around (s : State) (f : Fire) : (s.noteFiring f).around = s.around := by
  simp [State.noteFiring]

@[simp] theorem State.pipe_around (s : State) (f : Fire) (n : Nat) : (s.pipe f n).around = s.around := by
  simp [State.pipe]

@[simp] theorem State.checkJoin_around (s : State) (g h k n o : Nat) (r : Rec) : (s.checkJoin g h k n o r).around = s.around := by
  unfold State.checkJoin
  split <;> simp

@[simp] theorem State.steer_around (s : State) (f : Fire) (n : Nat) (t : Token) : (s.steer f n t).around = s.around := by
  unfold State.steer
  dsimp only
  split <;> split <;> simp

@[simp] theorem State.conclude_around (s : State) (f : Fire) (e : Effect) : (s.conclude f e).around = s.around := by
  unfold State.conclude
  split
  · split
    · simp
    · dsimp only
      split <;> simp
  · dsimp only
    split <;> simp
  · simp
  · rfl
  · simp
  · simp

theorem State.perform_around (s : State) (p : FireSpec) (f : Fire) (body : Fire → State → State × Effect)
    (h : ∀ f s, (body f s).1.around = s.around) : (s.perform p f body).around = s.around := by
  unfold State.perform
  split
  · simp
  · split <;> simp [h]

/-- A firing whose own effect keeps what is around it keeps it. -/
theorem fireNode_around {o : Nat} {r : Rec} {p : FireSpec} {body : Fire → State → State × Effect} {s t : State}
    (h : ∀ f s, (body f s).1.around = s.around) (e : fireNode o r p body s = .next t) : t.around = s.around := by
  unfold fireNode at e
  split at e
  · split at e
    · cases e; rfl
    · cases e
      simp [State.perform_around _ _ _ _ h]
  · cases e

/-- The same for a firing whose operands stay. -/
theorem fireHeld_around {o : Nat} {r : Rec} {p : FireSpec} {body : Fire → State → State × Effect} {s t : State}
    (h : ∀ f s, (body f s).1.around = s.around) (e : fireHeld o r p body s = .next t) : t.around = s.around := by
  unfold fireHeld State.heldFire at e
  split at e
  · cases e
    split
    · rfl
    · simp [State.perform_around _ _ _ _ h]
  · cases e


/-! ### `contextRest` after each update -/

@[simp] theorem State.setSlot_contextRest (s : State) (m₀ : Nat) (h k : Nat) (x : SlotState) : (s.setSlot h k x).contextRest m₀ = s.contextRest m₀ := rfl
@[simp] theorem State.setRegion_contextRest (s : State) (m₀ : Nat) (g : Nat) (x : Region) : (s.setRegion g x).contextRest m₀ = s.contextRest m₀ := rfl
@[simp] theorem State.setHearth_contextRest (s : State) (m₀ : Nat) (h : Nat) (x : Hearth) : (s.setHearth h x).contextRest m₀ = s.contextRest m₀ := rfl
theorem State.faultPtr_contextRest (s : State) (m₀ m v : Nat) :
    (s.modContext m (fun c => { c with faultPtr := v })).contextRest m₀ = s.contextRest m₀ := by
  unfold State.contextRest State.modContext
  by_cases h : m = m₀
  · subst h
    simp
  · simp [State.setContext_context_other _ _ _ _ h]

@[simp] theorem State.setKernel_contextRest (s : State) (m₀ : Nat) (e : Nat) (x : Kernel) : (s.setKernel e x).contextRest m₀ = s.contextRest m₀ := rfl
@[simp] theorem State.push_contextRest (s : State) (m₀ : Nat) (ts : List Turn) : (s.push ts).contextRest m₀ = s.contextRest m₀ := rfl
@[simp] theorem State.freeDelay_contextRest (s : State) (m₀ : Nat) : s.freeDelay.2.contextRest m₀ = s.contextRest m₀ := rfl
@[simp] theorem State.freeWord_contextRest (s : State) (m₀ : Nat) : s.freeWord.2.contextRest m₀ = s.contextRest m₀ := rfl
@[simp] theorem State.fresh_contextRest (s : State) (m₀ : Nat) : s.fresh.2.contextRest m₀ = s.contextRest m₀ := rfl

/-! ### Sending -/

@[simp] theorem State.stageToken_contextRest (s : State) (m₀ : Nat) (g c : Nat) (f : BitVec 5) (b : Bool) :
    (s.stageToken g c f b).contextRest m₀ = s.contextRest m₀ := rfl

@[simp] theorem State.useSlot_contextRest (s : State) (m₀ : Nat) (h k p m q r : Nat) (fs : List (Nat × Flight)) :
    (s.useSlot h k p m q r fs).contextRest m₀ = s.contextRest m₀ := rfl

@[simp] theorem State.sendOne_contextRest (s : State) (m₀ : Nat) (g h k n : Nat) (d : Dest) (r p : Nat) (t : Token) :
    (s.sendOne g h k n d r p t).contextRest m₀ = s.contextRest m₀ := by
  unfold State.sendOne
  split
  · rfl
  · dsimp only
    split
    · split <;> simp
    · split
      · simp
      · rfl
    · split
      · simp
      · split
        · rfl
        · rfl

@[simp] theorem State.sendAll_contextRest (s : State) (m₀ : Nat) (g h k n : Nat) (r : Rec) (b : Bool) (p : Nat) (t : Token) :
    (s.sendAll g h k n r b p t).contextRest m₀ = s.contextRest m₀ := by
  unfold State.sendAll
  split
  · split <;> simp
  · simp

/-! ### Purge and fault -/

@[simp] theorem State.notify_contextRest (s : State) (m₀ : Nat) (g : Nat) (cs : List Nat) (b : Bool) : (s.notify g cs b).contextRest m₀ = s.contextRest m₀ := rfl

@[simp] theorem State.purge_contextRest (s : State) (m₀ : Nat) (g : Nat) (cs : List Nat) (a b : Bool) : (s.purge g cs a b).contextRest m₀ = s.contextRest m₀ := by
  unfold State.purge
  dsimp only
  split
  · rfl
  · simp only [State.notify_contextRest]
    rfl

@[simp] theorem State.modHolder_contextRest (s : State) (m₀ : Nat) (g : Nat) (f : Kernel → Kernel) : (s.modHolder g f).contextRest m₀ = s.contextRest m₀ := by
  unfold State.modHolder
  split <;> simp

@[simp] theorem State.breakGroups_contextRest (s : State) (m₀ : Nat) (g : Nat) (ps : List Nat) : (s.breakGroups g ps).contextRest m₀ = s.contextRest m₀ := by
  simp [State.breakGroups]

@[simp] theorem State.purgeForGood_contextRest (s : State) (m₀ : Nat) (g c : Nat) : (s.purgeForGood g c).contextRest m₀ = s.contextRest m₀ := by
  simp [State.purgeForGood]

@[simp] theorem State.dropRegion_contextRest (s : State) (m₀ : Nat) (g : Nat) : (s.dropRegion g).contextRest m₀ = s.contextRest m₀ := by
  simp [State.dropRegion]

theorem foldl_contextRest {α : Type} (m₀ : Nat) (f : State → α → State) (h : ∀ s a, (f s a).contextRest m₀ = s.contextRest m₀) (l : List α) (s : State) :
    (l.foldl f s).contextRest m₀ = s.contextRest m₀ := by
  induction l generalizing s with
  | nil => rfl
  | cons a l ih => simp [ih, h]

@[simp] theorem State.dropKernel_contextRest (s : State) (m₀ : Nat) (e : Nat) : (s.dropKernel e).contextRest m₀ = s.contextRest m₀ := by
  unfold State.dropKernel
  exact foldl_contextRest _ _ (fun s g => by simp) _ _

@[simp] theorem State.failing_contextRest (s : State) (m₀ : Nat) (l : List Nat) : ({ s with failing := l } : State).contextRest m₀ = s.contextRest m₀ := rfl

@[simp] theorem State.kernelFault_contextRest (s : State) (m₀ : Nat) (e : Nat) (f : FaultRecord) : (s.kernelFault e f).contextRest m₀ = s.contextRest m₀ := by
  unfold State.kernelFault
  dsimp only
  split <;> try simp [-State.modContext_eq, State.faultPtr_contextRest]
  split
  · simp [-State.modContext_eq, State.faultPtr_contextRest]
  · split <;> simp

@[simp] theorem State.purgeCorrected_contextRest (s : State) (m₀ : Nat) (g : Nat) (cs : List Nat) : (s.purgeCorrected g cs).contextRest m₀ = s.contextRest m₀ := by
  unfold State.purgeCorrected
  split <;> simp

@[simp] theorem State.nodeFault_contextRest (s : State) (m₀ : Nat) (g h k n c w x d : Nat) : (s.nodeFault g h k n c w x d).contextRest m₀ = s.contextRest m₀ := by
  unfold State.nodeFault
  dsimp only
  split <;> simp

@[simp] theorem State.accessFault_contextRest (s : State) (m₀ : Nat) (g h k n c w e a d : Nat) :
    (s.accessFault g h k n c w e a d).contextRest m₀ = s.contextRest m₀ := by
  unfold State.accessFault
  dsimp only
  split <;> simp

/-! ### Firing -/

@[simp] theorem State.consume_contextRest (s : State) (m₀ : Nat) (f : Fire) : (s.consume f).contextRest m₀ = s.contextRest m₀ := by
  unfold State.consume
  dsimp only
  split <;> simp

@[simp] theorem State.noteFiring_contextRest (s : State) (m₀ : Nat) (f : Fire) : (s.noteFiring f).contextRest m₀ = s.contextRest m₀ := by
  simp [State.noteFiring]

@[simp] theorem State.pipe_contextRest (s : State) (m₀ : Nat) (f : Fire) (n : Nat) : (s.pipe f n).contextRest m₀ = s.contextRest m₀ := by
  simp [State.pipe]

@[simp] theorem State.checkJoin_contextRest (s : State) (m₀ : Nat) (g h k n o : Nat) (r : Rec) : (s.checkJoin g h k n o r).contextRest m₀ = s.contextRest m₀ := by
  unfold State.checkJoin
  split <;> simp

@[simp] theorem State.steer_contextRest (s : State) (m₀ : Nat) (f : Fire) (n : Nat) (t : Token) : (s.steer f n t).contextRest m₀ = s.contextRest m₀ := by
  unfold State.steer
  dsimp only
  split <;> split <;> simp

@[simp] theorem State.conclude_contextRest (s : State) (m₀ : Nat) (f : Fire) (e : Effect) : (s.conclude f e).contextRest m₀ = s.contextRest m₀ := by
  unfold State.conclude
  split
  · split
    · simp
    · dsimp only
      split <;> simp
  · dsimp only
    split <;> simp
  · simp
  · rfl
  · simp
  · simp

theorem State.perform_contextRest (s : State) (m₀ : Nat) (p : FireSpec) (f : Fire) (body : Fire → State → State × Effect)
    (h : ∀ f s, (body f s).1.contextRest m₀ = s.contextRest m₀) : (s.perform p f body).contextRest m₀ = s.contextRest m₀ := by
  unfold State.perform
  split
  · simp
  · split <;> simp [h]

/-- A firing whose own effect keeps what is contextRest it keeps it. -/
theorem fireNode_contextRest (m₀ : Nat) {o : Nat} {r : Rec} {p : FireSpec} {body : Fire → State → State × Effect} {s t : State}
    (h : ∀ f s, (body f s).1.contextRest m₀ = s.contextRest m₀) (e : fireNode o r p body s = .next t) : t.contextRest m₀ = s.contextRest m₀ := by
  unfold fireNode at e
  split at e
  · split at e
    · cases e; rfl
    · cases e
      simp [State.perform_contextRest _ _ _ _ _ h]
  · cases e

/-- The same for a firing whose operands stay. -/
theorem fireHeld_contextRest (m₀ : Nat) {o : Nat} {r : Rec} {p : FireSpec} {body : Fire → State → State × Effect} {s t : State}
    (h : ∀ f s, (body f s).1.contextRest m₀ = s.contextRest m₀) (e : fireHeld o r p body s = .next t) : t.contextRest m₀ = s.contextRest m₀ := by
  unfold fireHeld State.heldFire at e
  split at e
  · cases e
    split
    · rfl
    · simp [State.perform_contextRest _ _ _ _ _ h]
  · cases e


/-! ### `trineAt` after each update -/

@[simp] theorem State.setSlot_trineAt (s : State) (h₀ : Nat) (h k : Nat) (x : SlotState) : (s.setSlot h k x).trineAt h₀ = s.trineAt h₀ := rfl
@[simp] theorem State.setRegion_trineAt (s : State) (h₀ : Nat) (g : Nat) (x : Region) : (s.setRegion g x).trineAt h₀ = s.trineAt h₀ := rfl
theorem Hearth.without_trine (x : Hearth) (g m k : Nat) (cs : List Nat) : (x.without g m k cs).trine = x.trine := by
  unfold Hearth.without Hearth.trine
  simp only [List.map_map, Prod.mk.injEq, and_true]
  apply List.map_congr_left
  intro e _
  simp only [Function.comp]
  split
  · split
    · split <;> rfl
    · rfl
  · rfl

/-- A change of every entry that keeps `f` keeps it at every key. -/
theorem Tab.get_map_keep {α β : Type} (d : α) (f : α → β) (go : Nat × α → Nat × α) (hk : ∀ e, (go e).1 = e.1)
    (hv : ∀ e, f (go e).2 = f e.2) (t : Tab α) (i : Nat) : f (Tab.get d (t.map go) i) = f (Tab.get d t i) := by
  induction t with
  | nil => rfl
  | cons e t ih =>
    obtain ⟨k, v⟩ := e
    have h1 := hk (k, v)
    have h2 := hv (k, v)
    simp only [List.map_cons, Tab.get]
    rw [show go (k, v) = ((go (k, v)).1, (go (k, v)).2) from rfl]
    simp only [h1]
    split
    · exact h2
    · exact ih
@[simp] theorem State.setContext_trineAt (s : State) (h₀ : Nat) (m : Nat) (x : Context) : (s.setContext m x).trineAt h₀ = s.trineAt h₀ := rfl
@[simp] theorem State.setKernel_trineAt (s : State) (h₀ : Nat) (e : Nat) (x : Kernel) : (s.setKernel e x).trineAt h₀ = s.trineAt h₀ := rfl
@[simp] theorem State.push_trineAt (s : State) (h₀ : Nat) (ts : List Turn) : (s.push ts).trineAt h₀ = s.trineAt h₀ := rfl
@[simp] theorem State.freeDelay_trineAt (s : State) (h₀ : Nat) : s.freeDelay.2.trineAt h₀ = s.trineAt h₀ := rfl
@[simp] theorem State.freeWord_trineAt (s : State) (h₀ : Nat) : s.freeWord.2.trineAt h₀ = s.trineAt h₀ := rfl
@[simp] theorem State.fresh_trineAt (s : State) (h₀ : Nat) : s.fresh.2.trineAt h₀ = s.trineAt h₀ := rfl

/-! ### Sending -/

@[simp] theorem State.stageToken_trineAt (s : State) (h₀ : Nat) (g c : Nat) (f : BitVec 5) (b : Bool) :
    (s.stageToken g c f b).trineAt h₀ = s.trineAt h₀ := rfl

@[simp] theorem State.useSlot_trineAt (s : State) (h₀ : Nat) (h k p m q r : Nat) (fs : List (Nat × Flight)) :
    (s.useSlot h k p m q r fs).trineAt h₀ = s.trineAt h₀ := rfl

@[simp] theorem State.sendOne_trineAt (s : State) (h₀ : Nat) (g h k n : Nat) (d : Dest) (r p : Nat) (t : Token) :
    (s.sendOne g h k n d r p t).trineAt h₀ = s.trineAt h₀ := by
  unfold State.sendOne
  split
  · rfl
  · dsimp only
    split
    · split <;> simp
    · split
      · simp
      · rfl
    · split
      · simp
      · split
        · rfl
        · rfl

@[simp] theorem State.sendAll_trineAt (s : State) (h₀ : Nat) (g h k n : Nat) (r : Rec) (b : Bool) (p : Nat) (t : Token) :
    (s.sendAll g h k n r b p t).trineAt h₀ = s.trineAt h₀ := by
  unfold State.sendAll
  split
  · split <;> simp
  · simp

/-! ### Purge and fault -/

@[simp] theorem State.notify_trineAt (s : State) (h₀ : Nat) (g : Nat) (cs : List Nat) (b : Bool) : (s.notify g cs b).trineAt h₀ = s.trineAt h₀ := rfl

@[simp] theorem State.purge_trineAt (s : State) (h₀ : Nat) (g : Nat) (cs : List Nat) (a b : Bool) :
    (s.purge g cs a b).trineAt h₀ = s.trineAt h₀ := by
  unfold State.purge
  dsimp only
  split
  · rfl
  · simp only [State.notify_trineAt]
    unfold State.trineAt State.hearth
    dsimp only
    apply Tab.get_map_keep _ Hearth.trine
    · intro e
      split <;> rfl
    · intro e
      split
      · exact Hearth.without_trine _ _ _ _ _
      · rfl

@[simp] theorem State.modHolder_trineAt (s : State) (h₀ : Nat) (g : Nat) (f : Kernel → Kernel) : (s.modHolder g f).trineAt h₀ = s.trineAt h₀ := by
  unfold State.modHolder
  split <;> simp

@[simp] theorem State.breakGroups_trineAt (s : State) (h₀ : Nat) (g : Nat) (ps : List Nat) : (s.breakGroups g ps).trineAt h₀ = s.trineAt h₀ := by
  simp [State.breakGroups]

@[simp] theorem State.purgeForGood_trineAt (s : State) (h₀ : Nat) (g c : Nat) : (s.purgeForGood g c).trineAt h₀ = s.trineAt h₀ := by
  simp [State.purgeForGood]

@[simp] theorem State.dropRegion_trineAt (s : State) (h₀ : Nat) (g : Nat) : (s.dropRegion g).trineAt h₀ = s.trineAt h₀ := by
  simp [State.dropRegion]

theorem foldl_trineAt {α : Type} (h₀ : Nat) (f : State → α → State) (h : ∀ s a, (f s a).trineAt h₀ = s.trineAt h₀) (l : List α) (s : State) :
    (l.foldl f s).trineAt h₀ = s.trineAt h₀ := by
  induction l generalizing s with
  | nil => rfl
  | cons a l ih => simp [ih, h]

@[simp] theorem State.dropKernel_trineAt (s : State) (h₀ : Nat) (e : Nat) : (s.dropKernel e).trineAt h₀ = s.trineAt h₀ := by
  unfold State.dropKernel
  exact foldl_trineAt _ _ (fun s g => by simp) _ _

@[simp] theorem State.failing_trineAt (s : State) (h₀ : Nat) (l : List Nat) : ({ s with failing := l } : State).trineAt h₀ = s.trineAt h₀ := rfl

@[simp] theorem State.kernelFault_trineAt (s : State) (h₀ : Nat) (e : Nat) (f : FaultRecord) : (s.kernelFault e f).trineAt h₀ = s.trineAt h₀ := by
  unfold State.kernelFault
  dsimp only
  split <;> try simp
  split
  · simp
  · split <;> simp

@[simp] theorem State.purgeCorrected_trineAt (s : State) (h₀ : Nat) (g : Nat) (cs : List Nat) : (s.purgeCorrected g cs).trineAt h₀ = s.trineAt h₀ := by
  unfold State.purgeCorrected
  split <;> simp

@[simp] theorem State.nodeFault_trineAt (s : State) (h₀ : Nat) (g h k n c w x d : Nat) : (s.nodeFault g h k n c w x d).trineAt h₀ = s.trineAt h₀ := by
  unfold State.nodeFault
  dsimp only
  split <;> simp

@[simp] theorem State.accessFault_trineAt (s : State) (h₀ : Nat) (g h k n c w e a d : Nat) :
    (s.accessFault g h k n c w e a d).trineAt h₀ = s.trineAt h₀ := by
  unfold State.accessFault
  dsimp only
  split <;> simp

/-! ### Firing -/

@[simp] theorem State.consume_trineAt (s : State) (h₀ : Nat) (f : Fire) : (s.consume f).trineAt h₀ = s.trineAt h₀ := by
  unfold State.consume
  dsimp only
  split <;> simp

@[simp] theorem State.noteFiring_trineAt (s : State) (h₀ : Nat) (f : Fire) : (s.noteFiring f).trineAt h₀ = s.trineAt h₀ := by
  simp [State.noteFiring]

@[simp] theorem State.pipe_trineAt (s : State) (h₀ : Nat) (f : Fire) (n : Nat) : (s.pipe f n).trineAt h₀ = s.trineAt h₀ := by
  simp [State.pipe]

@[simp] theorem State.checkJoin_trineAt (s : State) (h₀ : Nat) (g h k n o : Nat) (r : Rec) : (s.checkJoin g h k n o r).trineAt h₀ = s.trineAt h₀ := by
  unfold State.checkJoin
  split <;> simp

@[simp] theorem State.steer_trineAt (s : State) (h₀ : Nat) (f : Fire) (n : Nat) (t : Token) : (s.steer f n t).trineAt h₀ = s.trineAt h₀ := by
  unfold State.steer
  dsimp only
  split <;> split <;> simp

@[simp] theorem State.conclude_trineAt (s : State) (h₀ : Nat) (f : Fire) (e : Effect) : (s.conclude f e).trineAt h₀ = s.trineAt h₀ := by
  unfold State.conclude
  split
  · split
    · simp
    · dsimp only
      split <;> simp
  · dsimp only
    split <;> simp
  · simp
  · rfl
  · simp
  · simp

theorem State.perform_trineAt (s : State) (h₀ : Nat) (p : FireSpec) (f : Fire) (body : Fire → State → State × Effect)
    (h : ∀ f s, (body f s).1.trineAt h₀ = s.trineAt h₀) : (s.perform p f body).trineAt h₀ = s.trineAt h₀ := by
  unfold State.perform
  split
  · simp
  · split <;> simp [h]

/-- A firing whose own effect keeps what is trineAt it keeps it. -/
theorem fireNode_trineAt (h₀ : Nat) {o : Nat} {r : Rec} {p : FireSpec} {body : Fire → State → State × Effect} {s t : State}
    (h : ∀ f s, (body f s).1.trineAt h₀ = s.trineAt h₀) (e : fireNode o r p body s = .next t) : t.trineAt h₀ = s.trineAt h₀ := by
  unfold fireNode at e
  split at e
  · split at e
    · cases e; rfl
    · cases e
      simp [State.perform_trineAt _ _ _ _ _ h]
  · cases e

/-- The same for a firing whose operands stay. -/
theorem fireHeld_trineAt (h₀ : Nat) {o : Nat} {r : Rec} {p : FireSpec} {body : Fire → State → State × Effect} {s t : State}
    (h : ∀ f s, (body f s).1.trineAt h₀ = s.trineAt h₀) (e : fireHeld o r p body s = .next t) : t.trineAt h₀ = s.trineAt h₀ := by
  unfold fireHeld State.heldFire at e
  split at e
  · cases e
    split
    · rfl
    · simp [State.perform_trineAt _ _ _ _ _ h]
  · cases e


end Sys2Proof.Machine
end

