-- ==== Sys2Proof/Laws/Firing.lean ====
section
/-! SUPPORT. What a firing comes to: where its operands come from, and what `fireNode` and `fireHeld` answer when it takes
place. -/

namespace Sys2Proof.Machine

/-! ### A firing belongs to its node -/

/-- The place, opcode and record of a firing. -/
def Fire.isAt (f : Fire) (g h k n o : Nat) (r : Rec) : Prop :=
  f.g = g ∧ f.h = h ∧ f.k = k ∧ f.n = n ∧ f.opc = o ∧ f.nrec = r

theorem fireOf_isAt (g h k n o : Nat) (r : Rec) (ts : List (Nat × Token)) (row : Option Nat) (b : Bool) (t : Token) :
    (fireOf g h k n o r ts row b t).isAt g h k n o r := ⟨rfl, rfl, rfl, rfl, rfl, rfl⟩

theorem bestOf_mem {l : List (Nat × Fire)} {x : Nat × Fire} (e : bestOf l = some x) : x ∈ l := by
  induction l generalizing x with
  | nil => cases e
  | cons a t ih =>
    simp only [bestOf] at e
    split at e
    · cases e; simp
    · rename_i y hy
      split at e
      · cases e; simp
      · cases e
        exact List.mem_cons_of_mem _ (ih hy)

theorem frameFire_isAt {s : State} {g h k n o : Nat} {r : Rec} {f : Fire} (e : s.frameFire g h k n o r = some f) :
    f.isAt g h k n o r := by
  unfold State.frameFire at e
  dsimp only at e
  rw [Option.map_eq_some_iff] at e
  obtain ⟨x, hx, rfl⟩ := e
  have hm := bestOf_mem hx
  rw [List.mem_filterMap] at hm
  obtain ⟨a, -, ha⟩ := hm
  split at ha
  · split at ha
    · cases ha
      exact fireOf_isAt _ _ _ _ _ _ _ _ _ _
    · cases ha
  · cases ha

theorem oneFire_isAt {x : NodeState} {g h k n o : Nat} {r : Rec} {f : Fire} (e : oneFire x g h k n o r = some f) :
    f.isAt g h k n o r := by
  unfold oneFire at e
  split at e
  · split at e <;> cases e <;> exact fireOf_isAt _ _ _ _ _ _ _ _ _ _
  · cases e; exact fireOf_isAt _ _ _ _ _ _ _ _ _ _
  · cases e; exact fireOf_isAt _ _ _ _ _ _ _ _ _ _
  · cases e

theorem gather_isAt {s : State} {g h k n o : Nat} {r : Rec} {f : Fire} (e : s.gather g h k n o r = some f) :
    f.isAt g h k n o r := by
  unfold State.gather at e
  dsimp only at e
  split at e
  · split at e
    · cases e; exact fireOf_isAt _ _ _ _ _ _ _ _ _ _
    · cases e
  · split at e
    · exact oneFire_isAt e
    · split at e
      · exact frameFire_isAt e
      · split at e
        · split at e
          · cases e; exact fireOf_isAt _ _ _ _ _ _ _ _ _ _
          · cases e
        · cases e

theorem canFire_isAt {s : State} {p : FireSpec} {h k n o : Nat} {r : Rec} {f : Fire} (e : s.canFire p h k n o r = some f) :
    ∃ g, (s.slot h k).region = some g ∧ f.isAt g h k n o r := by
  unfold State.canFire State.mayFire State.offered at e
  split at e
  · rename_i f' hm
    split at e
    · cases e
      split at hm
      · rename_i f' ho
        split at hm
        · cases hm
          split at ho
          · cases ho
          · rename_i g hg
            dsimp only at ho
            rw [Option.ite_none_right_eq_some] at ho
            exact ⟨g, hg, gather_isAt ho.2⟩
        · cases hm
      · cases hm
    · cases e
  · cases e

/-! ### What the shared meanings answer -/

theorem noIdle {i a : Bool} (h : (!i || a) = true) : (i && !a) = false := by cases i <;> cases a <;> simp_all

/-- A firing that takes place: the body's effect on the state in which the operands are consumed, then the join's check. -/
theorem fires_next {s : State} {p : FireSpec} {o : Nat} {r : Rec} {f : Fire} (body : Fire → State → State × Effect)
    (e : s.fires p o r f = true) :
    fireNode o r p body s = .next (((body f (s.taken f)).1.conclude f (body f (s.taken f)).2).rejoined f r) := by
  unfold State.fires at e
  split at e
  · rename_i h k n hc
    simp only [Bool.and_eq_true, beq_iff_eq] at e
    obtain ⟨⟨e1, e2⟩, e3⟩ := e
    obtain ⟨g, -, p0, p1, p2, p3, p4, p5⟩ := canFire_isAt e1
    have e2' : firstFault p f ((s.consume f).noteFiring f) = none := by simpa [State.taken] using e2
    unfold fireNode
    rw [hc]
    simp only [e1, State.rejoined, State.perform, e2', p1, p2, p3, p4, noIdle e3, State.taken, Bool.false_eq_true, if_false]
  · cases e

/-- The record of a firing that takes place is the one that fires. -/
theorem fires_rec {s : State} {p : FireSpec} {o : Nat} {r : Rec} {f : Fire} (e : s.fires p o r f = true) : f.opc = o ∧ f.nrec = r := by
  unfold State.fires at e
  split at e
  · simp only [Bool.and_eq_true, beq_iff_eq] at e
    obtain ⟨g, -, p0, p1, p2, p3, p4, p5⟩ := canFire_isAt e.1.1
    exact ⟨p4, p5⟩
  · cases e

/-- The same for an instruction that leaves its operands where they are. -/
theorem firesHeld_next {s : State} {p : FireSpec} {o : Nat} {r : Rec} {f : Fire} (body : Fire → State → State × Effect)
    (e : s.firesHeld p o r f = true) :
    fireHeld o r p body s = .next (((body f (s.noteFiring f)).1.conclude f (body f (s.noteFiring f)).2).rejoined f r) := by
  unfold State.firesHeld at e
  split at e
  · rename_i h k n hc
    simp only [Bool.and_eq_true, beq_iff_eq] at e
    obtain ⟨⟨e1, e2⟩, e3⟩ := e
    obtain ⟨g, -, p0, p1, p2, p3, p4, p5⟩ := canFire_isAt e1
    have e2' : firstFault p f (s.noteFiring f) = none := by simpa using e2
    unfold fireHeld State.heldFire
    rw [hc]
    simp only [e1, State.rejoined, State.perform, e2', p1, p2, p3, p4, noIdle e3, Bool.false_eq_true, if_false]
  · cases e

theorem firesHeld_rec {s : State} {p : FireSpec} {o : Nat} {r : Rec} {f : Fire} (e : s.firesHeld p o r f = true) :
    f.opc = o ∧ f.nrec = r := by
  unfold State.firesHeld at e
  split at e
  · simp only [Bool.and_eq_true, beq_iff_eq] at e
    obtain ⟨g, -, p0, p1, p2, p3, p4, p5⟩ := canFire_isAt e.1.1
    exact ⟨p4, p5⟩
  · cases e

/-- A token no wider than its colour was granted is emitted. -/
theorem conclude_emit {s : State} {f : Fire} {lat : Nat} {t : Token} (h : s.tooWide f.g f t = false) :
    s.conclude f (.emit lat t) = s.emitted f lat t := by
  simp only [State.conclude, h, State.emitted, Bool.false_eq_true, if_false]
  by_cases a : f.nrec.pm = 3 <;> by_cases b : f.opc = 4 <;> simp [a, b, State.pipe]

/-! ### Ways to say what an instruction does -/

theorem gives_of {i : Rec → Instr} {o : Nat} {p : FireSpec} {lat : Nat} {tok : Fire → State → Token}
    {body : Rec → Fire → State → State × Effect} (h : ∀ r s, exec (i r) s = fireNode o r p (body r) s)
    (hb : ∀ f s, f.opc = o → body f.nrec f s = (s, .emit lat (tok f s))) : Gives i o p lat tok := by
  intro r s f e w
  rw [h, fires_next _ e]
  obtain ⟨ho, hr⟩ := fires_rec e
  subst hr
  rw [hb _ _ ho, conclude_emit w]

theorem givesFrom_of {i : Rec → Instr} {o : Nat} {p : FireSpec} {lat : Nat} {act : Fire → State → State × Token}
    {body : Rec → Fire → State → State × Effect} (h : ∀ r s, exec (i r) s = fireNode o r p (body r) s)
    (hb : ∀ f s, f.opc = o → body f.nrec f s = ((act f s).1, .emit lat (act f s).2)) : GivesFrom i o p lat act := by
  intro r s f e w
  rw [h, fires_next _ e]
  obtain ⟨ho, hr⟩ := fires_rec e
  subst hr
  rw [hb _ _ ho, conclude_emit w]

theorem givesWhen_of {i : Rec → Instr} {o : Nat} {p : FireSpec} {ok : Fire → State → Prop} {lat : Nat}
    {act : Fire → State → State × Token} {body : Rec → Fire → State → State × Effect}
    (h : ∀ r s, exec (i r) s = fireNode o r p (body r) s)
    (hb : ∀ f s, f.opc = o → ok f s → body f.nrec f s = ((act f s).1, .emit lat (act f s).2)) : GivesWhen i o p ok lat act := by
  intro r s f e k w
  rw [h, fires_next _ e]
  obtain ⟨ho, hr⟩ := fires_rec e
  subst hr
  rw [hb _ _ ho k, conclude_emit w]

theorem acts_of {i : Rec → Instr} {o : Nat} {p : FireSpec} {ok : Fire → State → Prop} {act : Fire → State → State}
    {body : Rec → Fire → State → State × Effect} (h : ∀ r s, exec (i r) s = fireNode o r p (body r) s)
    (hb : ∀ f s, f.opc = o → ok f s → (body f.nrec f s).1.conclude f (body f.nrec f s).2 = act f s) : Acts i o p ok act := by
  intro r s f e w
  rw [h, fires_next _ e]
  obtain ⟨ho, hr⟩ := fires_rec e
  subst hr
  rw [hb _ _ ho w]

theorem actsHeld_of {i : Rec → Instr} {o : Nat} {p : FireSpec} {ok : Fire → State → Prop} {act : Fire → State → State}
    {body : Rec → Fire → State → State × Effect} (h : ∀ r s, exec (i r) s = fireHeld o r p (body r) s)
    (hb : ∀ f s, f.opc = o → ok f s → (body f.nrec f s).1.conclude f (body f.nrec f s).2 = act f s) : ActsHeld i o p ok act := by
  intro r s f e w
  rw [h, firesHeld_next _ e]
  obtain ⟨ho, hr⟩ := firesHeld_rec e
  subst hr
  rw [hb _ _ ho w]

/-- An instruction whose body answers a fault takes it. -/
theorem faults_of {i : Rec → Instr} {o : Nat} {p : FireSpec} {bad : Fire → State → Prop} {cause : Nat} {detail : Fire → Nat}
    {body : Rec → Fire → State → State × Effect} (h : ∀ r s, exec (i r) s = fireNode o r p (body r) s)
    (hb : ∀ f s, f.opc = o → bad f s → (body f.nrec f s).1.conclude f (body f.nrec f s).2 =
      s.nodeFault f.g f.h f.k f.n f.col f.wave cause (detail f)) : Faults i o p bad cause detail := by
  intro r s f e w
  rw [h, fires_next _ e]
  obtain ⟨ho, hr⟩ := fires_rec e
  subst hr
  rw [hb _ _ ho w]

/-- The same for one whose operands stay. -/
theorem faultsHeld_of {i : Rec → Instr} {o : Nat} {p : FireSpec} {bad : Fire → State → Prop} {cause : Nat} {detail : Fire → Nat}
    {body : Rec → Fire → State → State × Effect} (h : ∀ r s, exec (i r) s = fireHeld o r p (body r) s)
    (hb : ∀ f s, f.opc = o → bad f s → body f.nrec f s = (s, .fault cause (detail f))) : FaultsHeld i o p bad cause detail := by
  intro r s f e w
  rw [h, firesHeld_next _ e]
  obtain ⟨ho, hr⟩ := firesHeld_rec e
  subst hr
  rw [hb _ _ ho w]
  rfl

/-- A firing that meets a condition of Table 3-16 takes its fault, whatever its body is. -/
theorem faultsFirst_of {i : Rec → Instr} {o : Nat} {p : FireSpec} {bad : Fire → State → Prop} {cause : Nat}
    {body : Rec → Fire → State → State × Effect} (h : ∀ r s, exec (i r) s = fireNode o r p (body r) s)
    (hb : ∀ f s, bad f s → firstFault p f s = some cause) : FaultsFirst i o p false bad cause := by
  intro r s h' k n f hc e u w
  obtain ⟨g, -, p0, p1, p2, p3, p4, p5⟩ := canFire_isAt e
  have hf : firstFault p f ((s.consume f).noteFiring f) = some cause := hb _ _ w
  rw [h]
  unfold fireNode
  rw [hc]
  simp only [u, e, State.rejoined, State.perform, hf, p1, p2, p3, p4, State.taken, Bool.false_eq_true, if_false]

theorem faultsFirst_held_of {i : Rec → Instr} {o : Nat} {p : FireSpec} {bad : Fire → State → Prop} {cause : Nat}
    {body : Rec → Fire → State → State × Effect} (h : ∀ r s, exec (i r) s = fireHeld o r p (body r) s)
    (hb : ∀ f s, bad f s → firstFault p f s = some cause) : FaultsFirst i o p true bad cause := by
  intro r s h' k n f hc e u w
  obtain ⟨g, -, p0, p1, p2, p3, p4, p5⟩ := canFire_isAt e
  have hf : firstFault p f (s.noteFiring f) = some cause := hb _ _ w
  rw [h]
  unfold fireHeld State.heldFire
  rw [hc]
  simp only [u, e, State.rejoined, State.perform, hf, p1, p2, p3, p4, if_true]

/-- A memory instruction whose plan is denied withholds its access (R168). -/
theorem withholds_of {i : Rec → Instr} {o : Nat} {p : FireSpec} {z : Bool} {why : Fire → State → Nat → Nat → Nat → Prop} {q : MemSpec}
    (h : ∀ r s, exec (i r) s = fireHeld o r p (memFire q) s) (hz : q.laneZero = z)
    (hp : ∀ f s c a d, why f s c a d → f.opc = o → q.plan f s = (s, .error { cause := c, addr := a, detail := d })) :
    Withholds i o p z why := by
  intro r s f c a d e hi h0 hw
  rw [h, firesHeld_next _ e]
  obtain ⟨ho, hr⟩ := firesHeld_rec e
  have h1 := hp _ _ _ _ _ hw ho
  have hs : q.silent f = false := by
    unfold MemSpec.silent
    rw [hi, hz]
    cases z
    · rfl
    · by_cases b : f.nrec.pm = 1 ∨ f.nrec.pm = 2
      · rw [h0 rfl b]
        simp
      · have hb : (f.nrec.pm == 1 || f.nrec.pm == 2) = false := by simpa using b
        rw [Bool.true_and, hb]
        rfl
  simp only [memFire, hs, h1]
  rfl

/-- What Table 9-2 finds first is what `State.reach` answers. -/
theorem FaultsAccess.reach {f : Fire} {s : State} {b o n align c a d : Nat} {x : Ask} (h : FaultsAccess f s b o n align c a d)
    (ho : x.o = o) (hn : x.n = n) (ha : x.align = align) (hb : x.base = agbBase b) :
    s.reach f.g f.h b x = .error { cause := c, addr := a, detail := d } := by
  obtain ⟨rfl, h⟩ := h
  unfold State.reach
  simp only [ho, hn, ha, hb]
  rcases h with ⟨h1, rfl, rfl⟩ | ⟨h1, h2, rfl, rfl⟩ | ⟨h1, h2, h3, h4, m, rest, l, y, h5, h6, h7, rfl, rfl⟩ | ⟨h1, h2, h3, h4, h5, rfl, rfl⟩
  · simp [h1, denied, causeAlign]
  · simp [h1, h2, denied, causeLimit]
  · simp only [h3, Bool.false_eq_true, if_false] at h5 h6 h7 ⊢
    simp [h1, Nat.not_lt.mpr h2, h4, State.virtParts, h5, State.translateAll, h6, h7]
    rfl
  · simp only [h3, Bool.false_eq_true, if_false] at h5 ⊢
    simp only [h1, Nat.not_lt.mpr h2, h4, h5, denied, causeSpace, ne_eq, not_true_eq_false, Bool.false_eq_true, if_false]

/-- The first of several accesses that finds a fault is denied. -/
theorem reachAll_denied {s : State} {g h b : Nat} {x : Ask} {d : Denied} (e : s.reach g h b x = .error d) (after : List Ask) :
    ∀ (before : List Ask) (ps : List Parts), s.reachAll g h b before = .ok ps → s.reachAll g h b (before ++ x :: after) = .error d := by
  intro before
  induction before with
  | nil => intro ps _; simp [State.reachAll, e]
  | cons a t ih =>
    intro ps hp
    simp only [State.reachAll, List.cons_append] at hp ⊢
    split at hp
    · cases hp
    · split at hp
      · cases hp
      · rename_i q hq
        rw [ih _ hq]

/-- A memory instruction whose plan and check are as stated places its request (R170). -/
theorem asks_of {i : Rec → Instr} {o : Nat} {p : FireSpec} {w z : Bool} {ok : Fire → State → State → Plan → Prop} {q : MemSpec}
  (h : ∀ r s, exec (i r) s = fireHeld o r p (memFire q) s) (hw : q.writing = w) (hz : q.laneZero = z)
  (he : q.early = false) (hp : ∀ f s t x, ok f s t x → f.opc = o → q.plan f s = (t, .ok x)) : Asks i o p w z ok := by
  intro r s t f x e hi h0 hok ht
  rw [h, firesHeld_next _ e]
  obtain ⟨ho, hr⟩ := firesHeld_rec e
  have h1 := hp _ _ _ _ hok ho
  have hs : q.silent f = false := by
    unfold MemSpec.silent
    rw [hi, hz]
    cases z
    · rfl
    · by_cases a : f.nrec.pm = 1 ∨ f.nrec.pm = 2
      · rw [h0 rfl a]
        simp
      · have ha : (f.nrec.pm == 1 || f.nrec.pm == 2) = false := by simpa using a
        rw [Bool.true_and, ha]
        rfl
  simp only [memFire, hs, h1, ht, he, State.take, hw]
  rfl

/-- The same for one whose token leaves in the firing (R180). -/
theorem asksAndGives_of {i : Rec → Instr} {o : Nat} {p : FireSpec} {w : Bool} {ok : Fire → State → State → Plan → Prop} {q : MemSpec}
  (h : ∀ r s, exec (i r) s = fireHeld o r p (memFire q) s) (hw : q.writing = w) (hz : q.laneZero = false)
  (he : q.early = true) (hp : ∀ f s t x, ok f s t x → f.opc = o → q.plan f s = (t, .ok x)) : AsksAndGives i o p w ok := by
  intro r s t f x e hi hok ht hu
  rw [h, firesHeld_next _ e]
  obtain ⟨ho, hr⟩ := firesHeld_rec e
  have h1 := hp _ _ _ _ hok ho
  have hs : q.silent f = false := by simp [MemSpec.silent, hi, hz]
  subst hw
  simp only [memFire, hs, h1, ht, he, State.take, Bool.false_eq_true, if_false, if_true]
  rw [conclude_emit (by simpa [State.asked] using hu)]
  rfl

/-- A command whose turns past its start are as stated runs so. -/
theorem runs_of {i : EntryHeader → Instr} {k : Nat} {st : State → Nat → CurrentEntry → State × Start} {go : State → Nat → CurrentEntry → State}
   {ok : State → Nat → CurrentEntry → Prop} {act : State → Nat → CurrentEntry → State}
   (h : ∀ e s, exec (i e) s = engineTurn k e st go s) (hg : ∀ s q c, s.turn q c → ok s q c → go s q c = act s q c) : Runs i ok act := by
  intro e s q c ht hb ho
  obtain ⟨h1, h2, h3, h4, h5⟩ := id ht
  rw [h, engineTurn, h1]
  simp only [h2, h3, h4, hb, Nat.not_lt.mpr h5]
  simp [hg _ _ _ ht ho]

end Sys2Proof.Machine
end

