-- ==== Sys2Proof/Laws/Mem.lean ====
section
/-! SUPPORT. The laws of memory: every operation keeps the canonical form, a write is read back, and no other byte changes; and
the same of the list of poisoned granules. -/

namespace Sys2Proof.Machine

/-! ### The canonical form -/

theorem Memory.wfFrom_mono {lo lo' : Nat} {m : List Host.Cell} (h : lo' ≤ lo) (w : Memory.wfFrom lo m = true) :
    Memory.wfFrom lo' m = true := by
  cases m with
  | nil => rfl
  | cons c t =>
    obtain ⟨k, v⟩ := c
    simp only [Memory.wfFrom, Bool.and_eq_true, decide_eq_true_eq] at w ⊢
    exact ⟨⟨Nat.le_trans h w.1.1, w.1.2⟩, w.2⟩

theorem Memory.wfFrom_filter (p : Host.Cell → Bool) {lo : Nat} {m : List Host.Cell} (w : Memory.wfFrom lo m = true) :
    Memory.wfFrom lo (m.filter p) = true := by
  induction m generalizing lo with
  | nil => rfl
  | cons c t ih =>
    obtain ⟨k, v⟩ := c
    simp only [Memory.wfFrom, Bool.and_eq_true, decide_eq_true_eq] at w
    rw [List.filter_cons]
    split
    · simp only [Memory.wfFrom, Bool.and_eq_true, decide_eq_true_eq]
      exact ⟨w.1, ih w.2⟩
    · exact Memory.wfFrom_mono (Nat.le_succ_of_le w.1.1) (ih w.2)

/-- Forgetting cells keeps the canonical form. -/
theorem Memory.wf_filter (p : Host.Cell → Bool) {m : List Host.Cell} (w : Memory.wf m = true) : Memory.wf (m.filter p) = true :=
  Memory.wfFrom_filter p w

theorem Memory.wfFrom_append {lo b : Nat} {m n : List Host.Cell} (w : Memory.wfFrom lo m = true) (hk : ∀ c ∈ m, c.1 < b)
    (hb : lo ≤ b) (w' : Memory.wfFrom b n = true) : Memory.wfFrom lo (m ++ n) = true := by
  induction m generalizing lo with
  | nil => exact Memory.wfFrom_mono hb w'
  | cons c t ih =>
    obtain ⟨k, v⟩ := c
    simp only [List.cons_append, Memory.wfFrom, Bool.and_eq_true, decide_eq_true_eq] at w ⊢
    exact ⟨w.1, ih w.2 (fun c h => hk c (List.mem_cons_of_mem _ h)) (hk (k, v) (List.mem_cons_self ..))⟩

theorem Memory.cells_wf (a : Nat) (bs : List Byte) : Memory.wfFrom a (Memory.cells a bs) = true := by
  induction bs generalizing a with
  | nil => rfl
  | cons b t ih =>
    simp only [Memory.cells]
    split
    · exact Memory.wfFrom_mono (Nat.le_succ a) (ih (a + 1))
    · rename_i h
      simp [Memory.wfFrom, h, ih (a + 1)]

theorem Memory.cells_below (a : Nat) (bs : List Byte) : ∀ c ∈ Memory.cells a bs, c.1 < a + bs.length := by
  induction bs generalizing a with
  | nil => simp [Memory.cells]
  | cons b t ih =>
    intro c hc
    simp only [Memory.cells] at hc
    simp only [List.length_cons]
    split at hc
    · have := ih (a + 1) c hc; omega
    · rcases List.mem_cons.1 hc with h | h
      · subst h; simp only; omega
      · have := ih (a + 1) c h; omega

/-- The cells from a bound on are canonical from that bound. -/
theorem Memory.wfFrom_above {lo b : Nat} {m : List Host.Cell} (w : Memory.wfFrom lo m = true) :
    Memory.wfFrom b (m.filter (fun c => decide (b ≤ c.1))) = true := by
  induction m generalizing lo with
  | nil => rfl
  | cons c t ih =>
    obtain ⟨k, v⟩ := c
    simp only [Memory.wfFrom, Bool.and_eq_true, decide_eq_true_eq] at w
    rw [List.filter_cons]
    split
    · rename_i h
      simp only [decide_eq_true_eq] at h
      simp only [Memory.wfFrom, Bool.and_eq_true, decide_eq_true_eq]
      exact ⟨⟨h, w.1.2⟩, Memory.wfFrom_filter _ w.2⟩
    · exact ih w.2

/-- A write keeps the canonical form. -/
theorem Memory.wf_write {m : List Host.Cell} (a : Nat) (bs : List Byte) (w : Memory.wf m = true) :
    Memory.wf (Memory.write m a bs) = true := by
  unfold Memory.wf Memory.write
  rw [List.append_assoc]
  refine Memory.wfFrom_append (b := a) (Memory.wfFrom_filter _ w) ?_ (Nat.zero_le _) ?_
  · intro c hc
    simpa using (List.mem_filter.1 hc).2
  · exact Memory.wfFrom_append (Memory.cells_wf a bs) (Memory.cells_below a bs) (Nat.le_add_right _ _) (Memory.wfFrom_above w)

/-! ### Reading -/

theorem Memory.read_below {lo x : Nat} {m : List Host.Cell} (w : Memory.wfFrom lo m = true) (h : x < lo) :
    Memory.read m x = Config.blankByte := by
  cases m with
  | nil => rfl
  | cons c t =>
    obtain ⟨k, v⟩ := c
    simp only [Memory.wfFrom, Bool.and_eq_true, decide_eq_true_eq] at w
    have hk : x < k := Nat.lt_of_lt_of_le h w.1.1
    simp [Memory.read, hk, Nat.ne_of_gt hk]

theorem Memory.read_append_low {b x : Nat} {m n : List Host.Cell} (w : Memory.wfFrom b n = true) (h : x < b) :
    Memory.read (m ++ n) x = Memory.read m x := by
  induction m with
  | nil => exact Memory.read_below w h
  | cons c t ih =>
    obtain ⟨k, v⟩ := c
    simp only [List.cons_append, Memory.read, ih]

theorem Memory.read_append_high {b x : Nat} {m n : List Host.Cell} (hk : ∀ c ∈ m, c.1 < b) (h : b ≤ x) :
    Memory.read (m ++ n) x = Memory.read n x := by
  induction m with
  | nil => rfl
  | cons c t ih =>
    obtain ⟨k, v⟩ := c
    have h1 : k < x := Nat.lt_of_lt_of_le (hk (k, v) (List.mem_cons_self ..)) h
    simp only [List.cons_append, Memory.read, Nat.ne_of_lt h1, Nat.not_lt_of_gt h1, if_false]
    exact ih (fun c hc => hk c (List.mem_cons_of_mem _ hc))

theorem Memory.read_filter_low {lo a x : Nat} {m : List Host.Cell} (w : Memory.wfFrom lo m = true) (h : x < a) :
    Memory.read (m.filter (fun c => decide (c.1 < a))) x = Memory.read m x := by
  induction m generalizing lo with
  | nil => rfl
  | cons c t ih =>
    obtain ⟨k, v⟩ := c
    simp only [Memory.wfFrom, Bool.and_eq_true, decide_eq_true_eq] at w
    rw [List.filter_cons]
    split
    · simp only [Memory.read, ih w.2]
    · rename_i hk
      have hk' : a ≤ k := by simpa using hk
      have hx : x < k := Nat.lt_of_lt_of_le h hk'
      rw [ih w.2, Memory.read_below w.2 (Nat.lt_succ_of_lt hx)]
      simp [Memory.read, hx, Nat.ne_of_gt hx]

theorem Memory.read_filter_high {b x : Nat} {m : List Host.Cell} (h : b ≤ x) :
    Memory.read (m.filter (fun c => decide (b ≤ c.1))) x = Memory.read m x := by
  induction m with
  | nil => rfl
  | cons c t ih =>
    obtain ⟨k, v⟩ := c
    rw [List.filter_cons]
    split
    · simp only [Memory.read, ih]
    · rename_i hk
      have hk' : k < x := Nat.lt_of_lt_of_le (by simpa using hk) h
      simp only [Memory.read, Nat.ne_of_lt hk', Nat.not_lt_of_gt hk', if_false, ih]

theorem Memory.read_cells (a : Nat) (bs : List Byte) (i : Nat) (h : i < bs.length) :
    Memory.read (Memory.cells a bs) (a + i) = bs.getD i 0 := by
  induction bs generalizing a i with
  | nil => simp at h
  | cons b t ih =>
    cases i with
    | zero =>
      simp only [Memory.cells, Nat.add_zero, List.getD_cons_zero]
      split
      · rename_i hb
        rw [hb]
        exact Memory.read_below (Memory.cells_wf (a + 1) t) (Nat.lt_succ_self a)
      · simp [Memory.read]
    | succ j =>
      have hj : j < t.length := by simpa using h
      have e : a + (j + 1) = a + 1 + j := by omega
      simp only [Memory.cells, List.getD_cons_succ]
      split
      · rw [e]; exact ih (a + 1) j hj
      · have h1 : a ≠ a + (j + 1) := by omega
        have h2 : ¬ a + (j + 1) < a := by omega
        simp only [Memory.read, h1, h2, if_false]
        rw [e]; exact ih (a + 1) j hj

/-- What is written is read back. -/
theorem Memory.read_write_same {m : List Host.Cell} (a : Nat) (bs : List Byte) (w : Memory.wf m = true) (i : Nat)
    (h : i < bs.length) : Memory.read (Memory.write m a bs) (a + i) = bs.getD i 0 := by
  unfold Memory.write
  rw [List.append_assoc, Memory.read_append_high (b := a) _ (Nat.le_add_right _ _),
    Memory.read_append_low (b := a + bs.length) (Memory.wfFrom_above w) (by omega)]
  · exact Memory.read_cells a bs i h
  · intro c hc
    simpa using (List.mem_filter.1 hc).2

/-- A write leaves every other byte alone. -/
theorem Memory.read_write_other {m : List Host.Cell} (a : Nat) (bs : List Byte) (w : Memory.wf m = true) (x : Nat)
    (h : x < a ∨ a + bs.length ≤ x) : Memory.read (Memory.write m a bs) x = Memory.read m x := by
  unfold Memory.write
  have hlow : ∀ c ∈ m.filter (fun c => decide (c.1 < a)), c.1 < a := by
    intro c hc
    simpa using (List.mem_filter.1 hc).2
  rw [List.append_assoc]
  rcases h with h | h
  · rw [Memory.read_append_low (b := a) _ h, Memory.read_filter_low w h]
    exact Memory.wfFrom_append (Memory.cells_wf a bs) (Memory.cells_below a bs) (Nat.le_add_right _ _) (Memory.wfFrom_above w)
  · rw [Memory.read_append_high (b := a) hlow (by omega), Memory.read_append_high (Memory.cells_below a bs) h,
      Memory.read_filter_high h]

/-! ### The poisoned granules -/

theorem risingFrom_mono {lo lo' : Nat} {l : List Nat} (h : lo' ≤ lo) (w : risingFrom lo l = true) : risingFrom lo' l = true := by
  cases l with
  | nil => rfl
  | cons y t =>
    simp only [risingFrom, Bool.and_eq_true, decide_eq_true_eq] at w ⊢
    exact ⟨Nat.le_trans h w.1, w.2⟩

theorem risingFrom_filter (p : Nat → Bool) {lo : Nat} {l : List Nat} (w : risingFrom lo l = true) :
    risingFrom lo (l.filter p) = true := by
  induction l generalizing lo with
  | nil => rfl
  | cons y t ih =>
    simp only [risingFrom, Bool.and_eq_true, decide_eq_true_eq] at w
    rw [List.filter_cons]
    split
    · simp only [risingFrom, Bool.and_eq_true, decide_eq_true_eq]
      exact ⟨w.1, ih w.2⟩
    · exact risingFrom_mono (Nat.le_succ_of_le w.1) (ih w.2)

theorem insertRising_rising {lo : Nat} {l : List Nat} (x : Nat) (h : lo ≤ x) (w : risingFrom lo l = true) :
    risingFrom lo (insertRising l x) = true := by
  induction l generalizing lo with
  | nil => simp [insertRising, risingFrom, h]
  | cons y t ih =>
    simp only [risingFrom, Bool.and_eq_true, decide_eq_true_eq] at w
    simp only [insertRising]
    split
    · simpa [risingFrom] using w
    · split
      · rename_i hxy
        simp only [risingFrom, Bool.and_eq_true, decide_eq_true_eq]
        exact ⟨h, hxy, w.2⟩
      · simp only [risingFrom, Bool.and_eq_true, decide_eq_true_eq]
        exact ⟨w.1, ih (by omega) w.2⟩

theorem mem_insertRising (x g : Nat) (l : List Nat) : g ∈ insertRising l x ↔ g = x ∨ g ∈ l := by
  induction l with
  | nil => simp [insertRising]
  | cons y t ih =>
    simp only [insertRising]
    split
    · rename_i h; subst h; simp
    · split
      · simp
      · simp only [List.mem_cons, ih]
        constructor
        · rintro (h | h | h) <;> simp [h]
        · rintro (h | h | h) <;> simp [h]

theorem foldl_insertRising_rising (xs : List Nat) {l : List Nat} (w : risingFrom 0 l = true) :
    risingFrom 0 (xs.foldl insertRising l) = true := by
  induction xs generalizing l with
  | nil => exact w
  | cons x t ih => exact ih (insertRising_rising x (Nat.zero_le x) w)

theorem mem_foldl_insertRising (xs : List Nat) (g : Nat) (l : List Nat) : g ∈ xs.foldl insertRising l ↔ g ∈ xs ∨ g ∈ l := by
  induction xs generalizing l with
  | nil => simp
  | cons x t ih =>
    simp only [List.foldl_cons, ih, mem_insertRising, List.mem_cons]
    constructor
    · rintro (h | h | h) <;> simp [h]
    · rintro ((h | h) | h) <;> simp [h]

/-- Poison stays in rising order through a write. -/
theorem poisonAfter_rising {p : List Nat} (a n : Nat) (t : Bool) (w : risingFrom 0 p = true) :
    risingFrom 0 (poisonAfter p a n t) = true := by
  unfold poisonAfter
  split
  · exact foldl_insertRising_rising _ w
  · exact risingFrom_filter _ w

/-! ### The state's memory -/

/-- A write at an endpoint keeps the invariant. -/
theorem State.put_inv {s : State} (pa : Nat) (bs : List Byte) (t : Bool) (h : s.Inv) : (s.put pa bs t).Inv :=
  ⟨Memory.wf_write _ _ h.1, by
    simp only [State.put]
    split
    · exact h.2
    · exact poisonAfter_rising _ _ _ h.2⟩

/-- Memory and poison decide the invariant. -/
theorem State.inv_of_eq {s t : State} (hm : t.mem = s.mem) (hp : t.poison = s.poison) (h : s.Inv) : t.Inv := by
  unfold State.Inv at *
  rw [hm, hp]
  exact h

/-- The memory of the reset state is canonical. -/
theorem reset_mem_wf : Memory.wf State.reset.mem = true := rfl

end Sys2Proof.Machine
end

