-- ==== Sys2Proof/Tests/Slice0.lean ====
section
/-! SUPPORT. Tests of one step each: words written out from the encodings, ill-formed terms, values of the spec's examples, and
for every statement a state and operands that meet its hypotheses. -/

open Sys2Proof Sys2Proof.Machine

namespace Sys2Proof.Tests

set_option Elab.async false

/-! ### Words written out from the encodings of the spec -/

/-- FMT 1, ARY 01, D0 to port 12, node 6, operand A (0x718), and LIT32 0x5A. -/
def plainRec : Rec :=
  { fmt := 1, ary := 1, tag := 0, lit := 0, rnd := 0, sat := 0, scl := 0, pm := 0, wgt := 0, jdq := 0
    d1 := { v := 0, oport := 0, node := 0, opnd := 0 }, d0 := { v := 1, oport := 12, node := 6, opnd := 0 }, rsv := 0, lit32 := 0x5A }

/-- The word reads as this instruction of `plainRec`. -/
def readsAs (x : Nat × (Rec → Instr)) : Bool := decodeTableWord 96 x.1 == some (x.2 plainRec)

/-- Words of the control family: FMT 1, ARY 01, D0 to port 12 node 6 operand A (0x718), LIT32 0x5A, and the opcode of R55. -/
def controlWords : List (Nat × (Rec → Instr)) :=
  [(0x00450000000071800000005A, .pass), (0x00850000000071800000005A, .const), (0x00C50000000071800000005A, .steer),
   (0x01050000000071800000005A, .merge), (0x01450000000071800000005A, .mergeu), (0x01850000000071800000005A, .gate),
   (0x01C50000000071800000005A, .sync), (0x02050000000071800000005A, .sel), (0x02450000000071800000005A, .wave),
   (0x02850000000071800000005A, .wexit), (0x02C50000000071800000005A, .calloc), (0x03050000000071800000005A, .cfree),
   (0x03450000000071800000005A, .cbind), (0x03850000000071800000005A, .cret), (0x03C50000000071800000005A, .pack),
   (0x04050000000071800000005A, .unpack), (0x04450000000071800000005A, .inject), (0x04850000000071800000005A, .sink),
   (0x04C50000000071800000005A, .cntf), (0x05050000000071800000005A, .spawn), (0x05450000000071800000005A, .trap),
   (0x05850000000071800000005A, .mark), (0x05C50000000071800000005A, .pred), (0x06050000000071800000005A, .pand),
   (0x06450000000071800000005A, .por), (0x06850000000071800000005A, .pxor), (0x06C50000000071800000005A, .pnot),
   (0x07050000000071800000005A, .vote), (0x07450000000071800000005A, .flags), (0x07850000000071800000005A, .delay),
   (0x07C50000000071800000005A, .tsget)]

theorem test_words_control : controlWords.all readsAs = true := by decide +kernel

/-- Words of the integer family: FMT 1, ARY 01, D0 to port 12 node 6 operand A (0x718), LIT32 0x5A, and the opcode of R55. -/
def integerWords : List (Nat × (Rec → Instr)) :=
  [(0x10050000000071800000005A, .add), (0x10450000000071800000005A, .sub), (0x10850000000071800000005A, .mul),
   (0x10C50000000071800000005A, .mulh), (0x11050000000071800000005A, .mulhu), (0x11450000000071800000005A, .mad),
   (0x11850000000071800000005A, .div), (0x11C50000000071800000005A, .divu), (0x12050000000071800000005A, .rem),
   (0x12450000000071800000005A, .remu), (0x12850000000071800000005A, .neg), (0x12C50000000071800000005A, .abs),
   (0x13050000000071800000005A, .min), (0x13450000000071800000005A, .max), (0x13850000000071800000005A, .minu),
   (0x13C50000000071800000005A, .maxu), (0x14050000000071800000005A, .and), (0x14450000000071800000005A, .or),
   (0x14850000000071800000005A, .xor), (0x14C50000000071800000005A, .not), (0x15050000000071800000005A, .andn),
   (0x15450000000071800000005A, .shl), (0x15850000000071800000005A, .shr), (0x15C50000000071800000005A, .sra),
   (0x16050000000071800000005A, .rol), (0x16450000000071800000005A, .clz), (0x16850000000071800000005A, .popc),
   (0x16C50000000071800000005A, .brev), (0x17050000000071800000005A, .bfx), (0x17450000000071800000005A, .bfi),
   (0x17850000000071800000005A, .adds), (0x17C50000000071800000005A, .subs), (0x18050000000071800000005A, .cmpeq),
   (0x18450000000071800000005A, .cmpne), (0x18850000000071800000005A, .cmplt), (0x18C50000000071800000005A, .cmple),
   (0x19050000000071800000005A, .cmpltu), (0x19450000000071800000005A, .cmpleu), (0x1A050000000071800000005A, .idx),
   (0x1A450000000071800000005A, .idx2), (0x1A850000000071800000005A, .wrap), (0x1AC50000000071800000005A, .range),
   (0x1B050000000071800000005A, .shuf), (0x1B450000000071800000005A, .lanex), (0x1B850000000071800000005A, .lanei),
   (0x1BC50000000071800000005A, .bcast), (0x1C050000000071800000005A, .rsum), (0x1C450000000071800000005A, .rmin),
   (0x1C850000000071800000005A, .rmax)]

theorem test_words_integer : integerWords.all readsAs = true := by decide +kernel

/-- Words of the floating family: FMT 1, ARY 01, D0 to port 12 node 6 operand A (0x718), LIT32 0x5A, and the opcode of R55. -/
def floatingWords : List (Nat × (Rec → Instr)) :=
  [(0x30050000000071800000005A, .fadd), (0x30450000000071800000005A, .fsub), (0x30850000000071800000005A, .fmul),
   (0x30C50000000071800000005A, .fma), (0x31050000000071800000005A, .fnma), (0x31450000000071800000005A, .fmin),
   (0x31850000000071800000005A, .fmax), (0x31C50000000071800000005A, .fabs), (0x32050000000071800000005A, .fneg),
   (0x32450000000071800000005A, .fcmpeq), (0x32850000000071800000005A, .fcmplt), (0x32C50000000071800000005A, .fcmple),
   (0x33050000000071800000005A, .fcmpun), (0x33450000000071800000005A, .fclass), (0x33850000000071800000005A, .fdiv),
   (0x33C50000000071800000005A, .fsqrt), (0x34050000000071800000005A, .frcp), (0x34450000000071800000005A, .frsq),
   (0x34850000000071800000005A, .fexp2), (0x34C50000000071800000005A, .flog2), (0x35050000000071800000005A, .fsin),
   (0x35450000000071800000005A, .fcos), (0x35850000000071800000005A, .ftanh), (0x35C50000000071800000005A, .fsigm),
   (0x36050000000071800000005A, .fsilu), (0x38050000000071800000005A, .cvtf), (0x38450000000071800000005A, .cvtfi),
   (0x38850000000071800000005A, .cvtif), (0x38C50000000071800000005A, .qntb), (0x39050000000071800000005A, .dqntb),
   (0x39450000000071800000005A, .expsel), (0x3A050000000071800000005A, .scl), (0x3A450000000071800000005A, .uscl),
   (0x3C050000000071800000005A, .frsum), (0x3C450000000071800000005A, .frmax), (0x3C850000000071800000005A, .frmin),
   (0x3CC50000000071800000005A, .smrg), (0x3D050000000071800000005A, .rope)]

theorem test_words_floating : floatingWords.all readsAs = true := by decide +kernel

/-- Words of the tensor family: FMT 1, ARY 01, D0 to port 12 node 6 operand A (0x718), LIT32 0x5A, and the opcode of R55. -/
def tensorWords : List (Nat × (Rec → Instr)) :=
  [(0x50050000000071800000005A, .tdld), (0x50450000000071800000005A, .tdset), (0x50850000000071800000005A, .tddrop),
   (0x50C50000000071800000005A, .tdkeep), (0x51050000000071800000005A, .tdreg), (0x51450000000071800000005A, .tdq),
   (0x54050000000071800000005A, .tric), (0x54450000000071800000005A, .mma), (0x54850000000071800000005A, .tris),
   (0x54C50000000071800000005A, .mmas), (0x55050000000071800000005A, .had), (0x55450000000071800000005A, .lutp),
   (0x55850000000071800000005A, .lutm), (0x55C50000000071800000005A, .accrd), (0x56050000000071800000005A, .accz),
   (0x56450000000071800000005A, .accld), (0x56850000000071800000005A, .tstay), (0x56C50000000071800000005A, .txpr),
   (0x57050000000071800000005A, .cdxset), (0x57450000000071800000005A, .accx)]

theorem test_words_tensor : tensorWords.all readsAs = true := by decide +kernel

/-- Words of the memory family: FMT 1, ARY 01, D0 to port 12 node 6 operand A (0x718), LIT32 0x5A, and the opcode of R55. -/
def memoryWords : List (Nat × (Rec → Instr)) :=
  [(0x70050000000071800000005A, .agen), (0x70450000000071800000005A, .ld), (0x70850000000071800000005A, .st),
   (0x70C50000000071800000005A, .ldx), (0x71050000000071800000005A, .lds), (0x71450000000071800000005A, .sts),
   (0x71850000000071800000005A, .ldt), (0x71C50000000071800000005A, .stt), (0x72050000000071800000005A, .ldn),
   (0x72450000000071800000005A, .pref), (0x74050000000071800000005A, .aadd), (0x74450000000071800000005A, .afadd),
   (0x74850000000071800000005A, .amin), (0x74C50000000071800000005A, .amax), (0x75050000000071800000005A, .aand),
   (0x75450000000071800000005A, .aor), (0x75850000000071800000005A, .axor), (0x75C50000000071800000005A, .axchg),
   (0x76050000000071800000005A, .acas), (0x76450000000071800000005A, .ainc), (0x76850000000071800000005A, .optst),
   (0x76C50000000071800000005A, .retw), (0x78050000000071800000005A, .fence), (0x78450000000071800000005A, .mcast),
   (0x78850000000071800000005A, .wptr), (0x78C50000000071800000005A, .wpwait)]

theorem test_words_memory : memoryWords.all readsAs = true := by decide +kernel

/-- Words of the system family: FMT 1, ARY 01, D0 to port 12 node 6 operand A (0x718), LIT32 0x5A, and the opcode of R55. -/
def systemWords : List (Nat × (Rec → Instr)) :=
  [(0x90050000000071800000005A, .enq), (0x90450000000071800000005A, .tail), (0x90850000000071800000005A, .seqrd),
   (0x90C50000000071800000005A, .seqwait), (0xA0050000000071800000005A, .cfgld), (0xA0450000000071800000005A, .callg),
   (0xA0850000000071800000005A, .retg), (0xA0C50000000071800000005A, .tailg), (0xA1050000000071800000005A, .drain),
   (0xA1450000000071800000005A, .prio), (0xA1850000000071800000005A, .yield), (0xA1C50000000071800000005A, .snap),
   (0xA2050000000071800000005A, .rdsr), (0xA2450000000071800000005A, .wrsr), (0xA2850000000071800000005A, .halt),
   (0xA2C50000000071800000005A, .wdog)]

theorem test_words_system : systemWords.all readsAs = true := by decide +kernel

/-- The header of an entry with RTAG 5. -/
def header : EntryHeader :=
  { status := 0, nv := 0, irq := 0, cmp := 0, rsvA := 0, rtag := 5, rsvB := 0, next := 0, rsvC := 0, cseq := 0 }

def xfer : XferBody := { src := 0, dst := 0, len := 0, wpc := 0, pat := 0, stray := false }
def tensor : TensorBody := { stid := 0, dtid := 0, pcode := 0, stray := false }
def rows : RowsBody := { src := 0, dst := 0, idx := 0, rsz := 0, nidx := 0, nrows := 0, rstr := 0, stray := false }
def copyr : CopyrBody := { sd := 0, src := 0, srcv := 0, dpos := 0, spos := 0, nrow := 0, stray := false }
def patch : PatchBody := { sd := 0, first := 0, last := 0, delta := 0, rot := 0, moved := 0, stale := 0, stray := false }
def compact : CompactBody := { sd := 0, outk := 0, outv := 0, outp := 0, top := 0, count := 0, thr := 0 }
def page : PageBody := { va := 0, dpa := 0, krtag := 0, flags := 0, prev := 0, stray := false }
def coll : CollBody :=
  { tid := 0, op := 0, nm := 0, rank := 0, topo := 0, grp := 0, ctag := 0, map := 0, stray := false }
def peer : PeerBody := { buf := 0, len := 0, peer := 0, link := 0, wpc := 0, mtag := 0, map := 0, stray := false }
def fence : FenceBody := { name0 := 0, name1 := 0, name2 := 0, name3 := 0, stray := false }
def withdrawal : WithdrawBody := { tag := 0, mask := 0, stray := false }
def signal : SignalBody := { va := 0, val := 0, op := 0, stray := false }
def waiting : WaitBody := { va := 0, val := 0, cmp := 0, tmo := 0, stray := false }

/-- Entries of every KIND of Table 3-14 with RTAG 5 and an empty body. -/
def entryWords : List (Nat × Instr) :=
  [(0x01000000000000050000000000000000, .copy header xfer),
   (0x02000000000000050000000000000000, .copyt header tensor),
   (0x03000000000000050000000000000000, .perm header tensor),
   (0x04000000000000050000000000000000, .fill header xfer),
   (0x05000000000000050000000000000000, .gath header rows),
   (0x06000000000000050000000000000000, .scat header rows),
   (0x08000000000000050000000000000000, .copyr header copyr),
   (0x09000000000000050000000000000000, .kvpatch header patch),
   (0x0A000000000000050000000000000000, .compact header compact),
   (0x0C000000000000050000000000000000, .promo header page),
   (0x0D000000000000050000000000000000, .demo header page),
   (0x10000000000000050000000000000000, .redsc header coll),
   (0x11000000000000050000000000000000, .allga header coll),
   (0x12000000000000050000000000000000, .allrd header coll),
   (0x13000000000000050000000000000000, .send header peer),
   (0x14000000000000050000000000000000, .recv header peer),
   (0x20000000000000050000000000000000, .qfence header fence),
   (0x21000000000000050000000000000000, .wdraw header withdrawal),
   (0x22000000000000050000000000000000, .signal header signal),
   (0x23000000000000050000000000000000, .waitv header waiting)]

theorem test_words_entries : entryWords.all (fun x => decodeTableWord 512 x.1 == some x.2) = true := by decide +kernel

/-- Table 15-6: IRQ in bit 110, RTAG 0x31, SRC at byte 16, DST at byte 24, LEN at byte 32, WPC at byte 40. -/
theorem test_word_copy : decodeTableWord 512 0x008500000000000000800000000000030040000000000002000001004000000000310000000000000000 =
    some (.copy { header with irq := 1, rtag := 0x31 } { xfer with src := 0x20000, dst := 0x30040, len := 0x80, wpc := 0x85 }) :=
      by decide +kernel

/-- Table 15-7: VA at byte 16, VAL at byte 24, OP at byte 32. -/
theorem test_word_signal : decodeTableWord 512 0x00010000000000000007000000000000123822000000000000310000000000000000 =
    some (.signal { header with rtag := 0x31 } { signal with va := 0x1238, val := 7, op := 1 }) := by decide +kernel

/-- Table 15-7: the first name at byte 16. -/
theorem test_word_qfence : decodeTableWord 512 0x800000000000000320000000000000310000000000000000 =
    some (.qfence { header with rtag := 0x31 } { fence with name0 := 0x8000000000000003 }) := by decide +kernel

/-- R59: KIND 0x07 is not listed. -/
theorem test_word_badkind : decodeTableWord 512 (0x07 * 2 ^ 120 + 5 * 2 ^ 64) = some (.badkind header 0x07 0) := by decide +kernel

/-- Table 20-3: OPC in byte 0, the identifier 9 in bytes 4 to 7, the fields from byte 8. -/
theorem test_words_submissions :
    decodeSubmission 0x314000000000900000001 = .launch 9 0x31400 ∧
    decodeSubmission 0x104030201FFFF0000000900000002 =
      .resume 9 { qid := 0xFFFF, die := 1, x := 2, y := 3, node := 4, slot := 1 } ∧
    decodeSubmission 0x120000000900000003 = .abort 9 { qid := 0x12, die := 0, x := 0, y := 0, node := 0, slot := 0 } ∧
    decodeSubmission 0x2000000770000000900000004 = .release 9 0x77 2 ∧
    decodeSubmission 0x2000000770000000900000005 = .withdraw 9 0x77 2 ∧
    decodeSubmission 0x2000000770000000900000006 = .retire 9 0x77 2 ∧
    decodeSubmission 0x3000000000000000900000007 = .ctxres 9 3 ∧ decodeSubmission 0x900000008 = .unknownCommand 9 8 := by decide +kernel

/-- The records of the worked examples of R119, R157, R223, R242, R260 and of R132's TDDROP. -/
theorem test_words_worked :
    decodeTableWord 96 0xA20510000000718000000013 = some (.rdsr { plainRec with lit := 2, lit32 := 0x13 }) ∧
    decodeTableWord 96 0x050510000000718000000001 = some (.spawn { plainRec with lit := 2, lit32 := 1 }) ∧
    decodeTableWord 96 0xA24510000000718000000010 = some (.wrsr { plainRec with lit := 2, lit32 := 0x10 }) ∧
    decodeTableWord 96 0x700410000000718000000002 = some (.agen { plainRec with ary := 0, lit := 2, lit32 := 2 }) := by decide +kernel

/-! ### Ill-formed terms -/

/-- A well-formed ADD.I32 of A and B. -/
def goodAdd : Rec := { plainRec with fmt := 0, ary := 2, lit32 := 0 }

theorem test_wellFormed_add : (Instr.add goodAdd).wellFormed = true := by decide +kernel

/-- One term for each check of Table 3-15, from reason 2 on, and for each kind of stray body. Reason 1 has no term: an opcode that
is not allocated is no instruction. -/
theorem test_ill_formed :
    recordReason 0x020 goodAdd 0 = some 1 ∧
    recordReason 0x040 { goodAdd with fmt := 2 } 0 = some 2 ∧ recordReason 0x040 { goodAdd with ary := 1 } 0 = some 3 ∧
    recordReason 0x040 { goodAdd with tag := 1 } 0 = some 4 ∧ recordReason 0x040 { goodAdd with lit32 := 1 } 0 = some 5 ∧
    recordReason 0x01E { plainRec with lit := 2, lit32 := 0 } 0 = some 5 ∧
    recordReason 0x040 { goodAdd with rnd := 6 } 0 = some 6 ∧ recordReason 0x040 { goodAdd with rsv := 1 } 0 = some 7 ∧
    recordReason 0x040 goodAdd 1 = some 7 ∧
    recordReason 0x040 { goodAdd with d0 := { v := 0, oport := 0, node := 1, opnd := 0 } } 0 = some 8 ∧
    recordReason 0x04A { goodAdd with ary := 1, jdq := 1 } 0 = some 9 ∧
    recordReason 0x014 { plainRec with lit := 2, lit32 := 1, wgt := 1 } 0 = some 10 ∧
    (Instr.add { goodAdd with fmt := 2 }).wellFormed = false ∧
    (Instr.copy header { xfer with pat := 1 }).wellFormed = false ∧ (Instr.fill header { xfer with src := 1 }).wellFormed = false ∧
    (Instr.copyt header { tensor with pcode := 1 }).wellFormed = false ∧ (Instr.perm header { tensor with stray := true }).wellFormed = false ∧
    (Instr.gath header { rows with stray := true }).wellFormed = false ∧ (Instr.scat header { rows with stray := true }).wellFormed = false ∧
    (Instr.copyr header { copyr with stray := true }).wellFormed = false ∧
    (Instr.kvpatch header { patch with stray := true }).wellFormed = false ∧
    (Instr.promo header { page with stray := true }).wellFormed = false ∧ (Instr.demo header { page with stray := true }).wellFormed = false ∧
    (Instr.redsc header { coll with stray := true }).wellFormed = false ∧ (Instr.allga header { coll with stray := true }).wellFormed = false ∧
    (Instr.allrd header { coll with stray := true }).wellFormed = false ∧ (Instr.send header { peer with stray := true }).wellFormed = false ∧
    (Instr.recv header { peer with stray := true }).wellFormed = false ∧ (Instr.qfence header { fence with stray := true }).wellFormed = false ∧
    (Instr.wdraw header { withdrawal with stray := true }).wellFormed = false ∧
    (Instr.signal header { signal with stray := true }).wellFormed = false ∧
    (Instr.waitv header { waiting with stray := true }).wellFormed = false ∧
    (Instr.badkind header 0x01 0).wellFormed = false ∧ (Instr.unknownCommand 0 1).wellFormed = false := by decide +kernel


/-! ### Firings

Each case is one instruction whose node has its record and its operands: it fires, its conditions hold, and its meaning sends the
tokens that the manual gives it. -/

/-- A token with these lanes. -/
def token (fmt p : Nat) (ls : List Word) : Token :=
  { fmt := fmt, port := p, wid := ls.length, lanes := ls, res := tokenResidue fmt ls }

/-- An instruction, its record, what its ports hold, and how the state differs from the plainest one. -/
structure Case where
  opc : Nat
  instr : Rec → Instr
  spec : FireSpec := {}
  ary : BitVec 2 := 1
  fmt : BitVec 4 := 0
  lit : BitVec 2 := 0
  sat : BitVec 1 := 0
  pm : BitVec 2 := 0
  scl : BitVec 2 := 0
  lit32 : BitVec 32 := 0
  scw : Nat := 0
  ops : Nat → List Word := fun _ => [1]
  edit : State → State := id
  ok : Fire → State → Bool := fun _ _ => true
  /-- Its operands stay until it says otherwise. -/
  held : Bool := false
  /-- Tokens that it sends. -/
  sent : Nat := 1

def Case.nrec (c : Case) : Rec :=
  { plainRec with fmt := c.fmt, ary := c.ary, lit := c.lit, sat := c.sat, scl := c.scl, pm := c.pm, lit32 := c.lit32
                  d0 := { v := 1, oport := 12, node := 1, opnd := 0 } }

def Case.state (c : Case) : State :=
  let r := c.nrec
  let t := fun p => { token c.fmt.toNat p (c.ops p) with scw := c.scw }
  let s := (State.reset.withRecord (encodeRecord c.opc r)).modSlot 0 0 (fun v =>
    { v with frames := v.frames.map (fun f => (recPorts r).foldl (fun f p => f.setPort p (some (t p))) f)
             cfg := { v.cfg with nodes := v.cfg.nodes.map (fun e => (e.1, (recPorts r).foldl (fun x p => x.setQueue p [t p]) e.2)) } })
  { c.edit s with cur := .node 0 0 0 }

/-- The firing of a case, once its operands are taken. -/
def Case.firing (c : Case) : Option (Fire × State) :=
  (c.state.canFire c.spec 0 0 0 c.opc c.nrec).map (fun f => (f, if c.held then c.state.noteFiring f else c.state.taken f))

/-- The state that its meaning answers. -/
def Case.after (c : Case) : Option State := match exec (c.instr c.nrec) c.state with
  | .next t => some t
  | _ => none

/-- It fires, its own condition holds, and its meaning answers a state with the tokens that it sends. -/
def Case.fires (c : Case) : Bool :=
  match c.firing with
  | none => false
  | some (f, u) =>
    (if c.held then c.state.firesHeld c.spec c.opc c.nrec f else c.state.fires c.spec c.opc c.nrec f) && !f.idle && c.ok f u &&
    decide (c.after.map (fun t => t.flights.length) = some c.sent)

/-- The lanes, RES, FLG and SCW of the token that it sends. -/
def Case.sends (c : Case) : Option (List Nat × Nat × BitVec 5 × Nat) :=
  c.after.bind (fun t => t.flights.head?.map (fun e => (e.2.tok.lanes.map BitVec.toNat, e.2.tok.res, e.2.tok.flg, e.2.tok.scw)))

/-- The lanes of a number. -/
def laneList (n x : Nat) : List Word := (List.range n).map (fun i => BitVec.ofNat 32 (x / 2 ^ (32 * i)))

/-- An identifier entry (Table 7-1): FP32, rank 1, one element at 0x40. -/
def tensorImage : Nat := 0x40 * 2 ^ 457 + 2 ^ 456 + 2 * 2 ^ 450 + 2 ^ 445 + 2 ^ 288 + 2 ^ 256 + 2 ^ 224

/-- A contraction descriptor (Table 8-1): p is the output row, q the output column, s is contracted; A has p and s, B has
s and q. -/
def descriptorImage : Nat :=
  2 ^ 511 + 2 * 2 ^ 504 + 1 * 2 ^ 498 + 2 * 2 ^ 496 + 2 * 2 ^ 490 + 2 * 2 ^ 488 + (1 + 4 * 2) * 2 ^ 482 + 2 ^ 432 + 2 ^ 416 + 2 ^ 400

/-- The same with sparse masks (SPN 1). -/
def sparseImage : Nat := descriptorImage + 2 ^ 509

/-- Binding 0 of region 0. -/
def bound (s : State) (b : Nat) : State := s.modRegion 0 (fun r => { r with cfg := { r.cfg with agb := [(0, BitVec.ofNat 512 b)] } })

/-- A valid local binding over 4 KiB (R165). -/
def ownBank : Nat := 2 ^ 511 + 2 ^ 510 + 4096 * 2 ^ 399 + 2 ^ 255 + 2 ^ 239 + 2 ^ 223

/-- Context 0 has four identifiers, and identifier 1 has an entry. -/
def tensored (s : State) : State :=
  (s.modContext 0 (fun c => { c with tidCnt := 4, tidCntNow := 4, tidBase := 0x80000, tidBaseNow := 0x80000 })).put 0x8000000040
    (leBytes 64 tensorImage) false

/-- The first 512 MiB of context 0 lie at 0x8020000000, readable and writable (R319 to R321). -/
def paged (s : State) : State :=
  ((s.modContext 0 (fun c => { c with ptroot := 0x8000000001 })).put 0x8000000000 (leBytes 8 (0x8000010000 + 2 ^ 55 + 1)) false).put
    0x8000010000 (leBytes 8 (0x8020000000 + 0x20 + 3)) false

/-- A configuration image of one hearth (R216, R217) whose node 0 is a PASS, at 0x2000, and directory entry 1 that names it. -/
def imaged (s : State) : State :=
  let hd := 0x4B584931 * 2 ^ 480 + 2 ^ 464 + 2 ^ 456 + 2 ^ 448
  (((paged s).put 0x8020002000 (leBytes 64 hd) false).put 0x80200028C0 [1] false).put 0x80200028D0
    (leBytes 12 (encodeRecord 1 { plainRec with lit32 := 0 }).toNat) false

/-- The hearth (64, 0) as CFGLD's site. -/
def siteLane : Word := BitVec.ofNat 32 (64 * 2 ^ 7)

/-- Kernel 0 runs in region 0 with a directory of two entries at 0x1000. -/
def called (s : State) : State :=
  ((imaged s).put 0x8020001010 (leBytes 12 (0x2000 + 7 * 2 ^ 64)) false).modRegion 0 (fun r => { r with kernel := some 0 })
    |>.setKernel 0 { st := .running, dirm1 := 1, dira := 0x1000 }

/-- A call under way whose callee runs under colour 0. -/
def aCall : Call :=
  { h := 0, n := 1, nrec := plainRec, operand := token 0 0 [1], col := 0, cfgn := 1, va := 0x2000, cfgid := 7, ex := 0, ey := 0, enode := 0
    saved := {}, result := none, done := false, dead := false, again := none }

def passingCases : List Case := [
    { opc := 0x001, instr := .pass },
    { opc := 0x006, instr := .gate, ary := 2, pm := 1 },
    { opc := 0x003, instr := .steer, pm := 3 },
    { opc := 0x002, instr := .const, lit := 2, lit32 := 7 },
    { opc := 0x015, instr := .trap, lit := 2, lit32 := 5, ops := fun _ => [0], ok := fun f _ => !trapped f }]

theorem witness_PassingNodesEmit : passingCases.all Case.fires = true := by decide +kernel

def joiningCases : List Case := [
    { opc := 0x004, instr := .merge, ary := 2, pm := 3 },
    { opc := 0x005, instr := .mergeu, ary := 2 },
    { opc := 0x008, instr := .sel, ary := 3 },
    { opc := 0x007, instr := .sync, ary := 2 }]

theorem witness_JoiningNodesEmit : joiningCases.all Case.fires = true := by decide +kernel

def predicatesCases : List Case := [
    { opc := 0x018, instr := .pand, ary := 2 },
    { opc := 0x019, instr := .por, ary := 2 },
    { opc := 0x01A, instr := .pxor, ary := 2 },
    { opc := 0x00F, instr := .pack, ary := 2 },
    { opc := 0x060, instr := .cmpeq, ary := 2 },
    { opc := 0x061, instr := .cmpne, ary := 2 },
    { opc := 0x062, instr := .cmplt, ary := 2 },
    { opc := 0x063, instr := .cmple, ary := 2 },
    { opc := 0x064, instr := .cmpltu, ary := 2 },
    { opc := 0x065, instr := .cmpleu, ary := 2 },
    { opc := 0x010, instr := .unpack },
    { opc := 0x017, instr := .pred },
    { opc := 0x01B, instr := .pnot },
    { opc := 0x01C, instr := .vote },
    { opc := 0x01D, instr := .flags },
    { opc := 0x01F, instr := .tsget }]

theorem witness_PredicatesAndComparisonsEmit : predicatesCases.all Case.fires = true := by decide +kernel

def countingCases : List Case := [
    { opc := 0x012, instr := .sink, spec := { always := true }, sent := 0 },
    { opc := 0x013, instr := .cntf, lit := 2, lit32 := 1 },
    { opc := 0x013, instr := .cntf, lit := 2, lit32 := 2, sent := 0 },
    { opc := 0x01E, instr := .delay, spec := { ready := unreservedFree }, lit := 2, lit32 := 3, sent := 0 },
    { opc := 0x016, instr := .mark, spec := { ready := firstEmission }, lit := 2, held := true },
    { opc := 0x016, instr := .markMarkerEmission, spec := { ready := markerReady }, lit := 2,
      edit := fun s => s.modNode 0 0 0 (fun x => { x with emitted := 1 }), held := true },
    { opc := 0x014, instr := .spawn, spec := { badWidth := fun f => decide (f.ta.wid < 2) }, fmt := 1, lit := 2, lit32 := 1, ops := fun _ => [0x1000, 0],
      ok := fun f _ => decide (2 ≤ f.ta.wid) }]

theorem witness_CountingNodesAct : countingCases.all Case.fires = true := by decide +kernel

def coloursCases : List Case := [
    { opc := 0x009, instr := .wave, spec := waveSpec true, edit := fun s => s.modColour 0 0 (fun c => { c with km1 := 1 }) },
    { opc := 0x00A, instr := .wexit, spec := waveSpec false },
    { opc := 0x00B, instr := .calloc, spec := { ready := colourFree, badWidth := fun f => decide (32 < callocWidth f) }, lit := 2,
      edit := fun s => s.modRegion 0 (fun r => { r with carve := 4096 }),
      ok := fun f s => (match (s.region f.g).allocate (s.ovsz f.g) (f.want s f.ta.wid 0 0 0) false with
      | .granted _ _ => true
      | _ => false) },
    { opc := 0x00C, instr := .cfree, sent := 0, ok := fun f s => (s.unfinished f.g f.col).isNone && !s.surplus f.g f.col },
    { opc := 0x00D, instr := .cbind, ary := 3, lit := 1,
      edit := fun s => s.modRegion 0 (fun r => { r with cols := r.cols ++ [(1, { st := .live, wid := 32, origin := some 0 })] }),
      ok := fun f s => (s.colour f.g 1).st == .live && f.col != 1 },
    { opc := 0x00E, instr := .cret, spec := { ready := unreservedFree },
      edit := fun s => s.modColour 0 0 (fun c => { c with group := none }), sent := 0,
      ok := fun f s => (s.colour f.g f.col).group.isNone },
    { opc := 0x011, instr := .inject, ok := fun f s => (s.colour f.g f.col).st == .live }]

theorem witness_ColourNodesAct : coloursCases.all Case.fires = true := by decide +kernel

def arithmeticCases : List Case := [
    { opc := 0x040, instr := .add, ary := 2 },
    { opc := 0x041, instr := .sub, ary := 2 },
    { opc := 0x042, instr := .mul, ary := 2 },
    { opc := 0x043, instr := .mulh, ary := 2 },
    { opc := 0x044, instr := .mulhu, ary := 2 },
    { opc := 0x04C, instr := .min, ary := 2 },
    { opc := 0x04D, instr := .max, ary := 2 },
    { opc := 0x04E, instr := .minu, ary := 2 },
    { opc := 0x04F, instr := .maxu, ary := 2 },
    { opc := 0x05E, instr := .adds, ary := 2 },
    { opc := 0x05F, instr := .subs, ary := 2 },
    { opc := 0x045, instr := .mad, ary := 3 },
    { opc := 0x04A, instr := .neg },
    { opc := 0x04B, instr := .abs }]

theorem witness_IntegerArithmeticEmits : arithmeticCases.all Case.fires = true := by decide +kernel

def divisionCases : List Case := [
    { opc := 0x046, instr := .div, ary := 2 },
    { opc := 0x047, instr := .divu, ary := 2 },
    { opc := 0x048, instr := .rem, ary := 2 },
    { opc := 0x049, instr := .remu, ary := 2 }]

theorem witness_DivisionEmits : divisionCases.all Case.fires = true := by decide +kernel

def logicCases : List Case := [
    { opc := 0x050, instr := .and, ary := 2 },
    { opc := 0x051, instr := .or, ary := 2 },
    { opc := 0x052, instr := .xor, ary := 2 },
    { opc := 0x054, instr := .andn, ary := 2 },
    { opc := 0x055, instr := .shl, ary := 2 },
    { opc := 0x056, instr := .shr, ary := 2 },
    { opc := 0x057, instr := .sra, ary := 2 },
    { opc := 0x058, instr := .rol, ary := 2 },
    { opc := 0x053, instr := .not },
    { opc := 0x059, instr := .clz },
    { opc := 0x05A, instr := .popc },
    { opc := 0x05B, instr := .brev },
    { opc := 0x05C, instr := .bfx, lit := 2, lit32 := 256 },
    { opc := 0x05D, instr := .bfi, ary := 2, lit := 2, lit32 := 256 }]

/-- A bitwise operation whose operand's residue does not agree with its lanes purges its activation (R33, R103). -/
def disagreeing (o : Nat) (i : Rec → Instr) : Bool :=
  let c : Case :=
    { opc := o, instr := i, ary := 2, sent := 0, ok := fun f _ => residue f.ta.lanes != f.ta.res
      edit := fun s => s.modSlot 0 0 (fun v => { v with frames := v.frames.map (fun f => f.setPort 0 (some { token 0 0 [1] with res := 5 })) }) }
  c.fires && c.after.any (fun t => (t.colour 0 0).st == .purging)
theorem witness_bitwise_residue :
    (disagreeing 0x050 .and && disagreeing 0x051 .or && disagreeing 0x052 .xor && disagreeing 0x054 .andn) = true := by decide +kernel

theorem witness_LogicAndShiftsEmit : logicCases.all Case.fires = true := by decide +kernel

def indexCases : List Case := [
    { opc := 0x068, instr := .idx, lit := 2, lit32 := 4 },
    { opc := 0x069, instr := .idx2, ary := 2, lit := 2, lit32 := 262145 },
    { opc := 0x06A, instr := .wrap, lit := 2, lit32 := 131080 }]

theorem witness_LinearIndexAndWrapEmit : indexCases.all Case.fires = true := by decide +kernel

def rangesCases : List Case := [
    { opc := 0x06B, instr := .range, spec := { ready := firstEmission }, lit := 2, lit32 := 65538, held := true },
    { opc := 0x06B, instr := .rangeEmission, spec := { ready := laterEmission }, lit := 2, lit32 := 65538,
      edit := fun s => s.modNode 0 0 0 (fun x => { x with emitted := 1 }), held := true }]

theorem witness_RangeEmits : rangesCases.all Case.fires = true := by decide +kernel

def lanesCases : List Case := [
    { opc := 0x06C, instr := .shuf, ary := 2 },
    { opc := 0x06D, instr := .lanex, lit := 2 },
    { opc := 0x06E, instr := .lanei, spec := { anyWidth := true }, ary := 2, lit := 2 },
    { opc := 0x06F, instr := .bcast, lit := 2, lit32 := 4 },
    { opc := 0x070, instr := .rsum },
    { opc := 0x071, instr := .rmin },
    { opc := 0x072, instr := .rmax }]

theorem witness_LaneMovesAndReductionsEmit : lanesCases.all Case.fires = true := by decide +kernel

def floatArithmeticCases : List Case := [
    { opc := 0x0C0, instr := .fadd, ary := 2, fmt := 2, ops := fun _ => [0x3F800000] },
    { opc := 0x0C1, instr := .fsub, ary := 2, fmt := 2, ops := fun _ => [0x3F800000] },
    { opc := 0x0C2, instr := .fmul, ary := 2, fmt := 2, ops := fun _ => [0x3F800000] },
    { opc := 0x0CE, instr := .fdiv, ary := 2, fmt := 2, ops := fun _ => [0x3F800000] },
    { opc := 0x0C3, instr := .fma, ary := 3, fmt := 2, ops := fun _ => [0x3F800000] },
    { opc := 0x0C4, instr := .fnma, ary := 3, fmt := 2, ops := fun _ => [0x3F800000] },
    { opc := 0x0CF, instr := .fsqrt, fmt := 2, ops := fun _ => [0x3F800000] },
    { opc := 0x0E8, instr := .scl, ary := 2, fmt := 2, ops := fun _ => [0x3F800000] },
    { opc := 0x0E9, instr := .uscl, ary := 2, fmt := 2, ops := fun _ => [0x3F800000] }]

theorem witness_FloatArithmeticEmits : floatArithmeticCases.all Case.fires = true := by decide +kernel

def floatChoicesCases : List Case := [
    { opc := 0x0C5, instr := .fmin, ary := 2, fmt := 2, ops := fun _ => [0x3F800000] },
    { opc := 0x0C6, instr := .fmax, ary := 2, fmt := 2, ops := fun _ => [0x3F800000] },
    { opc := 0x0C9, instr := .fcmpeq, ary := 2, fmt := 2, ops := fun _ => [0x3F800000] },
    { opc := 0x0CA, instr := .fcmplt, ary := 2, fmt := 2, ops := fun _ => [0x3F800000] },
    { opc := 0x0CB, instr := .fcmple, ary := 2, fmt := 2, ops := fun _ => [0x3F800000] },
    { opc := 0x0CC, instr := .fcmpun, ary := 2, fmt := 2, ops := fun _ => [0x3F800000] },
    { opc := 0x0C7, instr := .fabs, fmt := 2, ops := fun _ => [0x3F800000] },
    { opc := 0x0C8, instr := .fneg, fmt := 2, ops := fun _ => [0x3F800000] },
    { opc := 0x0CD, instr := .fclass, fmt := 2, ops := fun _ => [0x3F800000] },
    { opc := 0x0F1, instr := .frmax, fmt := 2, ops := fun _ => [0x3F800000] },
    { opc := 0x0F2, instr := .frmin, fmt := 2, ops := fun _ => [0x3F800000] },
    { opc := 0x0F0, instr := .frsum, fmt := 2, ops := fun _ => [0x3F800000] }]

theorem witness_FloatChoicesEmit : floatChoicesCases.all Case.fires = true := by decide +kernel

def specialsCases : List Case := [
    { opc := 0x0D0, instr := .frcp, fmt := 2, ops := fun _ => [0] },
    { opc := 0x0D1, instr := .frsq, fmt := 2, ops := fun _ => [0] },
    { opc := 0x0D2, instr := .fexp2, fmt := 2, ops := fun _ => [0] },
    { opc := 0x0D3, instr := .flog2, fmt := 2, ops := fun _ => [0] },
    { opc := 0x0D4, instr := .fsin, fmt := 2, ops := fun _ => [0] },
    { opc := 0x0D5, instr := .fcos, fmt := 2, ops := fun _ => [0] },
    { opc := 0x0D6, instr := .ftanh, fmt := 2, ops := fun _ => [0] },
    { opc := 0x0D7, instr := .fsigm, fmt := 2, ops := fun _ => [0] },
    { opc := 0x0D8, instr := .fsilu, fmt := 2, ops := fun _ => [0] }]

theorem witness_SpecialFunctionsEmit : specialsCases.all Case.fires = true := by decide +kernel

/-- 1/3 is no number of FP32, and lies within its range. -/
theorem witness_specials_between :
    decodeFloat 2 0x40400000 = .fin false 0xC00000 (-22) ∧ (match specialFinite 0 false 0xC00000 (-22) with
    | .num _ m e t => m != 0 && !aboveMax 2 m e t
    | _ => false) = true := by decide +kernel

def conversionsCases : List Case := [
    { opc := 0x0E0, instr := .cvtf, fmt := 2, lit := 2, lit32 := 3, ops := fun _ => [0x3F800000] },
    { opc := 0x0E1, instr := .cvtfi, fmt := 2, lit := 2, lit32 := 0, ops := fun _ => [0x3F800000] },
    { opc := 0x0E2, instr := .cvtif, fmt := 0, lit := 2, lit32 := 2 },
    { opc := 0x0E3, instr := .qntb, spec := { anyWidth := true }, ary := 2, fmt := 8, lit := 2, lit32 := 2,
      ops := fun p => if p = 0 then [0x42240000, 0x40500000, 0xBF000000, 0x42C80000] else [0x8580] },
    { opc := 0x0E4, instr := .dqntb, spec := { badWidth := dqntbBeyond }, fmt := 8, lit := 2, lit32 := 2, ops := fun _ => [0xB2483494] },
    { opc := 0x0E5, instr := .expsel, fmt := 2, lit := 2, lit32 := 8, ops := fun _ => [0x3F800000] },
    { opc := 0x0F4, instr := .rope, spec := { anyWidth := true }, ary := 2, fmt := 2, lit := 2,
      ops := fun p => if p = 0 then [0x3F800000, 0] else [0] },
    { opc := 0x0F3, instr := .smrg, spec := { badWidth := fun f => decide (f.wid < 2) }, ary := 2, fmt := 2,
      ops := fun _ => [0x3F800000, 0x3F800000] }]

theorem witness_ConversionsEmit : conversionsCases.all Case.fires = true := by decide +kernel

def tensorsCases : List Case := [
    { opc := 0x140, instr := .tdld, spec := { anyWidth := true, badWidth := fun f => f.ta.wid != 16 }, ary := 2, fmt := 1,
      ops := fun p => if p = 0 then laneList 16 tensorImage else [1],
      edit := fun s => s.modContext 0 (fun c => { c with tidCnt := 4, tidCntNow := 4, tidBase := 0x80000, tidBaseNow := 0x80000 }),
      ok := fun f s => decide (1 < (s.context 0).tidCntNow) && imageOk (imageOf f.ta) && f.ta.wid == 16 },
    { opc := 0x141, instr := .tdset, spec := { anyWidth := true, badWidth := fun f => decide (32 < fieldWidth f.code) && decide (f.ta.wid < 2) },
      ary := 2, fmt := 2,
      ops := fun p => if p = 0 then [8] else [1],
      edit := fun s => s.modContext 0 (fun c => { c with tidCnt := 4, tidCntNow := 4, tidBase := 0x80000, tidBaseNow := 0x80000 }),
      ok := fun f _ => fieldOk f.code (tdsetValue f) },
    { opc := 0x142, instr := .tddrop, spec := { anyWidth := true }, fmt := 1, lit := 2, lit32 := 1,
      edit := fun s => s.modContext 0 (fun c => { c with tidCnt := 4, tidCntNow := 4, tidBase := 0x80000, tidBaseNow := 0x80000 }) },
    { opc := 0x143, instr := .tdkeep, spec := { anyWidth := true }, fmt := 1, lit := 0,
      edit := fun s => s.modContext 0 (fun c => { c with tidCnt := 4, tidCntNow := 4, tidBase := 0x80000, tidBaseNow := 0x80000 }) },
    { opc := 0x144, instr := .tdreg, spec := { anyWidth := true, badWidth := fun f => decide (f.ta.wid < 2) }, ary := 2, fmt := 1,
      ops := fun p => if p = 0 then [0x1000, 0] else [1],
      edit := fun s => s.modContext 0 (fun c => { c with tidCnt := 4, tidCntNow := 4, tidBase := 0x80000, tidBaseNow := 0x80000 }),
      ok := fun f _ => decide (2 ≤ f.ta.wid ∧ wideValue f.ta true % 64 = 0) },
    { opc := 0x145, instr := .tdq, spec := { anyWidth := true }, fmt := 2, lit := 2, lit32 := 1,
      edit := fun s => s.modContext 0 (fun c => { c with tidCnt := 4, tidCntNow := 4, tidBase := 0x80000, tidBaseNow := 0x80000 }) },
    { opc := 0x15C, instr := .cdxset, spec := { anyWidth := true, badWidth := fun f => f.ta.wid != 16 }, ary := 2, fmt := 1,
      ops := fun p => if p = 0 then laneList 16 descriptorImage else [1],
      ok := fun f _ => f.ta.wid == 16 && cdxOk (imageOf f.ta) }]

theorem witness_TensorWritesStage : tensorsCases.all Case.fires = true := by decide +kernel

def accumulatorsCases : List Case := [
    { opc := 0x158, instr := .accz, spec := accSpec, fmt := 1, lit := 2, lit32 := 0 },
    { opc := 0x159, instr := .accld, spec := accSpec, fmt := 2, lit := 2 },
    { opc := 0x15D, instr := .accx, spec := accSpec, fmt := 2, lit := 2,
      edit := fun s => s.setAcc 0 0 { s.accFile 0 0 with acol := some (0, 0) },
      ok := fun f s => (s.accFile f.h 0).acol == some (f.k, f.col) },
    { opc := 0x157, instr := .accrd, spec := { accSpec with anyWidth := true }, fmt := 2, lit := 2, lit32 := 1024 }]

theorem witness_AccumulatorsAct : accumulatorsCases.all Case.fires = true := by decide +kernel

def trineCases : List Case := [
    { opc := 0x154, instr := .had,
      spec := { badWidth := fun f => unevenRuns f.nrec.fmt.toNat (16 * 2 ^ (f.nrec.lit32.toNat % 4)) f }, fmt := 2, lit := 2, lit32 :=
        0, ops := fun _ => List.replicate 16 0x3F800000,
      ok := fun f _ => (elemsOf f.nrec.fmt.toNat f.ta.lanes).length % 16 == 0 },
    { opc := 0x155, instr := .lutp, 
      spec := { ready := trineIdle, lut := true, usesStay := fun _ _ => true
                badWidth := fun f => unevenRuns f.nrec.fmt.toNat 4 f }, fmt := 2,
      lit := 2, ops := fun _ => [0, 0, 0, 0] },
    { opc := 0x156, instr := .lutm,
      spec := { ready := trineIdle, lut := true, usesAcc := true, usesStay := fun _ _ => true
                badWidth := fun f => unevenRuns 10 (4 * (bits f.nrec.lit32.toNat 14 10 + 1)) f }, fmt := 10, lit := 2,
      ops := fun _ => [0],
      edit := fun s => (s.setAcc 0 0 { s.accFile 0 0 with acol := some (0, 0) }).setStay 0 0 { s.stayFile 0 0 with fmt := 16 },
      ok := fun f s => (s.stayFile f.h 0).fmt == 16 && s.chained f },
    { opc := 0x15A, instr := .tstay, spec := { ready := trineIdle, usesStay := fun _ _ => true }, fmt := 2, lit := 2,
      ops := fun _ => [0x3F800000] },
    { opc := 0x15B, instr := .txpr, spec := { ready := blockReady }, fmt := 8, sent := 0 }]

theorem witness_TrineUnitsAct : trineCases.all Case.fires = true := by decide +kernel

def contractionsCases : List Case := [
    { opc := 0x150, instr := .tric, spec := trineSpec, ary := 2, fmt := 2, lit := 2, ops := fun _ => [0x3F800000],
      edit := fun s => (s.setStay 0 0 { s.stayFile 0 0 with fmt := 2 }).modRegion 0 (fun r => { r with cfg := { r.cfg with cdx := [(0, BitVec.ofNat 512 (descriptorImage))] } }),
      sent := 0, held := true,
      ok := fun f s => let c := startContraction f s
      beginOk f s && (!heldOf f s || (s.stayFile f.h 0).fmt == 2) && !cdxAcc (s.descriptor f.g f.nrec).toNat &&
      (stepFault c c.walk (c.taking c.walk (s.node f.h f.k f.n))).isNone },
    { opc := 0x151, instr := .mma, spec := trineSpec, ary := 2, fmt := 2, lit := 2, ops := fun _ => [0x3F800000],
      edit := fun s => (s.setStay 0 0 { s.stayFile 0 0 with fmt := 2 }).modRegion 0 (fun r => { r with cfg := { r.cfg with cdx := [(0, BitVec.ofNat 512 (descriptorImage))] } }),
      sent := 0, held := true,
      ok := fun f s => let c := startContraction f s
      beginOk f s && (!heldOf f s || (s.stayFile f.h 0).fmt == 2) && !cdxAcc (s.descriptor f.g f.nrec).toNat &&
      (stepFault c c.walk (c.taking c.walk (s.node f.h f.k f.n))).isNone },
    { opc := 0x152, instr := .tris, spec := trineSpec, ary := 3, fmt := 2, lit := 2, ops := fun _ => [0x3F800000],
      edit := fun s => (s.setStay 0 0 { s.stayFile 0 0 with fmt := 2 }).modRegion 0 (fun r => { r with cfg := { r.cfg with cdx := [(0, BitVec.ofNat 512 (sparseImage))] } }),
      sent := 0, held := true,
      ok := fun f s => let c := startContraction f s
      beginOk f s && (!heldOf f s || (s.stayFile f.h 0).fmt == 2) && !cdxAcc (s.descriptor f.g f.nrec).toNat &&
      (stepFault c c.walk (c.taking c.walk (s.node f.h f.k f.n))).isNone },
    { opc := 0x153, instr := .mmas, spec := trineSpec, ary := 3, fmt := 2, lit := 2, ops := fun _ => [0x3F800000],
      edit := fun s => (s.setStay 0 0 { s.stayFile 0 0 with fmt := 2 }).modRegion 0 (fun r => { r with cfg := { r.cfg with cdx := [(0, BitVec.ofNat 512 (sparseImage))] } }),
      sent := 0, held := true,
      ok := fun f s => let c := startContraction f s
      beginOk f s && (!heldOf f s || (s.stayFile f.h 0).fmt == 2) && !cdxAcc (s.descriptor f.g f.nrec).toNat &&
      (stepFault c c.walk (c.taking c.walk (s.node f.h f.k f.n))).isNone }]

theorem witness_ContractionsBegin : contractionsCases.all Case.fires = true := by decide +kernel

def requestsCases : List Case := [
    { opc := 0x1C1, instr := .ld, spec := specLd.fires true, lit := 2, lit32 := 0xFC000000,
      ops := fun p => if p = 0 then [0] else [1], edit := fun s => bound s ownBank, sent := 0, held := true,
      ok := fun f s => agbV (s.binding f.g f.nrec) && (match s.reach f.g f.h (s.binding f.g f.nrec) { o := (f.ta.lanes.headD 0).toNat, n := 4, write := false, align := 4, local' := false, base := agbBase (s.binding f.g f.nrec) } with
      | .ok _ => true
      | .error _ => false) },
    { opc := 0x1C8, instr := .ldn, spec := specLdn.fires true, lit := 2, lit32 := 0xFC000000,
      ops := fun p => if p = 0 then [0] else [1], edit := fun s => bound s ownBank, sent := 0, held := true,
      ok := fun f s => agbV (s.binding f.g f.nrec) && (match s.reach f.g f.h (s.binding f.g f.nrec) { o := (f.ta.lanes.headD 0).toNat, n := 4, write := false, align := 4, local' := false, base := agbBase (s.binding f.g f.nrec) } with
      | .ok _ => true
      | .error _ => false) },
    { opc := 0x1C4, instr := .lds, spec := specLds.fires true, lit := 2, lit32 := 0xFC000000,
      ops := fun p => if p = 0 then [0] else [1], edit := fun s => bound s ownBank, sent := 0, held := true,
      ok := fun f s => agbV (s.binding f.g f.nrec) && (match s.reach f.g f.h (s.binding f.g f.nrec) { o := (f.ta.lanes.headD 0).toNat, n := 4, write := false, align := 4, local' := true, base := agbBase (s.binding f.g f.nrec) } with
      | .ok _ => true
      | .error _ => false) },
    { opc := 0x1C3, instr := .ldx, spec := specLdx.fires false, lit := 2, lit32 := 0xFC000000,
      ops := fun p => if p = 0 then [0] else [1], edit := fun s => bound s ownBank, sent := 0, held := true,
      ok := fun f s => agbV (s.binding f.g f.nrec) && (match s.reachAll f.g f.h (s.binding f.g f.nrec) (laneAsks f 4 false 4 (agbBase (s.binding f.g f.nrec))) with
      | .ok _ => true
      | .error _ => false) },
    { opc := 0x1C6, instr := .ldt, spec := specLdt.fires true, fmt := 2, lit := 2, lit32 := 0xFC000000,
      ops := fun p => if p = 0 then [0] else [1], edit := fun s => tensored (bound s (ownBank + 2 ^ 486)), sent := 0,
      held := true,
      ok := fun f s => (match passEntry f true s with
      | (t, .ok e) => (match tensorReach f t e 4 false with
        | .ok _ => true
        | .error _ => false)
      | _ => false) },
    { opc := 0x1C9, instr := .pref, spec := specPref.fires true, lit := 2, lit32 := 0xFC000010,
      ops := fun p => if p = 0 then [0] else [1], edit := fun s => bound s ownBank, sent := 1, held := true,
      ok := fun f _ => bit f.lit 4 },
    { opc := 0x1E0, instr := .fence, spec := specFence.fires true, lit := 2, lit32 := 0xFC000000,
      ops := fun p => if p = 0 then [0] else [1], edit := fun s => bound s ownBank, sent := 0, held := true,
      ok := fun _ _ => true },
    { opc := 0x1C2, instr := .st, spec := specSt.fires true, ary := 2, lit := 2, lit32 := 0xFC000000,
      ops := fun p => if p = 0 then [0] else [1], edit := fun s => bound s ownBank, sent := 1, held := true,
      ok := fun f s => agbV (s.binding f.g f.nrec) && (match s.reach f.g f.h (s.binding f.g f.nrec) { o := (f.ta.lanes.headD 0).toNat, n := 4, write := true, align := 4, local' := false, base := agbBase (s.binding f.g f.nrec) } with
      | .ok _ => true
      | .error _ => false) },
    { opc := 0x1C5, instr := .sts, spec := specSts.fires true, ary := 2, lit := 2, lit32 := 0xFC000000,
      ops := fun p => if p = 0 then [0] else [1], edit := fun s => bound s ownBank, sent := 1, held := true,
      ok := fun f s => agbV (s.binding f.g f.nrec) && (match s.reach f.g f.h (s.binding f.g f.nrec) { o := (f.ta.lanes.headD 0).toNat, n := 4, write := true, align := 4, local' := true, base := agbBase (s.binding f.g f.nrec) } with
      | .ok _ => true
      | .error _ => false) },
    { opc := 0x1E1, instr := .mcast, spec := specMcast.fires true, ary := 2, lit := 2, lit32 := 0xFC000000,
      ops := fun p => if p = 0 then [0] else [1], edit := fun s => bound s ownBank, sent := 1, held := true,
      ok := fun f s => agbV (s.binding f.g f.nrec) && (match s.reach f.g f.h (s.binding f.g f.nrec) { o := (f.ta.lanes.headD 0).toNat, n := 4, write := true, align := 4, local' := false, base := agbBase (s.binding f.g f.nrec) } with
      | .ok _ => true
      | .error _ => false) },
    { opc := 0x1C7, instr := .stt, spec := specStt.fires true, ary := 2, fmt := 2, lit := 2, lit32 := 0xFC000000,
      ops := fun p => if p = 0 then [0] else [1], edit := fun s => tensored (bound s (ownBank + 2 ^ 486)), sent := 1,
      held := true,
      ok := fun f s => (match passEntry f false s with
      | (t, .ok e) => (match tensorReach f t e 4 true with
        | .ok _ => true
        | .error _ => false)
      | _ => false) },
    { opc := 0x1D0, instr := .aadd, spec := specAtomic.fires false, ary := 2, lit := 2, lit32 := 0xFC000000,
      ops := fun p => if p = 0 then [0] else [1], edit := fun s => bound s ownBank, sent := 0, held := true,
      ok := fun f s => agbV (s.binding f.g f.nrec) && (match s.reachAll f.g f.h (s.binding f.g f.nrec) (laneAsks f 4 true 4 (agbBase (s.binding f.g f.nrec))) with
      | .ok _ => true
      | .error _ => false) },
    { opc := 0x1D2, instr := .amin, spec := specAtomic.fires false, ary := 2, lit := 2, lit32 := 0xFC000000,
      ops := fun p => if p = 0 then [0] else [1], edit := fun s => bound s ownBank, sent := 0, held := true,
      ok := fun f s => agbV (s.binding f.g f.nrec) && (match s.reachAll f.g f.h (s.binding f.g f.nrec) (laneAsks f 4 true 4 (agbBase (s.binding f.g f.nrec))) with
      | .ok _ => true
      | .error _ => false) },
    { opc := 0x1D3, instr := .amax, spec := specAtomic.fires false, ary := 2, lit := 2, lit32 := 0xFC000000,
      ops := fun p => if p = 0 then [0] else [1], edit := fun s => bound s ownBank, sent := 0, held := true,
      ok := fun f s => agbV (s.binding f.g f.nrec) && (match s.reachAll f.g f.h (s.binding f.g f.nrec) (laneAsks f 4 true 4 (agbBase (s.binding f.g f.nrec))) with
      | .ok _ => true
      | .error _ => false) },
    { opc := 0x1D4, instr := .aand, spec := specAtomic.fires false, ary := 2, lit := 2, lit32 := 0xFC000000,
      ops := fun p => if p = 0 then [0] else [1], edit := fun s => bound s ownBank, sent := 0, held := true,
      ok := fun f s => agbV (s.binding f.g f.nrec) && (match s.reachAll f.g f.h (s.binding f.g f.nrec) (laneAsks f 4 true 4 (agbBase (s.binding f.g f.nrec))) with
      | .ok _ => true
      | .error _ => false) },
    { opc := 0x1D5, instr := .aor, spec := specAtomic.fires false, ary := 2, lit := 2, lit32 := 0xFC000000,
      ops := fun p => if p = 0 then [0] else [1], edit := fun s => bound s ownBank, sent := 0, held := true,
      ok := fun f s => agbV (s.binding f.g f.nrec) && (match s.reachAll f.g f.h (s.binding f.g f.nrec) (laneAsks f 4 true 4 (agbBase (s.binding f.g f.nrec))) with
      | .ok _ => true
      | .error _ => false) },
    { opc := 0x1D6, instr := .axor, spec := specAtomic.fires false, ary := 2, lit := 2, lit32 := 0xFC000000,
      ops := fun p => if p = 0 then [0] else [1], edit := fun s => bound s ownBank, sent := 0, held := true,
      ok := fun f s => agbV (s.binding f.g f.nrec) && (match s.reachAll f.g f.h (s.binding f.g f.nrec) (laneAsks f 4 true 4 (agbBase (s.binding f.g f.nrec))) with
      | .ok _ => true
      | .error _ => false) },
    { opc := 0x1D7, instr := .axchg, spec := specAtomic.fires false, ary := 2, lit := 2, lit32 := 0xFC000000,
      ops := fun p => if p = 0 then [0] else [1], edit := fun s => bound s ownBank, sent := 0, held := true,
      ok := fun f s => agbV (s.binding f.g f.nrec) && (match s.reachAll f.g f.h (s.binding f.g f.nrec) (laneAsks f 4 true 4 (agbBase (s.binding f.g f.nrec))) with
      | .ok _ => true
      | .error _ => false) },
    { opc := 0x1D9, instr := .ainc, spec := specAtomic.fires false, ary := 2, lit := 2, lit32 := 0xFC000000,
      ops := fun p => if p = 0 then [0] else [1], edit := fun s => bound s ownBank, sent := 0, held := true,
      ok := fun f s => agbV (s.binding f.g f.nrec) && (match s.reachAll f.g f.h (s.binding f.g f.nrec) (laneAsks f 4 true 4 (agbBase (s.binding f.g f.nrec))) with
      | .ok _ => true
      | .error _ => false) },
    { opc := 0x1D1, instr := .afadd, spec := specAtomic.fires false, ary := 2, fmt := 2, lit := 2, lit32 := 0xFC000000,
      ops := fun p => if p = 0 then [0] else [1], edit := fun s => bound s ownBank, sent := 0, held := true,
      ok := fun f s => agbV (s.binding f.g f.nrec) && (match s.reachAll f.g f.h (s.binding f.g f.nrec) (laneAsks f 4 true 4 (agbBase (s.binding f.g f.nrec))) with
      | .ok _ => true
      | .error _ => false) },
    { opc := 0x1D8, instr := .acas, spec := specAtomic.fires false, ary := 3, lit := 2, lit32 := 0xFC000000,
      ops := fun p => if p = 0 then [0] else [1], edit := fun s => bound s ownBank, sent := 0, held := true,
      ok := fun f s => agbV (s.binding f.g f.nrec) && (match s.reachAll f.g f.h (s.binding f.g f.nrec) (laneAsks f 4 true 4 (agbBase (s.binding f.g f.nrec))) with
      | .ok _ => true
      | .error _ => false) },
    { opc := 0x1DA, instr := .optst, spec := specOptst.fires true, ary := 3, fmt := 2, lit := 2, lit32 := 0xFC000000,
      ops := fun p => if p = 0 then [0] else if p = 1 then List.replicate 16 1 else [0, 0],
      edit := fun s => bound s ownBank, sent := 1, held := true,
      ok := fun f s => agbV (s.binding f.g f.nrec) && (match s.reach f.g f.h (s.binding f.g f.nrec) { o := (f.ta.lanes.headD 0).toNat, n := 64, write := true, align := 64, local' := false, base := agbBase (s.binding f.g f.nrec) } with
      | .ok _ => true
      | .error _ => false) },
    { opc := 0x1DB, instr := .retw, spec := specRetw.fires false, ary := 2, fmt := 7, lit := 2, lit32 := 0xFC000000,
      ops := fun p => if p = 0 then [0] else [1], edit := fun s => bound s ownBank, sent := 1, held := true,
      ok := fun f s => agbV (s.binding f.g f.nrec) && (match s.reachAll f.g f.h (s.binding f.g f.nrec) (laneAsks f 1 true 1 (agbBase (s.binding f.g f.nrec))) with
      | .ok _ => true
      | .error _ => false) }]

theorem witness_LoadsAskAndStoresAsk : requestsCases.all Case.fires = true := by decide +kernel

def offsetsCases : List Case := [
    { opc := 0x1C0, instr := .agen, spec := agenSpec firstEmission, fmt := 0, lit := 2,
      edit := fun s => bound s (ownBank + 2 ^ 255), held := true },
    { opc := 0x1C0, instr := .agenEmission, spec := agenSpec laterEmission, fmt := 0, lit := 2,
      edit := fun s => (bound s (ownBank + 2 ^ 255)).modNode 0 0 0 (fun x => { x with emitted := 1 }), held := true },
    { opc := 0x1C0, instr := .agen, spec := agenSpec firstEmission, fmt := 4, lit := 2,
      edit := fun s => bound s (ownBank + 2 ^ 255), held := true,
      ok := fun f s => f.code == 4 && (s.node f.h f.k f.n).emitted == 0 && agbV (s.binding f.g f.nrec) &&
        (linkOffset f (s.binding f.g f.nrec)).isSome }]

theorem witness_AgenEmitsOffsets : offsetsCases.all Case.fires = true := by decide +kernel

def queuesCases : List Case := [
    { opc := 0x1E2, instr := .wptr, fmt := 1, lit := 2 },
    { opc := 0x1E3, instr := .wpwait, spec := { ready := pointerReached, anyWidth := true }, lit := 2, ops := fun _ => [0] },
    { opc := 0x241, instr := .tail, spec := { breach := queueBreach }, lit := 2, lit32 := 65536 },
    { opc := 0x242, instr := .seqrd, fmt := 1, lit := 2 },
    { opc := 0x243, instr := .seqwait, spec := { ready := seqReached }, lit := 2, ops := fun _ => [0, 0],
      edit := fun s => s.modQueue 0 (fun q => { q with done := 1 }) },
    { opc := 0x240, instr := .enq,
      spec := enqSpec, ary := 2,
      fmt := 1, lit := 2, ops := fun p => if p = 0 then List.replicate 16 0 else [0x1000, 0], edit := paged, sent := 1,
      held := true,
      ok := fun f s => f.ta.wid == 16 && decide (2 ≤ f.tb.wid) &&
        (match s.virtParts (sectorUnit f.h) (s.region f.g).ctx (laneAddress f.tb) 64 true with
      | .ok _ => true
      | .error _ => false) }]

theorem witness_PointersAndQueuesAct : queuesCases.all Case.fires = true := by decide +kernel

def wrsrSpec : FireSpec :=
  { breach := fun f s => regPrivileged (f.lit % 256) && f.plain s, badWidth := fun f => decide (0x40 ≤ f.lit % 256) && f.ta.wid != 2 }
def snapSpec : FireSpec := { ready := snapFree, breach := Fire.plain, badWidth := fun f => bit f.lit 0 && decide (f.ta.wid < 2) }

def contextsCases : List Case := [
    { opc := 0x288, instr := .rdsr, fmt := 1, lit := 2, lit32 := 19 },
    { opc := 0x289, instr := .wrsr, spec := wrsrSpec, fmt := 1,
      lit := 2, lit32 := 3, ok := fun f _ => decide (f.lit % 256 < 0x40) },
    { opc := 0x285, instr := .prio, spec := { breach := fun f s => bit f.lit 7 && f.plain s }, lit := 2 },
    { opc := 0x286, instr := .yield, lit := 2, lit32 := 5 },
    { opc := 0x28A, instr := .halt, spec := { breach := Fire.plain }, lit := 2, lit32 := 8,
      edit := fun s => s.modContext 0 (fun c => { c with priv := true }), sent := 0 }]

theorem witness_ContextNodesAct : contextsCases.all Case.fires = true := by decide +kernel

def markersCases : List Case := [
    { opc := 0x284, instr := .drain, spec := { ready := fun f s => (s.region f.g).drain.isNone }, fmt := 1, sent := 0 },
    { opc := 0x287, instr := .snap, spec := snapSpec, fmt := 1, lit := 2,
      edit := fun s => s.modContext 0 (fun c => { c with priv := true }), held := true },
    { opc := 0x287, instr := .snap, spec := snapSpec, fmt := 1, lit := 2, lit32 := 1,
      ops := fun _ => [0x10000, 0], edit := fun s => (paged s).modContext 0 (fun c => { c with priv := true }), sent := 0,
      held := true,
      ok := fun f s => decide (2 ≤ f.ta.wid) && (match snapReach f s with
      | .ok _ => true
      | .error _ => false) },
    { opc := 0x28B, instr := .wdog, lit := 2, lit32 := 100 }]

theorem witness_MarkerNodesAct : markersCases.all Case.fires = true := by decide +kernel

def regionsCases : List Case := [
    { opc := 0x281, instr := .callg, spec := { ready := callReady }, lit := 2, lit32 := 0x01000080, edit := called,
      sent := 0,
      ok := fun f s => decide ((s.region f.g).depth < s.depthLimit f.g) && (match s.directory f.g 1 with
      | .ok _ => true
      | .error _ => false) },
    { opc := 0x282, instr := .retg,
      edit := fun s => s.modRegion 0 (fun r => { r with depth := 1, calls := [{ aCall with col := 0 }] }), sent := 0,
      ok := fun f s => (s.region f.g).depth != 0 && (s.region f.g).isBase f.col && (s.unfinished f.g f.col).isNone &&
        !s.surplus f.g f.col },
    { opc := 0x280, instr := .cfgld,
      spec := { anyWidth := true, ready := fun f s => !s.readWaits s.agent (f.context s) (laneAddress f.ta) 64 }, ary := 2, fmt := 1,
      ops := fun p => if p = 0 then [0x2000, 0] else [siteLane], edit := imaged, sent := 0,
      ok := fun f s => (match (s.pipe f 1).loadHead (f.context (s.pipe f 1)) (laneAddress f.ta)
        { die := dieOf f.h, x := bits siteLane.toNat 13 7, y := bits siteLane.toNat 20 14, k := f.k, within := none, own := some f.g, mine := [] } with
      | .ok _ => true
      | .error _ => false) },
    { opc := 0x283, instr := .tailg, spec := { ready := tailReady }, lit := 2, lit32 := 0x01000000, edit := called,
      sent := 0,
      ok := fun f s => (s.region f.g).isBase f.col && (s.unfinished f.g f.col).isNone && !s.surplus f.g f.col &&
        (match s.directory f.g 1 with
      | .ok (va, _) => (match s.loadImage (s.region f.g).ctx va ((s.region f.g).site f.g) with
        | .ok i => i.hasEntry 0 0 0
        | .error _ => false)
      | .error _ => false) }]

theorem witness_RegionNodesAct : regionsCases.all Case.fires = true := by decide +kernel


/-! ### Values from the manual's examples and tables -/

/-- ADD.I8 of the lane 0x7FF0_1081 and the literal 0x6464_6464. -/
def addExample (sat : BitVec 1) : Case :=
  { opc := 0x040, instr := .add, ary := 2, fmt := 6, lit := 1, sat := sat, lit32 := 0x64646464, ops := fun _ => [0x7FF01081] }

/-- R98's example: every sum that passes +127 is clamped to it, and RES follows the payload. -/
theorem test_add_saturates : (addExample 1).sends = some ([0x7F5474E5], 22, 0, 0) := by decide +kernel

/-- Without SAT the same sum wraps. -/
theorem test_add_wraps : (addExample 0).sends = some ([0xE35474E5], 59, 0, 0) := by decide +kernel

def wrapOf (p : Word) : Case := { opc := 0x06A, instr := .wrap, lit := 2, lit32 := 0x00020008, ops := fun _ => [p] }

/-- R107's example: two sink slots and a window of eight; position 9 is the last of its generation, 11 a turn later. -/
theorem test_wrap_generations :
    (wrapOf 1).sends.map (fun x => x.1) = some [1] ∧ (wrapOf 9).sends.map (fun x => x.1) = some [0x00010009] ∧
    (wrapOf 11).sends.map (fun x => x.1) = some [0x00020003] := by decide +kernel

def divides (o : Nat) (i : Rec → Instr) (sat : BitVec 1) (a b : Word) : Option (List Nat) :=
  ({ opc := o, instr := i, ary := 2, sat := sat, ops := fun p => if p = 0 then [a] else [b] } : Case).sends.map (fun x => x.1)

/-- R101: a zero divisor, and the least value by −1. -/
theorem test_division_corners :
    divides 0x046 .div 0 7 0 = some [0xFFFFFFFF] ∧ divides 0x048 .rem 0 7 0 = some [7] ∧
    divides 0x046 .div 0 0x80000000 0xFFFFFFFF = some [0x80000000] ∧ divides 0x046 .div 1 0x80000000 0xFFFFFFFF = some [0x7FFFFFFF] ∧
    divides 0x048 .rem 0 0x80000000 0xFFFFFFFF = some [0] ∧ divides 0x046 .div 0 0xFFFFFFF9 2 = some [0xFFFFFFFD] ∧
    divides 0x048 .rem 0 0xFFFFFFF9 2 = some [0xFFFFFFFF] := by decide +kernel

/-- R119's example: 41.0, 3.25, −0.5 and 100.0 with the scale word 0x8580. -/
theorem test_qntb_example :
    ({ opc := 0x0E3, instr := .qntb, ary := 2, fmt := 8, lit := 2, lit32 := 2, spec := { anyWidth := true }
       ops := fun p => if p = 0 then [0x42240000, 0x40500000, 0xBF000000, 0x42C80000] else [0x8580] } : Case).sends =
      some ([0xB2483494], 48, flagNX, 0x8580) := by decide +kernel

def floats (o : Nat) (i : Rec → Instr) (a b : Word) : Option (List Nat × BitVec 5) :=
  ({ opc := o, instr := i, ary := 2, fmt := 2, ops := fun p => if p = 0 then [a] else [b] } : Case).sends.map
    (fun x => (x.1, x.2.2.1))

/-- R113: 1 + 2^−24 ties to even and is inexact, 1/0 is infinite, 0 × ∞ is the NaN with NV, and 2.5 − 1.5 is exact. -/
theorem test_floats :
    floats 0x0C0 .fadd 0x3F800000 0x33800000 = some ([0x3F800000], flagNX) ∧
    floats 0x0CE .fdiv 0x3F800000 0 = some ([0x7F800000], flagDZ) ∧
    floats 0x0C2 .fmul 0 0x7F800000 = some ([0x7FC00000], flagNV) ∧
    floats 0x0C1 .fsub 0x40200000 0x3FC00000 = some ([0x3F800000], 0) := by decide +kernel

/-- R104, R114: a comparison with a NaN is false and raises NV where it is ordered. -/
theorem test_fcmplt_nan : floats 0x0CA .fcmplt 0x7FC00000 0x3F800000 = some ([0], flagNV) := by decide +kernel

/-- R84: a TRAP whose qualifying lane is non-zero purges its activation. -/
theorem test_trap_purges :
    ({ opc := 0x015, instr := .trap, lit := 2, lit32 := 5 } : Case).after.map (fun t => (t.flights.length, (t.colour 0 0).st)) =
      some (0, .purging) := by decide +kernel

/-! ### Events: for each clause a state in which its conditions hold and its step answers another state -/

/-- At a place, with its conditions met, a step is answered by a next state. -/
def event (i : Instr) (l : Locus) (s : State) (ok : State → Bool) : Bool :=
  let u := { s with cur := l }
  ok u && (match exec i u with
    | .next _ => true
    | _ => false)

/-- A step's answer, to go on from. -/
def stepped (i : Instr) (l : Locus) (s : State) : State := match exec i { s with cur := l } with
  | .next t => t
  | _ => s

/-- A PASS at node 0 of region 0 with a token at its port. -/
def running : State := ({ opc := 0x001, instr := .pass } : Case).state

/-- A load of the hearth's bank waits to issue, has issued, and is withheld. -/
def asking : State :=
  (({ opc := 0x1C1, instr := .ld, lit := 2, lit32 := 0xFC000000, spec := specLd.fires true, edit := fun s => bound s ownBank
      ops := fun _ => [0] } : Case).after).getD .reset
def askedId : Nat := ((asking.slot 0 0).cfg.buffer.map (fun q => q.id)).headD 0
def unissued : State :=
  asking.modSlot 0 0 (fun x => { x with cfg := { x.cfg with buffer := x.cfg.buffer.map (fun q => { q with issued := false }) } })
def issued : State := stepped .requestIssue (.request 0 0 askedId) unissued
def late (s : State) : State := { s with cycle := s.cycle + 2097152 }
def toT3 (s : State) : State :=
  s.modSlot 0 0 (fun x => { x with cfg := { x.cfg with buffer := x.cfg.buffer.map (fun q => { q with t3 := true }) } })
/-- The residue of the reply agrees with its lanes as they arrive. -/
def sound (s : State) (q : Request) : Bool :=
  let t := (s.replyToken q).disturbed q.noise
  t.res == tokenResidue t.fmt t.lanes
def noisy (s : State) : State :=
  s.modSlot 0 0 (fun x => { x with cfg := { x.cfg with buffer := x.cfg.buffer.map (fun q => { q with noise := 1 }) } })
def withheld : State := stepped .requestTimeout (.request 0 0 askedId) (late issued)

def clausesRequestsGoOn : List Bool := [
    event .requestIssue (.request 0 0 askedId) unissued (fun s =>
      (s.slot 0 0).region == some 0 && (s.request 0 0 askedId).any (fun q => s.mayIssue 0 0 0 q)),
    event .loadReply (.request 0 0 askedId) (late issued) (fun s =>
      (s.slot 0 0).region == some 0 && (s.request 0 0 askedId).any (fun q => s.replyReady 0 0 q && sound s q)),
    event .loadReply (.request 0 0 askedId) (noisy (late issued)) (fun s =>
      (s.slot 0 0).region == some 0 && (s.request 0 0 askedId).any (fun q => s.replyReady 0 0 q && !sound s q)),
    event .requestTimeout (.request 0 0 askedId) (late issued) (fun s =>
      (s.request 0 0 askedId).any (fun q => !q.t3 && s.timedOut q)),
    event .linkFaultTimeout (.request 0 0 askedId) (toT3 (late issued)) (fun s =>
      (s.request 0 0 askedId).any (fun q => q.t3 && s.timedOut q)),
    event .faultMessageSend (.node 0 0 0) (late withheld) (fun s =>
      (s.slot 0 0).region == some 0 && (s.node 0 0 0).withheld.any (fun w => w.due s.cycle))]

theorem witness_RequestsGoOn : clausesRequestsGoOn.all id = true := by decide +kernel

def flight : Flight :=
  { tok := { token 0 0 [1] with node := 0 }, region := 0, h := 0, k := 0, expect := 0, arrive := 0, way := .local }
def flying (f : Flight) : State := { running with flights := [(9, f)], cycle := 5 }
def message : MeshMessage := { mctx := 0, token := some { token 0 0 [1] with node := 0 }, arrive := 0, len := 1, flits := 1 }
def sending (m : MeshMessage) : State := { running with messages := [(9, m)], cycle := 5 }
def holding (kind : HoldKind) (ready : Bool) : State :=
  { running.modNode 0 0 0 (fun x => { x with holds := [{ kind := kind, tok := token 0 0 [1], nrec := plainRec, due := 3, ready := ready, col := 0, pser := 0 }] }) with cycle := 5 }

/-- An ADD whose A has not gone into a frame slot. -/
def joining : State :=
  ({ opc := 0x040, instr := .add, ary := 2 } : Case).state.modSlot 0 0 (fun v =>
    { v with frames := [], cfg := { v.cfg with nodes := [(0, { qa := [token 0 0 [1]] })] } })

/-- A block whose transposed tokens leave. -/
def transposing : State := running.modSlot 0 0 (fun v => 
  { v with transpose := some (
      { node := 0, tag := (0, 0), scw := 0, elems := [], widths := [], flg := 0, tnt := false, sc := false, out := [token 0 0 [1]]
        nrec := plainRec, due := 0 } : Transpose) })
/-- A loop whose first wave has all its WAVE firings. -/
def looping : State := running.modColour 0 0 (fun c => { c with loop := true, vcnt := 1 })

def clausesTokensMoveOn : List Bool := [
    event .tokenArrival (.flight 9) (flying flight) (fun s => (Tab.find s.flights 9).any (fun f =>
      decide (f.arrive ≤ s.cycle) && (s.colour f.region f.tok.col).st == .live && !f.corrupt && f.tok.mark == .data &&
      (s.arrivalFault f.region f).isNone)),
    event .tokenArrival (.flight 9) (flying { flight with tok := { flight.tok with res := 5 } }) (fun s =>
      (Tab.find s.flights 9).any (fun f => decide (f.arrive ≤ s.cycle) && (s.colour f.region f.tok.col).st == .live && f.corrupt)),
    event .meshMessageReceive (.flight 9) (sending { message with flits := 2 }) (fun s =>
      (Tab.find s.messages 9).any (fun m => decide (m.arrive ≤ s.cycle) && m.bad)),
    event .meshMessageReceive (.flight 9) (sending message) (fun s => (Tab.find s.messages 9).any (fun m =>
      decide (m.arrive ≤ s.cycle) && !m.bad && m.token.isSome && s.homeOf (hearthAt m.ddie m.dx m.dy) m.mctx == some 0)),
    event .deferredTokenSend (.node 0 0 0) (holding .status true) (fun s =>
      (firstReady s.cycle (s.node 0 0 0).holds).any (fun x => s.firing 0 && s.roomAll (s.bothTargets 0 0 0 0 x.1.nrec))),
    event .delayExpiry (.node 0 0 0) (holding .delay false) (fun s =>
      (s.node 0 0 0).holds.any (fun e => e.kind == .delay && !e.ready && decide (e.due ≤ s.cycle))),
    event .meshMessageReceive (.flight 9) (sending { message with cls := 5, source := some 0 }) (fun s =>
      (Tab.find s.messages 9).any (fun m => decide (m.arrive ≤ s.cycle) && !m.bad && m.token.isSome && m.cls == 5 && m.source == some 0)),
    event .frameSlotEntry (.port 0 0 0 0) joining (fun s =>
      (s.slotEntry 0 0 0 0).any (fun x => x.2.res == tokenResidue x.2.fmt x.2.lanes)),
    event .frameSlotEntry (.port 0 0 0 0)
      (joining.modNode 0 0 0 (fun x => { x with qa := x.qa.map (fun t => { t with res := t.res + 1 }) })) (fun s =>
      (s.slot 0 0).region == some 0 && (s.slotEntry 0 0 0 0).any (fun x => x.2.res != tokenResidue x.2.fmt x.2.lanes)),
    event .txprOutput (.slot 0 0) transposing (fun s =>
      (s.slot 0 0).region == some 0 && (s.slot 0 0).transpose.any (fun t => !t.out.isEmpty) && s.blockDue 0 0),
    event .waveRetire (.colour 0 0) looping (fun s =>
      (s.colour 0 0).loop && decide ((s.colour 0 0).vm1 + 1 ≤ (s.colour 0 0).vcnt) && !(s.colour 0 0).back)]

theorem witness_TokensMoveOn : clausesTokensMoveOn.all id = true := by decide +kernel

/-- An MMA with one element of A and of B. -/
def productCase : Case :=
  { opc := 0x151, instr := .mma, ary := 2, fmt := 2, lit := 2, spec := trineSpec, ops := fun _ => [0x3F800000], held := true, sent := 0
    edit := fun s => s.modRegion 0 (fun r => { r with cfg := { r.cfg with cdx := [(0, BitVec.ofNat 512 descriptorImage)] } }) }
/-- Its contraction, ready for a step, and after its only step. -/
def stepping : State := match productCase.firing with
  | some (f, s) => s.modSlot 0 0 (fun v => { v with contraction := some (startContraction f s) })
  | none => .reset
def summed : State := { productCase.after.getD .reset with cycle := 8 }

def clausesSlotEventsAct : List Bool := [
    event .reweight (.slot 0 0) running (fun s => s.cycle % 1024 == 0),
    event .starving (.slot 0 0) (running.modSlot 0 0 (fun v => { v with starve := 65536 }))
      (fun s => decide (65536 ≤ (s.slot 0 0).starve) && (s.hearth 0).starving.isNone),
    event .yieldExpiry (.slot 0 0) { running.modSlot 0 0 (fun v => { v with yieldUntil := 5 }) with cycle := 5 }
      (fun s => decide ((s.slot 0 0).yieldUntil ≤ s.cycle)),
    event .contractionStep (.slot 0 0) stepping (fun s => (s.slot 0 0).region == some 0 && (s.slot 0 0).contraction.any (fun c =>
      s.stepDue 0 0 && (c.foreign c.walk (s.node 0 0 c.node)).isNone &&
      (stepFault c c.walk (c.taking c.walk (s.node 0 0 c.node))).isNone)),
    event .contractionEnd (.slot 0 0) summed (fun s => (s.slot 0 0).region == some 0 && (s.slot 0 0).contraction.any (fun c =>
      c.last.isSome && c.done && decide (c.lastStep + 8 ≤ s.cycle))),
    event .accumulatorSpill (.touch 0 1 false) (summed.setAcc 0 0 { summed.accFile 0 0 with place := .live }) (fun s =>
      ((s.hearth 0).spills.find? (fun e => e.2.1 == false)).isNone && !s.hasAcc 0 1),
    event .accumulatorSpill (.touch 0 1 true) { running.modHearth 0 (fun x => { x with spills := [(1, true, 3)] }) with cycle := 5 }
      (fun s => ((s.hearth 0).spills.find? (fun e => e.2.1 == true)).any (fun e => decide (e.2.2 ≤ s.cycle)))]

theorem witness_SlotEventsAct : clausesSlotEventsAct.all id = true := by decide +kernel

/-- An ended activation with one store of a word in its hearth's damper, compared by an ACAS where `op` is 8. -/
def stored (op want : Nat) : DamperEntry :=
  { id := 4, tnt := false, kind := if op = 8 then 1 else 0, slot := 0, region := 0, col := 0, pa := bankBase 0, mask := 0xF
    data := BitVec.ofNat 256 (op + 2 ^ 32 * want), born := 0, st := .held, resent := 0, sentAt := 0 }
def ended (e : DamperEntry) : State :=
  { (running.modColour 0 0 (fun c => { c with st := .ended, group := none })).modHearth 0 (fun x => { x with damper := [e] }) with
    cycle := 2097152 + 200 }
/-- An ended activation whose dampers drain for more than a cycle. -/
def manyStores : State :=
  let es := (List.range 3).map (fun i => { stored 0 0 with id := 4 + i, pa := bankBase 0 + 64 * i })
  (ended (stored 0 0)).modHearth 0 (fun x => { x with damper := es })
def oldest : State := (ended { stored 0 0 with st := .eligible }).modColour 0 0 (fun c => { c with oldest := [0] })
def roomy (s : State) : State := (s.modRegion 0 (fun r => { r with kernel := some 0 })).setKernel 0 { st := .running, ovsz := 46 }

def clausesCommitsGoOn : List Bool := [
    event .activationCommit (.colour 0 0) (ended (stored 0 0)) (fun s =>
      !(s.colour 0 0).committed && s.mayCommit 0 0 && !s.acasWaits 0 0 && !acasFails (entryGroups (s.entriesOf 0 0)) s &&
      ((s.modColour 0 0 (fun y => { y with preparing := true })).sendEntries 0 0).allSent 0 0),
    event .activationCommit (.colour 0 0) (manyStores) (fun s =>
      !(s.colour 0 0).committed && s.mayCommit 0 0 && !s.acasWaits 0 0 && !acasFails (entryGroups (s.entriesOf 0 0)) s &&
      !((s.modColour 0 0 (fun y => { y with preparing := true })).sendEntries 0 0).allSent 0 0),
    event .activationCommit (.colour 0 0) (ended (stored 8 1)) (fun s =>
      !(s.colour 0 0).committed && s.mayCommit 0 0 && !s.acasWaits 0 0 && acasFails (entryGroups (s.entriesOf 0 0)) s),
    event .activationCommit (.colour 0 0) ((ended (stored 0 0)).modColour 0 0 (fun c => { c with st := .live, preparing := true }))
      (fun s => !(s.colour 0 0).committed && !s.mayCommit 0 0 && (s.colour 0 0).preparing),
    event .activationCommit (.colour 0 0) ((ended (stored 0 0)).modColour 0 0 (fun c => { c with committed := true }))
      (fun s => (s.colour 0 0).committed),
    event .damperEntryEligible (.entry 0 4) (ended (stored 0 0)) (fun s =>
      (s.damperEntry 0 4).any (fun e => e.st == .held && decide (e.born + 128 ≤ s.cycle))),
    event .damperEntryEligible (.entry 0 4) (roomy oldest) (fun s => (s.damperEntry 0 4).any (fun e =>
      e.st == .eligible && (s.colour e.region e.col).oldest.contains 0 && s.logRoom e.region)),
    event .commitWriteRefused (.entry 0 4) (ended { stored 0 0 with st := .sent, order := 1, resent := 1 }) (fun s =>
      (s.damperEntry 0 4).any (fun e => e.order != 0 && decide (e.resent % 4 < 2))),
    event .commitWriteTimeout (.entry 0 4) (ended { stored 0 0 with st := .sent, order := 1, resent := 3 }) (fun s =>
      (s.damperEntry 0 4).any (fun e => e.order != 0 && decide (e.sentAt + Config.requestTimeout ≤ s.cycle) && e.resent / 4 == 0)),
    event .commitWriteTimeout (.entry 0 4) (ended { stored 0 0 with st := .sent, order := 1, resent := 4 }) (fun s =>
      (s.damperEntry 0 4).any (fun e => e.order != 0 && decide (e.sentAt + Config.requestTimeout ≤ s.cycle) && decide (4 ≤ e.resent)))]

theorem witness_CommitsGoOn : clausesCommitsGoOn.all id = true := by decide +kernel

def reissueEntry : Reissue :=
  { id := 1, entry := { st := .purging, wid := 1, group := some 0, origin := some 0, copy := some (token 0 0 [1]), copyRec := some plainRec } }
def purged : State := running.modColour 0 0 (fun c => { c with st := .purging })
def noticed (untracked : Bool) (corrects : Bool) : State :=
  { running.modRegion 0 (fun r => { r with notices := [{ source := 3, col := 2, arrive := 4, corrects := corrects }]
                                           untracked := if untracked then some [] else none }) with cycle := 5 }
def dueNotice (s : State) : Bool := match (s.region 0).notices with
  | [n] => n.source == 3 && n.col == 2 && decide (n.arrive ≤ s.cycle)
  | _ => false

def clausesRecoveryGoesOn : List Bool := [
    event .reissue (.region 0) (running.modRegion 0 (fun r => { r with carve := 4096, reissues := [reissueEntry] })) (fun s =>
      (s.tryReissue 0 reissueEntry).isSome),
    event .purgeComplete (.colour 0 0) purged (fun s =>
      (s.colour 0 0).st == .purging && !s.sentBefore 0 (s.colour 0 0).purgedAt),
    event .strikeReport (.strike 0 5) { running with cycle := 133 } (fun s =>
      (s.strikes.find? (fun x => x.h == 0 && x.s == 5)).isNone && decide (5 ≤ s.cycle) && decide (s.cycle ≤ 5 + 128)),
    event .purgeNotice (.notice 0 3 2) (noticed false false) dueNotice,
    event .purgeNotice (.notice 0 3 2) (noticed false true) dueNotice,
    event .purgeNotice (.notice 0 3 2) (noticed true false) dueNotice] ++
  ([.token 0 0 0, .damper 0 4, .accumulator 0 0, .plane 0 0, .colour 0 0, .nodeStore 0 0 0, .switchTable 0 0] : List ErrorSite).map
    (fun w => event (.uncorrectableError w) .module running (fun _ => true))

theorem witness_RecoveryGoesOn : clausesRecoveryGoesOn.all id = true := by decide +kernel

/-- PASS nodes 0 and 1, the first sending to the second. -/
def paired : State := running.modSlot 0 0 (fun v => { v with cfg := { v.cfg with store := v.cfg.store ++ [(1, encodeRecord 1 plainRec)] } })
def marker (m : Mark) : Token := markerToken 0 0 0 5 m
def marked (m : Mark) (taken : Bool) : State :=
  paired.modNode 0 0 1 (fun x => { x with qa := if taken then [] else [marker m], marked := if taken then [0] else [] })
def owing : State := paired.modNode 0 0 0 (fun x => { x with owed := [marker .barrier] })
def starved : State := running.modRegion 0 (fun r => { r with wdogLim := 10, wdogCnt := 10 })
def snapping : State := { running.modRegion 0 (fun r => { r with snapshot := some (
  { h := 0, n := 0, nrec := plainRec, id := 5, tok := token 0 0 [1], area := 0, started := 0, aligned := [], written := [], count := []
    full := [], dropped := true } : Snapshot) }) with cycle := 1048576 }
def draining : State := running.modRegion 0 (fun r => { r with drain := some (
  { h := 0, n := 0, nrec := plainRec, id := 5, tok := token 0 0 [1], absorbed := [], lost := true, reissued := false } : Drain) })
def halting : State := (running.modRegion 0 (fun r => { r with st := .resident })).modContext 0 (fun c => { c with halting := true })

def clausesMarkersAndHaltsGoOn : List Bool := [
    event .quiesce (.region 0) starved (fun s => (s.region 0).st == .running && (s.region 0).wdogLim != 0 &&
      decide ((s.region 0).wdogLim ≤ (s.region 0).wdogCnt) && !(s.region 0).wdogHit),
    event .barrierAlign (.node 0 0 1) (marked .barrier false) (fun s => (s.slot 0 0).region == some 0 && s.barrierDue 0 0 0 1),
    event .snapshotFirstMarker (.port 0 0 1 0) (marked .snapshot false) (fun s =>
      (s.slot 0 0).region == some 0 && ((s.node 0 0 1).waiting 0).any (fun t => t.mark == .snapshot)),
    event .snapshotAlign (.node 0 0 1) ((marked .snapshot false).modNode 0 0 1 (fun x => { x with marked := [0] })) (fun s =>
      (s.slot 0 0).region == some 0 && s.snapReady 0 0 0 1),
    event .snapshotAbandon (.region 0) snapping (fun s =>
      (s.region 0).snapshot.any (fun x => decide (x.started + Config.snapshotLimit ≤ s.cycle) && x.dropped)),
    event .drainSourceMarker (.node 0 0 0) owing (fun s => (s.slot 0 0).region == some 0 &&
      (s.record 0 0 0).any (fun x => s.markersFit 0 0 0 0 x.2) && s.firing 0 &&
        (s.node 0 0 0).owed.head?.any (fun t => t.mark == .barrier)),
    event .drainComplete (.region 0) draining (fun s => (s.region 0).drain.any (fun d => (s.drainStatus 0 d).isSome)),
    event .heartbeat (.die 1) running (fun s => s.cycle % 1024 == 0 && !s.fencedDies.contains 1 && !s.silent.contains 1),
    event .heartbeat (.die 1) { running with silent := [1], missed := [(1, 3)], cycle := 1024 } (fun s =>
      s.cycle % 1024 == 0 && !s.fencedDies.contains 1 && s.silent.contains 1 && decide (3 ≤ Tab.get 0 s.missed 1)),
    event .dieFence (.die 0) { running with phase := 5 } (fun s => !s.fencedDies.contains 0 && s.master == 0),
    event .dieFence (.die 0) { running with phase := 4 } (fun s => !s.fencedDies.contains 0 && s.master == 0),
    event .electionEnd .module { running with election := some 7, cycle := 7, fencedDies := [0] } (fun s =>
      s.election.any (fun t => decide (t ≤ s.cycle))),
    event .contextHalt (.context 0) halting (fun s =>
      (s.context 0).halting && s.cycle % 16 == 0 && (s.regionsIn 0).all (fun g => s.haltsNow g))]

theorem witness_MarkersAndHaltsGoOn : clausesMarkersAndHaltsGoOn.all id = true := by decide +kernel

def submission : Submission := { lra := 0, ctx := 0, cid := 3, pair := some 0, parent := none, after := false, at' := false, recompute := none }
/-- A kernel beside a region of its configuration. -/
def kernelIn (st : KernelState) (groups : List (Nat × GroupState)) (r : Region → Region) : State :=
  (running.modRegion 0 (fun x => r { x with st := .resident, cols := [], cfg := { x.cfg with w := 1, h := 1 } })).setKernel 0
    { st := st, cfgW := 1, cfgH := 1, groups := groups, cra := 0x4000 }
def held (r : Region) : Region := { r with kernel := some 0 }
def loading (h k n : Nat) : Load :=
  { h := h, k := k, n := n, nrec := plainRec, tok := token 1 0 [0, 0], va := 0x2000, head := 0, origin := 64, w := 1, height := 1, due := 1
    region := 5, prior := [], dropped := false }

def journaled : State := { running with jrnlBase := 0x8000010000, jrnlSize := 10 }
/-- Every journal entry is in use. -/
def full : State := ({ journaled with jrnlNext := 1024 } : State).put 0x800001000B [1] false

def clausesKernelsGoOn : List Bool := [
    event (.kernelAccept submission) .module journaled (fun s => s.journalRoom),
    event (.kernelAccept submission) .module full (fun s => !s.journalRoom),
    event .bindRegion .module (kernelIn .ready [] id) (fun s =>
      s.election.isNone && s.bindOrder == [0] && (s.matchFor 0).isSome),
    event .groupHandout (.region 0) (kernelIn .bound [] held) (fun s =>
      (s.region 0).kernel == some 0 && (s.kernel 0).st == .bound && s.takesGroups 0 && decide (lowestFree 0 (s.region 0).cols < 4096) &&
      ((s.kernel 0).firstPending (s.mayRun 0 0)).isSome),
    event .kernelComplete (.kernel 0) (kernelIn .draining [(0, .done 0)] held) (fun s =>
      let t := ((s.settleGroups 0).regionsOf 0).foldl (fun u g => u.releaseUnit 0 g) (s.settleGroups 0) |>.modKernel 0 Kernel.drained
      (s.kernel 0).st == .draining && (t.kernel 0).st == .draining && (t.kernel 0).groupsOver && t.allApplied 0),
    event .kernelComplete (.kernel 0) (kernelIn .faulting [] held) (fun s => (s.kernel 0).st == .faulting &&
      ((s.settleGroups 0).modKernel 0 Kernel.abandonPending).allApplied 0),
    event .kernelComplete (.kernel 0) ((kernelIn .complete [] held).modKernel 0 (fun k => { k with recordWritten := true })) (fun s =>
      (s.kernel 0).st == .complete && (s.kernel 0).recordWritten && (s.kernel 0).t3Pending == 0),
    event .kernelVisible (.kernel 0) ((kernelIn .complete [] id).modKernel 0 (fun k => { k with recordWritten := true })) (fun s =>
      (s.kernel 0).st == .complete && (s.kernel 0).recordWritten && (s.kernel 0).t3Pending == 0),
    event .configLoad (.region 0) (kernelIn .bound [] (fun r => { held r with st := .loading })) (fun s =>
      (s.region 0).st == .loading && (s.region 0).kernel.isSome && decide ((s.region 0).until_ ≤ s.cycle)),
    event .configLoad (.node 0 0 0) { running with loads := [loading 0 0 0], cycle := 2 } (fun s =>
      (s.loads.find? (fun x => x.h == 0 && x.k == 0 && x.n == 0)).any (fun l => l.due != 0 && decide (l.due ≤ s.cycle) &&
        !s.imageWaits (s.region l.region).ctx l.va))]

theorem witness_KernelsGoOn : clausesKernelsGoOn.all id = true := by decide +kernel

def inCall (st : RegionState) (depth : Nat) (c : Call) : State :=
  (called running).modRegion 0 (fun r => { r with st := st, depth := depth, calls := [c], cols := r.cols.map (fun x =>
    (x.1, { x.2 with copy := some (token 0 0 [1]) })) })
def plane : Plane := { place := .onDie, cfg := {}, stages := [], arrivals := [], frozenAt := 0, moving := none }
def returned : State :=
  ((inCall .running 1 { aCall with done := true, result := some (token 0 0 [1]) }).modRegion 0 (fun r => { r with cols := [] })).modSlot 0 0
    (fun v => { v with planes := [plane] })
def swapping : State := running.modRegion 0 (fun r => { r with st := .loadingInPlace, tailg := some (
  { image := { cfgid := 7, w := 1, h := 1, carve := 0, agb := [], cdx := [], mesh := [], blocks := [] }, ex := 0, ey := 0, enode := 0
    tok := token 0 0 [1] } : TailSwap) })

def clausesCallsGoOn : List Bool := [
    event .cover (.region 0) (inCall .callPending 0 aCall) (fun s => s.coverReady 0),
    event .calleeStart (.region 0) (inCall .covering 0 aCall) (fun s => s.regionDue 0 .covering &&
      (s.region 0).calls.head?.any (fun c => !c.dead && c.again.isNone && (s.colour 0 c.col).st == .live &&
        !s.imageWaits (s.region 0).ctx c.va && (match s.placeCallee 0 c with
        | .ok t => t.entryPresent 0 c.ex c.ey c.enode && (t.colour 0 c.col).copy.isSome
        | .error _ => false))),
    event .rekindle (.region 0) returned (fun s => s.rekindleReady 0),
    event .callerResume (.region 0) (returned.modRegion 0 (fun r => { r with st := .rekindling })) (fun s =>
      (s.region 0).currentCall.isSome && (s.region 0).st == .rekindling && (s.region 0).residence == .resident &&
      decide ((s.region 0).until_ ≤ s.cycle)),
    event .callerResume (.region 0) (returned.modRegion 0 (fun r => { r with st := .resuming })) (fun s => s.regionDue 0 .resuming),
    event .tailgSwap (.region 0) swapping (fun s =>
      (s.region 0).tailg.isSome && s.regionDue 0 .loadingInPlace)]

theorem witness_CallsGoOn : clausesCallsGoOn.all id = true := by decide +kernel

/-- A slot whose one plane lies on the die, in a region that waits to cover and may keep none there. -/
def crowded : State :=
  (running.modRegion 0 (fun r => { r with st := .callPending, planeLim := 1, depth := 1 })).modSlot 0 0 (fun v => { v with planes := [plane] })
def away (r : Residence) (st : RegionState) : State := running.modRegion 0 (fun x => { x with residence := r, st := st })
def leaving : State := away .evicting .running
/-- Region 0 leaves for region 1, which is evicted. -/
def swapped : State := leaving.setRegion 1 { st := .running, residence := .evicted, image := [] }

def clausesPlanesAndImagesMove : List Bool := [
    event .planeMoveDown (.slot 0 0) crowded (fun s => let u := s.finishMoves 0 0
      (s.slot 0 0).region == some 0 && u.wantsPlane 0 0 && !u.movingDown 0 .stateDie && decide (u.statePlanes 0 < 4) &&
      (u.slot 0 0).planes.any (fun p => p.rests .onDie)),
    event .planeMoveUp (.slot 0 0) (crowded.modSlot 0 0 (fun v => { v with planes := [{ plane with moving := some (.stateDie, 0) }] }))
      (fun s => (s.slot 0 0).region == some 0 && (s.slot 0 0).planes.any (fun p => p.moving.isSome)),
    event .planeMoveUp (.slot 0 0) (running.modSlot 0 0 (fun v => { v with planes := [{ plane with place := .stateDie }] }))
      (fun s => (s.slot 0 0).region == some 0 && !(s.slot 0 0).planes.any (fun p => p.moving.isSome)),
    event .contextEvict (.region 0) leaving (fun s =>
      (s.region 0).residence == .evicting && (s.region 0).image == [] && s.mayFreeze 0 && s.imageRoom 0 0),
    event .contextEvict (.region 0) (leaving.modRegion 0 (fun r => { r with image := [(0, {})] })) (fun s =>
      (s.region 0).residence == .evicting && (s.region 0).image != [] && decide ((s.region 0).until_ ≤ s.cycle)),
    event .contextRestore (.region 0) (away .restoring .running) (fun s =>
      (s.region 0).residence == .restoring && s.cycle % 16 == 0 && decide ((s.region 0).until_ ≤ s.cycle)),
    event .contextSwap (.swap 0 1) swapped (fun s =>
      (s.region 0).residence == .evicting && (s.region 0).image == [] && (s.region 1).residence == .evicted && s.mayFreeze 0 &&
        s.imageRoom 0 1 &&
      ((s.freezeRegion 0).finishEvict 0).mayRestore 1 (s.region 0).slot)]

theorem witness_PlanesAndImagesMove : clausesPlanesAndImagesMove.all id = true := by decide +kernel

/-! ### Engine entries -/

/-- An entry that queue `q` performs, with its start behind it. -/
def current (i : Instr) : CurrentEntry :=
  { image := match entryOf i with
      | some (k, e, b) => encodeEntry k e b
      | none => 0
    n := 0, started := 0, progress := 0, names := [], poison := false, r0 := 0, r1 := 0, switched := none, lastRead := 0, finish := none
    begun := true, busyUntil := 0, latch := [], off := 0, buffer := [], coll := {} }

/-- A queue at the turn of an entry, over the memory of `paged`. -/
def performing (q : Nat) (c : CurrentEntry) : State :=
  { (paged running).setQueue q { en := true, st := .running, appn := 1, tailn := 1, cur := some c } with cur := .queue q, cycle := 4 }

/-- An access of an engine that nothing stops. -/
def good {α : Type} (x : Met α) : Bool := match x with
  | .ok _ => true
  | _ => false

/-- A turn of an entry whose start lies behind it: its conditions hold and its step answers a state. -/
def turn (i : EntryHeader → Instr) (q : Nat) (c : CurrentEntry → CurrentEntry) (edit : State → State)
    (ok : State → CurrentEntry → Bool) : Bool :=
  let c := c (current (i header))
  let u := edit (performing q c)
  (u.queue q).cur == some c && (u.queue q).serves && c.finish.isNone && decide (c.busyUntil ≤ u.cycle) && c.begun && ok u c &&
  (match exec (i header) u with
   | .next _ => true
   | _ => false)

/-- A turn before the entry's checks. -/
def start (i : Instr) (q : Nat) (edit : State → State) (ok : State → CurrentEntry → Bool) : Bool :=
  let c := { current i with begun := false }
  let u := edit (performing q c)
  (u.queue q).serves && ok u c && (match exec i u with
    | .next t => (t.queue q).cur.isNone || ((t.queue q).cur.bind (fun x => x.finish)).isSome
    | _ => false)

def oddHeader : EntryHeader := { header with rsvB := 1 }

def clausesEntriesTurnedAwayEnd : List Bool := [
    start (.badkind header 0x7F 0) 0 id (fun _ _ => !performs 0 0x7F),
    start (.gath header rows) 0 id (fun _ _ => !performs 0 0x05 && performs 64 0x05),
    start (.copy header xfer) 0 (fun s => s.setQueue 0 { s.queue 0 with withdraws := [(5, 0xFFFFFFFF, 0, 1)] }) (fun s c =>
      (Instr.copy header xfer).wellFormed && performs 0 0x01 && (s.queue 0).withdrew c),
    start (.copy oddHeader xfer) 0 id (fun s c =>
      (Instr.copy oddHeader xfer).wellFormed && performs 0 0x01 && !(s.queue 0).withdrew c && headerBad oddHeader)]

theorem witness_EntriesTurnedAwayEnd : clausesEntriesTurnedAwayEnd.all id = true := by decide +kernel

def moving : XferBody := { xfer with src := 0x1000, dst := 0x2020, len := 0x40 }
def picked : RowsBody := { rows with src := 0x1000, dst := 0x2000, idx := 0x3000, rsz := 64, nidx := 1, nrows := 4, rstr := 64 }
def squareImage (lay : Nat) : Nat :=
  0x40000 * 2 ^ 457 + 2 ^ 456 + 2 * 2 ^ 450 + lay * 2 ^ 447 + 2 * 2 ^ 445 + 32 * 2 ^ 288 + 32 * 2 ^ 256 + 2 ^ 224 + 128 * 2 ^ 176
def rowTurn (i : RowsBody → EntryHeader → Instr) (from' to' : Nat) : Bool :=
  turn (i picked) 64 (fun c => { c with latch := [2] }) id (fun s c => c.progress < picked.nidx.toNat * picked.rsz.toNat &&
    (match s.readRange 0 from' 64 with
     | .ok (t, bs) => good (t.writeTagged 0 to' bs)
     | _ => false))

def clausesCopiesMoveData : List Bool := [
    turn (fun e => .copy e moving) 0 id id (fun s c => decide (c.progress < moving.len.toNat) && !copyAhead moving && c.buffer.isEmpty &&
      (match s.readRange 0 0x1000 32 with
       | .ok (t, bs) => good (t.writeTagged 0 0x2020 bs)
       | _ => false)),
    turn (fun e => .copy e moving) 0 (fun c => { c with progress := 64 }) id (fun _ c => decide (moving.len.toNat ≤ c.progress)),
    turn (fun e => .fill e moving) 0 id id (fun s c => decide (c.progress < moving.len.toNat) &&
      good (s.engineWrite 0 0x2020 (List.replicate 8 (leBytes 4 moving.pat.toNat)).flatten false)),
    turn (fun e => .fill e moving) 0 (fun c => { c with progress := 64 }) id (fun _ c => decide (moving.len.toNat ≤ c.progress)),
    rowTurn (fun b e => .gath e b) 0x1080 0x2000, rowTurn (fun b e => .scat e b) 0x1000 0x2080,
    turn (fun e => .copyt e tensor) 0 (fun c => { c with latch := [tensorImage, tensorImage + 0x40 * 2 ^ 457] }) id (fun _ c =>
      !inPlace (c.latch.getD 0 0) (c.latch.getD 1 0) && decide (c.progress < elementAccesses (c.latch.getD 1 0) 64)),
    turn (fun e => .copyt e tensor) 0 (fun c => { c with latch := [squareImage 0, squareImage 1], progress := 1 }) id (fun _ c =>
      inPlace (c.latch.getD 0 0) (c.latch.getD 1 0)),
    turn (fun e => .perm e tensor) 0 (fun c => { c with latch := [tensorImage, tensorImage + 0x40 * 2 ^ 457] }) id (fun _ c =>
      decide (c.progress < elementAccesses (c.latch.getD 1 0) 4))]

theorem witness_CopiesMoveData : clausesCopiesMoveData.all id = true := by decide +kernel

/-- A sequence descriptor (Table 16-1): keys at 0x4000, tags at 0x8000, two slots of 64-byte FP16 rows. -/
def sequence : Nat := 0x4000 * 2 ^ 457 + 0x5000 * 2 ^ 402 + 0x8000 * 2 ^ 347 + 0x9000 * 2 ^ 292 + 0xA000 * 2 ^ 237 + 2 * 2 ^ 205 + 64 * 2 ^ 189 + 3 * 2 ^ 185
def row : CopyrBody := { copyr with sd := 0x3000, src := 0x1000, nrow := 1 }
def patched : PatchBody := { patch with sd := 0x3000, first := 0, last := 0, delta := 1 }
def compacted : CompactBody := { compact with sd := 0x3000, outk := 0xC000, top := 1 }
def withSd (n : Nat) (c : CurrentEntry) : CurrentEntry :=
  { c with latch := [sequence, 0], progress := n, buffer := List.replicate 200 (0, false) }

def clausesSequencesAreRewritten : List Bool := [
    turn (fun e => .copyr e row) 0 (withSd 0) id (fun s c => c.progress % 5 == 0 && decide (c.progress / 5 < row.nrow.toNat) &&
      good (s.copyrRows 0 sequence row 0)),
    turn (fun e => .copyr e row) 0 (withSd 4) id (fun s c => c.progress % 5 == 4 && decide (c.progress / 5 < row.nrow.toNat) &&
      good (s.closeSlot 0 sequence (sdSlot sequence 0) (sdGen sequence 0))),
    turn (fun e => .copyr e row) 0 (withSd 5) id (fun _ c => decide (row.nrow.toNat ≤ c.progress / 5)),
    turn (fun e => .kvpatch e patched) 0 (withSd 0) id (fun _ c => c.progress % 5 == 0 && decide (c.progress / 5 < patchCount patched)),
    turn (fun e => .kvpatch e patched) 0 (withSd 6) id (fun _ c => decide (patchCount patched ≤ c.progress / 5) &&
      decide ((patchShift patched).natAbs ≤ c.progress - 5 * patchCount patched) && c.r1 == 0),
    turn (fun e => .kvpatch e patched) 0 (fun c => { withSd 6 c with r1 := 1 }) id (fun _ c =>
      decide (patchCount patched ≤ c.progress / 5) && decide ((patchShift patched).natAbs ≤ c.progress - 5 * patchCount patched) &&
        c.r1 == 1),
    turn (fun e => .compact e compacted) 112 (withSd 0) id (fun _ c =>
      c.progress % 5 == 0 && decide (c.progress / 5 < compactWalked compacted sequence)),
    turn (fun e => .compact e compacted) 112 (withSd 2) id (fun _ c =>
      c.progress % 5 == 2 && decide (c.progress / 5 < compactWalked compacted sequence)),
    turn (fun e => .compact e compacted) 112 (withSd 10) id (fun _ c => decide (compactWalked compacted sequence ≤ c.progress / 5))]

theorem witness_SequencesAreRewritten : clausesSequencesAreRewritten.all id = true := by decide +kernel

def paging : PageBody := { page with va := 0x10000, dpa := 0x8030000000 }
def moved (c : CurrentEntry) : CurrentEntry := { c with latch := [0, 0x8020010000, 0x10000] }
def switched (c : CurrentEntry) : CurrentEntry := { c with switched := some 0 }
def notDone (s : State) (c : CurrentEntry) : Bool :=
  c.switched.isNone && decide (c.progress < c.latch.getD 2 0) && !s.preparedRange (c.latch.getD 1 0 + c.progress) 64 &&
  s.portRoom (moveBytes (c.latch.getD 1 0 + c.progress) (paging.dpa.toNat + c.progress))
def noForward (s : State) (c : CurrentEntry) : Bool := c.switched == some 0 && s.forwards.all (fun f => f.queue != 0)

def clausesPagesMove : List Bool := [
    turn (fun e => .promo e paging) 0 moved id notDone, turn (fun e => .demo e paging) 0 moved id notDone,
    turn (fun e => .promo e paging) 0 switched id noForward, turn (fun e => .demo e paging) 0 switched id noForward,
    event .forwardRetire (.queue 0) { running with forwards := [{ old := 0, new := 0, size := 65536, waits := [], queue := 0 }] }
      (fun _ => true),
    event (.xlinv 0x10000) .module running (fun s => s.xlinvBusy.isNone && !xlinvBad 0x10000),
    event .xlinvComplete .module { running with xlinvBusy := some 3, cycle := 3 }
        (fun s => s.xlinvBusy.any (fun t => decide (t ≤ s.cycle)))]

theorem witness_PagesMove : clausesPagesMove.all id = true ∧ running.forwards = [] ∧ bit (running.fetchLe 0 8) 2 = false := by
  decide +kernel

def twoMembers : CollBody := { coll with nm := 2, map := 3 }
def joined (c : CurrentEntry) : CurrentEntry := { c with coll := { c.coll with started := [1], began := true } }
def works (s : State) (c : CurrentEntry) : Bool :=
  ((c.neighbours.foldl (fun u r => u.takeFrom 96 r) s).queue 96).cur.any (fun x => !x.coll.mismatch && x.ready && x.coll.began)
def partner : PeerBody := { peer with buf := 0x1000, len := 64 }

def clausesCollectivesGoOn : List Bool := [
    turn (fun e => .redsc e twoMembers) 96 joined id works, turn (fun e => .allga e twoMembers) 96 joined id works,
    turn (fun e => .allrd e twoMembers) 96 joined id works,
    turn (fun e => .send e partner) 96 (fun c => { c with coll := { c.coll with id := some 3 } }) id (fun s c => c.coll.id == some 3 &&
      decide (c.progress < partner.len.toNat) && !c.coll.lost.contains 0 && good (s.engineRead 0 0x1000 64)),
    turn (fun e => .recv e partner) 96 (fun c => { c with buffer := [(7, false)] }) id (fun s c => !c.buffer.isEmpty &&
      good (s.writeTagged 0 0x1000 [(7, false)])),
    event .collectiveMemberLost (.member 96 1)
      (((performing 96 (joined (current (.redsc header twoMembers))))).modLink 0 (fun l => { l with st := .fenced })) (fun s =>
        (s.queue 96).cur.any (fun c => c.begun && !c.coll.lost.contains 1 && s.memberGone c 1)),
    event .collectiveMemberLost (.member 96 0)
      (((performing 96 (current (.send header partner)))).modLink 0 (fun l => { l with st := .fenced })) (fun s =>
        (s.queue 96).cur.any (fun c => c.begun && !c.coll.lost.contains 0 && s.memberGone c 0))]

theorem witness_CollectivesGoOn : clausesCollectivesGoOn.all id = true := by decide +kernel

def signalled : SignalBody := { signal with va := 0x1000, val := 7 }
def waits (cmp : BitVec 8) (val : BitVec 64) : WaitBody := { waiting with va := 0x1000, val := val, cmp := cmp, tmo := 4 }
def waitTurn (cmp : BitVec 8) (val : BitVec 64) (met : Bool) : Bool :=
  turn (fun e => .waitv e (waits cmp val)) 0 id id (fun s _ => (s.queue 0).st == .running &&
    decide (s.cycle ≤ 4) && (match s.engineRead 0 0x1000 8 with
    | .ok (_, bs, _) => (match cmp.toNat with
        | 0 => decide (val.toNat ≤ leNat bs)
        | 1 => leNat bs == val.toNat
        | _ => leNat bs != val.toNat) == met
    | _ => false))
def idling : State := let s := performing 0 (current (.waitv header (waits 0 9)))
  s.setQueue 0 { s.queue 0 with st := .waiting }

def clausesGeneralCommandsAct : List Bool := [
    turn (fun e => .qfence e fence) 0 (fun c => { c with names := [(1, 0)] }) (fun s => s.setQueue 1 { done := 1 }) (fun s c =>
      c.names.all (fun x => decide (x.2 < (s.queue x.1).done))),
    turn (fun e => .wdraw e withdrawal) 0 id id (fun _ _ => true),
    turn (fun e => .signal e signalled) 0 id id (fun s c => c.progress == 0 && good (s.engineWrite 0 0x1000 (leBytes 8 7) false)),
    turn (fun e => .signal e { signalled with op := 1 }) 0 id id (fun s c => c.progress == 0 && (match s.engineRead 0 0x1000 8 with
      | .ok (t, bs, p) => good (t.engineWrite 0 0x1000 (leBytes 8 ((leNat bs + 7) % 2 ^ 64)) p)
      | _ => false)),
    turn (fun e => .signal e signalled) 0 (fun c => { c with progress := 1 }) id (fun _ c => c.progress != 0),
    waitTurn 0 0 true, waitTurn 0 1 false, waitTurn 1 0 true, waitTurn 1 1 false, waitTurn 2 1 true, waitTurn 2 0 false,
    turn (fun e => .waitv e (waits 0 9)) 0 id (fun s => { s with cycle := 5 }) (fun s c =>
      (s.queue 0).st == .running && decide (c.started + 4 < s.cycle)),
    event .waitvRecheck (.queue 0) idling (fun s => (s.queue 0).st == .waiting &&
      (s.queue 0).withheld.isNone && (s.queue 0).waitv.any (fun x => decide (x.1.lastRead < s.cycle))),
    event .waitvTimeout (.queue 0) idling (fun s => (s.queue 0).waitv.any (fun x =>
      x.2.tmo.toNat != 0 && decide (x.1.started + x.2.tmo.toNat ≤ s.cycle)))]

theorem witness_GeneralCommandsAct : clausesGeneralCommandsAct.all id = true := by decide +kernel

/-! ### Links, host and power -/

def linked (x : Link) : State := { running.modLink 2 (fun _ => x) with cycle := 1048576 }
/-- A data flit with this SEQ, and one whose payload is not whole. -/
def flit (seq typ : Nat) : Flit := makeFlit (flitHeader seq 0 typ) (List.replicate 240 0) []
def broken : Flit := { header := flitHeader 0 0 0, bytes := [], crc := 0, payload := [] }
def inState (a : LinkState) (s : State) : Bool := (s.link 2).st == a
/-- A link that trusts key 7, and an offer that its partner signs for its nonce. -/
def trusting (x : Link) : State := { linked x with boot := { firmware := { moduleKeys := [7] } } }
def offered (key : Option Nat) : ConfigOffer := { side := { moduleId := 4, lanes := 0, format := 0, nonce := 0 }, key := key, asks := 5 }
def exchanging (o : ConfigOffer) : Instr := .configExchange o.side o.key o.asks
def trusted (o : ConfigOffer) (s : State) : Bool := o.key.any (fun k => s.boot.firmware.moduleKeys.contains k) &&
  o.side.nonce == (s.link 2).nonce && o.side.format == s.identity.format

def clausesLinksGoOn : List Bool := [
    event (.flueEnable true) (.link 2) (linked {}) (inState .disabled),
    event (.flueEnable true) (.link 2) (linked { st := .down }) (fun s => !inState .disabled s),
    event (.flueEnable false) (.link 2) (linked { st := .fenced, enable := true }) (inState .fenced),
    event (.flueEnable false) (.link 2) (linked { st := .active, enable := true }) (fun s => !inState .fenced s),
    event .flueFence (.link 2) (linked { st := .down }) (fun s => !inState .disabled s && !inState .fenced s),
    event .flueFence (.link 2) (linked { enable := true }) (fun s => inState .disabled s && (s.link 2).enable),
    event .flueFence (.link 2) (linked {}) (fun s => inState .disabled s && !(s.link 2).enable),
    event .electricalIdleExit (.link 2) (linked { st := .down }) (inState .down),
    event .laneLock (.link 2) (linked { st := .detect }) (inState .detect),
    event .equalisationConverge (.link 2) (linked { st := .train }) (inState .train),
    event .detectTimeout (.link 2) (linked { st := .detect, since := 0 }) (fun s =>
      inState .detect s && decide ((s.link 2).since + Config.lockLimit ≤ s.cycle)),
    event (exchanging (offered (some 7))) (.link 2) (trusting { st := .config })
        (fun s => inState .config s && trusted (offered (some 7)) s),
    event (exchanging (offered none)) (.link 2) (trusting { st := .config }) (fun s => inState .config s && !trusted (offered none) s),
    event (.flitReceive broken) (.link 2) (linked { st := .active }) (fun s => inState .active s && !flitGood broken),
    event (.retryRequest 3) (.link 2) (linked { st := .active, retries := [(3, 6)] }) (fun s => inState .active s &&
      decide (Tab.get 0 (Tab.modify 0 (s.link 2).retries 3 (fun k => k + 1)) 3 < 8)),
    event (.retryRequest 3) (.link 2) (linked { st := .active, retries := [(3, 7)] }) (fun s => inState .active s &&
      decide (8 ≤ Tab.get 0 (Tab.modify 0 (s.link 2).retries 3 (fun k => k + 1)) 3)),
    event (.recoveryRetrain (some (offered (some 7)))) (.link 2) (trusting { st := .recovery }) (fun s =>
      inState .recovery s && trusted (offered (some 7)) s),
    event (.recoveryRetrain none) (.link 2) (linked { st := .recovery, attempts := 1 }) (fun s =>
      inState .recovery s && decide ((s.link 2).attempts < 2)),
    event (.recoveryRetrain none) (.link 2) (linked { st := .recovery, attempts := 2 }) (fun s =>
      inState .recovery s && decide (2 ≤ (s.link 2).attempts))]

theorem witness_LinksGoOn : clausesLinksGoOn.all id = true := by decide +kernel

theorem flit_good (h : BitVec 32) (bs : List Byte) (p : List FlueItem) (n : bs.length = 240) (ty : (h.extractLsb' 4 4).toNat ≤ 3) :
    flitGood (makeFlit h bs p) = true := by
  have t : decide ((makeFlit h bs p).typ.toNat ≤ 3) = true := decide_eq_true ty
  unfold flitGood
  rw [t]
  simp [makeFlit, n]

/-- A flit whose CRC agrees passes its check, and stands ahead of, or behind, what its link awaits. -/
theorem witness_flits :
    flitGood (flit 0 0) = true ∧ flitGood (flit 5 2) = true ∧ flitGood (flit 9 0) = true ∧ (flit 0 0).typ = 0 ∧ (flit 5 2).typ = 2 ∧
    (flit 9 0).typ = 0 ∧ ((linked { st := .active }).link 2).st = .active ∧
    (flit 0 0).seq.toNat = ((((linked { st := .active }).link 2).acked 0).seqIn + 1) % 4096 ∧
    (flit 9 0).seq.toNat ≠ ((((linked { st := .active }).link 2).acked 0).seqIn + 1) % 4096 := by
  have good := fun h ty => flit_good h (List.replicate 240 0) [] List.length_replicate ty
  exact ⟨good _ (by decide), good _ (by decide), good _ (by decide), by decide +kernel, by decide +kernel, by decide +kernel,
    by decide +kernel, by decide +kernel, by decide +kernel⟩

/-- The module serves its host, and a submission waits at pair 0. -/
def serving : State :=
  { running.setPair 0 ({ sqbase := 0x8000000000, cqbase := 0x8000100000, sizes := 0x404, en := true, sqTail := 1 }) with
    phase := 4, cxlUp := true }
def submitted (s : State) : Bool := (s.pair 0).en && (s.pair 0).sqHead != (s.pair 0).sqTail
def command (i : Instr) : Bool := event i (.pair 0) serving (fun s => submitted s && s.journalRoom)
def nobody : Withheld := { qid := 0x1FF, die := 0, x := 0, y := 0, node := 0, slot := 0 }

def clausesCommandsAreAnswered : List Bool := [
    event (.sqTailDoorbell 15) (.pair 0) serving (fun s => s.served && (s.pair 0).en && decide (15 < (s.pair 0).sqSize)),
    event (.cqHeadDoorbell 15) (.pair 0) serving (fun s => s.served && (s.pair 0).en && decide (15 < (s.pair 0).cqSize)),
    event (.viroftPairEnable 0x87) (.pair 0) (serving.setPair 0 { serving.pair 0 with en := false }) (fun s =>
      s.served && !(s.pair 0).en && bits 0x87 6 3 == 0 && bit 0x87 7 && Pair.valid { s.pair 0 with ctx := bits 0x87 2 0 }),
    event (.launch 3 0x40) (.pair 0) serving (fun s => submitted s && s.journalRoom),
    command (.resume 3 nobody), command (.abort 3 nobody), command (.release 3 0 5), command (.withdraw 3 0 5), command (.retire 3 0 5),
    command (.ctxres 3 7), command (.ctxres 3 8), event (.unknownCommand 3 0x55) (.pair 0) serving submitted]

theorem witness_CommandsAreAnswered : clausesCommandsAreAnswered.all id = true := by decide +kernel

def written (i : Instr) : Bool := event i .module serving (fun s => s.served)

def clausesHostWritesAct : List Bool := [
    written (.snapTrig 1), written (.snapTrig 0), written (.attNonce 5),
    event (.jrnlBase 0x8000010000) .module serving (fun s => s.served && s.phase == 4),
    event (.jrnlSize 10) .module serving (fun s => s.served && s.phase == 4),
    event (.jrnlSize 20) .module serving (fun s => s.served && s.phase == 4),
    written (.pwrLim 599), written (.pwrLim 600), written (.pwrLim 2400), written (.pwrLim 2401),
    event (.queueEnWrite true) (.queue 0) (serving.setQueue 0 { tailn := 1 }) (fun s => s.served && !(s.queue 0).en &&
      !s.fencedDies.contains 0 && (s.queue 0).withheld.isNone && (s.queue 0).cur.isNone && decide ((s.queue 0).done < (s.queue 0).tailn)),
    event (.queueEnWrite false) (.queue 0) (serving.setQueue 0 { en := true, st := .idle })
        (fun s => s.served && (s.queue 0).st != .running),
    written (.counterClear 0x100000300), written (.counterClear 0x100000304), written (.counterClear 0x100000308),
    written (.counterClear 0x100001018), written (.counterClear (0x100001018 + 0x40 * 7)),
    written (.registerWrite 0x100001000 [1, 0, 0, 0]), event (.thermalThrottle true) .module running (fun _ => true)]

theorem witness_HostWritesAct : clausesHostWritesAct.all id = true := by decide +kernel

def told : State := { serving with outgoing := [{ body := 5, pair := some 0, ctx := none }] }
def bootable : State := { serving with jrnlBase := 0x8000010000, jrnlSize := 10 }

def clausesHostLinkAndPowerAct : List Bool := [
    event (.cxlMemRequest 0x8000000000 (some [1, 2]) 2) .module serving (fun s => s.served && deviceMemory 0x8000000000 2),
    event (.cxlMemRequest 0x8000000000 none 64) .module serving (fun s =>
      s.served && deviceMemory 0x8000000000 64 && !s.preparedRange 0x8000000000 64),
    event .cxlLinkUp .module running (fun s => s.bootErr == 0),
    event .cxlLinkUp .module { running with bootErr := 2 } (fun s => s.bootErr != 0),
    event .cxlLinkLoss .module serving (fun _ => true),
    event .completionEntry .module told (fun s => s.cxlUp && (nextMessage s [] [] s.outgoing).isSome),
    event .attReport .module { serving with attCount := 1 } (fun s => !s.attDone && s.attCount != 0),
    event .powerOnReset .module serving (fun _ => true),
    event .bootReady .module bootable (fun s => s.phase == 4 && s.cxlUp && s.journalValid),
    event .thermalShutdown .module serving (fun _ => true)]

theorem witness_HostLinkAndPowerAct : clausesHostLinkAndPowerAct.all id = true := by decide +kernel

/-! ### Encodings, the step, frames and faults -/

/-- An opcode at each end of each unallocated range has no record (R55). -/
theorem witness_WorkedRecordsDecode :
    [0, 0x020, 0x03F, 0x073, 0x0BF, 0x0F5, 0x13F, 0x15E, 0x1BF, 0x1E4, 0x23F, 0x244, 0x27F, 0x28C, 0x3FF].all (fun o =>
      let w := encodeRecord o plainRec
      (w.extractLsb' 86 10).toNat == o && decodeRecord w == none && recordReason o plainRec 0 == some 1) = true := by decide +kernel

/-- A record, an entry and a submission at their places in the round trips. -/
theorem witness_RoundTrips :
    (Instr.add goodAdd).record = some (0x040, goodAdd) ∧ decodeRecord (encodeRecord 0x3E9 plainRec) = none ∧
    decodeRecord (encodeRecord 0x040 goodAdd) = some (.add goodAdd) ∧
    (entryOf (.copy header xfer)).isSome = true ∧ (Instr.copy header xfer).wellFormed = true ∧
    (decodeEntry (encodeEntry 1 header 0)).wellFormed = true ∧
    (submissionOf (.launch 9 0x31400)).isSome = true ∧ (Instr.launch 9 0x31400).wellFormed = true := by decide +kernel

def storedRecord (w : BitVec 96) (emitted : Nat) : State :=
  { (running.modSlot 0 0 (fun v => { v with cfg := { v.cfg with store := [(0, w)] } })).modNode 0 0 0 (fun x => { x with emitted := emitted })
    with agenda := [.fire 0 0 0] }
/-- The step at a state and the meaning at its place agree. -/
def steps (s : State) (i : Instr) (l : Locus) : Bool :=
  match step s, exec i { s with agenda := s.agenda.tail, cur := l } with
  | .next a, .next b => a == b
  | _, _ => false

def clausesStep : List Bool := [
    steps (storedRecord (encodeRecord 1 plainRec) 0) (.pass plainRec) (.node 0 0 0),
    steps (storedRecord (encodeRecord 0x06B plainRec) 1) (.rangeEmission plainRec) (.node 0 0 0),
    steps (storedRecord (encodeRecord 0x1C0 plainRec) 1) (.agenEmission plainRec) (.node 0 0 0),
    steps (storedRecord (encodeRecord 0x016 plainRec) 1) (.markMarkerEmission plainRec) (.node 0 0 0),
    steps (storedRecord (encodeRecord 1 plainRec) 1) (.pass plainRec) (.node 0 0 0),
    (let s : State := { running.modSlot 0 0 (fun v => { v with cfg := {} }) with agenda := [.fire 0 0 0] }
     match step s with
     | .next t => t == { s with agenda := [] }
     | _ => false),
    (match step (storedRecord (encodeRecord 0x3FF plainRec) 0) with
     | .refused (.undecoded 0 0 0) => true
     | _ => false),
    steps { performing 0 (current (.copy header moving)) with agenda := [.entry 0] } (.copy header moving) (.queue 0),
    (let s : State := { serving.put 0x8000000000 (leBytes 64 0x314000000000900000001) false with agenda := [.submit 0] }
     (s.pair 0).en && (s.pair 0).sqHead != (s.pair 0).sqTail && steps s (.launch 9 0x31400) (.pair 0)),
    steps { running with agenda := [.event .cxlLinkLoss .module] } .cxlLinkLoss .module,
    (match step { running with agenda := [] } with
     | .next t => t.cycle == 1
     | _ => false)]

theorem witness_StepRunsTheDecodedInstruction : clausesStep.all id = true := by decide +kernel

/-- The invariant holds at reset, the first step answers a state, and a state with memory and poison meets it too. -/
theorem witness_StepKeepsInvariant :
    State.reset.Inv ∧ (match step State.reset with
      | .next t => decide (Memory.wf t.mem = true) && t.poison == []
      | _ => false) = true ∧ ((paged .reset).put 0x8000000000 (List.replicate 65 1) true).Inv := by
  unfold State.Inv; decide +kernel

/-- A firing of each frame answers a state. -/
theorem witness_NodeFiringFrames :
    plainNode (.add goodAdd) = true ∧ stagingNode (.yield goodAdd) = true ∧
    (({ opc := 0x040, instr := .add, ary := 2 } : Case).after).isSome = true ∧
    (({ opc := 0x286, instr := .yield, lit := 2, lit32 := 5 } : Case).after).isSome = true ∧
    quietEvent .cxlLinkLoss = true ∧ agbVirt ownBank = false ∧ asking.mem = [] ∧
    (running.slot 0 0).region = some 0 := by decide +kernel

/-- A kernel of region 0 in a state from which a node fault stops it. -/
def faultable (st : KernelState) : State := (running.modRegion 0 (fun r => { r with kernel := some 0 })).setKernel 0 { st := st, cra := 0x4000 }
theorem witness_NodeFaultsStopTheirKernel :
    [KernelState.ready, .bound, .running, .draining].all (fun st => let s := faultable st
      (s.region 0).kernel == some 0 && (s.kernel 0).st == st && (s.colour 0 0).active && !(s.colour 0 0).committed &&
      (let t := s.nodeFault 0 0 0 0 0 0 faultTrap 5
       (t.colour 0 0).st == .purging && (t.kernel 0).st == .faulting && (t.context 0).faultPtr == 0x4040)) = true := by decide +kernel

def privileged : List Case := [
    { opc := 0x289, instr := .wrsr, lit := 2, lit32 := 0x10, spec := wrsrSpec },
    { opc := 0x285, instr := .prio, lit := 2, lit32 := 0x80, spec := { breach := fun f s => bit f.lit 7 && f.plain s } },
    { opc := 0x28A, instr := .halt, lit := 2, spec := { breach := Fire.plain } },
    { opc := 0x287, instr := .snap, lit := 2, fmt := 1, spec := snapSpec, held := true }]
theorem witness_PrivilegedUseFaults :
    (privileged.zip [(fun (r : Rec) => regPrivileged (r.lit32.toNat % 256)), (fun r => bit r.lit32.toNat 7), (fun _ => true), (fun _ => true)]).all
      (fun x => x.2 x.1.nrec && x.1.firing.any (fun y => !(y.2.context (y.2.region y.1.g).ctx).priv &&
        x.1.after.any (fun t => (t.colour 0 0).st == .purging && t.flights.isEmpty))) = true := by decide +kernel

/-- R25: the values 0, 4, 5 and 7 of a write. -/
theorem witness_RndDefKeepsItsMode :
    [0, 4, 5, 6, 7].map (fun v => (running.applyRegister 0 0 0x03 v).statusReg 0 0 0 0x03) = [0, 4, 0, 0, 0] := by decide +kernel

def trapping : Case := { opc := 0x015, instr := .trap, lit := 2, lit32 := 5 }
theorem witness_TrapFaults :
    trapping.firing.any (fun x => trapping.state.fires {} 0x015 trapping.nrec x.1 && x.1.qual.getD 0 false && x.1.ta.lanes.getD 0 0 != 0) =
      true := by decide +kernel

/-! ### Further clauses: slots, commits, errors -/

/-- Context 0 owns the accumulator file of the hearth, or lacks it. -/
def owned : State := running.setAcc 0 0 { running.accFile 0 0 with place := .live }

def clausesTouch : List Bool := [
    event .waveRetire (.colour 0 0) (looping.modColour 0 0 (fun c => { c with back := true })) (fun s =>
      (s.colour 0 0).loop && decide ((s.colour 0 0).vm1 + 1 ≤ (s.colour 0 0).vcnt) && (s.colour 0 0).back),
    event .accumulatorSpill (.touch 0 1 false) (running.modHearth 0 (fun x => x.setPlace 1 false .home))
      (fun s => ((s.hearth 0).spills.find? (fun e => e.2.1 == false)).isNone && !s.hasAcc 0 1 && (s.hearth 0).owner false == none &&
        (s.hearth 0).placeOf 1 false != .t1Home),
    event .accumulatorSpill (.touch 0 1 false) owned (fun s =>
      ((s.hearth 0).spills.find? (fun e => e.2.1 == false)).isNone && !s.hasAcc 0 1 && (s.hearth 0).owner false == some 0 &&
      (s.t1HomeAt 0 0).isNone && decide (s.statePlanes 0 < 4) && (s.hearth 0).placeOf 1 false != .t1Home)]

theorem witness_touches : clausesTouch.all id = true := by decide +kernel

def sentEntry (resent : Nat) : DamperEntry := { stored 0 0 with st := .sent, order := 1, resent := resent }
/-- An entry of an earlier commit meets the same granule. -/
def crowdedEntry (resent : Nat) : State :=
  (ended (sentEntry resent)).modHearth 0 (fun x => { x with damper := x.damper ++ [{ sentEntry 0 with id := 3 }] })
def drained (s : State) : State := { s with drained := [(0, 64)] }
def entryIs (s : State) (ok : DamperEntry → Bool) : Bool := (s.damperEntry 0 4).any (fun e => e.order != 0 && ok e)

def clausesWritesAgain : List Bool := [
    event .commitWriteRefused (.entry 0 4) (ended (sentEntry 1))
        (fun s => entryIs s (fun e => decide (e.resent % 4 < 2) && s.drainRoom 0 e)),
    event .commitWriteRefused (.entry 0 4) (drained (ended (sentEntry 1))) (fun s =>
      entryIs s (fun e => decide (e.resent % 4 < 2) && !s.drainRoom 0 e)),
    event .commitWriteRefused (.entry 0 4) (crowdedEntry 2) (fun s => entryIs s (fun e => decide (2 ≤ e.resent % 4) && s.standsBehind e)),
    event .commitWriteRefused (.entry 0 4) (ended (sentEntry 2))
        (fun s => entryIs s (fun e => decide (2 ≤ e.resent % 4) && !s.standsBehind e)),
    event .commitWriteTimeout (.entry 0 4) (ended (sentEntry 3)) (fun s =>
      entryIs s (fun e => decide (e.sentAt + Config.requestTimeout ≤ s.cycle) && e.resent / 4 == 0 && s.drainRoom 0 e)),
    event .commitWriteTimeout (.entry 0 4) (drained (ended (sentEntry 3))) (fun s =>
      entryIs s (fun e => decide (e.sentAt + Config.requestTimeout ≤ s.cycle) && e.resent / 4 == 0 && !s.drainRoom 0 e)),
    event .commitWriteTimeout (.entry 0 4) (roomy (ended (sentEntry 4))) (fun s =>
      entryIs s (fun e => decide (e.sentAt + Config.requestTimeout ≤ s.cycle) && e.resent / 4 != 0 && (s.region 0).kernel == some 0 &&
        (((((s.poisonGranule e).freeEntries [e.id]).taintHolder e.region).settleT3 e).region e.region).kernel == some 0))]

theorem witness_writesAgain : clausesWritesAgain.all id = true := by decide +kernel

def site (w : ErrorSite) (s : State) (ok : State → Bool) : Bool := event (.uncorrectableError w) .module s ok
def redone (n : Nat) : State := performing 0 { current (.copy header moving) with retried := ((0, 0), n) }

/-- Kernel 0 runs in region 0, and its colour 0 keeps a run of frame slots at 0x20000. -/
def framed : State :=
  ((called running).modRegion 0 (fun r => { r with cols := r.cols.map (fun x => (x.1, { x.2 with fb := 1 })) })).modKernel 0 (fun k =>
    { k with ovsz := 46, ova := 0x20000, cta := 0x40000 })

def clausesSites : List Bool := [
    site (.token 0 0 0) running (fun s => (s.slot 0 0).region == some 0),
    site (.damper 0 4) (ended (stored 0 0)) (fun s => (s.damperEntry 0 4).any (fun e => e.order == 0)),
    site (.damper 0 4) (ended (sentEntry 0)) (fun s => (s.damperEntry 0 4).any (fun e => e.order != 0)),
    site (.accumulator 0 5) (owned.setAcc 0 0 { owned.accFile 0 0 with acol := some (0, 0) }) (fun s => s.accOwner 0 == some (0, 0)),
    site (.accumulator 0 5) running (fun s => s.accOwner 0 == none),
    site (.nodeStore 0 0 0) (called running) (fun s => (s.slot 0 0).region == some 0 && (s.region 0).kernel == some 0),
    site (.switchTable 0 0) (called running) (fun s => (s.slot 0 0).region == some 0 && (s.region 0).kernel == some 0),
    site (.bindings 0 0) (called running) (fun s => (s.slot 0 0).region == some 0 && (s.region 0).kernel == some 0),
    site (.granule 0x8030000000) running (fun s => s.slotsAt (0x8030000000 / 64) == none && s.tableAt (0x8030000000 / 64) == none),
    site (.granule 65728) (running.modRegion 0 (fun r => { r with jmax := 1 })) (fun s => s.slotsAt (65728 / 64) == some (0, 0)),
    site (.granule 0x8020040000) framed (fun s => s.slotsAt (0x8020040000 / 64) == none && s.tableAt (0x8020040000 / 64) == some 0),
    site (.reply 0 0 askedId 9) issued (fun s => (s.request 0 0 askedId).isSome),
    site (.distributor 1) running (fun _ => true),
    site (.engine 0) (redone 0) (fun s => (s.queue 0).cur.any (fun c => decide ((if c.retried.1 = (c.progress, c.off) then c.retried.2 + 1 else 1) ≤ 3))),
    site (.engine 0) (redone 3) (fun s => (s.queue 0).cur.any (fun c => decide (3 < (if c.retried.1 = (c.progress, c.off) then c.retried.2 + 1 else 1)))),
    site (.engine 0) running (fun s => (s.queue 0).cur.isNone)]

theorem witness_sites : clausesSites.all id = true := by decide +kernel

/-! ### Further clauses: markers and halts -/

/-- A starved region with a kernel, and without a token that waits. -/
def starvedKernel : State := (starved.modRegion 0 (fun r => { r with kernel := some 0 })).setKernel 0 { st := .running }
def starvedQuiet : State := starvedKernel.modSlot 0 0 (fun v => { v with frames := [], cfg := { v.cfg with nodes := [] } })
def overdue (s : State) : Bool := (s.region 0).st == .running && (s.region 0).wdogLim != 0 &&
  decide ((s.region 0).wdogLim ≤ (s.region 0).wdogCnt) && !(s.region 0).wdogHit
/-- Node 1 is `r`, fed on both ports by node 0. -/
def fed (o : Nat) (r : Rec) (s : State) : State :=
  let first := { ({ opc := 0x001, instr := .pass } : Case).nrec with d1 := { v := 1, oport := 12, node := 1, opnd := 1 } }
  s.modSlot 0 0 (fun v => { v with cfg := { v.cfg with store := [(0, encodeRecord 0x001 first), (1, encodeRecord o r)] } })
/-- The markers of node 1's two ports disagree. -/
def clashing : State := (fed 0x040 { goodAdd with d0 := plainRec.d0 } running).modNode 0 0 1 (fun x =>
  { x with qa := [marker .barrier], qb := [marker .snapshot] })
/-- Node 1 is a SINK. -/
def sinking : State := (marked .barrier false).modSlot 0 0 (fun v => { v with cfg := { v.cfg with store := v.cfg.store.map (fun e =>
  if e.1 = 1 then (1, encodeRecord 0x012 { plainRec with d0 := goodAdd.d1, lit32 := 0 }) else e) } })
def aligns (s : State) (ok : Nat → Rec → Bool) : Bool :=
  (s.slot 0 0).region == some 0 && s.barrierDue 0 0 0 1 && (s.record 0 0 1).any (fun x => ok x.1 x.2)
def agreed (s : State) : Bool := (markerClash (s.node 0 0 1) (s.connected 0 0 1)).isNone &&
    (barrierAligned (s.node 0 0 1) (s.connected 0 0 1)).isSome
def snapDue (s : State) : Bool := (s.slot 0 0).region == some 0 && s.snapReady 0 0 0 1 &&
    (snapAgreed (s.node 0 0 1) (s.connected 0 0 1)).isSome
def taking : State := (marked .snapshot false).modNode 0 0 1 (fun x => { x with marked := [0] })
def own (s : State) : State := s.modRegion 0 (fun r => { r with snapshot := (snapping.region 0).snapshot })
def stops (s : State) : State := (s.regionsIn 0).foldl (fun s g =>
  if s.haltsNow g then s.modRegion g (fun r => { r with halted := true }) else s) s

def clausesMarkers : List Bool := [
    event .quiesce (.region 0) starvedKernel (fun s => overdue s && (s.region 0).kernel == some 0 && (oldestWaiter (s.waiters 0)).isSome),
    event .quiesce (.region 0) starvedQuiet (fun s => overdue s && (s.region 0).kernel == some 0 && (oldestWaiter (s.waiters 0)).isNone),
    event .quiesce (.region 0) starved (fun s => overdue s && (s.region 0).kernel.isNone),
    event .barrierAlign (.node 0 0 1) clashing (fun s => aligns s (fun _ _ => true) &&
        (markerClash (s.node 0 0 1) (s.connected 0 0 1)).isSome),
    event .barrierAlign (.node 0 0 1) sinking (fun s => aligns s (fun o r => terminalNode o r) && agreed s),
    event .barrierAlign (.node 0 0 1) (fed 0x001 plainRec (marked .barrier false) |>.modNode 0 0 1 (fun x => { x with qb := [marker .barrier] }))
      (fun s => aligns s (fun o r => !terminalNode o r) && agreed s),
    event .snapshotFirstMarker (.port 0 0 1 0) (marked .snapshot false) (fun s => (s.connected 0 0 1).contains 0 &&
      ((s.node 0 0 1).waiting 0).any (fun t => t.mark == .snapshot)),
    event .snapshotFirstMarker (.port 0 0 1 1) ((marked .snapshot false).modNode 0 0 1 (fun x => { x with qb := x.qa })) (fun s =>
      !(s.connected 0 0 1).contains 1 && ((s.node 0 0 1).waiting 1).any (fun t => t.mark == .snapshot)),
    event .snapshotAlign (.node 0 0 1) taking (fun s => snapDue s && !s.snapping 0 5),
    event .snapshotAlign (.node 0 0 1) (own taking) (fun s => snapDue s && s.snapping 0 5),
    event .snapshotAbandon (.region 0) (snapping.modRegion 0 (fun r => { r with snapshot := r.snapshot.map (fun x => { x with dropped := false }) }))
      (fun s => (s.region 0).snapshot.any (fun x => decide (x.started + Config.snapshotLimit ≤ s.cycle) && !x.dropped)),
    event .contextHalt (.context 0) halting (fun s => (s.context 0).halting && s.cycle % 16 == 0 &&
      ((stops s).regionsIn 0).all (fun g => ((stops s).region g).halted)),
    event .contextHalt (.context 0) (halting.modRegion 0 (fun r => { r with st := .loading })) (fun s =>
      (s.context 0).halting && s.cycle % 16 == 0 && !((stops s).regionsIn 0).all (fun g => ((stops s).region g).halted))]
theorem witness_markers : clausesMarkers.all id = true := by decide +kernel

/-! ### Further clauses: bindings, loads, calls and planes -/

def bindDue (s : State) (ok : Except (AccessFault × Nat) State → Bool) : Bool :=
  s.election.isNone && s.bindOrder == [0] && !s.bindWaits (s.kernel 0) (s.regionIndex 0) && s.matchFor 0 == some 0 &&
  ok (s.clearTable (s.kernel 0) (s.regionIndex 0))
def tableAtPage (a : Nat) : State := (paged (kernelIn .ready [] id)).modKernel 0 (fun k => { k with cta := a })
/-- A load of `imaged`'s image with its header read, which is due. -/
def imageHead : Nat := 0x4B584931 * 2 ^ 480 + 2 ^ 464 + 2 ^ 456 + 2 ^ 448
def loadDue (head : Nat) (dropped : Bool) : State :=
  { (imaged running).setRegion 5 { st := .loading, x := 64, y := 0, slot := 0 } with
    loads := [{ loading 0 0 0 with head := head, dropped := dropped }], cycle := 2 }
def readOf (s : State) : Option (Except LoadFail Image) := s.loads.head?.map (fun l =>
  let u : State := { s with loads := dropLoad s.loads l.h l.k l.n }
  u.loadFrom (u.region l.region).ctx l.va l.head (l.site (u.slot l.h l.k).region))
def loadIs (s : State) (ok : Except LoadFail Image → Bool) (dropped : Bool) : Bool :=
  (s.loads.find? (fun x => x.h == 0 && x.k == 0 && x.n == 0)).any (fun l => l.due != 0 && decide (l.due ≤ s.cycle) &&
    !s.imageWaits (s.region l.region).ctx l.va && l.dropped == dropped) && (readOf s).any ok
def loads (x : Except LoadFail Image) : Bool := match x with
  | .ok _ => true
  | .error _ => false
def fails (x : Except LoadFail Image) : Bool := match x with
  | .ok _ => false
  | .error f => f.hearth.isSome
/-- The image's only record breaks R58. -/
def badImage (dropped : Bool) : State := (loadDue imageHead dropped).put 0x80200028C0 [9] false

def clausesBindAndLoad : List Bool := [
    event .bindRegion .module (tableAtPage 0x40000) (fun s => bindDue s (fun x => match x with
      | .ok _ => true
      | .error _ => false)),
    event .bindRegion .module (tableAtPage 0x40000000) (fun s => bindDue s (fun x => match x with
      | .ok _ => false
      | .error _ => true)),
    event .configLoad (.node 0 0 0) (loadDue imageHead false) (fun s => loadIs s loads false),
    event .configLoad (.node 0 0 0) (badImage true) (fun s => loadIs s fails true)]
theorem witness_bindAndLoad : clausesBindAndLoad.all id = true := by decide +kernel

/-- The callee's image is on the die already. -/
def callDue (s : State) (kept : Bool) : Bool :=
  let r := s.region 0
  let u := r.hearths.foldl (fun (u : State) h =>
    let v := u.modSlot h r.slot (fun x =>
      let x := x.abandon r.planeLim (u.diePlanes h + u.otherUps h r.slot)
      { x with planes := { place := .onDie, cfg := { x.cfg with output := x.transpose }, arrivals := [], frozenAt := u.cycle, moving := none
                           stages := u.flights.filter (fun f => f.2.region == 0 && f.2.h == h) } :: x.planes
               cfg := {}, transpose := none, lift := false })
    ({ v with flights := v.flights.filter (fun f => !(f.2.region == 0 && f.2.h == h)) } : State).spillExtension h r.slot 0) s
  s.coverReady 0 && r.calls.head?.any (fun c => u.heldCallee 0 { c with saved := r.cfg } == kept)
def resuming (c : Call) : State := (returned.modRegion 0 (fun r => { r with st := .rekindling, calls := [c] }))
def resumes (s : State) (ok : Call → Bool) : Bool := (s.region 0).currentCall.any ok && (s.region 0).st == .rekindling &&
  (s.region 0).residence == .resident && decide ((s.region 0).until_ ≤ s.cycle)

def now (s : State) : State := (s.abandonUps 0 0).finishMoves 0 0
def wantsMove (s : State) : Bool := (now s).wantsPlane 0 0 && !(now s).movingDown 0 .stateDie
/-- The slot of the waiting cover has no plane; another slot has four on the die. -/
def otherSlot : State := (running.modRegion 0 (fun r => { r with st := .callPending, planeLim := 1 })).modSlot 0 1 (fun v =>
  { v with planes := List.replicate 4 plane })
/-- A slot whose newest plane stands elsewhere and is wanted on the die. -/
def rising (p : PlanePlace) : State := (running.modRegion 0 (fun r => { r with planeLim := 1 })).modSlot 0 0 (fun v =>
  { v with planes := [{ plane with place := p }], lift := true })
def risesFrom (s : State) (p : PlanePlace) : Bool := !(s.slot 0 0).planes.any (fun p => p.moving.isSome) &&
  ((now s).slot 0 0).region == some 0 && ((now s).slot 0 0).lift && ((now s).slot 0 0).movingUp == 0 &&
  decide (((now s).slot 0 0).onDie < ((now s).region 0).planeLim) && decide ((now s).diePlanes 0 + (now s).otherUps 0 0 < 4) &&
  (((now s).slot 0 0).planes.find? (fun p => p.place != .onDie && p.moving.isNone)).any (fun x => x.place == p)

def clausesCallsAndPlanes : List Bool := [
    event .cover (.region 0) (inCall .callPending 0 aCall) (fun s => callDue s false),
    event .cover (.region 0) ((inCall .callPending 0 aCall).modRegion 0 (fun r => { r with cfg := { r.cfg with cfgid := 7 }, w := 1, h := 1 }))
      (fun s => callDue s true),
    event .callerResume (.region 0) (resuming { aCall with done := true, result := some (token 0 0 [1]) }) (fun s =>
      resumes s (fun c => c.returned.isSome)),
    event .callerResume (.region 0) (resuming { aCall with dead := true }) (fun s => resumes s (fun c => c.returned.isNone)),
    -- a plane of another slot moves down, the state die is full, a slot has room
    event .planeMoveDown (.slot 0 0) otherSlot (fun s => wantsMove s && decide ((now s).statePlanes 0 < 4) &&
      !((now s).slot 0 0).planes.any (fun p => p.rests .onDie) && (now s).oldestSpare 0 == some 1),
    event .planeMoveDown (.slot 0 0) (crowded.modSlot 0 1 (fun v => { v with planes := List.replicate 4 { plane with place := .stateDie } }))
      (fun s => wantsMove s && decide (4 ≤ (now s).statePlanes 0)),
    event .planeMoveDown (.slot 0 0) running (fun s => !(now s).wantsPlane 0 0),
    event .planeMoveUp (.slot 0 0) (rising .stateDie) (fun s => risesFrom s .stateDie),
    event .planeMoveUp (.slot 0 0) (rising .t1) (fun s => risesFrom s .t1)]
theorem witness_callsAndPlanes : clausesCallsAndPlanes.all id = true := by decide +kernel

/-! ### Further clauses: engines -/

/-- A copy upward by 32 bytes, whose writes reach source bytes that it has still to read. -/
def upward : XferBody := { xfer with src := 0x1000, dst := 0x1020, len := 0x40 }
def zeros (n : Nat) : List (Byte × Bool) := List.replicate n (0, false)
/-- A tensor of one FP8 element at `base`, with its scale word at `scale`. -/
def scaledImage (base scale : Nat) : Nat := base * 2 ^ 457 + 2 ^ 456 + 8 * 2 ^ 450 + 2 ^ 445 + scale * 2 ^ 385 + 2 ^ 288 + 2 ^ 256 + 2 ^ 224
def scaled (n : Nat) (c : CurrentEntry) : CurrentEntry :=
  { c with latch := [scaledImage 0x40 0x6000, scaledImage 0x80 0x7000], progress := n }
def tensorEnd (i : TensorBody → EntryHeader → Instr) (unit : Nat) : List Bool := [
    turn (i tensor) 0 (scaled 1) id (fun s c => hasScale (c.latch.getD 1 0) && elementAccesses (c.latch.getD 1 0) unit == 1 &&
      scaleBytes (c.latch.getD 1 0) == 2 && (match s.engineRead 0 0x6000 2 with
      | .ok (t, bs, p) => good (t.engineWrite 0 0x7000 bs p)
      | _ => false)),
    turn (i tensor) 0 (scaled 2) id (fun _ c => decide (elementAccesses (c.latch.getD 1 0) unit + scaleBytes (c.latch.getD 1 0) / 2 ≤ c.progress))]

def clausesCopiesEnd : List Bool := [
    turn (fun e => .copy e upward) 0 id id (fun s c => decide (c.progress < upward.len.toNat) && copyAhead upward && c.buffer.isEmpty &&
      good (s.atLength (fun s' => s'.readRange 0 0x1000 64))),
    turn (fun e => .copy e upward) 0 (fun c => { c with buffer := zeros 64 }) id (fun s c =>
      !c.buffer.isEmpty && good (s.writeTagged 0 0x1020 (zeros 32))),
    turn (fun e => .gath e picked) 64 (fun c => { c with progress := 64 }) id (fun _ c => decide (picked.nidx.toNat * picked.rsz.toNat ≤ c.progress)),
    turn (fun e => .scat e picked) 64 (fun c => { c with progress := 64 }) id (fun _ c => decide (picked.nidx.toNat * picked.rsz.toNat ≤ c.progress)),
    turn (fun e => .copyt e tensor) 0 (fun c => { c with latch := [squareImage 0, squareImage 1], progress := 0 }) id (fun s c =>
      inPlace (c.latch.getD 0 0) (c.latch.getD 1 0) && (mirrorPairs 1)[c.progress]?.isSome &&
      good (s.atLength (fun s' => s'.exchangeBlocks 0 (c.latch.getD 0 0) 0 0))),
    turn (fun e => .copyt e tensor) 0 (fun c => { c with latch := [squareImage 0, squareImage 1], progress := 1 }) id (fun _ c =>
      inPlace (c.latch.getD 0 0) (c.latch.getD 1 0) && (mirrorPairs 1)[c.progress]?.isNone)] ++
  tensorEnd (fun b e => .copyt e b) 64 ++ tensorEnd (fun b e => .perm e b) 4
theorem witness_copiesEnd : clausesCopiesEnd.all id = true := by decide +kernel

/-- Slot 0 holds position 0 with its tag (V = 1), and the retention threshold that the entry latches. -/
def tagged (s : State) : State := s.put 0x8020008000 (leBytes 4 (tagWord true 0 1)) false
def keyed : CopyrBody := { row with srcv := 0x1100 }
def later (n : Nat) (c : CurrentEntry) : CurrentEntry := { withSd n c with buffer := zeros 129 }
def thresholded (thr n : Nat) (c : CurrentEntry) : CurrentEntry := { later n c with latch := [sequence, thr] }
def tagAt (s : State) (w : Nat) : Bool := match s.engineRead 0 0x8000 4 with
  | .ok (_, bs, _) => leNat bs == w
  | _ => false
def packing : CompactBody := { compacted with outv := 0xD000, outp := 0xE000 }

def clausesSlotWrites : List Bool := [
    turn (fun e => .copyr e row) 0 (withSd 0) id (fun s c => !s.slotTaken 0 (sdTga sequence + 4 * sdSlot sequence 0) &&
      c.progress % 5 == 0 && (match s.atLength (fun v => v.copyrRows 0 sequence row 0) with
      | .ok (t, _) => good (t.retag 0 0x8000 (fun w => tagWord false (bits w 30 16 + 1) (bits w 15 0)))
      | _ => false)),
    turn (fun e => .copyr e keyed) 0 (later 1) id (fun s _ => good (s.writeTagged 0 0x4000 (zeros 64))),
    turn (fun e => .copyr e keyed) 0 (later 2) id (fun s _ => good (s.writeTagged 0 0x5000 (zeros 64))),
    turn (fun e => .copyr e keyed) 0 (later 3) id (fun s _ => good (s.writeTagged 0 0x9000 (zeros 1))),
    turn (fun e => .copyr e keyed) 0 (later 4) id (fun s _ => good (s.retag 0 0x8000 (fun w => tagWord true (bits w 30 16 + 1) 0))),
    turn (fun e => .kvpatch e patched) 0 (withSd 0) id (fun s _ => tagAt s 0 && !tagHolds sequence 0 0),
    turn (fun e => .kvpatch e patched) 0 (withSd 0) tagged (fun s _ => tagAt s (tagWord true 0 1) &&
        tagHolds sequence 0 (tagWord true 0 1) &&
      (match s.atLength (fun w => w.slotRows 0 sequence 0 none) with
       | .ok (u, _) => good (u.retag 0 0x8004 (fun w => tagWord false (bits w 30 16 + 1) (bits w 15 0)))
       | _ => false)),
    turn (fun e => .kvpatch e patched) 0 (later 1) id (fun s _ => good (s.writeTagged 0 0x4040 (zeros 64))),
    turn (fun e => .kvpatch e patched) 0 (later 2) id (fun s _ => good (s.writeTagged 0 0x5040 (zeros 64))),
    turn (fun e => .kvpatch e patched) 0 (later 3) id (fun s _ => good (s.writeTagged 0 0x9001 (zeros 1))),
    turn (fun e => .kvpatch e patched) 0 (later 4) id (fun s _ => good (s.retag 0 0x8004 (fun w => tagWord true (bits w 30 16 + 1) 0))),
    turn (fun e => .kvpatch e patched) 0 (later 5) id (fun s c => decide (patchCount patched ≤ c.progress / 5) &&
      decide (c.progress - 5 * patchCount patched < (patchShift patched).natAbs) &&
        good (s.retag 0 0x8000 (fun w => tagWord false (bits w 30 16 + 1) 0))),
    turn (fun e => .compact e packing) 112 (thresholded 0 0) tagged (fun s _ => decide (0 < compactWalked packing sequence) &&
        tagAt s (tagWord true 0 1) &&
      good (s.atLength (fun w => w.slotRows 0 sequence 0 none))),
    turn (fun e => .compact e packing) 112 (fun c => { thresholded 0 1 c with lastRead := 7 }) tagged (fun s c =>
      tagAt s (tagWord true 0 1) && tagWord true 0 1 != c.lastRead),
    turn (fun e => .compact e packing) 112 (fun c => { thresholded 0 1 c with lastRead := tagWord true 0 1 }) tagged (fun s c =>
      tagAt s c.lastRead && sdSink sequence == 0),
    turn (fun e => .compact e packing) 112 (fun c => { thresholded 9 1 c with lastRead := tagWord true 0 1 }) tagged (fun s c =>
      tagAt s c.lastRead && leNat ((c.buffer.drop (c.buffer.length - 1)).map (fun x => x.1)) < 9),
    turn (fun e => .compact e packing) 112 (thresholded 0 2) id (fun s _ => good (s.writeTagged 0 0xC000 (zeros 64))),
    turn (fun e => .compact e packing) 112 (thresholded 0 3) id (fun s _ => good (s.writeTagged 0 0xD000 (zeros 64))),
    turn (fun e => .compact e packing) 112 (thresholded 0 4) id
        (fun s c => packing.outp != 0 && good (s.engineWrite 0 (0xE000 + 4 * c.r0) (leBytes 4 0) false)),
    turn (fun e => .compact e compacted) 112 (thresholded 0 4) id (fun _ _ => compacted.outp == 0)]
theorem witness_slotWrites : clausesSlotWrites.all id = true := by decide +kernel

/-- The page is copied, and the kernel that a promotion serves has ended, or none has. -/
def copied (c : CurrentEntry) : CurrentEntry := { moved c with progress := 0x10000 }
def served : PageBody := { paging with krtag := 5 }
def overFor (s : State) : State := s.setKernel 3 { st := .visible, ctx := 0, rtag := 5 }
def quietPage : PageBody := { served with flags := 1 }
def full' (c : CurrentEntry) : Bool := c.switched.isNone && decide (c.latch.getD 2 0 ≤ c.progress)
/-- What the switch copies again changes no kernel. -/
def late' (b : PageBody) (s : State) (c : CurrentEntry) : Bool :=
  let u := (s.marked 0).foldl (fun u g => (u.modEntry 0 (fun x => { x with poison := x.poison || u.moveTaint (c.latch.getD 0 0) (64 * g) })).copyGranule
    (c.latch.getD 0 0) (64 * g) (b.dpa.toNat + (64 * g - c.latch.getD 1 0))) s
  ({ u with moves := u.moves.filter (fun x => x.1 != 0) } : State).tooLate (s.queue 0).ctx b.krtag.toNat
def switchTurns (i : PageBody → EntryHeader → Instr) : List Bool := [
    turn (i paging) 0 copied id (fun s c => full' c && !late' paging s c),
    turn (i served) 0 copied overFor (fun s c => full' c && late' served s c && !served.flags.getLsbD 0),
    turn (i quietPage) 0 copied overFor (fun s c => full' c && late' quietPage s c && quietPage.flags.getLsbD 0)]
theorem witness_switches : (switchTurns (fun b e => .promo e b) ++ switchTurns (fun b e => .demo e b)).all id = true := by decide +kernel

/-- A collective of two members over pieces of two FP32 elements, begun at rank 0. -/
def pieces (x : Collective) (c : CurrentEntry) : CurrentEntry :=
  { joined c with latch := [tensorImage + 2 ^ 288], coll := { x with started := [0, 1], began := true } }
def treeOf : CollBody := { twoMembers with topo := 1 }
def kinds : List (CollBody → EntryHeader → Instr) := [fun b e => .redsc e b, fun b e => .allga e b, fun b e => .allrd e b]
def collTurn (is : List (CollBody → EntryHeader → Instr)) (b : CollBody) (x : Collective) (ok : State → CurrentEntry → Bool) : List Bool :=
  is.map (fun i => turn (i b) 96 (pieces x) id (fun s c => works s c && (s.queue 96).cur == some c && ok s c))
def reads (i : Nat) (s : State) (c : CurrentEntry) : Bool := good (s.ownChunk 0 c i)
def heardPart : Part := { chunk := 0, rank := 1, elems := [0], tnt := false, ranks := 2 }
def idle' (c : CurrentEntry) : Bool := c.coll.results.isEmpty && (c.gathering == .allGather && c.coll.passed.contains c.rank ||
  c.gathering != .allGather && c.nextChunk.isNone)
def folding (i : Nat) (got : List Part) (c : CurrentEntry) : Bool := c.coll.results.isEmpty && c.gathering != .allGather &&
    c.nextChunk == some (i, got)
def folders : List (CollBody → EntryHeader → Instr) := [fun b e => .redsc e b, fun b e => .allrd e b]
def finished : Collective := { passed := [0, 1], complete := [0, 1] }

def clausesCollectives : List Bool :=
  collTurn kinds twoMembers { results := [(0, [0], false)] } (fun s c => good (s.putElems 0 c.piece 0 [0] false)) ++
  collTurn [fun b e => .allga e b] twoMembers {} (fun s c => !c.coll.passed.contains c.rank && reads 0 s c) ++
  collTurn folders twoMembers {} (fun s c => folding 1 [] c && reads 1 s c && c.ring && c.rank != 1) ++
  collTurn folders { treeOf with nm := 2, rank := 1 } { } (fun s c => folding 0 [] c && reads 0 s c && !c.ring && c.rank != 0) ++
  collTurn folders twoMembers { passed := [1], parts := [heardPart] }
    (fun s c => folding 0 [heardPart] c && reads 0 s c && c.ring && c.rank == 0) ++
  collTurn folders treeOf { parts := [heardPart] } (fun s c => folding 0 [heardPart] c && reads 0 s c && !c.ring && c.rank == 0) ++
  collTurn kinds twoMembers finished (fun _ c => idle' c && !c.coll.isOver && c.exhausted) ++
  collTurn kinds twoMembers { passed := [0, 1] } (fun _ c => idle' c && !c.coll.isOver && !c.exhausted) ++
  collTurn kinds twoMembers { finished with isOver := true } (fun _ c => idle' c && c.coll.isOver && !c.allEnded) ++
  collTurn kinds twoMembers { finished with isOver := true, ends := [(0, []), (1, [])] } (fun _ c => idle' c && c.coll.isOver && c.allEnded)
theorem witness_collectives : clausesCollectives.all id = true := by decide +kernel

def transfer (id : Nat) (n : Nat) (c : CurrentEntry) : CurrentEntry := { c with coll := { c.coll with id := some id }, progress := n }
def heard (i : FlueItem) (s : State) : State := s.modLink 0 (fun l => { l with inbox := [i] })
def postedOf (n : Nat) (s : State) : State := { s with posted := [{ link := 0, mtag := 0, len := n, id := 3 }] }

def clausesTransfers : List Bool := [
    turn (fun e => .send e partner) 96 id (postedOf 64) (fun s c => c.coll.id.isNone && (s.matchPosted 96 c).any (fun x => x.1.len == 64)),
    turn (fun e => .send e partner) 96 id (postedOf 32) (fun s c => c.coll.id.isNone && (s.matchPosted 96 c).any (fun x => x.1.len != 64)),
    turn (fun e => .send e partner) 96 (transfer 3 64) (heard (.performed 3)) (fun s c => decide (64 ≤ c.progress) &&
      (s.nextItem c).any (fun x => x.2.1 == .performed 3)),
    turn (fun e => .recv e partner) 96 (transfer 3 0) (heard (.sent 3 64 [7] false))
        (fun s c => c.buffer.isEmpty && decide (c.progress < 64) &&
      (s.nextItem c).any (fun x => x.2.1 == .sent 3 64 [7] false)),
    turn (fun e => .recv e partner) 96 (transfer 3 64) id (fun _ c => c.buffer.isEmpty && decide (64 ≤ c.progress) && c.coll.id == some 3)]
theorem witness_transfers : clausesTransfers.all id = true := by decide +kernel

/-- A WAITV that has met an error, and one that waits and is read again. -/
def rereads (cmp : BitVec 8) (val : BitVec 64) (edit : CurrentEntry → CurrentEntry) (now : Nat) (ok : CurrentEntry → Bool) : Bool :=
  let s := { (performing 0 (edit (current (.waitv header (waits cmp val))))) with cycle := now }
  event .waitvRecheck (.queue 0) (s.setQueue 0 { s.queue 0 with st := .waiting })
      (fun s => (s.queue 0).st == .waiting && (s.queue 0).withheld.isNone &&
    (s.queue 0).waitv.any (fun x => decide (x.1.lastRead < s.cycle) && decide (x.1.busyUntil ≤ s.cycle) && ok x.1) &&
    good (s.engineRead 0 0x1000 8))
def clausesWaits : List Bool := [
    turn (fun e => .waitv e (waits 0 0)) 0 (fun c => { c with poison := true }) id (fun s c => (s.queue 0).st == .running && c.poison &&
      decide (s.cycle ≤ c.started + 4) && good (s.engineRead 0 0x1000 8)),
    rereads 0 0 id 4 (fun c => !c.poison && decide (4 ≤ c.started + 4)),
    rereads 0 1 id 4 (fun c => !c.poison && decide (4 ≤ c.started + 4)),
    rereads 0 0 (fun c => { c with poison := true }) 4 (fun c => c.poison && decide (4 ≤ c.started + 4)),
    rereads 0 0 id 5 (fun c => decide (c.started + 4 < 5))]
theorem witness_waits : clausesWaits.all id = true := by decide +kernel

/-! ### Faults -/

/-- The case's activation is purged. -/
def Case.purges (c : Case) : Bool := c.after.any (fun t => (t.colour 0 0).st == .purging)
def Case.faults (c : Case) : Bool := c.fires && c.purges
/-- It is ready, and takes its fault before its effect. -/
def Case.first (c : Case) : Bool := c.firing.any (fun x => c.ok x.1 x.2) && c.purges

def narrowA : Nat → List Word := fun p => if p = 0 then [1, 1] else [1]
def mixed (f : Fire) : Bool := f.operands.any (fun t => f.operands.any (fun u => t.wid != u.wid))
def scaledTag (s : State) : State := s.modSlot 0 0 (fun v => { v with frames := v.frames.map (fun f => f.setPort 0 (some { token 0 0 [1] with sc := true })) })
def widthCases : List Case := [
    { opc := 0x040, instr := .add, ary := 2, ops := narrowA, ok := fun f _ => mixed f },
    { opc := 0x004, instr := .merge, ary := 2, pm := 3, ops := narrowA, ok := fun f _ => mixed f },
    { opc := 0x0C3, instr := .fma, ary := 3, fmt := 2, ops := narrowA, ok := fun f _ => mixed f },
    { opc := 0x040, instr := .add, ary := 2, scl := 1, edit := scaledTag,
      ok := fun f _ => !mixed f && f.tokens.any (fun e => e.1 != 3 && e.2.sc) },
    { opc := 0x040, instr := .add, ary := 2, scl := 2, ok := fun f _ => !mixed f && f.tokens.any (fun e => e.1 != 3 && !e.2.sc) },
    { opc := 0x00B, instr := .calloc, spec := { ready := colourFree, badWidth := fun f => decide (32 < callocWidth f) }, lit := 2, lit32 := 33
      edit := fun s => s.modRegion 0 (fun r => { r with carve := 4096 }), ok := fun f _ => decide (32 < callocWidth f) },
    { opc := 0x014, instr := .spawn, spec := { badWidth := fun f => decide (f.ta.wid < 2) }, fmt := 1, lit := 2,
      ok := fun f _ => decide (f.ta.wid < 2) },
    { opc := 0x0E4, instr := .dqntb, spec := { badWidth := dqntbBeyond }, fmt := 8, lit := 2, lit32 := 0x12,
      ok := fun f _ => dqntbBeyond f },
    { opc := 0x0F3, instr := .smrg, spec := { badWidth := fun f => decide (f.wid < 2) }, ary := 2, fmt := 2,
      ok := fun f _ => decide (f.wid < 2) },
    { opc := 0x140, instr := .tdld, spec := { anyWidth := true, badWidth := fun f => f.ta.wid != 16 }, ary := 2, fmt := 1,
      ok := fun f _ => f.ta.wid != 16 },
    { opc := 0x141, instr := .tdset, spec := { anyWidth := true, badWidth := fun f => decide (32 < fieldWidth f.code) && decide (f.ta.wid < 2) },
      ary := 2, fmt := 0, ok := fun f _ => decide (32 < fieldWidth f.code) && decide (f.ta.wid < 2) },
    { opc := 0x144, instr := .tdreg, spec := { anyWidth := true, badWidth := fun f => decide (f.ta.wid < 2) }, ary := 2, fmt := 1, ok := fun f _ => decide (f.ta.wid < 2) },
    { opc := 0x15C, instr := .cdxset, spec := { anyWidth := true, badWidth := fun f => f.ta.wid != 16 }, ary := 2, fmt := 1,
      ok := fun f _ => f.ta.wid != 16 },
    { opc := 0x154, instr := .had, spec := { badWidth := fun f => unevenRuns f.nrec.fmt.toNat (16 * 2 ^ (f.nrec.lit32.toNat % 4)) f }, fmt := 2, lit := 2
      ok := fun f _ => f.ta.lanes.length * elemsPerLane f.nrec.fmt.toNat % (16 * 2 ^ (f.nrec.lit32.toNat % 4)) != 0 },
    { opc := 0x289, instr := .wrsr, spec := wrsrSpec, lit := 2, lit32 := 0x40,
      edit := fun s => s.modContext 0 (fun c => { c with priv := true })
      ok := fun f s => (s.context (s.region f.g).ctx).priv && decide (0x40 ≤ f.nrec.lit32.toNat % 256) && f.ta.wid != 2 },
    { opc := 0x287, instr := .snap, spec := snapSpec, fmt := 1, lit := 2, lit32 := 1, held := true,
      edit := fun s => s.modContext 0 (fun c => { c with priv := true })
      ok := fun f s => (s.context (s.region f.g).ctx).priv && bit f.nrec.lit32.toNat 0 && decide (f.ta.wid < 2) }]
theorem witness_WidthsAndScalesFault : widthCases.all Case.first = true := by decide +kernel

def narrow (s : State) : State := s.modColour 0 0 (fun c => { c with wid := 0 })
def widerCases : List Case := [
    { opc := 0x001, instr := .pass, edit := narrow, sent := 0, ok := fun f s => decide ((s.colour f.g f.col).wid < f.passed.wid) },
    { opc := 0x006, instr := .gate, ary := 2, pm := 1, edit := narrow, sent := 0,
      ok := fun f s => decide ((s.colour f.g f.col).wid < f.passed.wid) },
    { opc := 0x003, instr := .steer, pm := 3, edit := narrow, sent := 0,
      ok := fun f s => decide ((s.colour f.g f.col).wid < f.passed.wid) },
    { opc := 0x06F, instr := .bcast, lit := 2, lit32 := 4, edit := fun s => s.modColour 0 0 (fun c => { c with wid := 2 }), sent := 0,
      ok := fun f s => decide ((s.colour f.g f.col).wid < f.nrec.lit32.toNat % 64) }]
theorem witness_widerTokens : widerCases.all Case.faults = true := by decide +kernel

def callocSpec : FireSpec := { ready := colourFree, badWidth := fun f => decide (32 < callocWidth f) }
def domain (s : State) : State := (s.modRegion 0 (fun r => { r with kernel := some 0 })).setKernel 0 { st := .running, horizon := 9 }
def carved (n : Nat) (s : State) : State := s.modRegion 0 (fun r => { r with carve := n })
/-- Node 1 of the colour keeps a token. -/
def surplus (s : State) : State := s.modNode 0 0 1 (fun x => { x with qa := [token 0 0 [1]] })
def inDepth (s : State) : State := s.modRegion 0 (fun r => { r with depth := 1, calls := [aCall] })
def colourCases : List Case := [
    { opc := 0x00D, instr := .cbind, ary := 3, lit := 1, sent := 0,
      ok := fun f s => (s.colour f.g ((f.tc.lanes.headD 0).toNat % 4096)).st != .live },
    { opc := 0x011, instr := .inject, edit := fun s => s.modColour 0 0 (fun c => { c with st := .ended }), sent := 0,
      ok := fun f s => (s.colour f.g f.col).st != .live },
    { opc := 0x00E, instr := .cret, spec := { ready := unreservedFree }, sent := 0, ok := fun f s => (s.colour f.g f.col).group.isSome },
    { opc := 0x00B, instr := .calloc, spec := callocSpec, lit := 2, sent := 0
      ok := fun f s => (match (s.region f.g).allocate (s.ovsz f.g) (f.want s (callocWidth f) (callocTs f) 0 0) false with
        | .exhausted => true
        | _ => false) },
    { opc := 0x00B, instr := .calloc, spec := callocSpec, ary := 2, lit := 2, edit := fun s => domain (carved 4096 s), sent := 0
      ok := fun f s => callocTs f != 0 && decide (callocTs f < s.horizon f.g) },
    { opc := 0x00C, instr := .cfree, edit := surplus, sent := 0, ok := fun f s => (s.unfinished f.g f.col).isNone && s.surplus f.g f.col },
    { opc := 0x281, instr := .callg, spec := { ready := callReady }, lit := 2, lit32 := 0x01000080,
      edit := fun s => (called s).modRegion 0 (fun r => { r with depth := 64 }), sent := 0 },
    { opc := 0x281, instr := .callg, spec := { ready := callReady }, lit := 2, lit32 := 0x02000080, edit := called, sent := 0,
      ok := fun f s => decide ((s.region f.g).depth < s.depthLimit f.g) && (match s.directory f.g 2 with
      | .ok _ => false
      | .error _ => true) },
    { opc := 0x282, instr := .retg, sent := 0, ok := fun f s => (s.region f.g).depth == 0 },
    { opc := 0x282, instr := .retg, edit := fun s => (surplus (inDepth s)), sent := 0,
      ok := fun f s => (s.region f.g).depth != 0 && (s.region f.g).isBase f.col && (s.unfinished f.g f.col).isNone && s.surplus f.g f.col },
    { opc := 0x283, instr := .tailg, spec := { ready := tailReady }, lit := 2, lit32 := 0x01000000,
      edit := fun s => (called s).modRegion 0 (fun r => { r with depth := 1, calls := [{ aCall with col := 3 }] }), sent := 0,
      ok := fun f s => !(s.region f.g).isBase f.col },
    { opc := 0x283, instr := .tailg, spec := { ready := tailReady }, lit := 2, lit32 := 0x01000000,
      edit := fun s => surplus (called s), sent := 0,
      ok := fun f s => (s.region f.g).isBase f.col && (s.unfinished f.g f.col).isNone && s.surplus f.g f.col },
    { opc := 0x283, instr := .tailg, spec := { ready := tailReady }, lit := 2, lit32 := 0x02000000, edit := called, sent := 0,
      ok := fun f s => (match s.directory f.g 2 with
      | .ok _ => false
      | .error _ => true) },
    { opc := 0x283, instr := .tailg, spec := { ready := tailReady }, lit := 2, lit32 := 0x01000000,
      edit := fun s => (called s).put 0x8020002000 [9] false, sent := 0,
      ok := fun f s => (match s.directory f.g 1 with
      | .ok (va, _) => !(match s.loadImage (s.region f.g).ctx va ((s.region f.g).site f.g) with
        | .ok _ => true
        | .error _ => false)
      | .error _ => false) },
    { opc := 0x283, instr := .tailg, spec := { ready := tailReady }, lit := 2, lit32 := 0x01000040, edit := called, sent := 0,
      ok := fun f s => (match s.directory f.g 1 with
      | .ok (va, _) => (match s.loadImage (s.region f.g).ctx va ((s.region f.g).site f.g) with
        | .ok i => !i.hasEntry 0 0 1
        | .error _ => false)
      | .error _ => false) }]
theorem witness_ColoursAndCallsFault : colourCases.all Case.faults = true := by decide +kernel

/-- A token arrives at a node without its port, too wide for its colour, under an Ended colour, or under a Free one of a kernel. -/
def arriving (f : Flight) (edit : State → State) (ok : Token → State → Bool) : Bool :=
  event .tokenArrival (.flight 9) (edit (flying f)) (fun s => (Tab.find s.flights 9).any (fun f => decide (f.arrive ≤ s.cycle) &&
      f.tok.mark == .data && ok f.tok s))
def whole (t : Token) (s : State) : Bool := (s.colour 0 t.col).st != .purging && (s.colour 0 t.col).st != .free &&
    !({ flight with tok := t } : Flight).corrupt
def ported (t : Token) (s : State) : Bool := (s.record 0 0 t.node).any (fun x => recHasPort x.2 t.port)
def fitting (t : Token) (s : State) : Bool := decide (0 < t.wid) && decide (t.wid ≤ 32) && decide (t.wid ≤ (s.colour 0 t.col).wid)
def clausesArrivals : List Bool := [
    arriving { flight with tok := { flight.tok with node := 5 } } id (fun t s => whole t s && !ported t s),
    arriving flight narrow (fun t s => whole t s && ported t s && !fitting t s),
    arriving flight (fun s => s.modColour 0 0 (fun c => { c with st := .ended }))
      (fun t s => whole t s && ported t s && fitting t s && (s.colour 0 t.col).st == .ended),
    arriving { flight with tok := { flight.tok with col := 7 } } domain
      (fun t s => (s.colour 0 t.col).st == .free && (s.region 0).kernel == some 0)]
theorem witness_arrivals : clausesArrivals.all id = true := by decide +kernel

def counting' (s : State) : State := s.modContext 0 (fun c => { c with tidCnt := 4, tidCntNow := 4, tidBase := 0x80000, tidBaseNow := 0x80000 })
def idCase (o : Nat) (i : Rec → Instr) (p : FireSpec) (fmt : BitVec 4) (a : List Word) (t : Word) : Case :=
  { opc := o, instr := i, spec := p, ary := 2, fmt := fmt, ops := fun p => if p = 0 then a else [t], edit := counting', sent := 0 }
def knownTid (t : Nat) (s : State) : Bool := decide (t < (s.context 0).tidCntNow)
def tdldSpec : FireSpec := { anyWidth := true, badWidth := fun f => f.ta.wid != 16 }
def tdregSpec : FireSpec := { anyWidth := true, badWidth := fun f => decide (f.ta.wid < 2) }
def tdsetSpec : FireSpec := { anyWidth := true, badWidth := fun f => decide (32 < fieldWidth f.code) && decide (f.ta.wid < 2) }
def described (d : Nat) (s : State) : State := s.modRegion 0 (fun r => { r with cfg := { r.cfg with cdx := [(0, BitVec.ofNat 512 d)] } })
/-- The descriptor continues an accumulation (ACC). -/
def chainedImage (n : Nat) : Nat := n + 2 ^ 508
def trineFault (o ary : Nat) (i : Rec → Instr) (lit32 : BitVec 32) (d : Nat) (fmt : Nat) (ok : Fire → State → Bool) : Case :=
  { opc := o, instr := i, spec := trineSpec, ary := BitVec.ofNat 2 ary, fmt := 2, lit := 2, lit32 := lit32, ops := fun _ => [0x3F800000], held := true, sent := 0
    edit := fun s => described d (s.setStay 0 0 { s.stayFile 0 0 with fmt := fmt }), ok := ok }
def trines : List (Nat × Nat × (Rec → Instr) × Nat) := [(0x150, 2, .tric, descriptorImage), (0x151, 2, .mma, descriptorImage), (0x152, 3, .tris, sparseImage), (0x153, 3, .mmas, sparseImage)]
def trineFaults : List Case := trines.flatMap (fun x => [
    trineFault x.1 x.2.1 x.2.2.1 0 0 2 (fun f s => !beginOk f s),
    trineFault x.1 x.2.1 x.2.2.1 0 (chainedImage x.2.2.2) 2 (fun f s => beginOk f s && (!heldOf f s || (s.stayFile f.h 0).fmt == 2) &&
      cdxAcc (s.descriptor f.g f.nrec).toNat && !s.chained f)]) ++
  [trineFault 0x150 2 .tric 0 descriptorImage 3 (fun f s => beginOk f s && heldOf f s && (s.stayFile f.h 0).fmt != 2),
   trineFault 0x152 3 .tris 0 sparseImage 3 (fun f s => beginOk f s && heldOf f s && (s.stayFile f.h 0).fmt != 2)]
def lutmSpec : FireSpec := { ready := trineIdle, lut := true, usesAcc := true, usesStay := fun _ _ => true
                             badWidth := fun f => unevenRuns 10 (4 * (bits f.nrec.lit32.toNat 14 10 + 1)) f }
def tensorFaults : List Case := [
    idCase 0x140 .tdld tdldSpec 1 (laneList 16 tensorImage) 4, { idCase 0x140 .tdld tdldSpec 1 (laneList 16 (tensorImage + 2 ^ 447 * 7)) 1 with ok := fun f _ => !imageOk (imageOf f.ta) },
    idCase 0x141 .tdset tdsetSpec 2 [8] 4, { idCase 0x141 .tdset tdsetSpec 2 [0] 1 with ok := fun f _ => !fieldOk f.code (tdsetValue f) },
    { idCase 0x142 .tddrop { anyWidth := true } 1 [1] 0 with ary := 1, lit := 2, lit32 := 4 }, { idCase 0x143 .tdkeep { anyWidth := true } 1 [1] 0 with ary := 1, lit := 2, lit32 := 4 },
    idCase 0x144 .tdreg tdregSpec 1 [0x1000, 0] 4, { idCase 0x144 .tdreg tdregSpec 1 [0x1001, 0] 1 with ok := fun f _ => wideValue f.ta true % 64 != 0 },
    { opc := 0x15C, instr := .cdxset, spec := { anyWidth := true, badWidth := fun f => f.ta.wid != 16 }, ary := 2, fmt := 1, ops := fun p => if p = 0 then laneList 16 1 else [1], sent := 0
      ok := fun f _ => !cdxOk (imageOf f.ta) },
    { opc := 0x159, instr := .accld, spec := accSpec, fmt := 2, lit := 2, lit32 := 1023, ops := fun _ => [0, 0], sent := 0,
      ok := fun f _ => decide (1024 < 1023 + f.wid) },
    { opc := 0x15D, instr := .accx, spec := accSpec, fmt := 2, lit := 2, sent := 0, ok := fun f s => !s.chained f },
    { opc := 0x15D, instr := .accx, spec := accSpec, fmt := 2, lit := 2, lit32 := 1023, ops := fun _ => [0, 0], sent := 0
      edit := fun s => s.setAcc 0 0 { s.accFile 0 0 with acol := some (0, 0) }, ok := fun f s => s.chained f },
    { opc := 0x155, instr := .lutp, spec := { ready := trineIdle, lut := true, usesStay := fun _ _ => true, badWidth := fun f => unevenRuns f.nrec.fmt.toNat 4 f }
      fmt := 2, lit := 2, lit32 := 31, ops := fun _ => List.replicate 8 0, sent := 0 },
    { opc := 0x156, instr := .lutm, spec := lutmSpec, fmt := 10, lit := 2, ops := fun _ => [0], sent := 0,
      ok := fun f s => (s.stayFile f.h 0).fmt != 16 },
    { opc := 0x156, instr := .lutm, spec := lutmSpec, fmt := 10, lit := 2, ops := fun _ => [0], sent := 0,
      edit := fun s => s.setStay 0 0 { s.stayFile 0 0 with fmt := 16 }
      ok := fun f s => (s.stayFile f.h 0).fmt == 16 && !s.chained f },
    { opc := 0x156, instr := .lutm, spec := lutmSpec, fmt := 10, lit := 2, lit32 := 1023, ops := fun _ => [0, 0], sent := 0
      edit := fun s => (s.setAcc 0 0 { s.accFile 0 0 with acol := some (0, 0) }).setStay 0 0 { s.stayFile 0 0 with fmt := 16 }
      ok := fun f s => (s.stayFile f.h 0).fmt == 16 && s.chained f },
    { opc := 0x15A, instr := .tstay, spec := { ready := trineIdle, usesStay := fun _ _ => true }, fmt := 2, lit := 2, lit32 := 8, sent := 0 },
    { opc := 0x15B, instr := .txpr, spec := { ready := blockReady }, fmt := 8, sent := 0, edit := fun s => s.modSlot 0 0 (fun v =>
        { v with transpose := some ({ node := 0, tag := (1, 0), scw := 0, elems := [], widths := [], flg := 0, tnt := false, sc := false, out := []
                                      nrec := plainRec, due := 0 } : Transpose) }) }]
theorem witness_TensorsAndTrinesFault : (trineFaults ++ tensorFaults).all Case.faults = true := by decide +kernel

def clausesContractionFaults : List Bool := [
    event .contractionStep (.slot 0 0) (stepping.modNode 0 0 0 (fun x => { x with qa := [marker .barrier] }))
        (fun s => (s.slot 0 0).region == some 0 &&
      (s.slot 0 0).contraction.any (fun c => s.stepDue 0 0 && (c.foreign c.walk (s.node 0 0 c.node)).isSome)),
    event .contractionStep (.slot 0 0) (stepping.modNode 0 0 0 (fun x => { x with qa := [{ token 2 0 [0x3F800000, 0, 0] with wid := 3 }] })) (fun s =>
      (s.slot 0 0).region == some 0 && (s.slot 0 0).contraction.any (fun c => s.stepDue 0 0 &&
        (c.foreign c.walk (s.node 0 0 c.node)).isNone &&
        (stepFault c c.walk (c.taking c.walk (s.node 0 0 c.node))).isSome))]
theorem witness_contractionFaults : clausesContractionFaults.all id = true := by decide +kernel

/-! ### Withheld accesses -/

/-- It fires, and its node withholds the access with this cause. -/
def Case.withholds (c : Case) (cause : Nat) : Bool :=
  c.fires && c.after.any (fun t => (t.node 0 0 0).withheld.any (fun w => w.cause == cause))
/-- Bindings with V = 0, in the bank, over virtual memory and to a mesh endpoint that reaches nothing. -/
def virtBank : Nat := 2 ^ 511 + 2 ^ 509 + 4096 * 2 ^ 399 + 0x40000000 * 2 ^ 431
def routedBank : Nat := 2 ^ 511 + 4096 * 2 ^ 399
def asks (o : Nat) (i : Rec → Instr) (p : FireSpec) (ary : BitVec 2) (fmt : BitVec 4) (b : Nat) (a : Word) : Case :=
  { opc := o, instr := i, spec := p, ary := ary, fmt := fmt, lit := 2, lit32 := 0xFC000000, ops := fun p => if p = 0 then [a] else if o = 0x1DA then (if p = 1 then List.replicate 16 1 else [0, 0]) else [1]
    edit := fun s => bound s b, held := true, sent := 0 }
def accessFaults (o : Nat) (i : Rec → Instr) (p : FireSpec) (ary : BitVec 2) (fmt : BitVec 4) (bytes : Bool) : List Bool := [
  (asks o i p ary fmt 0 4).withholds 1, bytes || (asks o i p ary fmt ownBank 2).withholds 5, (asks o i p ary fmt ownBank 4096).withholds 6,
  (asks o i p ary fmt virtBank 0).withholds 7, (asks o i p ary fmt routedBank 0).withholds 9]
def atomics : List (Nat × (Rec → Instr)) := [(2, .amin), (3, .amax), (4, .aand), (5, .aor), (6, .axor), (7, .axchg), (9, .ainc)]
def withheldCases : List Bool :=
  accessFaults 0x1C1 .ld (specLd.fires true) 1 0 false ++ accessFaults 0x1C3 .ldx (specLdx.fires false) 1 0 false ++
  accessFaults 0x1C2 .st (specSt.fires true) 2 0 false ++ accessFaults 0x1DB .retw (specRetw.fires false) 2 7 true ++
  accessFaults 0x1D0 .aadd (specAtomic.fires false) 2 0 false ++
  atomics.map (fun x => (asks (0x1D0 + x.1) x.2 (specAtomic.fires false) 2 0 ownBank 2).withholds 5) ++
  [(asks 0x1C8 .ldn (specLdn.fires true) 1 0 ownBank 4096).withholds 6, (asks 0x1E1 .mcast (specMcast.fires true) 2 0 virtBank 0).withholds 7,
   (asks 0x1DA .optst (specOptst.fires true) 3 2 ownBank 32).withholds 5, (asks 0x1D8 .acas (specAtomic.fires false) 3 0 routedBank 0).withholds 9,
   (asks 0x1D1 .afadd (specAtomic.fires false) 2 2 0 0).withholds 1, (asks 0x1C4 .lds (specLds.fires true) 1 0 0 4).withholds 1,
   (asks 0x1C5 .sts (specSts.fires true) 2 0 ownBank 2).withholds 5]
theorem witness_MemoryNodesWithhold : withheldCases.all id = true := by decide +kernel

/-- A store that must start at its pointer, and one that stages another scale word than its run has. -/
def issuing (edit : Request → Request) (s : State) : State := s.modSlot 0 0 (fun x => { x with cfg := { x.cfg with buffer := x.cfg.buffer.map edit } })
def asksNow (s : State) (ok : Request → Bool) : Bool := (s.slot 0 0).region == some 0 &&
    (s.request 0 0 askedId).any (fun q => s.mayIssue 0 0 0 q && ok q)
def clausesIssue : List Bool := [
    event .requestIssue (.request 0 0 askedId) (issuing (fun q => { q with pointer := some (3, 64, 4) }) unissued) (fun s =>
      asksNow s (fun q => q.pointer.any (fun x => s.pointer 0 x.1 != x.2.1))),
    event .requestIssue (.request 0 0 askedId) (issuing (fun q => { q with pointer := some (3, 0, 4) }) unissued) (fun s =>
      asksNow s (fun q => q.pointer.any (fun x => s.pointer 0 x.1 == x.2.1) && !s.mixes 0 q.col q.mix)),
    event .requestIssue (.request 0 0 askedId) (issuing (fun q => { q with mix := some (0x40, 5) }) unissued |>.modColour 0 0 (fun c => { c with blocks := [(0x40, 6)] })) (fun s =>
      asksNow s (fun q => q.mix.any (fun m => (s.colour 0 0).blocks.any (fun x => x.1 == m.1 && x.2 != m.2))))]
theorem witness_issues : clausesIssue.all id = true := by decide +kernel

/-- A committed colour of kernel 0's region with everything applied. -/
def ending : State := (domain' running).modColour 0 0 (fun c => { c with committed := true, flagsSt := 3, mxcNan := 2, taint := true }) where
  domain' (s : State) : State := (s.modRegion 0 (fun r => { r with kernel := some 0 })).setKernel 0 { st := .running, mxcNan := 0xFFFFFFFF }
def mergesNow : Bool :=
  event .activationCommit (.colour 0 0) ending (fun s => (s.region 0).kernel == some 0 && (s.colour 0 0).staged.isEmpty &&
      (s.entriesOf 0 0).isEmpty &&
    (s.orphans 0 0).isEmpty && !s.queueWaits 0 0 && !s.spawnWaits 0 0) &&
  (let t := stepped .activationCommit (.colour 0 0) ending
   (t.kernel 0).flagsK == 3 && (t.kernel 0).mxcNan == 0xFFFFFFFF && (t.kernel 0).verdict == 2 && (t.colour 0 0).st == .free)
theorem witness_CommitsMerge : mergesNow = true := by decide +kernel

/-- ENQ and TAIL name a queue of another context, or the host's. -/
def foreignQueue (host : Bool) (s : State) : State := s.modQueue 0 (fun q => { q with host := host, ctx := if host then 0 else 3 })
def queueUses (host : Bool) : List Case := [
    { opc := 0x241, instr := .tail, spec := { breach := queueBreach }, lit := 2, edit := foreignQueue host },
    { opc := 0x240, instr := .enq, spec := enqSpec, ary := 2, fmt := 1, lit := 2, ops := fun p => if p = 0 then List.replicate 16 0 else [0x1000, 0], edit := foreignQueue host, held := true }]
/-- The region's context may not name the queue. -/
def turnedAway (c : Case) : Bool := c.firing.any (fun x => let q := x.2.queue 0
  (q.host || q.ctx != (x.2.region x.1.g).ctx && !(x.2.context (x.2.region x.1.g).ctx).priv) && c.after.any (fun t =>
    (t.colour 0 0).st == .purging))
theorem witness_foreignQueues : (queueUses true ++ queueUses false).all turnedAway = true := by decide +kernel

def clausesRegisters : List Bool := [
    registerAt 0x1020 == none, registerAt 0x1000 == some (0x1000, 4),
    written (.registerWrite 0x100001020 [7]), written (.registerWrite 0x100001020 [7, 8]), written (.registerWrite 0x100001000 [1, 0, 0, 0, 5]),
    written (.registerWrite 0x40 [1]),
    (match registerStep 0x100 1 with
     | some (.snapTrig _, _) => true
     | _ => false),
    serving.idle 1 && !(serving.setKernel 0 { st := .running, ctx := 2 }).idle 2,
    ({ serving with phase := 3 } : State).mmioRead 0x100000000 4 == none,
    (serving.mmioRead 0x10000030C 4).any (fun bs => leNat bs == 128),
    serving.registerByte 0x100000010 == 0]
theorem witness_registers : clausesRegisters.all id = true := by decide +kernel

/-- spec/04_token_colour.md, after R67: the worked example of a slot's address (wave 11, join 2, three joins a hearth). -/
theorem test_slot_address : ({ wid := 4, km1 := 7, fb := 0x40 } : Colour).slotAddr 0xC000 0 3 11 2 = 0xC6E0 := by decide +kernel

end Sys2Proof.Tests
end

section
namespace Sys2Proof.Machine

/-! ### The state at reset -/

/-- Settles O7: the reset state lists no entry in any of its tables, so every read gives the table's default. -/
theorem resetValues : Obligations.ResetValues := by
  unfold Obligations.ResetValues
  exact ⟨fun _ _ => ⟨rfl, rfl⟩, fun _ _ => rfl, fun _ => rfl, fun _ => ⟨rfl, rfl, rfl, rfl, rfl⟩,
    fun _ => ⟨rfl, rfl, rfl, rfl, rfl, rfl⟩, fun _ => rfl, fun _ => rfl, fun _ _ => rfl, rfl, rfl, rfl, rfl, rfl⟩

/-! ### Rounding modes -/

/-- A write of RND_DEF changes the record of the writer's own context and nothing else (R25). -/
theorem State.applyRegister_rndDef (s : State) (g h v : Nat) :
    s.applyRegister g h 0x03 v =
      s.setContext (s.region g).ctx { s.context (s.region g).ctx with rndDef := if 4 < v then 0 else v } := rfl

/-- RND_DEF is read from the context that holds the region. -/
theorem State.statusReg_rndDef (s : State) (g c d : Nat) : s.statusReg g c d 0x03 = (s.context (s.region g).ctx).rndDef := rfl

/-- What a read of RND_DEF gives after a write of it: a mode up to 100 as written, 000 for anything else. -/
theorem State.rndDef_after_write (s : State) (g h c d v : Nat) :
    (s.applyRegister g h 0x03 v).statusReg g c d 0x03 = if 4 < v then 0 else v := by
  rw [State.applyRegister_rndDef, State.statusReg_rndDef]
  simp

/-- Settles O18: what is read back is `State.rndDef_after_write`, and no other context's record is written. -/
theorem rndDefKeepsItsMode : Obligations.RndDefKeepsItsMode := by
  unfold Obligations.RndDefKeepsItsMode
  refine ⟨fun _ => rfl, fun s g h c d v => ?_⟩
  simp only [State.rndDef_after_write]
  refine ⟨fun hv => if_neg (by omega), fun hv => if_pos (by omega), by split <;> omega, fun x hx => ?_⟩
  rw [State.applyRegister_rndDef, State.setContext_context_other _ _ _ _ hx.symm]

/-! ### What a write through `put` changes -/

/-- A granule is among those that `n` bytes at `a` meet where some byte of the range lies in it. -/
theorem mem_granules (a n g : Nat) : g ∈ granules a n ↔ n ≠ 0 ∧ 64 * g < a + n ∧ a < 64 * g + 64 := by
  unfold granules
  split
  · simp [*]
  · simp only [List.mem_map, List.mem_range]
    constructor
    · rintro ⟨i, hi, rfl⟩
      omega
    · intro hg
      exact ⟨g - a / 64, by omega, by omega⟩

/-- The poisoned granules after a write (R345). -/
theorem mem_poisonAfter (p : List Nat) (a n : Nat) (tainted : Bool) (g : Nat) :
    g ∈ poisonAfter p a n tainted ↔
      (tainted = true ∧ 64 * g < a + n ∧ a < 64 * g + 64 ∧ n ≠ 0) ∨
      (g ∈ p ∧ (tainted = true ∨ ¬ (a ≤ 64 * g ∧ 64 * g + 64 ≤ a + n))) := by
  unfold poisonAfter
  cases tainted
  · simp only [List.mem_filter, Bool.not_eq_true', Bool.and_eq_false_iff, decide_eq_false_iff_not, if_false, Bool.false_eq_true,
      false_and, false_or, not_and_or]
  · simp only [if_true, mem_foldl_insertRising, mem_granules]
    tauto

/-- T3 keeps no poison: a write there leaves it as it was. -/
theorem State.put_poison_t3 (s : State) (pa : Nat) (bs : List Byte) (p : Bool)
    (h : tierOf (forwardAddr s.forwards pa) = some .t3) : (s.put pa bs p).poison = s.poison := by
  simp [State.put, h]

/-- Any other write leaves the poison that `poisonAfter` names. -/
theorem State.put_poison_other (s : State) (pa : Nat) (bs : List Byte) (p : Bool)
    (h : tierOf (forwardAddr s.forwards pa) ≠ some .t3) :
    (s.put pa bs p).poison = poisonAfter s.poison (forwardAddr s.forwards pa) bs.length p := by
  simp [State.put, h]

/-- Settles O8: the bytes by `Memory.read_write_same` and `Memory.read_write_other`, the poison by `mem_poisonAfter`. -/
theorem putWritesItsBytesOnly : Obligations.PutWritesItsBytesOnly := by
  unfold Obligations.PutWritesItsBytesOnly
  intro s pa bs p hs
  refine ⟨fun i hi => Memory.read_write_same _ _ hs.1 i hi, fun x hx => Memory.read_write_other _ _ hs.1 x hx,
    State.put_poison_t3 s pa bs p, fun h g => ?_, State.put_inv pa bs p hs⟩
  simp only [State.put_poison_other s pa bs p h, mem_poisonAfter, Ne, List.length_eq_zero_iff]

end Sys2Proof.Machine
end

section
namespace Sys2Proof.Machine

/-! ### The part of the state that the invariant speaks of

The invariant speaks of memory and poison only. For each function of the model there is one lemma: `f_store` where it leaves both as they
were, and `f_storeOk` where it writes but keeps them canonical. Writes to memory and poison are made in four places (`State.put`,
`State.poisonAt`, the thermal shutdown and the power-on reset); every other lemma goes through those of the functions that are called. -/

/-- What memory holds and which granules are poisoned: the part of the state that the invariant speaks of. -/
def State.store (s : State) : List Host.Cell × List Nat := (s.mem, s.poison)

/-- A store in the model's canonical form. -/
def StoreOk (m : List Host.Cell × List Nat) : Prop := Memory.wf m.1 = true ∧ risingFrom 0 m.2 = true

theorem State.inv_iff_storeOk (s : State) : s.Inv ↔ StoreOk s.store := Iff.rfl

theorem State.store_of_around {s t : State} (h : t.around = s.around) : t.store = s.store :=
  congrArg (fun u => (u.mem, u.poison)) h

theorem StoreOk.of_eq {s t : State} (h : t.store = s.store) (hs : StoreOk s.store) : StoreOk t.store := by rwa [h]

@[simp] theorem State.store_ite (c : Prop) [Decidable c] (a b : State) :
    (if c then a else b).store = if c then a.store else b.store := apply_ite ..

@[simp] theorem foldl_store {α : Type} (f : State → α → State) (h : ∀ s a, (f s a).store = s.store) (l : List α) (s : State) :
    (l.foldl f s).store = s.store := by
  induction l generalizing s with
  | nil => rfl
  | cons a l ih => exact (ih _).trans (h s a)

theorem foldl_storeOk {α : Type} (f : State → α → State) (h : ∀ s a, StoreOk s.store → StoreOk (f s a).store) (l : List α)
    (s : State) (hs : StoreOk s.store) : StoreOk (l.foldl f s).store := by
  induction l generalizing s with
  | nil => exact hs
  | cons a l ih => exact ih _ (h s a hs)

/-! ### The store through Machine/Mem -/

@[simp] theorem State.put_storeOk (s : State) (pa : Nat) (bs : List Byte) (tainted : Bool) (hs : StoreOk s.store) :
    StoreOk (s.put pa bs tainted).store := State.put_inv pa bs tainted hs

@[simp] theorem State.usePort_store (s : State) (as : List Nat) :
    (s.usePort as).store = s.store := rfl

@[simp] theorem State.critDone_store (s : State) (crit : List Nat) :
    (s.critDone crit).store = s.store := by
  unfold State.critDone
  split <;> rfl

@[simp] theorem cacheIn_store {α : Type} (size : Nat) (x : α) (l : List α) (s : State) :
    (cacheIn size x l s).2.store = s.store := by
  unfold cacheIn
  split <;> rfl

@[simp] theorem State.fillPointers_store (s : State) (u : Nat) (ps : List CachedPointer) :
    (s.fillPointers u ps).store = s.store := by
  induction ps generalizing s with
  | nil => rfl
  | cons x t ih => exact (ih _).trans (cacheIn_store _ x _ s)

@[simp] theorem State.fillLeaf_store (s : State) (u : Nat) (x : CachedLeaf) :
    (s.fillLeaf u x).store = s.store := cacheIn_store _ _ _ _

@[simp] theorem State.orLeaf_storeOk (s : State) (place mask : Nat) (hs : StoreOk s.store) :
    StoreOk (s.orLeaf place mask).store := by
  unfold State.orLeaf
  dsimp only
  split
  · exact hs
  · simp [hs]

@[simp] theorem State.touch_storeOk (s : State) (u m va : Nat) (write : Bool) (hs : StoreOk s.store) :
    StoreOk (s.touch u m va write).store := by
  unfold State.touch
  dsimp only
  split
  · exact hs
  · split
    · simp [hs]
    · split
      · simp [hs]
      · exact hs

@[simp] theorem State.touchAll_storeOk (s : State) (u m va n : Nat) (write : Bool) (hs : StoreOk s.store) :
    StoreOk (s.touchAll u m va n write).store :=
  foldl_storeOk _ (fun s p h => State.touch_storeOk s u m p.1 write h) _ _ hs

@[simp] theorem State.touchRead_storeOk (s : State) (u m : Nat) (ps : List (Nat × Nat)) (hs : StoreOk s.store) :
    StoreOk (s.touchRead u m ps).store := by
  induction ps generalizing s with
  | nil => exact hs
  | cons p t ih =>
    unfold State.touchRead
    split
    · exact ih _ (by simp [hs])
    · exact hs

@[simp] theorem State.readUsed_storeOk (s : State) (u m va n : Nat) (hs : StoreOk s.store) :
    StoreOk (s.readUsed u m va n).store := by
  unfold State.readUsed
  split <;> simp [hs]

@[simp] theorem State.readsUsed_storeOk (s : State) (u m : Nat) (rs : List (Nat × Nat)) (hs : StoreOk s.store) :
    StoreOk (s.readsUsed u m rs).store :=
  foldl_storeOk _ (fun s r h => State.readUsed_storeOk s u m r.1 r.2 h) _ _ hs

@[simp] theorem putPieces_storeOk (s : State) (bs : List Byte) (tainted : Bool) (ps : List (Nat × Nat × Nat))
    (hs : StoreOk s.store) : StoreOk (putPieces s bs tainted ps).store := by
  induction ps generalizing s bs with
  | nil => exact hs
  | cons p t ih => exact ih _ _ (by simp [hs])

theorem State.writeVirt_storeOk {s t : State} {u m va : Nat} {bs : List Byte} {tainted : Bool}
    (e : s.writeVirt u m va bs tainted = .ok t) (hs : StoreOk s.store) : StoreOk t.store := by
  unfold State.writeVirt at e
  split at e
  · cases e
  · cases e
    simp [hs]

@[simp] theorem State.putPhys_storeOk (s : State) (pa : Nat) (bs : List Byte) (hs : StoreOk s.store) :
    StoreOk (s.putPhys pa bs).store := by
  simp [State.putPhys, hs]

/-! ### The store through Machine/Access -/

@[simp] theorem State.setSlot_store (s : State) (h k : Nat) (x : SlotState) :
    (s.setSlot h k x).store = s.store := rfl

@[simp] theorem State.modSlot_store (s : State) (h k : Nat) (f : SlotState → SlotState) :
    (s.modSlot h k f).store = s.store := rfl

@[simp] theorem State.setHearth_store (s : State) (h : Nat) (x : Hearth) :
    (s.setHearth h x).store = s.store := rfl

@[simp] theorem State.modHearth_store (s : State) (h : Nat) (f : Hearth → Hearth) :
    (s.modHearth h f).store = s.store := rfl

@[simp] theorem State.setRegion_store (s : State) (g : Nat) (x : Region) :
    (s.setRegion g x).store = s.store := rfl

@[simp] theorem State.modRegion_store (s : State) (g : Nat) (f : Region → Region) :
    (s.modRegion g f).store = s.store := rfl

@[simp] theorem State.modColour_store (s : State) (g c : Nat) (f : Colour → Colour) :
    (s.modColour g c f).store = s.store := rfl

@[simp] theorem State.setNode_store (s : State) (h k n : Nat) (v : NodeState) :
    (s.setNode h k n v).store = s.store := rfl

@[simp] theorem State.modNode_store (s : State) (h k n : Nat) (f : NodeState → NodeState) :
    (s.modNode h k n f).store = s.store := rfl

@[simp] theorem State.setContext_store (s : State) (m : Nat) (x : Context) :
    (s.setContext m x).store = s.store := rfl

@[simp] theorem State.modContext_store (s : State) (m : Nat) (f : Context → Context) :
    (s.modContext m f).store = s.store := rfl

@[simp] theorem State.setKernel_store (s : State) (e : Nat) (x : Kernel) :
    (s.setKernel e x).store = s.store := rfl

@[simp] theorem State.modKernel_store (s : State) (e : Nat) (f : Kernel → Kernel) :
    (s.modKernel e f).store = s.store := rfl

@[simp] theorem State.setQueue_store (s : State) (q : Nat) (x : Queue) :
    (s.setQueue q x).store = s.store := rfl

@[simp] theorem State.modQueue_store (s : State) (q : Nat) (f : Queue → Queue) :
    (s.modQueue q f).store = s.store := rfl

@[simp] theorem State.freeDelay_store (s : State) :
    s.freeDelay.2.store = s.store := rfl

@[simp] theorem State.freeWord_store (s : State) :
    s.freeWord.2.store = s.store := rfl

@[simp] theorem State.fresh_store (s : State) :
    s.fresh.2.store = s.store := rfl

@[simp] theorem State.push_store (s : State) (ts : List Turn) :
    (s.push ts).store = s.store := rfl

/-! ### The store through Machine/Flags -/

@[simp] theorem State.stageToken_store (s : State) (g c : Nat) (f : BitVec 5) (tnt : Bool) :
    (s.stageToken g c f tnt).store = s.store := rfl

/-! ### The store through Machine/Colours -/

@[simp] theorem State.countWave_store (s : State) (g h k col w : Nat) (isWave : Bool) :
    (s.countWave g h k col w isWave).store = s.store := by
  simp [State.countWave]

@[simp] theorem State.dropWaves_store (s : State) (g : Nat) (cols : List Nat) :
    (s.dropWaves g cols).store = s.store := rfl

@[simp] theorem State.takeWave_store (s : State) (g col w : Nat) :
    (s.takeWave g col w).store = s.store := rfl

@[simp] theorem State.dropChains_store (s : State) (g col : Nat) (keep : Nat → Bool) :
    (s.dropChains g col keep).store = s.store := rfl

@[simp] theorem State.retireWave_store (s : State) (g col : Nat) :
    (s.retireWave g col).store = s.store := by
  simp [State.retireWave]

/-! ### The store through Machine/Emit -/

@[simp] theorem State.sendOne_store (s : State) (g h k n : Nat) (d : Dest) (rank present : Nat) (t : Token) :
    (s.sendOne g h k n d rank present t).store = s.store := State.store_of_around (by simp)

@[simp] theorem State.sendAll_store (s : State) (g h k n : Nat) (r : Rec) (deferred : Bool) (present : Nat) (t : Token) :
    (s.sendAll g h k n r deferred present t).store = s.store := State.store_of_around (by simp)

/-! ### The store through Machine/Ops -/

@[simp] theorem State.purge_store (s : State) (g : Nat) (roots : List Nat) (reissue corrects : Bool) :
    (s.purge g roots reissue corrects).store = s.store := State.store_of_around (by simp)

@[simp] theorem State.modHolder_store (s : State) (g : Nat) (f : Kernel → Kernel) :
    (s.modHolder g f).store = s.store := State.store_of_around (by simp)

@[simp] theorem State.purgeCorrected_store (s : State) (g : Nat) (roots : List Nat) :
    (s.purgeCorrected g roots).store = s.store := State.store_of_around (by simp)

@[simp] theorem State.rollback_store (s : State) (g : Nat) :
    (s.rollback g).store = s.store := by
  unfold State.rollback
  dsimp only
  exact (State.modHolder_store ..).trans (State.purge_store ..)

@[simp] theorem State.dropRegion_store (s : State) (g : Nat) :
    (s.dropRegion g).store = s.store := State.store_of_around (by simp)

@[simp] theorem State.dropKernel_store (s : State) (e : Nat) :
    (s.dropKernel e).store = s.store := State.store_of_around (by simp)

@[simp] theorem State.kernelFault_store (s : State) (e : Nat) (f : FaultRecord) :
    (s.kernelFault e f).store = s.store := State.store_of_around (by simp)

@[simp] theorem State.closeFaults_store (s : State) :
    s.closeFaults.store = s.store := by
  unfold State.closeFaults
  split
  · rfl
  · refine foldl_store _ (fun s x => ?_) _ _
    exact State.store_of_around (by simp)

@[simp] theorem State.nodeFault_store (s : State) (g h k n col wave cause detail : Nat) :
    (s.nodeFault g h k n col wave cause detail).store = s.store := State.store_of_around (by simp)

/-! ### The store through Machine/Operands -/

@[simp] theorem Fire.draws_store (f : Fire) (s : State) (n : Nat) :
    (Fire.draws f s n).2.store = s.store := by
  simp [Fire.draws]

/-! ### The store through Machine/Fire -/

@[simp] theorem State.consume_store (s : State) (f : Fire) :
    (s.consume f).store = s.store := State.store_of_around (by simp)

@[simp] theorem State.noteFiring_store (s : State) (f : Fire) :
    (s.noteFiring f).store = s.store := rfl

@[simp] theorem State.checkJoin_store (s : State) (g h k n opc : Nat) (r : Rec) :
    (s.checkJoin g h k n opc r).store = s.store := State.store_of_around (by simp)

@[simp] theorem State.checkJoins_store (s : State) (e : Nat × SlotState) : (s.checkJoins e).store = s.store := by
  unfold State.checkJoins
  split
  · rfl
  · refine foldl_store _ (fun s n => ?_) _ _
    split <;> simp

@[simp] theorem State.pipe_store (s : State) (f : Fire) (lat : Nat) :
    (s.pipe f lat).store = s.store := rfl

@[simp] theorem State.steer_store (s : State) (f : Fire) (lat : Nat) (t : Token) :
    (s.steer f lat t).store = s.store := State.store_of_around (by simp)

@[simp] theorem State.conclude_store (s : State) (f : Fire) (e : Effect) :
    (s.conclude f e).store = s.store := State.store_of_around (by simp)

theorem State.perform_storeOk (s : State) (p : FireSpec) (f : Fire) (body : Fire → State → State × Effect)
    (h : ∀ f s, StoreOk s.store → StoreOk (body f s).1.store) (hs : StoreOk s.store) : StoreOk (s.perform p f body).store := by
  unfold State.perform
  split
  · simp [hs]
  · split <;> simp [hs, h]

/-! ### The store through Machine/Trine -/

@[simp] theorem State.cutShort_store (s : State) (g : Nat) (x : Nat × Nat × Contraction) :
    (s.cutShort g x).store = s.store := by
  simp [State.cutShort]

@[simp] theorem State.setAcc_store (s : State) (h m : Nat) (a : AccFile) :
    (s.setAcc h m a).store = s.store := rfl

/-! ### The store through Machine/Control -/

@[simp] theorem waveFire_store (isWave : Bool) (f : Fire) (s : State) :
    (waveFire isWave f s).1.store = s.store := by
  simp [waveFire]

@[simp] theorem callocFire_store (f : Fire) (s : State) :
    (callocFire f s).1.store = s.store := by
  unfold callocFire
  dsimp only
  split
  · rfl
  · split <;> rfl

@[simp] theorem endColour_store (f : Fire) (s : State) :
    (endColour f s).1.store = s.store := by
  unfold endColour
  split
  · simp
  · split <;> rfl

@[simp] theorem State.dependOn_store (s : State) (g col from' c ser : Nat) :
    (s.dependOn g col from' c ser).store = s.store := by
  simp [State.dependOn]

@[simp] theorem cbindFire_store (f : Fire) (s : State) :
    (cbindFire f s).1.store = s.store := by
  unfold cbindFire
  dsimp only
  split
  · rfl
  · simp

@[simp] theorem State.hold_store (s : State) (f : Fire) (x : Hold) :
    (s.hold f x).store = s.store := rfl

@[simp] theorem cretFire_store (f : Fire) (s : State) :
    (cretFire f s).1.store = s.store := by
  unfold cretFire
  dsimp only
  split <;> rfl

@[simp] theorem injectFire_store (f : Fire) (s : State) :
    (injectFire f s).1.store = s.store := by
  unfold injectFire
  split
  · rfl
  · split
    · rfl
    · simp

@[simp] theorem cntfFire_store (f : Fire) (s : State) :
    (cntfFire f s).1.store = s.store := by
  unfold cntfFire
  dsimp only
  split <;> rfl

@[simp] theorem State.stageEffect_store (s : State) (f : Fire) (x : Staged) :
    (s.stageEffect f x).store = s.store := rfl

@[simp] theorem spawnFire_store (f : Fire) (s : State) :
    (spawnFire f s).1.store = s.store := rfl

@[simp] theorem State.setEmitted_store (s : State) (f : Fire) (i : Nat) :
    (s.setEmitted f i).store = s.store := rfl

@[simp] theorem markMarkerFire_store (f : Fire) (s : State) :
    (markMarkerFire f s).1.store = s.store := by
  simp [markMarkerFire]

@[simp] theorem predCombine_store (op : Bool → Bool → Bool) (f : Fire) (s : State) :
    (predCombine op f s).1.store = s.store := rfl

/-! ### The store through Machine/Integer -/

@[simp] theorem binary_store (lat : Nat) (op : Fire → Word → Word → Word) (f : Fire) (s : State) :
    (binary lat op f s).1.store = s.store := rfl

@[simp] theorem unary_store (lat : Nat) (op : Fire → Word → Word) (f : Fire) (s : State) :
    (unary lat op f s).1.store = s.store := rfl

@[simp] theorem bitwise_store (op : Word → Word → Word) (res : Fire → Int → Int → Int) (f : Fire) (s : State) :
    (bitwise op res f s).1.store = s.store := by
  unfold bitwise
  split <;> rfl

@[simp] theorem checked_store (op : Fire → Word → Word → Word) (signed : Bool) (f : Fire) (s : State) :
    (checked op signed f s).1.store = s.store := by
  unfold checked
  split <;> rfl

@[simp] theorem summed_store (sat : Fire → Bool) (op : Int → Int → Int) (res : Fire → Int) (f : Fire) (s : State) :
    (summed sat op res f s).1.store = s.store := rfl

@[simp] theorem mulFire_store (f : Fire) (s : State) :
    (mulFire f s).1.store = s.store := rfl

@[simp] theorem madFire_store (f : Fire) (s : State) :
    (madFire f s).1.store = s.store := rfl

@[simp] theorem compare_store (op : Word → Word → Bool) (f : Fire) (s : State) :
    (compare op f s).1.store = s.store := rfl

@[simp] theorem rangeFire_store (f : Fire) (s : State) :
    (rangeFire f s).1.store = s.store := by
  simp [rangeFire]

/-! ### The store through Machine/Tensor -/

@[simp] theorem State.writeTid_storeOk (s : State) (m t : Nat) (mask v : BitVec 512) (hs : StoreOk s.store) :
    StoreOk (s.writeTid m t mask v).store := State.put_storeOk _ _ _ _ hs

@[simp] theorem tdWrite_store (twoPorts : Bool) (bad : Fire → Bool) (write : Fire → BitVec 512 × BitVec 512) (f : Fire) (s : State) :
    (tdWrite twoPorts bad write f s).1.store = s.store := by
  unfold tdWrite
  dsimp only
  split
  · rfl
  · split <;> rfl

@[simp] theorem tdqFire_store (f : Fire) (s : State) :
    (tdqFire f s).1.store = s.store := rfl

/-! ### The store through Machine/Requests -/

@[simp] theorem State.countElem_store (s : State) (f : Fire) :
    (s.countElem f).store = s.store := rfl

@[simp] theorem State.withhold_store (s : State) (f : Fire) (d : Denied) :
    (s.withhold f d).store = s.store := rfl

@[simp] theorem State.unwithhold_store (s : State) (f : Fire) :
    (s.unwithhold f).store = s.store := rfl

@[simp] theorem State.sendMessage_store (s : State) (x : MeshMessage) :
    (s.sendMessage x).store = s.store := rfl

@[simp] theorem State.sendMessages_store (s : State) (xs : List MeshMessage) :
    (s.sendMessages xs).store = s.store := by
  unfold State.sendMessages
  refine foldl_store _ (fun s x => ?_) _ _
  rfl

@[simp] theorem State.dropRequest_store (s : State) (h k id : Nat) :
    (s.dropRequest h k id).store = s.store := rfl

@[simp] theorem touchLeaves_storeOk (u m : Nat) (s : State) (ls : List (Nat × Nat × Bool)) (hs : StoreOk s.store) :
    StoreOk (touchLeaves u m s ls).store := by
  induction ls generalizing s with
  | nil => exact hs
  | cons l t ih => exact ih _ (State.touchAll_storeOk _ _ _ _ _ _ hs)

@[simp] theorem State.advance_store (s : State) (h : Nat) (q : Request) :
    (s.advance h q).store = s.store := by
  unfold State.advance
  split <;> rfl

@[simp] theorem State.enter_storeOk (s : State) (g h k : Nat) (q : Request) (hs : StoreOk s.store) :
    StoreOk (s.enter g h k q).1.store := by
  unfold State.enter
  exact .of_eq (State.advance_store ..) (touchLeaves_storeOk (hs := hs) ..)

@[simp] theorem State.issue_storeOk (s : State) (g h k : Nat) (q : Request) (hs : StoreOk s.store) :
    StoreOk (s.issue g h k q).store := by
  unfold State.issue
  split
  · simp [hs]
  · split
    · simp [hs]
    · have he := State.enter_storeOk s g h k q hs
      generalize s.enter g h k q = p at he ⊢
      obtain ⟨t, q'⟩ := p
      refine .of_eq (State.sendMessages_store ..) ?_
      dsimp only
      split
      · exact .of_eq (by simp) he
      · split <;> exact he

@[simp] theorem State.submitRequest_storeOk (s : State) (g h k : Nat) (q : Request) (hs : StoreOk s.store) :
    StoreOk (s.submitRequest g h k q).store := by
  unfold State.submitRequest
  dsimp only [State.fresh]
  split
  · exact State.issue_storeOk (hs := hs) ..
  · exact hs

@[simp] theorem State.reply_store (s : State) (g h k : Nat) (q : Request) :
    (s.reply g h k q).store = s.store := by
  simp [State.reply]

@[simp] theorem State.timeOut_store (s : State) (h k : Nat) (q : Request) :
    (s.timeOut h k q).store = s.store := rfl

/-! ### The store through Machine/Memory -/

@[simp] theorem State.stageOperands_store (s : State) (f : Fire) (writing : Bool) :
    (s.stageOperands f writing).store = s.store := by
  simp [State.stageOperands]

@[simp] theorem State.take_store (s : State) (p : MemSpec) (f : Fire) :
    (s.take p f).store = s.store := by
  simp [State.take]

/-- A memory node's firing keeps what its plan keeps. -/
theorem memFire_storeOk (p : MemSpec) (hp : ∀ f s, StoreOk s.store → StoreOk (p.plan f s).1.store) (f : Fire) (s : State)
    (hs : StoreOk s.store) : StoreOk (memFire p f s).1.store := by
  unfold memFire
  split
  · simp [hs]
  · have hplan := hp f s hs
    generalize p.plan f s = x at hplan ⊢
    obtain ⟨t, d | x⟩ := x
    · dsimp only
      split
      · exact hplan
      · exact .of_eq (State.withhold_store ..) hplan
    · dsimp only
      split
      · exact hplan
      · exact State.submitRequest_storeOk (hs := .of_eq (State.take_store ..) hplan) ..

@[simp] theorem agenFire_store (f : Fire) (s : State) :
    (agenFire f s).1.store = s.store := by
  unfold agenFire
  dsimp only
  split
  · rfl
  · split
    · split <;> simp
    · simp

@[simp] theorem loadPlan_store (own tracked : Bool) (fixed : Nat) (f : Fire) (s : State) :
    (loadPlan own tracked fixed f s).1.store = s.store := by
  unfold loadPlan
  dsimp only
  split
  · rfl
  · split <;> rfl

@[simp] theorem ldxPlan_store (f : Fire) (s : State) :
    (ldxPlan f s).1.store = s.store := by
  unfold ldxPlan
  dsimp only
  split
  · rfl
  · split <;> rfl

@[simp] theorem State.beginRecompute_storeOk (s : State) (m t e : Nat) (hs : StoreOk s.store) :
    StoreOk (s.beginRecompute m t e).store := by
  unfold State.beginRecompute
  split
  · exact hs
  · simp [hs]

@[simp] theorem State.beginPass_storeOk (s : State) (g m t addr : Nat) (load : Bool) (hs : StoreOk s.store) :
    StoreOk (s.beginPass g m t addr load).1.store := by
  unfold State.beginPass
  split
  · exact hs
  · split
    · exact hs
    · split
      · exact hs
      · split
        · exact hs
        · split
          · split
            · exact hs
            · simp [hs]
          · simp [hs]

@[simp] theorem passEntry_storeOk (f : Fire) (load : Bool) (s : State) (hs : StoreOk s.store) :
    StoreOk (passEntry f load s).1.store := by
  unfold passEntry
  split
  · exact hs
  · have hb := State.beginPass_storeOk s f.g (f.context s) (agbTid (f.agb s)) f.offset load hs
    generalize s.beginPass f.g (f.context s) (agbTid (f.agb s)) f.offset load = x at hb ⊢
    obtain ⟨t, d | e⟩ := x <;> exact hb

@[simp] theorem ldtPlan_storeOk (f : Fire) (s : State) (hs : StoreOk s.store) : StoreOk (ldtPlan f s).1.store := by
  unfold ldtPlan
  dsimp only
  split
  · exact hs
  · have he := passEntry_storeOk f true s hs
    generalize passEntry f true s = x at he ⊢
    obtain ⟨t, d | e⟩ := x
    · exact he
    · dsimp only
      split <;> exact he

@[simp] theorem storePlan_store (own : Bool) (tok : Fire → Token) (f : Fire) (s : State) :
    (storePlan own tok f s).1.store = s.store := by
  unfold storePlan
  dsimp only
  split
  · rfl
  · split <;> rfl

@[simp] theorem sttPlan_storeOk (f : Fire) (s : State) (hs : StoreOk s.store) : StoreOk (sttPlan f s).1.store := by
  unfold sttPlan
  dsimp only
  split
  · exact hs
  · have he := passEntry_storeOk f false s hs
    generalize passEntry f false s = x at he ⊢
    obtain ⟨t, d | e⟩ := x
    · exact he
    · dsimp only
      split <;> exact he

@[simp] theorem prefPlan_store (f : Fire) (s : State) :
    (prefPlan f s).1.store = s.store := rfl

@[simp] theorem atomicPlan_store (f : Fire) (s : State) :
    (atomicPlan f s).1.store = s.store := by
  unfold atomicPlan
  dsimp only
  split
  · rfl
  · split <;> rfl

@[simp] theorem optPlan_store (f : Fire) (s : State) :
    (optPlan f s).1.store = s.store := by
  unfold optPlan
  dsimp only
  split
  · rfl
  · split <;> rfl

@[simp] theorem retPlan_store (f : Fire) (s : State) :
    (retPlan f s).1.store = s.store := by
  unfold retPlan
  dsimp only
  split
  · rfl
  · split <;> rfl

/-! ### The store through Machine/Loader -/

@[simp] theorem State.imageRead_storeOk (s : State) (m va : Nat) (hs : StoreOk s.store) :
    StoreOk (s.imageRead m va).store := by
  simp [State.imageRead, hs]

@[simp] theorem State.loadRead_storeOk (s : State) (m va : Nat) (p : Site) (hs : StoreOk s.store) :
    StoreOk (s.loadRead m va p).store := by
  unfold State.loadRead
  split <;> simp [hs]

@[simp] theorem State.installBlocks_store (s : State) (g : Nat) (i : Image) :
    (s.installBlocks g i).store = s.store := by
  unfold State.installBlocks
  dsimp only
  refine foldl_store _ (fun s x => ?_) _ _
  rfl

@[simp] theorem State.dropImage_store (s : State) (g : Nat) :
    (s.dropImage g).store = s.store := rfl

@[simp] theorem State.unbind_store (s : State) (g : Nat) :
    (s.unbind g).store = s.store := rfl

@[simp] theorem State.becomeResident_store (s : State) (g : Nat) (i : Image) :
    (s.becomeResident g i).store = s.store := by
  unfold State.becomeResident
  dsimp only
  refine (((State.modRegion_store ..).trans (State.installBlocks_store ..)).trans (foldl_store _ (fun s x => ?_) _ _)).trans ?_
  · rfl
  · rfl

/-! ### The store through Machine/Planes -/

@[simp] theorem State.openBytes_store (s : State) (n : Nat) :
    (s.openBytes n).2.store = s.store := by
  unfold State.openBytes
  split <;> rfl

@[simp] theorem State.openIf_store (s : State) (held : Bool) (n : Nat) :
    (s.openIf held n).2.store = s.store := by
  unfold State.openIf
  split
  · simp
  · rfl

@[simp] theorem State.planeHeader_store (s : State) (p : Plane) (cfg : RegionConfig) (call : Option Call) :
    (s.planeHeader p cfg call).2.store = s.store := by
  simp [State.planeHeader]

@[simp] theorem State.planeImage_store (s : State) (p : Plane) (cfg : RegionConfig) (call : Option Call) (carve size : Nat) :
    (s.planeImage p cfg call carve size).2.store = s.store := by
  simp [State.planeImage]

@[simp] theorem State.spillWrite_storeOk (s : State) (m va : Nat) (bs : List Byte) (hs : StoreOk s.store) :
    StoreOk (s.spillWrite m va bs).store := by
  unfold State.spillWrite
  split
  · exact State.writeVirt_storeOk ‹_› hs
  · exact hs

@[simp] theorem State.modPlane_store (s : State) (h k i : Nat) (f : Plane → Plane) :
    (s.modPlane h k i f).store = s.store := rfl

@[simp] theorem State.spillExtension_storeOk (s : State) (h k i : Nat) (hs : StoreOk s.store) :
    StoreOk (s.spillExtension h k i).store := by
  unfold State.spillExtension
  dsimp only
  split
  · split
    · split
      · exact hs
      · simp [hs]
    · exact hs
  · exact hs

@[simp] theorem State.spillPlane_storeOk (s : State) (h k i : Nat) (hs : StoreOk s.store) :
    StoreOk (s.spillPlane h k i).store := by
  unfold State.spillPlane
  split
  · split
    · split
      · exact hs
      · rename_i g d p cfg _ _ _ _ _ _
        have hp : StoreOk (s.planeImage p cfg ((s.region g).coveredCall d) (s.slot h k).carveStart (s.slot h k).carveSize).2.store := by
          simp [hs]
        dsimp only
        generalize s.planeImage p cfg _ _ _ = x at hp ⊢
        exact .of_eq (State.modPlane_store ..) (State.spillWrite_storeOk (hs := hp) ..)
    · exact hs
  · exact hs

/-! ### The store through Machine/RegionOps -/

@[simp] theorem State.endLoad_store (s : State) (l : Load) (f : LoadFail) :
    (s.endLoad l f).store = s.store := by
  unfold State.endLoad
  split
  · simp
  · split <;> simp

@[simp] theorem State.startLoad_store (s : State) (l : Load) : (s.startLoad l).store = s.store :=
  foldl_store (fun s p => s.modRegion p (fun r => { r with st := .loading })) (fun _ _ => rfl) _ _

@[simp] theorem State.finishLoad_storeOk (s : State) (l : Load) (hs : StoreOk s.store) : StoreOk (s.finishLoad l).store := by
  unfold State.finishLoad
  dsimp only
  split
  · refine .of_eq (State.endLoad_store ..) (.of_eq (foldl_store _ (fun s p => ?_) _ _) (State.imageRead_storeOk (hs := hs) ..))
    rfl
  · refine .of_eq ((State.endLoad_store ..).trans (State.becomeResident_store ..))
      (.of_eq (foldl_store _ (fun s p => ?_) _ _) (State.imageRead_storeOk (hs := hs) ..))
    exact State.unbind_store ..

@[simp] theorem State.advanceLoad_storeOk (s : State) (h k n : Nat) (hs : StoreOk s.store) :
    StoreOk (s.advanceLoad h k n).store := by
  unfold State.advanceLoad
  split
  · exact hs
  · split
    · split <;> simp [hs]
    · split <;> simp [hs]

@[simp] theorem cfgldFire_storeOk (f : Fire) (s : State) (hs : StoreOk s.store) : StoreOk (cfgldFire f s).1.store := by
  have hr : StoreOk ((s.pipe f 1).readUsed s.agent (f.context s) (laneAddress f.ta) 64).store :=
    State.readUsed_storeOk (hs := hs) ..
  unfold cfgldFire
  dsimp only
  split
  · exact .of_eq (State.endLoad_store ..) hr
  · split
    · exact .of_eq (State.endLoad_store ..) hr
    · exact State.advanceLoad_storeOk (hs := hr) ..

@[simp] theorem State.directoryRead_storeOk (s : State) (g cfgn : Nat) (hs : StoreOk s.store) :
    StoreOk (s.directoryRead g cfgn).store := by
  unfold State.directoryRead
  split
  · split
    · exact hs
    · simp [hs]
  · exact hs

@[simp] theorem callgFire_storeOk (f : Fire) (s : State) (hs : StoreOk s.store) :
    StoreOk (callgFire f s).1.store := by
  unfold callgFire
  dsimp only
  split
  · exact hs
  · split
    · simp [hs]
    · split <;> simp [hs]

@[simp] theorem retgFire_store (f : Fire) (s : State) : (retgFire f s).1.store = s.store := by
  unfold retgFire
  dsimp only
  split
  · rfl
  · have he := endColour_store f s
    generalize endColour f s = x at he ⊢
    split <;> exact he

@[simp] theorem tailgFire_storeOk (f : Fire) (s : State) (hs : StoreOk s.store) :
    StoreOk (tailgFire f s).1.store := by
  unfold tailgFire
  dsimp only
  split
  · exact hs
  · split
    · simp [hs]
    · split
      · exact hs
      · split
        · simp [hs]
        · split
          · simp [hs]
          · split <;> simp [hs]

@[simp] theorem State.sendStarts_store (s : State) (g : Nat) (t : Token) :
    (s.sendStarts g t).store = s.store := rfl

@[simp] theorem State.enterMesh_store (s : State) (g h k at' : Nat) (t : Token) :
    (s.enterMesh g h k at' t).store = s.store := rfl

@[simp] theorem State.startEntry_store (s : State) (g ex ey n : Nat) (t : Token) :
    (s.startEntry g ex ey n t).store = s.store := rfl

@[simp] theorem State.coverSlot_storeOk (s : State) (g h k lim : Nat) (hs : StoreOk s.store) :
    StoreOk (s.coverSlot g h k lim).store := State.spillExtension_storeOk (hs := hs) ..

@[simp] theorem State.cover_storeOk (s : State) (g : Nat) (hs : StoreOk s.store) : StoreOk (s.cover g).store := by
  unfold State.cover
  dsimp only
  split
  · exact hs
  · have hc := foldl_storeOk (fun t h => t.coverSlot g h (s.region g).slot (s.region g).planeLim)
      (fun t h ht => State.coverSlot_storeOk (hs := ht) ..) (s.region g).hearths s hs
    split <;> exact hc

@[simp] theorem State.thawSlot_store (s : State) (g h k at' : Nat) :
    (s.thawSlot g h k at').store = s.store := by
  unfold State.thawSlot
  dsimp only
  split
  · rfl
  · refine foldl_store _ (fun s x => ?_) _ _
    rfl

@[simp] theorem State.thaw_store (s : State) (g at' : Nat) (c : Call) :
    (s.thaw g at' c).store = s.store := by
  simp [State.thaw]

@[simp] theorem State.callBad_store (s : State) (g : Nat) (c : Call) (detail : Nat) :
    (s.callBad g c detail).store = s.store := by
  simp [State.callBad]

theorem State.placeCallee_storeOk {s t : State} {g : Nat} {c : Call} (e : s.placeCallee g c = .ok t) (hs : StoreOk s.store) :
    StoreOk t.store := by
  unfold State.placeCallee at e
  dsimp only at e
  split at e
  · cases e
    refine .of_eq (foldl_store _ (fun s h => ?_) _ _) (State.readUsed_storeOk (hs := hs) ..)
    rfl
  · split at e
    · cases e
    · cases e
      exact .of_eq (State.installBlocks_store ..) (State.imageRead_storeOk (hs := hs) ..)

@[simp] theorem State.startCallee_storeOk (s : State) (g : Nat) (hs : StoreOk s.store) : StoreOk (s.startCallee g).store := by
  unfold State.startCallee
  split
  · exact hs
  · split
    · simp [hs]
    · split
      · exact hs
      · split
        · simp [hs]
        · have ht := State.placeCallee_storeOk ‹_› hs
          split
          · simp [hs]
          · split
            · exact ht
            · exact .of_eq (State.startEntry_store ..) ht

@[simp] theorem State.resumeCaller_store (s : State) (g : Nat) (c : Call) :
    (s.resumeCaller g c).store = s.store := by
  unfold State.resumeCaller
  split <;> simp

@[simp] theorem State.planeMoved_storeOk (s : State) (h k : Nat) (x : Nat × Plane) (hs : StoreOk s.store) :
    StoreOk (s.planeMoved h k x).store := by
  unfold State.planeMoved
  split
  · simp [hs]
  · simp [hs]
  · exact hs

@[simp] theorem State.abandonUps_store (s : State) (h k : Nat) :
    (s.abandonUps h k).store = s.store := by
  unfold State.abandonUps
  split
  · rfl
  · simp

@[simp] theorem State.finishMoves_storeOk (s : State) (h k : Nat) (hs : StoreOk s.store) :
    StoreOk (s.finishMoves h k).store := by
  unfold State.finishMoves
  dsimp only
  refine foldl_storeOk _ (fun s x hs => ?_) _ _ ?_
  · simp [hs]
  · exact hs

@[simp] theorem State.moveToT1_store (s : State) (h : Nat) :
    (s.moveToT1 h).store = s.store := by
  unfold State.moveToT1
  split
  · rfl
  · split <;> rfl

@[simp] theorem State.moveDown_store (s : State) (h k : Nat) :
    (s.moveDown h k).store = s.store := by
  unfold State.moveDown
  dsimp only
  split
  · rfl
  · split
    · simp
    · split <;> rfl

@[simp] theorem State.moveUp_store (s : State) (h k lim : Nat) :
    (s.moveUp h k lim).store = s.store := by
  unfold State.moveUp
  dsimp only
  split
  · rfl
  · split
    · rfl
    · split <;> rfl

/-! ### The store through Machine/ContextOps -/

@[simp] theorem rdsrFire_store (f : Fire) (s : State) :
    (rdsrFire f s).1.store = s.store := rfl

@[simp] theorem wrsrFire_store (f : Fire) (s : State) :
    (wrsrFire f s).1.store = s.store := rfl

@[simp] theorem prioFire_store (f : Fire) (s : State) :
    (prioFire f s).1.store = s.store := rfl

@[simp] theorem State.writeT1Home_storeOk (s : State) (h m : Nat) (hs : StoreOk s.store) :
    StoreOk (s.writeT1Home h m).store := by
  unfold State.writeT1Home
  dsimp only
  split
  · exact hs
  · split
    · split <;> split <;> simp [hs]
    · split
      · simp [hs]
      · exact hs

@[simp] theorem State.readT1Home_store (s : State) (h m : Nat) (stay : Bool) :
    (s.readT1Home h m stay).store = s.store := by
  unfold State.readT1Home
  split <;> rfl

theorem State.planeToT1_storeOk {s t : State} {h : Nat} (e : s.planeToT1 h = some t) (hs : StoreOk s.store) : StoreOk t.store := by
  unfold State.planeToT1 at e
  rw [Option.map_eq_some_iff] at e
  obtain ⟨k, -, rfl⟩ := e
  exact State.spillPlane_storeOk (hs := .of_eq (State.modPlane_store ..) hs) ..

@[simp] theorem State.makeHome_storeOk (s : State) (h m : Nat) (hs : StoreOk s.store) : StoreOk (s.makeHome h m).2.2.store := by
  unfold State.makeHome
  split
  · exact hs
  · split
    · have ht := State.planeToT1_storeOk ‹_› hs
      exact ht
    · split
      · exact State.writeT1Home_storeOk (hs := .of_eq (State.modHearth_store ..) hs) ..
      · exact hs

@[simp] theorem State.refillTime_store (s : State) (h m : Nat) (stay : Bool) :
    (s.refillTime h m stay).2.store = s.store := by
  unfold State.refillTime
  split
  · split
    · rfl
    · simp
    · rfl
  · split
    · rfl
    · simp
    · rfl

@[simp] theorem State.beginSpill_storeOk (s : State) (h m : Nat) (stay : Bool) (hs : StoreOk s.store) :
    StoreOk (s.beginSpill h m stay).store := by
  unfold State.beginSpill
  dsimp only
  refine .of_eq ((State.modContext_store ..).trans ((State.modHearth_store ..).trans (State.refillTime_store ..))) ?_
  split
  · exact State.writeT1Home_storeOk (hs := .of_eq (State.modHearth_store ..) (State.makeHome_storeOk (hs := hs) ..)) ..
  · exact hs

@[simp] theorem State.freezeRegion_store (s : State) (g : Nat) :
    (s.freezeRegion g).store = s.store := rfl

@[simp] theorem State.finishEvict_store (s : State) (g : Nat) :
    (s.finishEvict g).store = s.store := rfl

@[simp] theorem State.advanceEvict_store (s : State) (g : Nat) :
    (s.advanceEvict g).store = s.store := by
  simp [State.advanceEvict]

@[simp] theorem State.restoreAcc_storeOk (s : State) (h m : Nat) (hs : StoreOk s.store) :
    StoreOk (s.restoreAcc h m).store := by
  unfold State.restoreAcc
  split
  · exact hs
  · split
    · exact hs
    · exact State.writeT1Home_storeOk (hs := .of_eq (State.modHearth_store ..) (State.makeHome_storeOk (hs := hs) ..)) ..

@[simp] theorem State.startRestore_store (s : State) (g k : Nat) :
    (s.startRestore g k).store = s.store := by
  unfold State.startRestore
  dsimp only
  refine ((State.modRegion_store ..).trans (foldl_store _ (fun s x => ?_) _ _)).trans ?_
  · rfl
  · rfl

@[simp] theorem State.keepOrEnter_store (s : State) (g h k : Nat) (t : Token) :
    (s.keepOrEnter g h k t).store = s.store := by
  simp [State.keepOrEnter]

@[simp] theorem State.finishRestore_storeOk (s : State) (g : Nat) (hs : StoreOk s.store) :
    StoreOk (s.finishRestore g).store := by
  unfold State.finishRestore
  refine .of_eq (foldl_store _ (fun s f => State.keepOrEnter_store ..) _ _) ?_
  exact foldl_storeOk _ (fun s e h => State.restoreAcc_storeOk (hs := .of_eq (State.modSlot_store ..) h) ..) _ _ hs

@[simp] theorem State.advanceRestore_storeOk (s : State) (g : Nat) (hs : StoreOk s.store) :
    StoreOk (s.advanceRestore g).store := by
  unfold State.advanceRestore
  split
  · simp [hs]
  · exact hs

@[simp] theorem State.advanceSwap_store (s : State) (out g : Nat) :
    (s.advanceSwap out g).store = s.store := by
  simp [State.advanceSwap]

/-! ### The store through Machine/Registers -/

@[simp] theorem State.latch_store (s : State) :
    s.latch.store = s.store := rfl

/-! ### The store through Machine/BarrierOps -/

@[simp] theorem State.modNodeAt_store (s : State) (g h d n : Nat) (f : NodeState → NodeState) :
    (s.modNodeAt g h d n f).store = s.store := by
  unfold State.modNodeAt
  dsimp only
  split <;> rfl

@[simp] theorem State.sendMarker_store (s : State) (g h k n : Nat) (r : Rec) (t : Token) :
    (s.sendMarker g h k n r t).store = s.store := by
  simp [State.sendMarker]

@[simp] theorem State.alignBarrier_store (s : State) (g h k n : Nat) :
    (s.alignBarrier g h k n).store = s.store := by
  unfold State.alignBarrier
  dsimp only
  split
  · rfl
  · split
    · exact State.store_of_around (by simp)
    · split
      · rfl
      · simp

@[simp] theorem State.oweMarkers_store (s : State) (g : Nat) (t : Token) :
    (s.oweMarkers g t).store = s.store := by
  simp [State.oweMarkers]

@[simp] theorem drainFire_store (f : Fire) (s : State) :
    (drainFire f s).1.store = s.store := by
  simp [drainFire]

@[simp] theorem State.holdStatus_store (s : State) (g h d n : Nat) (r : Rec) (t : Token) (l : Nat) :
    (s.holdStatus g h d n r t l).store = s.store := by
  simp [State.holdStatus]

@[simp] theorem State.snapWrite_storeOk (s : State) (m va : Nat) (bs : List Byte) (hs : StoreOk s.store) :
    StoreOk (s.snapWrite m va bs).store := by
  unfold State.snapWrite
  split
  · exact State.writeVirt_storeOk ‹_› hs
  · exact hs

@[simp] theorem State.snapHeader_storeOk (s : State) (g h : Nat) (x : Snapshot) (complete : Bool) (hs : StoreOk s.store) :
    StoreOk (s.snapHeader g h x complete).store := by
  simp [State.snapHeader, hs]

@[simp] theorem State.snapRecord_storeOk (s : State) (g h : Nat) (bs : List Byte) (hs : StoreOk s.store) :
    StoreOk (s.snapRecord g h bs).store := by
  unfold State.snapRecord
  split
  · exact hs
  · dsimp only
    split
    · exact State.snapHeader_storeOk (hs := hs) ..
    · exact State.snapHeader_storeOk (hs := State.snapWrite_storeOk (hs := hs) ..) ..

@[simp] theorem State.nodeRecordOut_storeOk (s : State) (g h n : Nat) (hs : StoreOk s.store) :
    StoreOk (s.nodeRecordOut g h n).store := State.snapRecord_storeOk (hs := State.freeWord_store s ▸ hs) ..

@[simp] theorem State.endSnapshot_storeOk (s : State) (g : Nat) (hs : StoreOk s.store) : StoreOk (s.endSnapshot g).store := by
  unfold State.endSnapshot
  split
  · exact hs
  · rename_i x _
    split
    · exact hs
    · have hh := foldl_storeOk (fun s h => s.snapHeader g h x true) (fun s h hs => State.snapHeader_storeOk (hs := hs) ..)
        (s.region g).hearths s hs
      dsimp only
      split
      · exact hh
      · exact .of_eq (State.holdStatus_store ..) hh

@[simp] theorem State.snapAligned_store (s : State) (g h n : Nat) :
    (s.snapAligned g h n).store = s.store := rfl

@[simp] theorem State.snapPort_storeOk (s : State) (g h k n p : Nat) (hs : StoreOk s.store) :
    StoreOk (s.snapPort g h k n p).store :=
  foldl_storeOk _ (fun _ _ h => State.snapRecord_storeOk (hs := h) ..) _ _ hs

@[simp] theorem State.alignSnapshot_storeOk (s : State) (g h k n : Nat) (hs : StoreOk s.store) :
    StoreOk (s.alignSnapshot g h k n).store := by
  unfold State.alignSnapshot
  split
  · exact hs
  · rename_i o r _
    dsimp only
    split
    · exact hs
    · rename_i t _
      have hp : StoreOk (if s.snapping g t.markerId then
          ((s.connected g h n).foldl (fun s p => s.snapPort g h k n p) s).nodeRecordOut g h n else s).store := by
        split
        · exact State.nodeRecordOut_storeOk (hs := foldl_storeOk _ (fun _ _ h => State.snapPort_storeOk (hs := h) ..) _ _ hs) ..
        · exact hs
      generalize (if s.snapping g t.markerId then _ else s) = u at hp ⊢
      split
      · refine State.endSnapshot_storeOk (hs := .of_eq (State.snapAligned_store ..) ?_) ..
        split
        · exact hp
        · exact .of_eq (State.sendMarker_store ..) hp
      · split
        · exact hp
        · exact .of_eq (State.sendMarker_store ..) hp

@[simp] theorem State.beginSnapshot_storeOk (s : State) (f : Fire) (id : Nat) (hs : StoreOk s.store) :
    StoreOk (s.beginSnapshot f id).store :=
  .of_eq (State.oweMarkers_store ..) (foldl_storeOk _ (fun _ _ h => State.snapHeader_storeOk (hs := h) ..) _ _ hs)

@[simp] theorem snapFire_storeOk (f : Fire) (s : State) (hs : StoreOk s.store) : StoreOk (snapFire f s).1.store := by
  unfold snapFire
  dsimp only
  split
  · simp [hs]
  · split
    · simp [hs]
    · exact .of_eq (State.pipe_store ..)
        (State.endSnapshot_storeOk (hs := State.beginSnapshot_storeOk (hs := .of_eq (by simp) hs) ..) ..)

@[simp] theorem State.quiesce_store (s : State) (g : Nat) :
    (s.quiesce g).store = s.store := by
  unfold State.quiesce
  dsimp only
  split
  · rfl
  · exact State.store_of_around (by simp)

/-! ### The store through Machine/Tokens -/

@[simp] theorem State.recordChannel_storeOk (s : State) (g : Nat) (f : Flight) (hs : StoreOk s.store) :
    StoreOk (s.recordChannel g f).1.store := by
  unfold State.recordChannel
  dsimp only
  split
  · exact State.snapRecord_storeOk (hs := hs) ..
  · exact hs

@[simp] theorem State.dropFlight_store (s : State) (id : Nat) :
    (s.dropFlight id).store = s.store := rfl

@[simp] theorem State.enterNode_storeOk (s : State) (id g : Nat) (f : Flight) (hs : StoreOk s.store) :
    StoreOk (s.enterNode id g f).store := by
  unfold State.enterNode
  split
  · exact hs
  · dsimp only
    split
    · exact hs
    · have hr := fun t => State.recordChannel_storeOk s g { f with tok := t } hs
      specialize hr { f.tok with since := s.cycle, came := s.cycle }
      generalize s.recordChannel g _ = x at hr ⊢
      obtain ⟨u, t⟩ := x
      dsimp only at hr ⊢
      split
      · exact hr
      · split
        · exact hr
        · exact .of_eq (State.checkJoin_store ..) hr

@[simp] theorem State.strayToken_store (s : State) (g : Nat) (f : Flight) :
    (s.strayToken g f).store = s.store := by
  unfold State.strayToken
  split
  · rfl
  · exact State.store_of_around (by simp)

@[simp] theorem State.arrive_storeOk (s : State) (id : Nat) (f : Flight) (hs : StoreOk s.store) :
    StoreOk (s.arrive id f).store := by
  unfold State.arrive
  dsimp only
  split
  · exact hs
  · split
    · simp [hs]
    · split
      · simp [hs]
      · split
        · exact hs
        · split <;> simp [hs]

@[simp] theorem State.deliver_storeOk (s : State) (id g h : Nat) (t : Token) (expect : Nat) (hs : StoreOk s.store) :
    StoreOk (s.deliver id g h t expect).store := by
  unfold State.deliver
  dsimp only
  split
  · exact hs
  · split
    · simp [hs]
    · split
      · simp [hs]
      · split
        · exact hs
        · split
          · exact State.spillExtension_storeOk (hs := State.spillPlane_storeOk (hs := .of_eq (State.modSlot_store ..) hs) ..) ..
          · exact hs

@[simp] theorem State.takeControl_store (s : State) (m : MeshMessage) :
    (s.takeControl m).store = s.store := by
  simp [State.takeControl]

@[simp] theorem State.enterSlot_store (s : State) (h k n p : Nat) (f : FrameSlot) (t : Token) :
    (s.enterSlot h k n p f t).store = s.store := by
  unfold State.enterSlot
  dsimp only
  split
  · rfl
  · split
    · exact State.store_of_around (by simp)
    · rfl

@[simp] theorem State.sendDeferred_store (s : State) (g h k n : Nat) (x : Hold) (rest : List Hold) :
    (s.sendDeferred g h k n x rest).store = s.store := by
  simp [State.sendDeferred]

/-! ### The store through Machine/QueueOps -/

@[simp] theorem State.answer_store (s : State) (p : Nat) (cid : BitVec 32) (status : Nat) :
    (s.answer p cid status).store = s.store := rfl

@[simp] theorem State.faultMessage_store (s : State) (qid rtag : Nat) (f : FaultRecord) (pair ctx : Option Nat) :
    (s.faultMessage qid rtag f pair ctx).store = s.store := rfl

/-- What an engine's access gives, where it is made, satisfies `p`. -/
structure Met.All {α : Type} (p : α → Prop) (x : Met α) : Prop where
  get : ∀ {y}, x = .ok y → p y

theorem Met.All.ok {α : Type} {p : α → Prop} {y : α} (h : p y) : (Met.ok y).All p := ⟨by rintro _ ⟨⟩; exact h⟩

theorem Met.All.wait {α : Type} {p : α → Prop} {a : Nat} : (Met.wait a : Met α).All p := ⟨nofun⟩

theorem Met.All.denied {α : Type} {p : α → Prop} {c d a : Nat} : (Met.denied c d a : Met α).All p := ⟨nofun⟩

theorem Met.All.bind {α β : Type} {p : α → Prop} {q : β → Prop} {x : Met α} {f : α → Met β} (hx : x.All p)
    (hf : ∀ y, p y → (f y).All q) : (x.bind f).All q := by
  cases x with
  | ok y => exact hf y (hx.get rfl)
  | wait a => exact Met.All.wait
  | denied c d a => exact Met.All.denied

theorem Met.All.map {α β : Type} {p : α → Prop} {q : β → Prop} {x : Met α} {f : α → β} (hx : x.All p)
    (hf : ∀ y, p y → q (f y)) : (x.map f).All q := hx.bind (fun y hy => .ok (hf y hy))

theorem State.readThrough_storeOk (s : State) (u m va n : Nat) (hs : StoreOk s.store) :
    (s.readThrough u m va n).All (fun x => StoreOk x.1.store) := by
  unfold State.readThrough
  split
  · exact .wait
  · split
    · exact .denied
    · dsimp only
      split
      · exact .wait
      · exact .ok (.of_eq ((State.usePort_store ..).trans (State.critDone_store ..)) (State.touchAll_storeOk (hs := hs) ..))

theorem State.writeThrough_storeOk (s : State) (u m va : Nat) (bs : List Byte) (poison : Bool) (hs : StoreOk s.store) :
    (s.writeThrough u m va bs poison).All (fun t => StoreOk t.store) := by
  unfold State.writeThrough
  split
  · exact .wait
  · split
    · exact .denied
    · split
      · exact .wait
      · split
        · exact .denied
        · exact .ok (.of_eq (State.usePort_store ..) (State.writeVirt_storeOk ‹_› hs))

theorem State.engineRead_storeOk (s : State) (m va n : Nat) (hs : StoreOk s.store) :
    (s.engineRead m va n).All (fun x => StoreOk x.1.store) := State.readThrough_storeOk (hs := hs) ..

theorem State.engineWrite_storeOk (s : State) (m va : Nat) (bs : List Byte) (poison : Bool) (hs : StoreOk s.store) :
    (s.engineWrite m va bs poison).All (fun t => StoreOk t.store) := State.writeThrough_storeOk (hs := hs) ..

theorem State.atLength_storeOk {α : Type} (s : State) (f : State → Met (State × α))
    (hf : ∀ s, StoreOk s.store → (f s).All (fun x => StoreOk x.1.store)) (hs : StoreOk s.store) :
    (s.atLength f).All (fun x => StoreOk x.1.store) :=
  (hf { s with long := some s.traffic } hs).map (p := fun x => StoreOk x.1.store) (fun _ hy => hy)

theorem State.longRead_storeOk (s : State) (m va n : Nat) (hs : StoreOk s.store) :
    (s.longRead m va n).All (fun x => StoreOk x.1.store) :=
  State.atLength_storeOk _ _ (fun _ h => State.engineRead_storeOk (hs := h) ..) hs

@[simp] theorem State.tellQueue_store (s : State) (opk num q src : Nat) :
    (s.tellQueue opk num q src).store = s.store := rfl

@[simp] theorem State.tellDies_store (s : State) (num q : Nat) :
    (s.tellDies num q).store = s.store := by
  unfold State.tellDies
  refine foldl_store _ (fun s x => ?_) _ _
  rfl

@[simp] theorem State.modEngine_store (s : State) (q : Nat) (f : Engine → Engine) :
    (s.modEngine q f).store = s.store := rfl

@[simp] theorem State.countGranules_store (s : State) (q n : Nat) :
    (s.countGranules q n).store = s.store := rfl

@[simp] theorem State.irqMessage_store (s : State) (q n status ctx : Nat) :
    (s.irqMessage q n status ctx).store = s.store := rfl

@[simp] theorem State.withholdEntry_store (s : State) (q cause detail va : Nat) :
    (s.withholdEntry q cause detail va).store = s.store := rfl

@[simp] theorem State.waitOn_store (s : State) (q va : Nat) :
    (s.waitOn q va).store = s.store := by
  unfold State.waitOn
  split
  · simp
  · rfl

@[simp] theorem State.relink_storeOk (s : State) (q : Nat) (hs : StoreOk s.store) : StoreOk (s.relink q).store := by
  unfold State.relink
  dsimp only
  split
  · exact hs
  · have hr := State.readThrough_storeOk s (engineUnit q) (s.queue q).ctx (s.queue q).fetch 8 hs
    split
    · simp [hs]
    · simp [hs]
    · exact .of_eq (State.setQueue_store ..) (hr.get ‹_›)

@[simp] theorem State.noteIdle_store (s : State) (q : Nat) :
    (s.noteIdle q).store = s.store := rfl

@[simp] theorem State.passEntry_storeOk (s : State) (q status : Nat) (stop : Bool) (hs : StoreOk s.store) :
    StoreOk (s.passEntry q status stop).store := by
  unfold State.passEntry
  dsimp only
  split
  · exact hs
  · split <;> simp [hs]

@[simp] theorem State.completionWrite_storeOk (s : State) (q : Nat) (hs : StoreOk s.store) :
    StoreOk (s.completionWrite q).store := by
  unfold State.completionWrite
  dsimp only
  split
  · exact hs
  · split
    · exact hs
    · have hr := State.readThrough_storeOk s (engineUnit q) (s.queue q).ctx (s.queue q).fetch 64 hs
      split
      · simp [hs]
      · simp [hs]
      · rename_i c _ _ status _ _ t bs poison ht
        have hw := State.writeThrough_storeOk t (engineUnit q) (s.queue q).ctx (s.queue q).fetch (completedBytes bs c status)
          poison (hr.get ht)
        split
        · simp [hs]
        · simp [hs]
        · exact State.passEntry_storeOk (hs := hw.get ‹_›) ..

@[simp] theorem State.modEntry_store (s : State) (q : Nat) (f : CurrentEntry → CurrentEntry) :
    (s.modEntry q f).store = s.store := rfl

@[simp] theorem State.finishEntry_storeOk (s : State) (q status : Nat) (hs : StoreOk s.store) :
    StoreOk (s.finishEntry q status).store := State.completionWrite_storeOk (hs := hs) ..

@[simp] theorem State.readEntry_storeOk (s : State) (q : Nat) (hs : StoreOk s.store) : StoreOk (s.readEntry q).store := by
  unfold State.readEntry
  dsimp only
  split
  · simp [hs]
  · split
    · exact hs
    · split
      · exact State.finishEntry_storeOk (hs := .of_eq (State.setQueue_store ..) hs) ..
      · have hr := State.readThrough_storeOk s (engineUnit q) (s.queue q).ctx (s.queue q).fetch 64 hs
        split
        · simp [hs]
        · simp [hs]
        · exact .of_eq ((State.modEngine_store ..).trans (State.setQueue_store ..)) (hr.get ‹_›)

@[simp] theorem State.waitEntry_store (s : State) (q : Nat) :
    (s.waitEntry q).store = s.store := rfl

@[simp] theorem State.workEntry_store (s : State) (q : Nat) :
    (s.workEntry q).store = s.store := rfl

@[simp] theorem State.waitRecompute_store (s : State) (q m t : Nat) :
    (s.waitRecompute q m t).store = s.store := rfl

@[simp] theorem State.settleWait_store (s : State) (q : Nat) (before : Queue) :
    (s.settleWait q before).store = s.store := by
  simp [State.settleWait]

theorem State.linkWrite_storeOk (s : State) (q a : Nat) (hs : StoreOk s.store) :
    (s.linkWrite q a).All (fun t => StoreOk t.store) := by
  unfold State.linkWrite
  dsimp only
  split
  · exact .ok hs
  · have hr := State.readThrough_storeOk s (engineUnit q) (s.queue q).ctx (s.queue q).last 16 hs
    split
    · exact .wait
    · exact .denied
    · exact State.writeThrough_storeOk _ _ _ _ _ _ (hr.get ‹_›)

theorem State.applyQueue_storeOk (s : State) (q : Nat) (append : Bool) (x : Nat) (hs : StoreOk s.store) :
    (s.applyQueue q append x).All (fun t => StoreOk t.store) := by
  unfold State.applyQueue
  split
  · have hl := State.linkWrite_storeOk s q x hs
    split
    · exact .ok (.of_eq ((State.tellQueue_store ..).trans (State.modQueue_store ..)) (hl.get ‹_›))
    · exact .wait
    · exact .denied
  · exact .ok (.of_eq (State.tellQueue_store ..) hs)

@[simp] theorem State.linkDenied_store (s : State) (q cause detail va : Nat) :
    (s.linkDenied q cause detail va).store = s.store := rfl

@[simp] theorem State.linkWaiting_store (s : State) (q va : Nat) :
    (s.linkWaiting q va).store = s.store := by
  unfold State.linkWaiting
  split
  · simp
  · rfl

@[simp] theorem drainQueue_storeOk (q : Nat) (xs : List (Bool × Nat × Nat × Nat)) (s : State) (hs : StoreOk s.store) :
    StoreOk (drainQueue q xs s).store := by
  induction xs generalizing s with
  | nil => exact hs
  | cons x t ih =>
    unfold drainQueue
    have ha := State.applyQueue_storeOk s q x.1 x.2.1 hs
    split
    · exact ih _ (.of_eq (State.modQueue_store ..) (ha.get ‹_›))
    · simp [hs]
    · simp [hs]

@[simp] theorem State.drainQueue_storeOk (s : State) (q : Nat) (hs : StoreOk s.store) : StoreOk (s.drainQueue q).store := by
  unfold State.drainQueue
  split
  · exact hs
  · exact Machine.drainQueue_storeOk _ _ _ hs

@[simp] theorem State.queueEffect_storeOk (s : State) (q : Nat) (append : Bool) (x g c : Nat) (hs : StoreOk s.store) :
    StoreOk (s.queueEffect q append x g c).store := by
  unfold State.queueEffect
  exact State.drainQueue_storeOk (hs := .of_eq (State.modQueue_store ..) hs) ..

/-! ### The store through Machine/Stoker -/

@[simp] theorem State.journal_storeOk (s : State) (opc qp ctx st cid arg : Nat) (hs : StoreOk s.store) :
    StoreOk (s.journal opc qp ctx st cid arg).store := by
  unfold State.journal
  dsimp only
  exact State.putPhys_storeOk (hs := hs) ..

@[simp] theorem State.journalState_storeOk (s : State) (n st : Nat) (hs : StoreOk s.store) :
    StoreOk (s.journalState n st).store := by
  simp [State.journalState, hs]

@[simp] theorem State.kernelMessage_store (s : State) (k : Kernel) (reason : Nat) :
    (s.kernelMessage k reason).store = s.store := rfl

@[simp] theorem State.resolveOthers_store (s : State) (e : Nat) :
    (s.resolveOthers e).store = s.store := rfl

@[simp] theorem State.queueRecomputed_store (s : State) (q m t : Nat) (good : Bool) :
    (s.queueRecomputed q m t good).store = s.store := by
  unfold State.queueRecomputed
  dsimp only
  split
  · rfl
  · simp

@[simp] theorem State.wakeUsers_store (s : State) (m t : Nat) (good : Bool) :
    (s.wakeUsers m t good).store = s.store := by
  unfold State.wakeUsers
  dsimp only
  refine foldl_store _ (fun s x => ?_) _ _
  simp

@[simp] theorem State.endRecompute_storeOk (s : State) (k : Kernel) (hs : StoreOk s.store) :
    StoreOk (s.endRecompute k).store := by
  unfold State.endRecompute
  split
  · exact hs
  · split <;> simp [hs]

@[simp] theorem State.rejected_storeOk (s : State) (k : Kernel) (reason : Nat) (hs : StoreOk s.store) :
    StoreOk (s.rejected k reason).store := by
  unfold State.rejected
  exact State.endRecompute_storeOk (hs := .of_eq (State.kernelMessage_store ..) (State.journalState_storeOk (hs := hs) ..)) ..

@[simp] theorem State.reportReject_storeOk (s : State) (x : Accepted) (k : Kernel) (reason : Nat) (hs : StoreOk s.store) :
    StoreOk (s.reportReject x k reason).store := by
  unfold State.reportReject
  have hw := State.engineWrite_storeOk s k.ctx k.cra (k.record reason) false hs
  split
  · exact State.rejected_storeOk (hs := hw.get ‹_›) ..
  · exact hs
  · simp [hs]

@[simp] theorem State.reject_storeOk (s : State) (x : Accepted) (o : Option Offer) (reason : Nat) (hs : StoreOk s.store) :
    StoreOk (s.reject x o reason).store := by
  unfold State.reject
  split <;> simp [hs]

@[simp] theorem State.takeEntry_store (s : State) (x : Accepted) (k : Kernel) (raw : Nat) :
    (s.takeEntry x k raw).store = s.store := by
  unfold State.takeEntry
  split <;> rfl

@[simp] theorem State.takeIn_storeOk (s : State) (x : Accepted) (hs : StoreOk s.store) : StoreOk (s.takeIn x).store := by
  unfold State.takeIn
  split
  · simp [hs]
  · simp [hs]
  · split
    · exact hs
    · have ht := foldl_storeOk (fun t (r : Nat × Nat × Nat) => t.readUsed t.agent r.1 r.2.1 r.2.2)
        (fun t r h => State.readUsed_storeOk (hs := h) ..) (s.offerReads x.sub) s hs
      dsimp only
      split
      · exact .of_eq (State.takeEntry_store ..) ht
      · exact State.reject_storeOk (hs := ht) ..
      · exact ht

@[simp] theorem State.accept_storeOk (s : State) (a : Submission) (hs : StoreOk s.store) :
    StoreOk (s.accept a).store := by
  simp [State.accept, hs]

@[simp] theorem State.goOnAccepted_storeOk (s : State) (hs : StoreOk s.store) : StoreOk s.goOnAccepted.store := by
  unfold State.goOnAccepted
  split
  · exact hs
  · exact foldl_storeOk _ (fun s x h => State.takeIn_storeOk s x h) _ _ hs

@[simp] theorem State.startKernel_store (s : State) (e : Nat) :
    (s.startKernel e).store = s.store := by
  simp [State.startKernel]

@[simp] theorem State.startRegion_store (s : State) (e g : Nat) :
    (s.startRegion e g).store = s.store := by
  unfold State.startRegion
  dsimp only
  split
  · rfl
  · refine ((State.modRegion_store ..).trans (foldl_store _ (fun s x => ?_) _ _)).trans ?_
    · rfl
    · rfl

@[simp] theorem State.startGroup_store (s : State) (e g p : Nat) :
    (s.startGroup e g p).store = s.store := by
  unfold State.startGroup
  dsimp only
  split
  · rfl
  · exact State.store_of_around (by simp)
  · rfl

@[simp] theorem State.handOut_store (s : State) (e g p : Nat) :
    (s.handOut e g p).store = s.store := by
  unfold State.handOut
  dsimp only
  split <;> simp

@[simp] theorem State.settleGroups_store (s : State) (e : Nat) :
    (s.settleGroups e).store = s.store := rfl

@[simp] theorem State.releaseUnit_store (s : State) (e g : Nat) :
    (s.releaseUnit e g).store = s.store := by
  unfold State.releaseUnit
  dsimp only
  split
  · simp
  · rfl

@[simp] theorem State.idleContext_store (s : State) (m : Nat) :
    (s.idleContext m).store = s.store := by
  simp [State.idleContext]

@[simp] theorem State.complete_storeOk (s : State) (e status : Nat) (hs : StoreOk s.store) :
    StoreOk (s.complete e status).store := by
  unfold State.complete
  dsimp only
  exact .of_eq (State.idleContext_store ..) (State.endRecompute_storeOk (hs := .of_eq ((State.resolveOthers_store ..).trans (State.modKernel_store ..)) hs) ..)

@[simp] theorem State.writeRecord_storeOk (s : State) (e : Nat) (hs : StoreOk s.store) : StoreOk (s.writeRecord e).store := by
  unfold State.writeRecord
  have hw := State.engineWrite_storeOk s (s.kernel e).ctx (s.kernel e).cra ((s.kernel e).record 0) false hs
  dsimp only
  split
  · exact .of_eq (State.modKernel_store ..) (hw.get ‹_›)
  · exact hs

@[simp] theorem State.detach_store (s : State) (g : Nat) :
    (s.detach g).store = s.store := by
  simp [State.detach]

@[simp] theorem State.detachAll_store (s : State) (e : Nat) :
    (s.detachAll e).store = s.store := by
  simp [State.detachAll]

@[simp] theorem State.advanceKernel_storeOk (s : State) (e : Nat) (hs : StoreOk s.store) :
    StoreOk (s.advanceKernel e).store := by
  have hr : StoreOk ((((s.settleGroups e).regionsOf e).foldl (fun s g => s.releaseUnit e g) (s.settleGroups e)).modKernel e
      Kernel.drained).store :=
    .of_eq ((State.modKernel_store ..).trans ((foldl_store _ (fun s g => State.releaseUnit_store ..) _ _).trans
      (State.settleGroups_store ..))) hs
  have hd {u : State} (h : StoreOk u.store) (n : Nat) : StoreOk ((u.complete e n).writeRecord e).store :=
    State.writeRecord_storeOk (hs := State.complete_storeOk (hs := h) ..) ..
  have hg : StoreOk ((s.settleGroups e).modKernel e Kernel.abandonPending).store := by simp [hs]
  unfold State.advanceKernel
  dsimp only
  split
  · split
    · exact hd hr _
    · exact hr
  · split
    · exact hd hr _
    · exact hr
  · split
    · exact hd hg _
    · exact hg
  · split <;> simp [hs]
  · split <;> simp [hs]
  · have hh : StoreOk (if (s.kernel e).recordWritten then s else
        (s.settleGroups e).modKernel e Kernel.abandonPending).store := by
      split
      · exact hs
      · exact hg
    generalize (if (s.kernel e).recordWritten then s else _) = u at hh ⊢
    split
    · exact hh
    · exact State.writeRecord_storeOk (hs := .of_eq (State.modKernel_store ..) hh) ..
  · exact hs

/-! ### The store through Machine/Binding -/

@[simp] theorem State.expel_store (s : State) (gs : List Nat) :
    (s.expel gs).store = s.store := by
  simp [State.expel]

theorem State.clearTable_storeOk {s t : State} {k : Kernel} {j : Nat} (e : s.clearTable k j = .ok t) (hs : StoreOk s.store) :
    StoreOk t.store := by
  unfold State.clearTable at e
  split at e
  · cases e
  · cases e
    exact foldl_storeOk _ (fun s p h => State.put_storeOk (hs := State.touch_storeOk (hs := h) ..) ..) _ _ hs

@[simp] theorem State.noteBinding_store (s : State) (e : Nat) :
    (s.noteBinding e).store = s.store := rfl

@[simp] theorem State.bindTo_storeOk (s : State) (e g j wait : Nat) (hs : StoreOk s.store) :
    StoreOk (s.bindTo e g j wait).store := by
  unfold State.bindTo
  dsimp only
  exact .of_eq ((State.noteBinding_store ..).trans (State.modRegion_store ..)) (State.readsUsed_storeOk (hs := hs) ..)

theorem State.withTable_storeOk (s : State) (e : Nat) (go : State → Nat → State)
    (hgo : ∀ t j, StoreOk t.store → StoreOk (go t j).store) (hs : StoreOk s.store) : StoreOk (s.withTable e go).store := by
  unfold State.withTable
  dsimp only
  split
  · simp [hs]
  · exact hgo _ _ (State.clearTable_storeOk ‹_› hs)

@[simp] theorem State.bindMatch_storeOk (s : State) (e g : Nat) (hs : StoreOk s.store) : StoreOk (s.bindMatch e g).store :=
  State.withTable_storeOk _ _ _ (fun _ _ h => State.bindTo_storeOk (hs := h) ..) hs

@[simp] theorem State.bindNew_storeOk (s : State) (e : Nat) (p : Site) (i : Image) (hs : StoreOk s.store) :
    StoreOk (s.bindNew e p i).store := by
  refine State.withTable_storeOk _ _ _ (fun t j h => ?_) hs
  refine .of_eq (State.modRegion_store ..) (State.bindTo_storeOk (hs := .of_eq ((State.becomeResident_store ..).trans
    (State.setRegion_store ..)) ?_) ..)
  exact .of_eq (foldl_store _ (fun s g => State.unbind_store ..) _ _) (State.imageRead_storeOk (hs := h) ..)

@[simp] theorem State.bindBad_store (s : State) (e origin k : Nat) (f : LoadFail) :
    (s.bindBad e origin k f).store = s.store := by
  simp [State.bindBad]

theorem State.takeRect_storeOk {s t : State} {e d x y j : Nat} (h : s.takeRect e d x y j = some t) (hs : StoreOk s.store) :
    StoreOk t.store := by
  unfold State.takeRect at h
  dsimp only at h
  split at h
  · cases h
  · split at h
    · split at h
      · cases h
        simp [hs]
      · cases h
    · split at h <;> cases h <;> simp [hs]

theorem State.tryRect_storeOk {s t : State} {e d x y : Nat} (h : s.tryRect e d x y = some t) (hs : StoreOk s.store) :
    StoreOk t.store := by
  unfold State.tryRect at h
  dsimp only at h
  split at h
  · cases h
  · split at h
    · cases h
    · exact State.takeRect_storeOk h hs

theorem State.tryDie_storeOk {s t : State} {e d : Nat} (h : s.tryDie e d = some t) (hs : StoreOk s.store) : StoreOk t.store := by
  obtain ⟨y, -, hy⟩ := List.exists_of_findSome?_eq_some h
  obtain ⟨x, -, hx⟩ := List.exists_of_findSome?_eq_some hy
  exact State.tryRect_storeOk hx hs

theorem State.findRect_storeOk {s t : State} {e : Nat} (h : s.findRect e = some t) (hs : StoreOk s.store) : StoreOk t.store := by
  obtain ⟨d, -, hd⟩ := List.exists_of_findSome?_eq_some h
  exact State.tryDie_storeOk hd hs

theorem State.tryKernel_storeOk {s t : State} {e : Nat} (h : s.tryKernel e = some t) (hs : StoreOk s.store) : StoreOk t.store := by
  have hk : StoreOk (s.modKernel e (fun k => { k with claim := none })).store := hs
  unfold State.tryKernel at h
  split at h
  · cases h
  · split at h
    · cases h
      simp [hs]
    · dsimp only at h
      split at h
      · exact State.findRect_storeOk h hs
      · split at h
        · exact State.findRect_storeOk h hk
        · split at h
          · split at h
            · cases h
              exact State.takeRect_storeOk ‹_› hk
            · exact State.findRect_storeOk h hk
          · split at h
            · cases h
            · exact State.findRect_storeOk h hk

@[simp] theorem State.endBinding_store (s : State) (g : Nat) :
    (s.endBinding g).store = s.store := by
  simp [State.endBinding]

@[simp] theorem State.releaseOwn_store (s : State) (g k : Nat) :
    (s.releaseOwn g k).store = s.store := by
  simp [State.releaseOwn]

@[simp] theorem State.bringBack_store (s : State) (g : Nat) :
    (s.bringBack g).store = s.store := by
  unfold State.bringBack
  dsimp only
  split
  · simp
  · split
    · rfl
    · split
      · simp
      · rfl

/-! ### The store through Machine/Float -/

@[simp] theorem rounding_store (lat : Nat) (op : Nat → Nat → Nat → Nat → Nat → Nat → Nat × BitVec 5) (f : Fire) (s : State) :
    (rounding lat op f s).1.store = s.store := by
  simp [rounding]

@[simp] theorem exactly_store (lat : Nat) (op : Nat → Nat → Nat → Nat × BitVec 5) (f : Fire) (s : State) :
    (exactly lat op f s).1.store = s.store := rfl

@[simp] theorem fcompare_store (anyNan : Bool) (op : Val → Val → Bool) (f : Fire) (s : State) :
    (fcompare anyNan op f s).1.store = s.store := rfl

@[simp] theorem special_store (fn : Nat) (f : Fire) (s : State) :
    (special fn f s).1.store = s.store := rfl

@[simp] theorem converting_store (conv : Nat → Nat → Nat → Nat → Nat × BitVec 5) (f : Fire) (s : State) :
    (converting conv f s).1.store = s.store := by
  simp [converting]

@[simp] theorem qntbFire_store (f : Fire) (s : State) :
    (qntbFire f s).1.store = s.store := by
  simp [qntbFire]

@[simp] theorem dqntbFire_store (f : Fire) (s : State) :
    (dqntbFire f s).1.store = s.store := by
  simp [dqntbFire]

@[simp] theorem smrgFire_store (f : Fire) (s : State) :
    (smrgFire f s).1.store = s.store := by
  unfold smrgFire
  dsimp only
  split <;> simp

/-! ### The store through Machine/Dies -/

@[simp] theorem State.recallGroup_store (s : State) (x : Nat × Nat) :
    (s.recallGroup x).store = s.store := by
  simp [State.recallGroup]

@[simp] theorem State.loseGroups_store (s : State) (e : Nat) (gs : List Nat) (wholeDie : Bool) :
    (s.loseGroups e gs wholeDie).store = s.store := by
  simp [State.loseGroups]

@[simp] theorem State.loseLoads_store (s : State) (g : Nat) :
    (s.loseLoads g).store = s.store := by
  unfold State.loseLoads
  dsimp only
  refine foldl_store _ (fun s x => ?_) _ _
  split
  · refine foldl_store _ (fun s x => ?_) _ _
    rfl
  · refine foldl_store _ (fun s x => ?_) _ _
    rfl

@[simp] theorem State.emptyRegion_store (s : State) (g : Nat) :
    (s.emptyRegion g).store = s.store := by
  unfold State.emptyRegion
  dsimp only
  exact (((State.modRegion_store ..).trans (State.dropImage_store ..)).trans (State.unbind_store ..)).trans (State.loseLoads_store ..)

@[simp] theorem State.loseRegions_store (s : State) (gs : List Nat) (wholeDie : Bool) :
    (s.loseRegions gs wholeDie).store = s.store := by
  simp [State.loseRegions]

@[simp] theorem State.fenceDie_store (s : State) (d : Nat) :
    (s.fenceDie d).store = s.store := by
  unfold State.fenceDie
  dsimp only
  split
  · rfl
  · split
    · exact (State.freeDelay_store ..).trans (State.loseRegions_store ..)
    · exact State.loseRegions_store ..

@[simp] theorem State.terminate_storeOk (s : State) (e : Nat) (st : KernelState) (status : Nat) (hs : StoreOk s.store) :
    StoreOk (s.terminate e st status).store := by
  unfold State.terminate
  dsimp only
  exact .of_eq (State.idleContext_store ..) (State.endRecompute_storeOk (hs := .of_eq ((State.resolveOthers_store ..).trans (State.modKernel_store ..)) hs) ..)

@[simp] theorem State.haltKernel_storeOk (s : State) (e : Nat) (hs : StoreOk s.store) :
    StoreOk (s.haltKernel e).store := by
  unfold State.haltKernel
  split
  · simp [hs]
  · simp [hs]
  · simp [hs]
  · exact hs

@[simp] theorem State.haltContext_storeOk (s : State) (m : Nat) (hs : StoreOk s.store) :
    StoreOk (s.haltContext m).store := by
  unfold State.haltContext
  dsimp only
  refine .of_eq (State.modContext_store ..) (foldl_storeOk _ (fun s x hs => ?_) _ _ ?_)
  · simp [hs]
  · simp [hs]

@[simp] theorem State.stopRegions_store (s : State) (m : Nat) :
    (s.stopRegions m).store = s.store := by
  simp [State.stopRegions]

/-! ### The store through Machine/Commit -/

@[simp] theorem State.applyBytes_storeOk (s : State) (e : DamperEntry) (hs : StoreOk s.store) :
    StoreOk (s.applyBytes e).store := by
  unfold State.applyBytes
  refine foldl_storeOk _ (fun s x hs => ?_) _ _ ?_
  · simp [hs]
  · exact hs

@[simp] theorem State.applyEntry_storeOk (s : State) (e : DamperEntry) (hs : StoreOk s.store) :
    StoreOk (s.applyEntry e).1.store := by
  unfold State.applyEntry
  split
  · simp [hs]
  · simp [hs]
  · simp [hs]
  · exact hs

@[simp] theorem State.applyStep_storeOk (s : State) (a b e : DamperEntry) (hs : StoreOk s.store) :
    StoreOk (s.applyStep a b e).1.store := by
  unfold State.applyStep
  split
  · exact hs
  · simp [hs]

@[simp] theorem State.applyGroup_storeOk (s : State) (x1 : List DamperEntry) (hs : StoreOk s.store) :
    StoreOk (s.applyGroup x1).1.store := by
  unfold State.applyGroup
  split
  · simp [hs]
  · simp [hs]
  · simp [hs]
  · exact hs

@[simp] theorem State.freeEntries_store (s : State) (ids : List Nat) :
    (s.freeEntries ids).store = s.store := rfl

@[simp] theorem State.modDamper_store (s : State) (id : Nat) (f : DamperEntry → DamperEntry) :
    (s.modDamper id f).store = s.store := rfl

@[simp] theorem State.settleT3_store (s : State) (e : DamperEntry) :
    (s.settleT3 e).store = s.store := by
  simp [State.settleT3]

@[simp] theorem applyAll_storeOk (e : Option Nat) (gs : List (List DamperEntry)) (stuck : List Nat) (s : State)
    (hs : StoreOk s.store) : StoreOk (applyAll e gs stuck s).store := by
  induction gs generalizing stuck s with
  | nil => exact hs
  | cons g t ih =>
    unfold applyAll
    dsimp only
    split
    · exact ih _ _ hs
    · refine ih _ _ (.of_eq (foldl_store _ (fun s y => State.settleT3_store ..) _ _) ?_)
      have hg := State.applyGroup_storeOk s g hs
      split
      · exact hg
      · exact hg

@[simp] theorem State.applySent_storeOk (s : State) (g c : Nat) (hs : StoreOk s.store) :
    StoreOk (s.applySent g c).store := by
  simp [State.applySent, hs]

@[simp] theorem State.abortReaders_store (s : State) (g c : Nat) :
    (s.abortReaders g c).store = s.store := by
  simp [State.abortReaders]

@[simp] theorem State.mapEntries_store (s : State) (g c : Nat) (f : DamperEntry → DamperEntry) :
    (s.mapEntries g c f).store = s.store := rfl

@[simp] theorem State.drain_store (s : State) (h : Nat) (e : DamperEntry) :
    (s.drain h e).store = s.store := rfl

@[simp] theorem State.tellWrite_store (s : State) (h : Nat) (e : DamperEntry) :
    (s.tellWrite h e).store = s.store := by
  simp [State.tellWrite]

@[simp] theorem State.sendEntry_store (s : State) (h : Nat) (e : DamperEntry) :
    (s.sendEntry h e).store = s.store := by
  unfold State.sendEntry
  split
  · exact (State.modDamper_store ..).trans ((State.tellWrite_store ..).trans (State.drain_store ..))
  · rfl

@[simp] theorem State.sendEntries_store (s : State) (g c : Nat) :
    (s.sendEntries g c).store = s.store := by
  simp [State.sendEntries]

theorem State.store_of_commits (s : State) (n : Nat) : ({ s with commits := n } : State).store = s.store := rfl

@[simp] theorem State.commitPoint_store (s : State) (g c : Nat) : (s.commitPoint g c).store = s.store := by
  unfold State.commitPoint
  rw [State.abortReaders_store, State.store_of_commits, State.mapEntries_store, State.modHolder_store, State.modColour_store]

@[simp] theorem State.applyTensor_storeOk (s : State) (m t : Nat) (mask v : BitVec 512) (hs : StoreOk s.store) :
    StoreOk (s.applyTensor m t mask v).store := by
  simp [State.applyTensor, hs]

@[simp] theorem State.injectStrike_store (s : State) (d v : Nat) :
    (s.injectStrike d v).store = s.store := by
  unfold State.injectStrike
  split <;> rfl

@[simp] theorem State.applyRegister_store (s : State) (g h reg v : Nat) :
    (s.applyRegister g h reg v).store = s.store := by
  unfold State.applyRegister
  split
  · rfl
  · rfl
  · rfl
  · simp
  · rfl
  · rfl
  · rfl
  · split <;> rfl

@[simp] theorem State.applyStaged_storeOk (s : State) (g c : Nat) (x : Staged) (hs : StoreOk s.store) :
    StoreOk (s.applyStaged g c x).store := by
  unfold State.applyStaged
  split
  · simp [hs]
  · exact hs
  · simp [hs]
  · exact hs
  · exact hs
  · exact hs
  · exact hs
  · exact hs

@[simp] theorem State.applyEffects_storeOk (s : State) (g c : Nat) (hs : StoreOk s.store) :
    StoreOk (s.applyEffects g c).store :=
  foldl_storeOk _ (fun _ _ h => State.queueEffect_storeOk (hs := h) ..) _ _
    (foldl_storeOk _ (fun _ _ h => State.applyStaged_storeOk (hs := h) ..) _ _ hs)

@[simp] theorem State.releaseReturns_store (s : State) (g c : Nat) :
    (s.releaseReturns g c).store = s.store := by
  unfold State.releaseReturns
  dsimp only
  refine foldl_store _ (fun s x => ?_) _ _
  exact State.store_of_around (by simp)

@[simp] theorem State.freeColour_store (s : State) (g c : Nat) :
    (s.freeColour g c).store = s.store := rfl

@[simp] theorem State.orphanWrites_store (s : State) (g c : Nat) :
    (s.orphanWrites g c).store = s.store := by
  unfold State.orphanWrites
  dsimp only
  split
  · rfl
  · exact State.modHolder_store ..

@[simp] theorem State.endCommit_store (s : State) (g c : Nat) :
    (s.endCommit g c).store = s.store := by
  simp [State.endCommit]

@[simp] theorem State.applyPhase_storeOk (s : State) (g c : Nat) (hs : StoreOk s.store) : StoreOk (s.applyPhase g c).store := by
  have ha : StoreOk (s.applySent g c).store := by simp [hs]
  have he : StoreOk ((s.applySent g c).applyEffects g c).store := by simp [ha]
  unfold State.applyPhase
  dsimp only
  split
  · exact ha
  · split
    · split
      · split
        · exact he
        · exact he
      · exact he
    · split
      · exact he
      · exact .of_eq (State.endCommit_store ..) he

@[simp] theorem State.prepare_storeOk (s : State) (g c : Nat) (hs : StoreOk s.store) :
    StoreOk (s.prepare g c).store := by
  unfold State.prepare
  dsimp only
  split
  · exact hs
  · split
    · simp [hs]
    · split <;> simp [hs]

@[simp] theorem State.advanceEntry_store (s : State) (h : Nat) (e : DamperEntry) :
    (s.advanceEntry h e).store = s.store := by
  unfold State.advanceEntry
  split
  · simp
  · simp
  · rfl

@[simp] theorem State.taintHolder_store (s : State) (g : Nat) :
    (s.taintHolder g).store = s.store := by
  simp [State.taintHolder]

@[simp] theorem State.poisonAt_storeOk (s : State) (granule : Nat) (hs : StoreOk s.store) :
    StoreOk (s.poisonAt granule).store := by
  unfold State.poisonAt
  split
  · exact hs
  · exact ⟨hs.1, insertRising_rising _ (Nat.zero_le _) hs.2⟩

@[simp] theorem State.poisonGranule_storeOk (s : State) (e : DamperEntry) (hs : StoreOk s.store) :
    StoreOk (s.poisonGranule e).store := foldl_storeOk _ (fun _ _ h => State.poisonAt_storeOk (hs := h) ..) _ _ hs

theorem State.store_of_unacked (s : State) (l : List Nat) : ({ s with unacked := l } : State).store = s.store := rfl

@[simp] theorem State.resend_store (s : State) (h : Nat) (e : DamperEntry) (add : Nat) :
    (s.resend h e add).store = s.store := by
  unfold State.resend
  split
  · rw [State.store_of_unacked, State.modDamper_store, State.tellWrite_store, State.drain_store]
  · rfl

@[simp] theorem State.goOnResends_store (s : State) : s.goOnResends.store = s.store :=
  foldl_store _ (fun _ _ => foldl_store _ (fun _ _ => State.resend_store ..) _ _) _ _

@[simp] theorem State.refuse_storeOk (s : State) (h : Nat) (e : DamperEntry) (hs : StoreOk s.store) :
    StoreOk (s.refuse h e).store := by
  unfold State.refuse
  split
  · exact .of_eq (State.resend_store ..) hs
  · split
    · rw [State.taintHolder_store, State.modDamper_store, State.store_of_unacked]
      exact hs
    · refine .of_eq ((foldl_store _ (fun s y => State.settleT3_store ..) _ _).trans ((State.taintHolder_store ..).trans
        (State.freeEntries_store ..))) (State.poisonGranule_storeOk (hs := .of_eq (State.modHolder_store ..) ?_) ..)
      exact State.applyGroup_storeOk (hs := hs) ..

@[simp] theorem State.loseWrite_storeOk (s : State) (h : Nat) (e : DamperEntry) (hs : StoreOk s.store) :
    StoreOk (s.loseWrite h e).store := by
  have hp : StoreOk ((((s.poisonGranule e).freeEntries [e.id]).taintHolder e.region).settleT3 e).store := by simp [hs]
  unfold State.loseWrite
  dsimp only
  split
  · exact .of_eq (State.kernelFault_store ..) hp
  · exact hp

@[simp] theorem State.retryT3_storeOk (s : State) (g : Nat) (hs : StoreOk s.store) :
    StoreOk (s.retryT3 g).store := by
  simp [State.retryT3, hs]

@[simp] theorem State.reissued_store (s : State) (g id : Nat) :
    (s.reissued g id).store = s.store := by
  simp [State.reissued]

@[simp] theorem State.clearCallee_store (s : State) (g : Nat) :
    (s.clearCallee g).store = s.store := by
  unfold State.clearCallee
  dsimp only
  refine foldl_store _ (fun s x => ?_) _ _
  rfl

@[simp] theorem State.reissueCall_store (s : State) (g : Nat) (x : Reissue) (i : Nat) (c : Call) (n : Nat) (rg : Region) :
    (s.reissueCall g x i c n rg).store = s.store := by
  unfold State.reissueCall
  split
  · split <;> simp
  · simp

@[simp] theorem State.reissueToken_store (s : State) (g : Nat) (x : Reissue) (n : Nat) (rg : Region) :
    (s.reissueToken g x n rg).store = s.store := by
  unfold State.reissueToken
  split
  · simp
  · split
    · simp
    · split <;> simp

@[simp] theorem State.exhaustReissue_store (s : State) (g : Nat) (x : Reissue) :
    (s.exhaustReissue g x).store = s.store := by
  unfold State.exhaustReissue
  dsimp only
  split <;> exact State.store_of_around (by simp)

theorem State.tryReissue_store {s t : State} {g : Nat} {x : Reissue} (h : s.tryReissue g x = some t) : t.store = s.store := by
  unfold State.tryReissue at h
  dsimp only at h
  generalize (s.region g).callAgain x = call at h
  cases call <;> dsimp only at h
  all_goals
    split at h
    · cases h
    · split at h <;> cases h <;> simp

/-! ### The store through Machine/Strike -/

@[simp] theorem State.strikeRegion_store (s : State) (square : List Nat) (t g : Nat) :
    (s.strikeRegion square t g).store = s.store := by
  simp [State.strikeRegion]

@[simp] theorem State.strikeMessage_store (s : State) (h t r n : Nat) :
    (s.strikeMessage h t r n).store = s.store := rfl

@[simp] theorem State.scrub_store (s : State) (square : List Nat) :
    (s.scrub square).store = s.store := by
  unfold State.scrub
  dsimp only
  refine ((State.push_store ..).trans (foldl_store _ (fun s x => ?_) _ _)).trans ?_
  · rfl
  · rfl

@[simp] theorem State.strikePurge_store (s : State) (h t : Nat) :
    (s.strikePurge h t).1.store = s.store := by
  simp [State.strikePurge]

@[simp] theorem State.reportStrike_store (s : State) (h t : Nat) :
    (s.reportStrike h t).store = s.store := by
  unfold State.reportStrike
  dsimp only
  exact ((State.scrub_store ..).trans (State.modHearth_store ..)).trans (State.strikePurge_store ..)

@[simp] theorem State.closeStrike_store (s : State) (x : Nat × Nat × Nat) :
    (s.closeStrike x).store = s.store := by
  simp [State.closeStrike]

@[simp] theorem State.closeStrikes_store (s : State) :
    s.closeStrikes.store = s.store := by
  unfold State.closeStrikes
  split
  · rfl
  · refine foldl_store _ (fun s x => ?_) _ _
    simp

@[simp] theorem State.takeNotice_store (s : State) (g : Nat) (n : PurgeNotice) :
    (s.takeNotice g n).store = s.store := by
  simp [State.takeNotice]

@[simp] theorem State.loseStructure_store (s : State) (h k n code : Nat) :
    (s.loseStructure h k n code).store = s.store := by
  unfold State.loseStructure
  split
  · rfl
  · split <;> simp

@[simp] theorem State.rollbackSlot_store (s : State) (h k : Nat) :
    (s.rollbackSlot h k).store = s.store := by
  unfold State.rollbackSlot
  split
  · simp
  · rfl

@[simp] theorem State.handleError_storeOk (s : State) (x : ErrorSite) (hs : StoreOk s.store) :
    StoreOk (s.handleError x).store := by
  cases x with
  | granule a =>
    simp only [State.handleError]
    split <;> simp [hs]
  | damper h id =>
    simp only [State.handleError]
    split
    · split <;> simp [hs]
    · exact hs
  | plane h k => simp [State.handleError, hs]
  | colour g c => simp [State.handleError, hs]
  | nodeStore h k n => simp [State.handleError, hs]
  | switchTable h k => simp [State.handleError, hs]
  | bindings h k => simp [State.handleError, hs]
  | engine q => simp [State.handleError, hs]
  | distributor d => simp [State.handleError, hs]
  | token h k c => simp only [State.handleError]; split <;> simp [hs]
  | accumulator h m => simp only [State.handleError]; split <;> simp [hs]
  | reply h k id noise => simp only [State.handleError]; split <;> exact hs

@[simp] theorem State.queueMessage_store (s : State) (q : Nat) :
    (s.queueMessage q).store = s.store := by
  unfold State.queueMessage
  dsimp only
  split
  · split
    · split
      · split
        · simp
        · rfl
      · simp
    · simp
  · split
    · simp
    · rfl

/-! ### The store through Machine/Engine -/

@[simp] theorem State.wroteGranule_store (s : State) (q n : Nat) (poison : Bool) : (s.wroteGranule q n poison).store = s.store :=
  (State.countGranules_store ..).trans (State.modEntry_store ..)

@[simp] theorem State.risePointer_store (s : State) (q : Nat) (wpc : BitVec 8) (n : Nat) : (s.risePointer q wpc n).store = s.store := by
  unfold State.risePointer
  split <;> rfl

theorem Met.All.left {α : Type} {x : Met (State × α)} {t : State} {a : α} (hx : x.All (fun v => StoreOk v.1.store))
    (e : x = .ok (t, a)) : StoreOk t.store := hx.get e

theorem State.meet_storeOk {α : Type} {s : State} {q : Nat} {x : Met α} {k : α → State} {p : α → Prop} (hs : StoreOk s.store)
    (hx : x.All p) (hk : ∀ y, p y → StoreOk (k y).store) : StoreOk (s.meet q x k).store := by
  cases x with
  | ok y => exact hk y (hx.get rfl)
  | wait a => exact .of_eq (State.waitOn_store ..) hs
  | denied c d a => exact .of_eq (State.withholdEntry_store ..) hs

theorem readTagged_storeOk (m : Nat) (l : List (Nat × Nat)) (s : State) (hs : StoreOk s.store) :
    (readTagged m l s).All (fun x => StoreOk x.1.store) := by
  induction l generalizing s with
  | nil => exact .ok hs
  | cons a t ih => exact (State.engineRead_storeOk (hs := hs) ..).bind (fun x hx => (ih x.1 hx).map (fun _ hy => hy))

theorem State.readRange_storeOk (s : State) (m va n : Nat) (hs : StoreOk s.store) :
    (s.readRange m va n).All (fun x => StoreOk x.1.store) := readTagged_storeOk (hs := hs) ..

theorem State.copyBytes_storeOk (s : State) (m : Nat) (c : CurrentEntry) (src i n : Nat) (hs : StoreOk s.store) :
    (s.copyBytes m c src i n).All (fun x => StoreOk x.1.store) := by
  unfold State.copyBytes
  split
  · exact State.readRange_storeOk (hs := hs) ..
  · exact .ok hs

theorem writePieces_storeOk (m : Nat) (l : List (Nat × Nat)) (bs : List (Byte × Bool)) (s : State) (hs : StoreOk s.store) :
    (writePieces m l bs s).All (fun t => StoreOk t.store) := by
  induction l generalizing bs s with
  | nil => exact .ok hs
  | cons a t ih => exact (State.engineWrite_storeOk (hs := hs) ..).bind (fun x hx => ih _ x hx)

theorem State.writeTagged_storeOk (s : State) (m va : Nat) (bs : List (Byte × Bool)) (hs : StoreOk s.store) :
    (s.writeTagged m va bs).All (fun t => StoreOk t.store) := writePieces_storeOk (hs := hs) ..

theorem copyGo_storeOk (b : XferBody) (s : State) (q : Nat) (c : CurrentEntry) (hs : StoreOk s.store) :
    StoreOk (copyGo b s q c).store := by
  unfold copyGo
  dsimp only
  split
  · exact State.finishEntry_storeOk (hs := hs) ..
  · split
    · exact State.meet_storeOk hs (State.atLength_storeOk _ _ (fun _ h => State.readRange_storeOk (hs := h) ..) hs)
        (fun x hx => .of_eq (State.modEntry_store ..) hx)
    · exact State.meet_storeOk hs (State.copyBytes_storeOk (hs := hs) ..) (fun x hx => State.meet_storeOk hs
        (State.writeTagged_storeOk (hs := hx) ..) (fun y hy => .of_eq ((State.risePointer_store ..).trans (State.wroteGranule_store ..)) hy))

theorem fillGo_storeOk (b : XferBody) (s : State) (q : Nat) (c : CurrentEntry) (hs : StoreOk s.store) :
    StoreOk (fillGo b s q c).store := by
  unfold fillGo
  dsimp only
  split
  · exact State.finishEntry_storeOk (hs := hs) ..
  · exact State.meet_storeOk hs (State.engineWrite_storeOk (hs := hs) ..)
      (fun y hy => .of_eq ((State.risePointer_store ..).trans (State.wroteGranule_store ..)) hy)

theorem State.dropTest_storeOk (s : State) (q m t e : Nat) (c : CurrentEntry) (hs : StoreOk s.store) :
    StoreOk (s.dropTest q m t e c).1.store := by
  unfold State.dropTest
  split
  · exact hs
  · split
    · exact hs
    · exact .of_eq (State.waitRecompute_store ..) (State.beginRecompute_storeOk (hs := hs) ..)

theorem tensorStart_storeOk (agree ovlp : Nat → Nat → Bool) (b : TensorBody) (s : State) (q : Nat) (c : CurrentEntry)
    (hs : StoreOk s.store) : StoreOk (tensorStart agree ovlp b s q c).1.store := by
  unfold tensorStart
  dsimp only
  split
  · exact hs
  · split
    · split
      · exact hs
      · split
        · exact hs
        · exact State.dropTest_storeOk (hs := hs) ..
    · exact hs
    · exact hs

theorem State.readElem_storeOk (s : State) (m e : Nat) (p : Nat × Nat × Nat) (hs : StoreOk s.store) :
    (s.readElem m e p).All (fun x => StoreOk x.1.store) := (State.readRange_storeOk (hs := hs) ..).map (fun _ hx => hx)

theorem readElems_storeOk (m e : Nat) (l : List (Option (Nat × Nat × Nat))) (s : State) (hs : StoreOk s.store) :
    (readElems m e l s).All (fun x => StoreOk x.1.store) := by
  induction l generalizing s with
  | nil => exact .ok hs
  | cons a t ih =>
    cases a with
    | none => exact (ih s hs).map (fun _ hx => hx)
    | some i => exact (State.readElem_storeOk (hs := hs) ..).bind (fun x hx => (ih x.1 hx).map (fun _ hy => hy))

theorem State.writeElements_storeOk (s : State) (m va w : Nat) (xs : List (Nat × Bool)) (hs : StoreOk s.store) :
    (s.writeElements m va w xs).All (fun t => StoreOk t.store) := by
  unfold State.writeElements
  dsimp only
  split
  · exact State.writeTagged_storeOk (hs := hs) ..
  · exact (State.engineRead_storeOk (hs := hs) ..).bind (fun x hx => State.writeTagged_storeOk (hs := hx) ..)

theorem elementsGo_storeOk (pcode unit x y : Nat) (s : State) (q : Nat) (c : CurrentEntry) (hs : StoreOk s.store) :
    StoreOk (elementsGo pcode unit x y s q c).store :=
  State.meet_storeOk hs (State.atLength_storeOk _ _ (fun _ h => readElems_storeOk (hs := h) ..) hs) (fun _ hv =>
    State.meet_storeOk hs (State.writeElements_storeOk (hs := hv) ..) (fun _ hy => .of_eq (State.wroteGranule_store ..) hy))

theorem scaleGo_storeOk (pcode x y i : Nat) (s : State) (q : Nat) (hs : StoreOk s.store) :
    StoreOk (scaleGo pcode x y i s q).store :=
  State.meet_storeOk hs (State.engineRead_storeOk (hs := hs) ..) (fun _ hv =>
    State.meet_storeOk hs (State.engineWrite_storeOk (hs := hv) ..) (fun _ hy => .of_eq (State.wroteGranule_store ..) hy))

theorem tensorGo_storeOk (pcode unit : Nat) (s : State) (q : Nat) (c : CurrentEntry) (hs : StoreOk s.store) :
    StoreOk (tensorGo pcode unit s q c).store := by
  unfold tensorGo
  dsimp only
  split
  · exact elementsGo_storeOk (hs := hs) ..
  · split
    · exact scaleGo_storeOk (hs := hs) ..
    · exact State.finishEntry_storeOk (hs := hs) ..

theorem readBlock_storeOk (m w : Nat) (l : List Nat) (s : State) (hs : StoreOk s.store) :
    (readBlock m w l s).All (fun x => StoreOk x.1.store) := by
  induction l generalizing s with
  | nil => exact .ok hs
  | cons a t ih => exact (State.readRange_storeOk (hs := hs) ..).bind (fun x hx => (ih x.1 hx).map (fun _ hy => hy))

theorem writeBlock_storeOk (m w : Nat) (l : List (Nat × List (Nat × Bool))) (s : State) (hs : StoreOk s.store) :
    (writeBlock m w l s).All (fun t => StoreOk t.store) := by
  induction l generalizing s with
  | nil => exact .ok hs
  | cons a t ih => exact (State.writeTagged_storeOk (hs := hs) ..).bind (fun x hx => ih x hx)

theorem State.exchangeBlocks_storeOk (s : State) (m e a b : Nat) (hs : StoreOk s.store) :
    (s.exchangeBlocks m e a b).All (fun x => StoreOk x.1.store) := by
  refine (readBlock_storeOk (hs := hs) ..).bind (fun x hx => (readBlock_storeOk (hs := hx) ..).bind (fun y hy =>
    (writeBlock_storeOk (hs := hy) ..).bind (fun s hs => Met.All.map (p := fun t => StoreOk t.store) ?_ (fun _ h => h))))
  split
  · exact .ok hs
  · exact writeBlock_storeOk (hs := hs) ..

theorem exchangeGo_storeOk (e : Nat) (s : State) (q : Nat) (c : CurrentEntry) (hs : StoreOk s.store) :
    StoreOk (exchangeGo e s q c).store := by
  unfold exchangeGo
  dsimp only
  split
  · exact State.finishEntry_storeOk (hs := hs) ..
  · exact State.meet_storeOk hs (State.atLength_storeOk _ _ (fun _ h => State.exchangeBlocks_storeOk (hs := h) ..) hs) (fun _ hx =>
      .of_eq ((State.modEntry_store ..).trans ((State.countGranules_store ..).trans (State.wroteGranule_store ..))) hx)

theorem copytGo_storeOk (s : State) (q : Nat) (c : CurrentEntry) (hs : StoreOk s.store) : StoreOk (copytGo s q c).store := by
  unfold copytGo
  dsimp only
  split
  · exact exchangeGo_storeOk (hs := hs) ..
  · exact tensorGo_storeOk (hs := hs) ..

theorem rowsStart_storeOk (rows dense : Nat) (b : RowsBody) (s : State) (q : Nat) (c : CurrentEntry) (hs : StoreOk s.store) :
    StoreOk (rowsStart rows dense b s q c).1.store := by
  unfold rowsStart
  split
  · exact hs
  · split
    · exact .of_eq (State.waitOn_store ..) hs
    · exact .of_eq (State.withholdEntry_store ..) hs
    · rename_i h
      have ht := (State.longRead_storeOk (hs := hs) ..).get h
      dsimp only
      split
      · exact ht
      · split <;> exact ht

theorem rowsGo_storeOk (gather : Bool) (b : RowsBody) (s : State) (q : Nat) (c : CurrentEntry) (hs : StoreOk s.store) :
    StoreOk (rowsGo gather b s q c).store := by
  unfold rowsGo
  extract_lets
  split
  · exact State.finishEntry_storeOk (hs := hs) ..
  · exact State.meet_storeOk hs (State.readRange_storeOk (hs := hs) ..) (fun _ hx =>
      State.meet_storeOk hs (State.writeTagged_storeOk (hs := hx) ..) (fun _ hy => .of_eq (State.wroteGranule_store ..) hy))

theorem qfenceStart_store (b : FenceBody) (s : State) (q : Nat) (c : CurrentEntry) : (qfenceStart b s q c).1.store = s.store := by
  unfold qfenceStart
  split
  · rfl
  · exact foldl_store _ (fun _ _ => State.tellQueue_store ..) _ _

theorem qfenceGo_storeOk (s : State) (q : Nat) (c : CurrentEntry) (hs : StoreOk s.store) : StoreOk (qfenceGo s q c).store := by
  unfold qfenceGo
  split
  · exact State.finishEntry_storeOk (hs := .of_eq (State.workEntry_store ..) hs) ..
  · exact .of_eq (State.waitEntry_store ..) hs

theorem State.withdrawKernel_storeOk (s : State) (e : Nat) (hs : StoreOk s.store) : StoreOk (s.withdrawKernel e).store := by
  unfold State.withdrawKernel
  split
  · exact State.terminate_storeOk (hs := .of_eq (foldl_store _ (fun _ _ => State.detach_store ..) _ _) hs) ..
  · exact hs

theorem withdrawChain_storeOk (m tag mask hi k n a : Nat) (s : State) (u : Queue) (hs : StoreOk s.store) :
    StoreOk (withdrawChain m tag mask hi k n a s u).1.store := by
  induction k generalizing n a s u with
  | zero => exact hs
  | succ k ih =>
    unfold withdrawChain
    split
    · exact ih _ _ _ _ ((State.longRead_storeOk (hs := hs) ..).get ‹_›)
    · exact hs

theorem State.withdrawQueue_storeOk (s : State) (m tag mask q : Nat) (hs : StoreOk s.store) :
    StoreOk (s.withdrawQueue m tag mask q).store := by
  unfold State.withdrawQueue
  dsimp only
  split
  · exact hs
  · refine .of_eq (State.setQueue_store ..) ?_
    split
    · split
      · exact withdrawChain_storeOk (hs := (State.longRead_storeOk (hs := hs) ..).get ‹_›) ..
      · exact hs
    · exact withdrawChain_storeOk (hs := hs) ..

theorem wdrawGo_storeOk (b : WithdrawBody) (s : State) (q : Nat) (c : CurrentEntry) (hs : StoreOk s.store) :
    StoreOk (wdrawGo b s q c).store := by
  refine State.finishEntry_storeOk (hs := foldl_storeOk _ (fun _ _ h => State.withdrawQueue_storeOk (hs := h) ..) _ _ ?_) ..
  exact foldl_storeOk _ (fun _ _ h => State.withdrawKernel_storeOk (hs := h) ..) _ _ (.of_eq (State.tellDies_store ..) hs)

theorem signalGo_storeOk (b : SignalBody) (s : State) (q : Nat) (c : CurrentEntry) (hs : StoreOk s.store) :
    StoreOk (signalGo b s q c).store := by
  unfold signalGo
  dsimp only
  split
  · exact State.finishEntry_storeOk (hs := hs) ..
  · split
    · exact State.meet_storeOk hs (State.engineWrite_storeOk (hs := hs) ..) (fun _ hy => .of_eq (State.wroteGranule_store ..) hy)
    · exact State.meet_storeOk hs (State.engineRead_storeOk (hs := hs) ..) (fun _ hx =>
        State.meet_storeOk hs (State.engineWrite_storeOk (hs := hx) ..) (fun _ hy => .of_eq (State.wroteGranule_store ..) hy))

theorem State.waitvRead_storeOk (s : State) (q : Nat) (b : WaitBody) (c : CurrentEntry) (hs : StoreOk s.store) :
    StoreOk (s.waitvRead q b c).store := by
  unfold State.waitvRead
  split
  · exact State.finishEntry_storeOk (hs := .of_eq (State.workEntry_store ..) hs) ..
  · refine State.meet_storeOk hs (State.engineRead_storeOk (hs := hs) ..) (fun x hx => ?_)
    split
    · exact State.finishEntry_storeOk (hs := .of_eq (State.workEntry_store ..) hx) ..
    · split
      · exact State.finishEntry_storeOk (hs := .of_eq (State.workEntry_store ..) hx) ..
      · exact .of_eq ((State.waitEntry_store ..).trans (State.modEntry_store ..)) hx

theorem waitvGo_storeOk (b : WaitBody) (s : State) (q : Nat) (c : CurrentEntry) (hs : StoreOk s.store) :
    StoreOk (waitvGo b s q c).store := by
  unfold waitvGo
  split
  · exact State.waitvRead_storeOk (hs := hs) ..
  · exact hs

/-! ### The store through Machine/Sequence -/

theorem seqStart_storeOk (bad : Bool) (sd : BitVec 64) (check : Nat → Option Nat) (s : State) (q : Nat) (c : CurrentEntry)
    (hs : StoreOk s.store) : StoreOk (seqStart bad sd check s q c).1.store := by
  unfold seqStart
  split
  · exact hs
  · split
    · exact .of_eq (State.waitOn_store ..) hs
    · exact .of_eq (State.withholdEntry_store ..) hs
    · rename_i h
      have ht := (State.engineRead_storeOk (hs := hs) ..).get h
      dsimp only
      split
      · exact ht
      · split <;> exact ht

theorem State.readKey_storeOk (s : State) (m sd va : Nat) (d : Option Int) (hs : StoreOk s.store) :
    (s.readKey m sd va d).All (fun x => StoreOk x.1.store) := by
  unfold State.readKey
  have hr := State.readRange_storeOk s m va (sdRsz sd) hs
  split
  · have hf := State.readRange_storeOk _ m (sdFqa sd) (4 * sdPairs sd) (hr.left ‹_›)
    split
    · exact .ok (hf.left ‹_›)
    · exact hf
  · exact hr

theorem State.retag_storeOk (s : State) (m a : Nat) (f : Nat → Nat) (hs : StoreOk s.store) :
    (s.retag m a f).All (fun t => StoreOk t.store) := by
  unfold State.retag
  split
  · exact .wait
  · exact .denied
  · exact State.engineWrite_storeOk (hs := (State.engineRead_storeOk (hs := hs) ..).get ‹_›) ..

theorem State.openSlot_storeOk (s : State) (m sd k : Nat) (hs : StoreOk s.store) :
    (s.openSlot m sd k).All (fun t => StoreOk t.store) := State.retag_storeOk (hs := hs) ..

theorem State.closeSlot_storeOk (s : State) (m sd k gen : Nat) (hs : StoreOk s.store) :
    (s.closeSlot m sd k gen).All (fun t => StoreOk t.store) := State.retag_storeOk (hs := hs) ..

@[simp] theorem State.stepEntry_store (s : State) (q progress off : Nat) : (s.stepEntry q progress off).store = s.store :=
  State.modEntry_store ..

theorem State.rowGranule_storeOk (s : State) (q : Nat) (c : CurrentEntry) (va n skip cost next : Nat) (hs : StoreOk s.store) :
    StoreOk (s.rowGranule q c va n skip cost next).store := by
  refine State.meet_storeOk hs (State.writeTagged_storeOk (hs := hs) ..) (fun y hy => ?_)
  dsimp only
  split <;> exact .of_eq ((State.stepEntry_store ..).trans ((State.modEntry_store ..).trans (State.countGranules_store ..))) hy

theorem State.rewriteGo_storeOk (s : State) (q : Nat) (c : CurrentEntry) (sd p : Nat) (hasVal : Bool) (cost : Nat)
    (done : State → State) (hd : ∀ s, (done s).store = s.store) (hs : StoreOk s.store) :
    StoreOk (s.rewriteGo q c sd p hasVal cost done).store := by
  unfold State.rewriteGo
  dsimp only
  split
  · exact State.rowGranule_storeOk (hs := hs) ..
  · exact State.rowGranule_storeOk (hs := hs) ..
  · exact State.meet_storeOk hs (State.writeTagged_storeOk (hs := hs) ..) (fun _ hy =>
      .of_eq ((State.stepEntry_store ..).trans (State.modEntry_store ..)) hy)
  · exact State.meet_storeOk hs (State.closeSlot_storeOk (hs := hs) ..) (fun _ hy =>
      .of_eq ((hd _).trans ((State.stepEntry_store ..).trans (State.modEntry_store ..))) hy)

theorem State.beginRewrite_storeOk (s : State) (q : Nat) (c : CurrentEntry) (sd p : Nat) (buf : List (Byte × Bool))
    (hs : StoreOk s.store) : StoreOk (s.beginRewrite q c sd p buf).store :=
  State.meet_storeOk hs (State.openSlot_storeOk (hs := hs) ..) (fun _ hy =>
    .of_eq ((State.stepEntry_store ..).trans (State.modEntry_store ..)) hy)

theorem State.copyrRows_storeOk (s : State) (m sd : Nat) (b : CopyrBody) (n : Nat) (hs : StoreOk s.store) :
    (s.copyrRows m sd b n).All (fun x => StoreOk x.1.store) := by
  unfold State.copyrRows
  have hk := State.readKey_storeOk s m sd (b.src.toNat + n * sdRsz sd) (some ((b.dpos.toNat : Int) - b.spos.toNat)) hs
  split
  · split
    · exact .ok (hk.left ‹_›)
    · have hv := State.readRange_storeOk _ m (b.srcv.toNat + n * sdRsz sd) (sdRsz sd) (hk.left ‹_›)
      split
      · exact .ok (hv.left ‹_›)
      · exact hv
  · exact hk

theorem copyrGo_storeOk (b : CopyrBody) (s : State) (q : Nat) (c : CurrentEntry) (hs : StoreOk s.store) :
    StoreOk (copyrGo b s q c).store := by
  unfold copyrGo
  dsimp only
  split
  · exact State.finishEntry_storeOk (hs := hs) ..
  · split
    · split
      · exact hs
      · exact State.meet_storeOk hs (State.atLength_storeOk _ _ (fun _ h => State.copyrRows_storeOk (hs := h) ..) hs)
          (fun _ hx => State.beginRewrite_storeOk (hs := hx) ..)
    · exact State.rewriteGo_storeOk (hs := hs) (hd := fun _ => rfl) ..

theorem State.slotRows_storeOk (s : State) (m sd k : Nat) (d : Option Int) (hs : StoreOk s.store) :
    (s.slotRows m sd k d).All (fun x => StoreOk x.1.store) := by
  unfold State.slotRows
  have hk := State.readKey_storeOk s m sd (sdKb sd + k * sdRsz sd) d hs
  split
  · have hv := State.readRange_storeOk _ m (sdVb sd + k * sdRsz sd) (sdRsz sd) (hk.left ‹_›)
    split
    · have hr := State.readRange_storeOk _ m (sdRta sd + k) 1 (hv.left ‹_›)
      split
      · exact .ok (hr.left ‹_›)
      · exact hr
    · exact hv
  · exact hk

theorem patchSource_storeOk (b : PatchBody) (s : State) (q : Nat) (c : CurrentEntry) (sd p : Nat) (hs : StoreOk s.store) :
    StoreOk (patchSource b s q c sd p).store := by
  refine State.meet_storeOk hs (State.engineRead_storeOk (hs := hs) ..) (fun x hx => ?_)
  split
  · exact .of_eq ((State.stepEntry_store ..).trans (State.modEntry_store ..)) hx
  · exact State.meet_storeOk hs (State.atLength_storeOk _ _ (fun _ h => State.slotRows_storeOk (hs := h) ..) hx)
      (fun _ hy => State.beginRewrite_storeOk (hs := hy) ..)

theorem patchGo_storeOk (b : PatchBody) (s : State) (q : Nat) (c : CurrentEntry) (hs : StoreOk s.store) :
    StoreOk (patchGo b s q c).store := by
  unfold patchGo
  dsimp only
  split
  · split
    · split
      · exact hs
      · exact patchSource_storeOk (hs := hs) ..
    · exact State.rewriteGo_storeOk (hs := hs) (hd := fun _ => State.modEntry_store ..) ..
  · split
    · split
      · exact hs
      · exact State.meet_storeOk hs (State.retag_storeOk (hs := hs) ..) (fun _ hy => .of_eq (State.stepEntry_store ..) hy)
    · exact State.finishEntry_storeOk (hs := hs) ..

theorem compactStart_storeOk (b : CompactBody) (s : State) (q : Nat) (c : CurrentEntry) (hs : StoreOk s.store) :
    StoreOk (compactStart b s q c).1.store := by
  unfold compactStart
  have h := seqStart_storeOk (compactBad b) b.sd (compactCheck b) s q c hs
  split
  · rename_i e
    rwa [e] at h
  · exact h

theorem compactScan_storeOk (b : CompactBody) (sd thr q k : Nat) (s : State) (i : Nat) (hs : StoreOk s.store) :
    StoreOk (compactScan b sd thr q k s i).store := by
  induction k generalizing s i with
  | zero => exact .of_eq (State.stepEntry_store ..) hs
  | succ k ih =>
    unfold compactScan
    dsimp only
    have hst : StoreOk (s.stepEntry q (5 * i) 0).store := .of_eq (State.stepEntry_store ..) hs
    split
    · exact hst
    · refine State.meet_storeOk hst (State.engineRead_storeOk (hs := hst) ..) (fun x hx => ?_)
      split
      · exact ih _ _ hx
      · exact State.meet_storeOk hst (State.atLength_storeOk _ _ (fun _ h => State.slotRows_storeOk (hs := h) ..) hx)
          (fun _ hy => .of_eq ((State.stepEntry_store ..).trans (State.modEntry_store ..)) hy)

theorem compactAgain_storeOk (s : State) (q : Nat) (c : CurrentEntry) (sd thr p i : Nat) (hs : StoreOk s.store) :
    StoreOk (compactAgain s q c sd thr p i).store := by
  refine State.meet_storeOk hs (State.engineRead_storeOk (hs := hs) ..) (fun x hx => ?_)
  split
  · exact .of_eq (State.stepEntry_store ..) hx
  · split <;> exact .of_eq (State.stepEntry_store ..) hx

/-! ### The store through Machine/Pages -/

@[simp] theorem State.mapCaches_store (s : State) (f : TableCache → TableCache) :
    (s.mapCaches f).store = s.store := rfl

@[simp] theorem State.dropPage_store (s : State) (m va : Nat) :
    (s.dropPage m va).store = s.store := rfl

@[simp] theorem State.invalidate_store (s : State) (v : Nat) :
    (s.invalidate v).store = s.store := by
  simp [State.invalidate]

@[simp] theorem State.putLeaf_storeOk (s : State) (a : Nat) (f : Nat → Nat) (hs : StoreOk s.store) :
    StoreOk (s.putLeaf a f).store := by
  simp [State.putLeaf, hs]

@[simp] theorem State.copyGranule_storeOk (s : State) (la a b : Nat) (hs : StoreOk s.store) :
    StoreOk (s.copyGranule la a b).store := by
  simp [State.copyGranule, hs]

/-! ### The store through Machine/Flue -/

@[simp] theorem State.setLink_store (s : State) (l : Nat) (x : Link) :
    (s.setLink l x).store = s.store := rfl

@[simp] theorem State.modLink_store (s : State) (l : Nat) (f : Link → Link) :
    (s.modLink l f).store = s.store := rfl

@[simp] theorem State.moveLink_store (s : State) (l : Nat) (st : LinkState) :
    (s.moveLink l st).store = s.store := rfl

@[simp] theorem State.flueSend_store (s : State) (l : Nat) (items : List FlueItem) :
    (s.flueSend l items).store = s.store := rfl

@[simp] theorem State.fenceLink_store (s : State) (l : Nat) :
    (s.fenceLink l).store = s.store := rfl

@[simp] theorem State.receiveItem_store (s : State) (l : Nat) (i : FlueItem) :
    (s.receiveItem l i).store = s.store := by
  unfold State.receiveItem
  split
  · rfl
  · split <;> simp

/-! ### The store through Machine/Collectives -/

@[simp] theorem State.modColl_store (s : State) (q : Nat) (f : Collective → Collective) :
    (s.modColl q f).store = s.store := rfl

@[simp] theorem State.sendTo_store (s : State) (c : CurrentEntry) (r : Nat) (i : FlueItem) :
    (s.sendTo c r i).store = s.store := rfl

@[simp] theorem State.sendAround_store (s : State) (c : CurrentEntry) (but : Option Nat) (i : FlueItem) :
    (s.sendAround c but i).store = s.store := by
  unfold State.sendAround
  refine foldl_store _ (fun s x => ?_) _ _
  rfl

@[simp] theorem State.contribute_store (s : State) (q i ranks : Nat) :
    (s.contribute q i ranks).store = s.store := rfl

@[simp] theorem State.takeFinal_store (s : State) (q : Nat) (c : CurrentEntry) (r i : Nat) (xs : List Nat) (p : Bool) (ranks : Nat) :
    (s.takeFinal q c r i xs p ranks).store = s.store := by
  unfold State.takeFinal
  split
  · rfl
  · split
    · simp
    · split
      · split
        · rfl
        · split <;> rfl
      · simp

@[simp] theorem State.takeItem_store (s : State) (q r : Nat) (i : FlueItem) :
    (s.takeItem q r i).store = s.store := by
  unfold State.takeItem
  split
  · rfl
  · split
    · rfl
    · split
      · simp
      · simp
      · simp
      · simp
      · rfl
      · rfl

@[simp] theorem State.takeFrom_store (s : State) (q r : Nat) :
    (s.takeFrom q r).store = s.store := by
  unfold State.takeFrom
  dsimp only
  split
  · rfl
  · split
    · rfl
    · simp

@[simp] theorem State.finishChunk_store (s : State) (q : Nat) (c : CurrentEntry) (i : Nat) (xs : List Nat) (p : Bool) :
    (s.finishChunk q c i xs p).store = s.store := by
  simp [State.finishChunk]

@[simp] theorem State.announceEnd_store (s : State) (q : Nat) (c : CurrentEntry) :
    (s.announceEnd q c).store = s.store := by
  simp [State.announceEnd]

@[simp] theorem State.leaveColl_store (s : State) (c : CurrentEntry) :
    (s.leaveColl c).store = s.store := by
  simp [State.leaveColl]

@[simp] theorem State.peerLost_storeOk (s : State) (q : Nat) (hs : StoreOk s.store) :
    StoreOk (s.peerLost q).store := by
  unfold State.peerLost
  exact State.finishEntry_storeOk (hs := .of_eq ((State.modEntry_store ..).trans (State.workEntry_store ..)) hs) ..

@[simp] theorem State.leaveItems_store (s : State) (l : Nat) (rest : List FlueItem) :
    (s.leaveItems l rest).store = s.store := rfl

/-! ### The store through Machine/Sequence -/

theorem compactGo_storeOk (b : CompactBody) (s : State) (q : Nat) (c : CurrentEntry) (hs : StoreOk s.store) :
    StoreOk (compactGo b s q c).store := by
  unfold compactGo
  dsimp only
  split
  · exact State.finishEntry_storeOk (hs := hs) ..
  · split
    · exact compactScan_storeOk (hs := hs) ..
    · exact compactAgain_storeOk (hs := hs) ..
    · exact State.rowGranule_storeOk (hs := hs) ..
    · exact State.rowGranule_storeOk (hs := hs) ..
    · refine State.meet_storeOk (p := fun t => StoreOk t.store) hs ?_ (fun _ hy =>
        .of_eq ((State.stepEntry_store ..).trans (State.modEntry_store ..)) hy)
      split
      · exact .ok hs
      · exact State.engineWrite_storeOk (hs := hs) ..

/-! ### The store through Machine/Pages -/

theorem State.recopy_storeOk (s : State) (q la old new : Nat) (hs : StoreOk s.store) : StoreOk (s.recopy q la old new).store :=
  foldl_storeOk _ (fun _ _ h => State.copyGranule_storeOk (hs := .of_eq (State.modEntry_store ..) h) ..) _ _ hs

theorem State.store_of_moves (s : State) (l : List (Nat × Nat × Nat × Nat × List Nat)) :
    ({ s with moves := l } : State).store = s.store := rfl

theorem State.store_of_forwards (s : State) (l : List Forward) : ({ s with forwards := l } : State).store = s.store := rfl

theorem State.store_of_promoLate (s : State) (n : Nat) : ({ s with promoLate := n } : State).store = s.store := rfl

theorem pageStart_storeOk (promote : Bool) (b : PageBody) (s : State) (q : Nat) (c : CurrentEntry) (hs : StoreOk s.store) :
    StoreOk (pageStart promote b s q c).1.store := by
  unfold pageStart
  dsimp only
  split
  · exact hs
  · split
    · exact .of_eq (State.waitOn_store ..) hs
    · split
      · split
        · exact hs
        · exact .of_eq (State.withholdEntry_store ..) hs
      · split
        · exact hs
        · split
          · exact hs
          · split
            · exact hs
            · dsimp only
              rw [State.store_of_moves]
              exact State.putLeaf_storeOk (hs := hs) ..

theorem pageSwitch_storeOk (b : PageBody) (s : State) (q : Nat) (c : CurrentEntry) (hs : StoreOk s.store) :
    StoreOk (pageSwitch b s q c).store := by
  unfold pageSwitch
  extract_lets m la old size new t u late v w x
  have hu : StoreOk u.store := .of_eq (State.store_of_moves t _) (State.recopy_storeOk (hs := hs) ..)
  split
  · exact State.finishEntry_storeOk (hs := State.putLeaf_storeOk (hs := hu) ..) ..
  · have hw : StoreOk w.store := .of_eq ((State.store_of_forwards v _).trans (State.dropPage_store ..))
      (State.putLeaf_storeOk (hs := hu) ..)
    have hx : StoreOk x.store := by
      unfold x
      split
      · exact .of_eq (State.store_of_promoLate w _) hw
      · exact hw
    exact .of_eq (State.modEntry_store ..) hx

theorem pageGo_storeOk (b : PageBody) (s : State) (q : Nat) (c : CurrentEntry) (hs : StoreOk s.store) :
    StoreOk (pageGo b s q c).store := by
  unfold pageGo
  dsimp only
  split
  · split
    · exact hs
    · exact State.finishEntry_storeOk (hs := hs) ..
  · split
    · exact pageSwitch_storeOk (hs := hs) ..
    · split
      · exact .of_eq (State.waitOn_store ..) hs
      · exact .of_eq ((State.wroteGranule_store ..).trans (State.usePort_store ..)) (State.copyGranule_storeOk (hs := hs) ..)

/-! ### The store through Machine/Collectives -/

theorem collStart_storeOk (gather : Bool) (b : CollBody) (s : State) (q : Nat) (c : CurrentEntry) (hs : StoreOk s.store) :
    StoreOk (collStart gather b s q c).1.store := by
  unfold collStart
  dsimp only
  split
  · exact hs
  · split
    · exact .of_eq (State.waitOn_store ..) hs
    · exact .of_eq (State.withholdEntry_store ..) hs
    · rename_i t bs _ e
      have ht : StoreOk t.store := (State.engineRead_storeOk (hs := hs) ..).left e
      split
      · exact ht
      · split
        · exact ht
        · split
          · exact ht
          · rename_i v _ _
            have hd := State.dropTest_storeOk t q (s.queue q).ctx b.tid.toNat v
              { c with latch := v :: numbers 4 b.nm.toNat bs, begun := true } ht
            split
            · rename_i h
              rw [h] at hd
              exact .of_eq (State.sendAround_store ..) hd
            · exact hd

theorem State.ownChunk_storeOk (s : State) (m : Nat) (c : CurrentEntry) (i : Nat) (hs : StoreOk s.store) :
    (s.ownChunk m c i).All (fun x => StoreOk x.1.store) :=
  (State.atLength_storeOk _ _ (fun _ h => readElems_storeOk (hs := h) ..) hs).map (fun _ h => h)

theorem State.passChunk_storeOk (s : State) (q : Nat) (c : CurrentEntry) (i : Nat) (got : List Part) (hs : StoreOk s.store) :
    StoreOk (s.passChunk q c i got).store := by
  refine State.meet_storeOk hs (State.ownChunk_storeOk (hs := hs) ..) (fun x hx => ?_)
  extract_lets own p xs t
  have ht : StoreOk t.store := .of_eq ((State.modColl_store ..).trans (State.contribute_store ..)) hx
  rw [State.store_ite, State.finishChunk_store, State.sendTo_store, ite_self]
  exact ht

theorem State.gatherOwn_storeOk (s : State) (q : Nat) (c : CurrentEntry) (hs : StoreOk s.store) :
    StoreOk (s.gatherOwn q c).store := by
  refine State.meet_storeOk hs (State.ownChunk_storeOk (hs := hs) ..) (fun x hx => ?_)
  dsimp only
  split
  · exact .of_eq ((State.sendTo_store ..).trans ((State.modColl_store ..).trans (State.contribute_store ..))) hx
  · exact .of_eq ((State.sendAround_store ..).trans ((State.modColl_store ..).trans (State.contribute_store ..))) hx

theorem writeElems_storeOk (m e : Nat) (p : Bool) (n : Nat) (l : List Nat) (s : State) (hs : StoreOk s.store) :
    (writeElems m e p n l s).All (fun t => StoreOk t.store) := by
  induction l generalizing n s with
  | nil => exact .ok hs
  | cons x t ih => exact (State.engineWrite_storeOk (hs := hs) ..).bind (fun y hy => ih _ y hy)

theorem writePadding_storeOk (m e : Nat) (l : List Nat) (s : State) (hs : StoreOk s.store) :
    (writePadding m e l s).All (fun t => StoreOk t.store) := by
  induction l generalizing s with
  | nil => exact .ok hs
  | cons x t ih => exact (State.engineWrite_storeOk (hs := hs) ..).bind (fun y hy => ih y hy)

theorem State.putElems_storeOk (s : State) (m e lo : Nat) (xs : List Nat) (p : Bool) (hs : StoreOk s.store) :
    (s.putElems m e lo xs p).All (fun t => StoreOk t.store) :=
  (State.atLength_storeOk _ _ (fun _ h => ((writePadding_storeOk (hs := h) ..).bind (fun _ h => writeElems_storeOk (hs := h) ..)).map
    (fun _ h => h)) hs).map (fun _ h => h)

theorem State.writeChunk_storeOk (s : State) (q : Nat) (c : CurrentEntry) (i : Nat) (xs : List Nat) (p : Bool)
    (hs : StoreOk s.store) : StoreOk (s.writeChunk q c i xs p).store :=
  State.meet_storeOk hs (State.putElems_storeOk (hs := hs) ..) (fun _ hy =>
    .of_eq ((State.countGranules_store ..).trans ((State.modEntry_store ..).trans (State.modColl_store ..))) hy)

theorem State.collWork_storeOk (s : State) (q : Nat) (c : CurrentEntry) (hs : StoreOk s.store) :
    StoreOk (s.collWork q c).store := by
  unfold State.collWork
  dsimp only
  split
  · exact State.writeChunk_storeOk (hs := hs) ..
  · split
    · exact State.gatherOwn_storeOk (hs := hs) ..
    · split
      · exact State.passChunk_storeOk (hs := hs) ..
      · split
        · split
          · exact .of_eq (State.announceEnd_store ..) hs
          · exact .of_eq (State.waitEntry_store ..) hs
        · split
          · exact State.finishEntry_storeOk (hs := .of_eq ((State.modEntry_store ..).trans ((State.workEntry_store ..).trans
              (State.leaveColl_store ..))) hs) ..
          · exact .of_eq (State.waitEntry_store ..) hs

theorem collGo_storeOk (s : State) (q : Nat) (c : CurrentEntry) (hs : StoreOk s.store) : StoreOk (collGo s q c).store := by
  unfold collGo
  have ht : StoreOk (c.neighbours.foldl (fun s r => s.takeFrom q r) s).store :=
    .of_eq (foldl_store _ (fun _ _ => State.takeFrom_store ..) _ _) hs
  dsimp only
  split
  · exact ht
  · split
    · exact State.finishEntry_storeOk (hs := .of_eq ((State.workEntry_store ..).trans ((State.leaveColl_store ..).trans
        (State.sendAround_store ..))) ht) ..
    · split
      · exact .of_eq (State.waitEntry_store ..) ht
      · split
        · exact .of_eq ((State.workEntry_store ..).trans (State.modColl_store ..)) ht
        · exact State.collWork_storeOk (hs := .of_eq (State.workEntry_store ..) ht) ..

theorem sendStart_store (b : PeerBody) (s : State) (q : Nat) (c : CurrentEntry) : (sendStart b s q c).1.store = s.store := by
  unfold sendStart
  split <;> rfl

theorem recvStart_store (b : PeerBody) (s : State) (q : Nat) (c : CurrentEntry) : (recvStart b s q c).1.store = s.store := by
  unfold recvStart
  split <;> rfl

theorem State.sendMatched_storeOk (s : State) (q : Nat) (c : CurrentEntry) (b : PeerBody) (n : Nat) (hs : StoreOk s.store) :
    StoreOk (s.sendMatched q c b n).store := by
  unfold State.sendMatched
  dsimp only
  split
  · exact State.meet_storeOk hs (State.engineRead_storeOk (hs := hs) ..) (fun _ hx =>
      .of_eq ((State.wroteGranule_store ..).trans (State.flueSend_store ..)) hx)
  · split
    · exact State.finishEntry_storeOk (hs := .of_eq ((State.workEntry_store ..).trans (State.leaveItems_store ..)) hs) ..
    · split
      · exact State.peerLost_storeOk (hs := hs) ..
      · exact .of_eq (State.waitEntry_store ..) hs

theorem sendGo_storeOk (b : PeerBody) (s : State) (q : Nat) (c : CurrentEntry) (hs : StoreOk s.store) :
    StoreOk (sendGo b s q c).store := by
  unfold sendGo
  split
  · split
    · exact State.peerLost_storeOk (hs := hs) ..
    · exact State.sendMatched_storeOk (hs := hs) ..
  · split
    · rename_i rest _
      have hw : StoreOk (({ s with posted := rest } : State).workEntry q).store := hs
      dsimp only
      split
      · exact State.finishEntry_storeOk (hs := .of_eq (State.flueSend_store ..) hw) ..
      · exact .of_eq (State.modColl_store ..) hw
    · split
      · exact State.peerLost_storeOk (hs := hs) ..
      · exact .of_eq (State.waitEntry_store ..) hs

theorem State.recvWrite_storeOk (s : State) (q : Nat) (c : CurrentEntry) (b : PeerBody) (hs : StoreOk s.store) :
    StoreOk (s.recvWrite q c b).store :=
  State.meet_storeOk hs (State.writeTagged_storeOk (hs := hs) ..) (fun _ hy =>
    .of_eq ((State.risePointer_store ..).trans ((State.wroteGranule_store ..).trans (State.modEntry_store ..))) hy)

theorem recvGo_storeOk (b : PeerBody) (s : State) (q : Nat) (c : CurrentEntry) (hs : StoreOk s.store) :
    StoreOk (recvGo b s q c).store := by
  unfold recvGo
  split
  · exact State.recvWrite_storeOk (hs := hs) ..
  · split
    · exact State.finishEntry_storeOk (hs := .of_eq (State.flueSend_store ..) hs) ..
    · split
      · rename_i l _ _ _ _ rest _
        have hw : StoreOk ((s.leaveItems l rest).workEntry q).store :=
          .of_eq ((State.workEntry_store ..).trans (State.leaveItems_store ..)) hs
        dsimp only
        split
        · exact State.finishEntry_storeOk (hs := hw) ..
        · exact .of_eq (State.modEntry_store ..) hw
      · split
        · exact State.peerLost_storeOk (hs := hs) ..
        · exact .of_eq (State.waitEntry_store ..) hs

/-! ### The store through Machine/Contract -/

@[simp] theorem State.trineStep_store (s : State) (g h k : Nat) (c : Contraction) :
    (s.trineStep g h k c).store = s.store := by
  unfold State.trineStep
  dsimp only
  split
  · exact State.store_of_around (by simp)
  · simp

@[simp] theorem State.setAcol_store (s : State) (f : Fire) :
    (s.setAcol f).store = s.store := rfl

@[simp] theorem beginFire_store (f : Fire) (s : State) :
    (beginFire f s).1.store = s.store := by
  unfold beginFire
  dsimp only
  split
  · rfl
  · split
    · rfl
    · split
      · rfl
      · simp

@[simp] theorem hadFire_store (f : Fire) (s : State) :
    (hadFire f s).1.store = s.store := by
  simp [hadFire]

@[simp] theorem lutpFire_store (f : Fire) (s : State) :
    (lutpFire f s).1.store = s.store := by
  unfold lutpFire
  dsimp only
  split <;> rfl

@[simp] theorem lutmFire_store (f : Fire) (s : State) :
    (lutmFire f s).1.store = s.store := by
  unfold lutmFire
  dsimp only
  split
  · rfl
  · split
    · rfl
    · split <;> rfl

@[simp] theorem accrdFire_store (f : Fire) (s : State) :
    (accrdFire f s).1.store = s.store := by
  simp [accrdFire]

@[simp] theorem acczFire_store (f : Fire) (s : State) :
    (acczFire f s).1.store = s.store := rfl

@[simp] theorem accldFire_store (f : Fire) (s : State) :
    (accldFire f s).1.store = s.store := by
  unfold accldFire
  dsimp only
  split <;> rfl

@[simp] theorem accxFire_store (f : Fire) (s : State) :
    (accxFire f s).1.store = s.store := by
  unfold accxFire
  dsimp only
  split
  · rfl
  · split <;> rfl

@[simp] theorem tstayFire_store (f : Fire) (s : State) :
    (tstayFire f s).1.store = s.store := by
  unfold tstayFire
  dsimp only
  split <;> split <;> rfl

@[simp] theorem txprFire_store (f : Fire) (s : State) :
    (txprFire f s).1.store = s.store := by
  unfold txprFire
  dsimp only
  split <;> split <;> rfl

@[simp] theorem cdxsetFire_store (f : Fire) (s : State) :
    (cdxsetFire f s).1.store = s.store := by
  unfold cdxsetFire
  dsimp only
  split <;> rfl

/-! ### The store through Machine/HostOps -/

@[simp] theorem State.setPair_store (s : State) (p : Nat) (x : Pair) :
    (s.setPair p x).store = s.store := rfl

@[simp] theorem State.consumeCommand_store (s : State) (p : Nat) (cid : BitVec 32) (status : Nat) :
    (s.consumeCommand p cid status).store = s.store := rfl

@[simp] theorem State.blockPair_store (s : State) (p : Nat) :
    (s.blockPair p).store = s.store := rfl

@[simp] theorem State.resumeNode_store (s : State) (h k n : Nat) (w : WithheldAccess) :
    (s.resumeNode h k n w).store = s.store := by
  simp [State.resumeNode]

@[simp] theorem State.resumeEntry_store (s : State) (q : Nat) :
    (s.resumeEntry q).store = s.store := by
  unfold State.resumeEntry
  split <;> rfl

@[simp] theorem State.resumeLink_storeOk (s : State) (q : Nat) (hs : StoreOk s.store) :
    StoreOk (s.resumeLink q).store := by
  unfold State.resumeLink
  split
  · exact State.drainQueue_storeOk (hs := .of_eq (State.modQueue_store ..) hs) ..
  · exact hs

@[simp] theorem State.abortNode_store (s : State) (h k n : Nat) (w : WithheldAccess) :
    (s.abortNode h k n w).store = s.store := by
  unfold State.abortNode
  dsimp only
  split
  · rfl
  · split <;> exact State.store_of_around (by simp)

@[simp] theorem State.abortEntry_storeOk (s : State) (q : Nat) (hs : StoreOk s.store) :
    StoreOk (s.abortEntry q).store := by
  unfold State.abortEntry
  dsimp only
  split
  · exact hs
  · split
    · exact hs
    · split
      · exact State.passEntry_storeOk (hs := .of_eq (State.setQueue_store ..) hs) ..
      · exact State.finishEntry_storeOk (hs := .of_eq (State.setQueue_store ..) hs) ..

@[simp] theorem State.retireKernel_storeOk (s : State) (e : Nat) (hs : StoreOk s.store) :
    StoreOk (s.retireKernel e).store := by
  unfold State.retireKernel
  dsimp only
  split
  · simp [hs]
  · exact hs

@[simp] theorem State.releaseEvicted_store (s : State) (m : Nat) :
    (s.releaseEvicted m).store = s.store := by
  unfold State.releaseEvicted
  refine foldl_store _ (fun s x => ?_) _ _
  rfl

@[simp] theorem State.writeContext_store (s : State) (m i v : Nat) :
    (s.writeContext m i v).store = s.store := by
  simp [State.writeContext]

@[simp] theorem State.writeRegister_store (s : State) (o v : Nat) :
    (s.writeRegister o v).store = s.store := by
  unfold State.writeRegister
  split <;> simp

/-! ### The store through Machine/QueueNodes -/

@[simp] theorem enqPlan_store (f : Fire) (s : State) :
    (enqPlan f s).1.store = s.store := by
  unfold enqPlan
  split <;> rfl

/-! ### The store through Machine/Areas -/

@[simp] theorem State.writeColour_storeOk (s : State) (g col : Nat) (hs : StoreOk s.store) :
    StoreOk (s.writeColour g col).store := by
  unfold State.writeColour
  dsimp only
  split
  · exact hs
  · split
    · exact hs
    · simp [hs]

@[simp] theorem State.writeRun_storeOk (s : State) (g h : Nat) (c : Colour) (off : Nat) (bs : List Byte) (hs : StoreOk s.store) :
    StoreOk (s.writeRun g h c off bs).store := by
  unfold State.writeRun
  split <;> simp [hs]

@[simp] theorem State.writeCopy_storeOk (s : State) (g col : Nat) (hs : StoreOk s.store) :
    StoreOk (s.writeCopy g col).store := by
  unfold State.writeCopy
  dsimp only
  split
  · exact hs
  · split
    · exact hs
    · refine .of_eq (State.modRegion_store ..) (foldl_storeOk _ (fun s x hs => ?_) _ _ ?_)
      · simp [hs]
      · exact hs

@[simp] theorem State.writeSlot_storeOk (s : State) (g h : Nat) (f : FrameSlot) (emptied : Bool) (hs : StoreOk s.store) :
    StoreOk (s.writeSlot g h f emptied).store := by
  unfold State.writeSlot
  dsimp only
  split
  · exact hs
  · split
    · simp [hs]
    · refine foldl_storeOk _ (fun s x hs => ?_) _ _ ?_
      · simp [hs]
      · simp [hs]

@[simp] theorem State.writeFrames_storeOk (s : State) (g h : Nat) (hs : StoreOk s.store) :
    StoreOk (s.writeFrames g h).store := by
  unfold State.writeFrames
  dsimp only
  split
  · exact hs
  · refine .of_eq (State.modSlot_store ..) (foldl_storeOk _ (fun s x hs => ?_) _ _ ?_)
    · simp [hs]
    · refine foldl_storeOk _ (fun s x hs => ?_) _ _ ?_
      · simp [hs]
      · exact hs

@[simp] theorem State.writeRegion_storeOk (s : State) (g : Nat) (hs : StoreOk s.store) :
    StoreOk (s.writeRegion g).store := by
  unfold State.writeRegion
  dsimp only
  split
  · exact hs
  · refine foldl_storeOk _ (fun s x hs => ?_) _ _ ?_
    · simp [hs]
    · refine .of_eq (State.modRegion_store ..) (foldl_storeOk _ (fun s x hs => ?_) _ _ ?_)
      · simp [hs]
      · exact hs

@[simp] theorem State.writeAreas_storeOk (s : State) (hs : StoreOk s.store) :
    StoreOk s.writeAreas.store := by
  unfold State.writeAreas
  refine foldl_storeOk _ (fun s x hs => ?_) _ _ ?_
  · simp [hs]
  · exact hs

/-! ### The store through Machine/Pick -/

@[simp] theorem State.countStarve_store (s : State) (h : Nat) (xs : List (Nat × List Candidate)) (win : Option Nat) (stage1 : Bool) :
    (s.countStarve h xs win stage1).store = s.store := by
  simp [State.countStarve]

@[simp] theorem State.countStarving_store (s : State) (h : Nat) :
    (s.countStarving h).store = s.store := by
  unfold State.countStarving
  split
  · simp
  · rfl

@[simp] theorem State.forget_store (s : State) (h k : Nat) (best : List Candidate) :
    (s.forget h k best).store = s.store := by
  simp [State.forget]

@[simp] theorem State.passCycle_store (s : State) (h : Nat) (xs : List (Nat × List Candidate)) :
    (s.passCycle h xs).store = s.store := by
  simp [State.passCycle]

@[simp] theorem State.giveCycle_store (s : State) (h : Nat) (xs : List (Nat × List Candidate)) (k : Nat) (cs : List Candidate) (stage1 : Bool) :
    (s.giveCycle h xs k cs stage1).store = s.store := by
  unfold State.giveCycle
  dsimp only
  split
  · rfl
  · simp

@[simp] theorem State.choose_store (s : State) (h : Nat) :
    (s.choose h).store = s.store := by
  unfold State.choose
  dsimp only
  split
  · split
    · simp
    · split
      · simp
      · split
        · simp
        · split
          · simp
          · refine ((State.push_store ..).trans (foldl_store _ (fun s x => ?_) _ _)).trans ?_
            · rfl
            · rfl
  · split
    · simp
    · split
      · simp
      · split
        · simp
        · split
          · simp
          · refine ((State.push_store ..).trans (foldl_store _ (fun s x => ?_) _ _)).trans ?_
            · rfl
            · rfl

@[simp] theorem State.noteOldest_store (s : State) (h k : Nat) :
    (s.noteOldest h k).store = s.store := by
  unfold State.noteOldest
  split
  · rfl
  · refine foldl_store _ (fun s x => ?_) _ _
    split
    · rfl
    · split
      · rfl
      · simp

@[simp] theorem State.pick_store (s : State) (h : Nat) :
    (s.pick h).store = s.store := by
  simp [State.pick]

/-! ### The store through Machine/Tick -/

@[simp] theorem State.serveEngine_store (s : State) (e : Nat) :
    (s.serveEngine e).1.store = s.store := by
  unfold State.serveEngine
  dsimp only
  split <;> rfl

@[simp] theorem State.goOnQueues_storeOk (s : State) (hs : StoreOk s.store) :
    StoreOk s.goOnQueues.store := by
  unfold State.goOnQueues
  refine foldl_storeOk _ (fun s x hs => ?_) _ _ ?_
  · split
    · exact hs
    · simp [hs]
  · exact hs

@[simp] theorem State.goOnT3_storeOk (s : State) (hs : StoreOk s.store) :
    StoreOk s.goOnT3.store := by
  unfold State.goOnT3
  refine foldl_storeOk _ (fun s x hs => ?_) _ _ ?_
  · simp [hs]
  · exact hs

@[simp] theorem State.countCycle_store (s : State) :
    s.countCycle.store = s.store := rfl

@[simp] theorem State.closeCycle_storeOk (s : State) (hs : StoreOk s.store) :
    StoreOk s.closeCycle.store := by
  simp [State.closeCycle, hs]

@[simp] theorem State.tick_store (s : State) :
    s.tick.store = s.store := rfl

@[simp] theorem State.emitted_store (s : State) (f : Fire) (lat : Nat) (t : Token) :
    (s.emitted f lat t).store = s.store := by
  simp [State.emitted]

/-! ### The store through Machine/HostOps -/

theorem writeBytesAt_store (fuel o : Nat) (bs : List Byte) (s : State) : (writeBytesAt fuel o bs s).store = s.store := by
  induction fuel generalizing o bs s with
  | zero => rfl
  | succ fuel ih =>
    unfold writeBytesAt
    split
    · rfl
    · split
      · exact ih ..
      · exact (ih ..).trans (State.writeRegister_store ..)

/-! ### The store through Machine/QueueNodes -/

theorem enqFire_storeOk (f : Fire) (s : State) (hs : StoreOk s.store) : StoreOk (enqFire f s).1.store := by
  unfold enqFire
  have hp := enqPlan_store f s
  split
  · rename_i h
    rw [h] at hp
    split
    · exact .of_eq hp hs
    · exact .of_eq ((State.withhold_store ..).trans hp) hs
  · rename_i h
    rw [h] at hp
    exact State.issue_storeOk (hs := .of_eq ((State.fresh_store _).trans ((State.stageEffect_store ..).trans
      ((State.take_store ..).trans hp))) hs) ..

/-! ### The store through Machine/Tick -/

theorem State.serveAll_store (s : State) : s.serveAll.1.store = s.store := by
  unfold State.serveAll
  generalize s.busyEngines = l
  suffices h : ∀ (a : State × List Turn), (l.foldl (fun a e => ((a.1.serveEngine e).1, a.2 ++ (a.1.serveEngine e).2)) a).1.store = a.1.store from h (s, [])
  induction l with
  | nil => exact fun _ => rfl
  | cons e l ih => exact fun a => (ih _).trans (State.serveEngine_store ..)

theorem State.engineTurns_store (s : State) : s.engineTurns.store = s.store := State.serveAll_store s

theorem State.sweep_storeOk (s : State) (part : Nat) (hs : StoreOk s.store) : StoreOk (s.sweep part).store := by
  unfold State.sweep
  split
  · exact hs
  · exact hs
  · exact State.goOnQueues_storeOk (hs := .of_eq (State.goOnResends_store _) (State.goOnT3_storeOk (hs := hs)))
  · exact .of_eq (State.engineTurns_store _) hs
  · exact State.goOnAccepted_storeOk (hs := hs)
  · exact hs
  · exact hs
  · exact hs
  · exact hs
  · exact .of_eq (foldl_store _ (fun s e => State.checkJoins_store ..) _ _) hs
  · exact hs
  · exact hs
  · exact .of_eq (State.countCycle_store _) hs
  · exact State.closeCycle_storeOk (hs := hs)

/-- Where the outcome goes on, its state has a store in canonical form. -/
def KeepsStore (o : Host.Outcome State Fault Refusal) : Prop := ∀ t, o = .next t → StoreOk t.store

theorem KeepsStore.next {t : State} (h : StoreOk t.store) : KeepsStore (.next t) := by rintro _ ⟨⟩; exact h

theorem KeepsStore.fault {e : Fault} : KeepsStore (.fault e) := by
  intro t h
  cases h

/-! ### The store through Machine/Fire -/

theorem fireNode_keeps {opc : Nat} {r : Rec} {p : FireSpec} {body : Fire → State → State × Effect} {s : State}
    (hb : ∀ f s, StoreOk s.store → StoreOk (body f s).1.store) (hs : StoreOk s.store) : KeepsStore (fireNode opc r p body s) := by
  unfold fireNode
  split
  · split
    · exact .next hs
    · exact .next (.of_eq (State.checkJoin_store ..) (State.perform_storeOk _ _ _ _ hb
        (.of_eq ((State.noteFiring_store ..).trans (State.consume_store ..)) hs)))
  · exact .fault

theorem fireHeld_keeps {opc : Nat} {r : Rec} {p : FireSpec} {body : Fire → State → State × Effect} {s : State}
    (hb : ∀ f s, StoreOk s.store → StoreOk (body f s).1.store) (hs : StoreOk s.store) : KeepsStore (fireHeld opc r p body s) := by
  unfold fireHeld State.heldFire
  split
  · refine .next ?_
    split
    · exact hs
    · exact .of_eq (State.checkJoin_store ..) (State.perform_storeOk _ _ _ _ hb (.of_eq (State.noteFiring_store ..) hs))
  · exact .fault

/-! ### The store through Machine/Memory -/

theorem memNode_keeps {opc : Nat} {p : MemSpec} {any : Bool} {r : Rec} {s : State}
    (hp : ∀ f s, StoreOk s.store → StoreOk (p.plan f s).1.store) (hs : StoreOk s.store) : KeepsStore (memNode opc p any r s) :=
  fireHeld_keeps (memFire_storeOk p hp) hs

/-! ### The store through Machine/Requests -/

theorem timeoutEvent_keeps (t3 : Bool) (s : State) (hs : StoreOk s.store) : KeepsStore (timeoutEvent t3 s) := by
  unfold timeoutEvent
  split
  · split
    · refine .next ?_
      split
      · exact .of_eq (State.timeOut_store ..) hs
      · exact hs
    · exact .next hs
  · exact .fault

/-! ### The store through Machine/Flue -/

theorem linkStep_keeps (a b : LinkState) (s : State) (hs : StoreOk s.store) : KeepsStore (linkStep a b s) := by
  unfold linkStep
  split
  · refine .next ?_
    split
    · exact .of_eq ((State.moveLink_store ..).trans (State.modLink_store ..)) hs
    · exact hs
  · exact .fault

/-! ### The store through Machine/HostOps -/

theorem accepted_keeps {opc : Nat} {cid : BitVec 32} {go : State → State} {s : State}
    (hg : ∀ s, StoreOk s.store → StoreOk (go s).store) (hs : StoreOk s.store) : KeepsStore (accepted opc cid go s) := by
  unfold accepted
  split
  · refine .next ?_
    split
    · exact hs
    · split
      · exact .of_eq (State.blockPair_store ..) hs
      · exact hg _ (.of_eq (State.consumeCommand_store ..) (State.journal_storeOk (hs := hs) ..))
  · exact .fault

theorem State.whenServed_storeOk {s : State} {f : State → State} (hf : StoreOk (f s).store) (hs : StoreOk s.store) :
    StoreOk (s.whenServed f).store := by
  unfold State.whenServed
  split
  · exact hf
  · exact hs

theorem State.withNamed_storeOk {s : State} {w : Withheld} {node : State → Nat → Nat → Nat → WithheldAccess → State}
    {queue : State → Nat → State} (hn : ∀ h k n x, StoreOk (node s h k n x).store) (hq : ∀ q, StoreOk (queue s q).store)
    (hs : StoreOk s.store) : StoreOk (s.withNamed w node queue).store := by
  unfold State.withNamed
  split
  · exact hq _
  · split
    · dsimp only
      split
      · exact hn ..
      · exact hs
    · exact hs

theorem State.withKernel_storeOk {s : State} {m : BitVec 8} {tag : BitVec 32} {f : State → Nat → State}
    (hf : ∀ e, StoreOk (f s e).store) (hs : StoreOk s.store) : StoreOk (s.withKernel m tag f).store := by
  unfold State.withKernel
  split
  · exact hf _
  · exact hs

/-! ### The store through Machine/QueueOps -/

theorem engineTurn_keeps {kind : Nat} {e : EntryHeader} {start : State → Nat → CurrentEntry → State × Start}
    {go : State → Nat → CurrentEntry → State} {s : State}
    (hstart : ∀ s q c, StoreOk s.store → StoreOk (start s q c).1.store)
    (hgo : ∀ s q c, StoreOk s.store → StoreOk (go s q c).store) (hs : StoreOk s.store) :
    KeepsStore (engineTurn kind e start go s) := by
  unfold engineTurn
  split
  · dsimp only
    rename_i q _
    refine .next ?_
    split
    · exact hs
    · rename_i c _
      split
      · exact hs
      · split
        · exact hs
        · split
          · exact State.completionWrite_storeOk (hs := hs) ..
          · split
            · exact .of_eq (State.settleWait_store ..) (hgo _ _ _ hs)
            · split
              · exact State.finishEntry_storeOk (hs := hs) ..
              · split
                · exact State.finishEntry_storeOk (hs := hs) ..
                · split
                  · exact State.finishEntry_storeOk (hs := hs) ..
                  · have h := hstart s q c hs
                    split <;> rename_i h' <;> rw [h'] at h
                    · exact State.finishEntry_storeOk (hs := h) ..
                    · exact h
                    · exact hgo _ _ _ (.of_eq (State.modEntry_store ..) h)
  · exact .fault

theorem fireNode_same {opc : Nat} {r : Rec} {p : FireSpec} {body : Fire → State → State × Effect} {s : State}
    (hb : ∀ f s, (body f s).1.store = s.store) (hs : StoreOk s.store) : KeepsStore (fireNode opc r p body s) :=
  fireNode_keeps (fun f s => .of_eq (hb f s)) hs

theorem fireHeld_same {opc : Nat} {r : Rec} {p : FireSpec} {body : Fire → State → State × Effect} {s : State}
    (hb : ∀ f s, (body f s).1.store = s.store) (hs : StoreOk s.store) : KeepsStore (fireHeld opc r p body s) :=
  fireHeld_keeps (fun f s => .of_eq (hb f s)) hs

theorem execUncorrectableError_keeps (w : ErrorSite) (s : State) (hs : StoreOk s.store) :
    KeepsStore (execUncorrectableError w s) := by
  unfold execUncorrectableError
  split
  · exact .next (State.handleError_storeOk (hs := hs) ..)
  · exact .fault

theorem execKernelAccept_keeps (a : Submission) (s : State) (hs : StoreOk s.store) :
    KeepsStore (execKernelAccept a s) := by
  unfold execKernelAccept
  split
  · refine .next ?_
    split
    · exact State.accept_storeOk (hs := hs) ..
    · exact hs
  · exact .fault

theorem execBadkind_keeps (e : EntryHeader) (kind : BitVec 8) (body : BitVec 320) (s : State) (hs : StoreOk s.store) :
    KeepsStore (execBadkind e kind body s) := by
  unfold execBadkind
  dsimp only
  split
  · refine .next ?_
    split
    · exact hs
    · split
      · exact hs
      · split
        · exact hs
        · split
          · exact State.completionWrite_storeOk (hs := hs) ..
          · exact State.finishEntry_storeOk (hs := hs) ..
  · exact .fault

theorem execFlueEnable_keeps (on : Bool) (s : State) (hs : StoreOk s.store) :
    KeepsStore (execFlueEnable on s) := by
  unfold execFlueEnable
  dsimp only
  split
  · refine .next ?_
    split
    · exact hs
    · split <;> exact hs
  · exact .fault

theorem execConfigExchange_keeps (side : ConfigSide) (key : Option Nat) (asks : BitVec 256) (s : State) (hs : StoreOk s.store) :
    KeepsStore (execConfigExchange side key asks s) := by
  unfold execConfigExchange
  dsimp only
  split
  · refine .next ?_
    split
    · exact hs
    · split
      · exact hs
      · exact .of_eq ((State.fenceLink_store ..).trans (State.setLink_store ..)) hs
  · exact .fault

theorem execFlitReceive_keeps (f : Flit) (s : State) (hs : StoreOk s.store) :
    KeepsStore (execFlitReceive f s) := by
  unfold execFlitReceive
  split
  · refine .next ?_
    simp [hs]
  · exact .fault

theorem execRetryRequest_keeps (seq : Nat) (s : State) (hs : StoreOk s.store) :
    KeepsStore (execRetryRequest seq s) := by
  unfold execRetryRequest
  dsimp only
  split
  · refine .next ?_
    split
    · exact hs
    · split <;> exact hs
  · exact .fault

theorem execRecoveryRetrain_keeps (o : Option ConfigOffer) (s : State) (hs : StoreOk s.store) :
    KeepsStore (execRecoveryRetrain o s) := by
  unfold execRecoveryRetrain
  dsimp only
  split
  · refine .next ?_
    split
    · exact hs
    · split
      · exact .of_eq (((State.modLink_store ..).trans (State.moveLink_store ..)).trans (State.setLink_store ..)) hs
      · split <;> exact hs
  · exact .fault

theorem execSqTailDoorbell_keeps (v : Nat) (s : State) (hs : StoreOk s.store) :
    KeepsStore (execSqTailDoorbell v s) := by
  unfold execSqTailDoorbell
  dsimp only
  split
  · refine .next (State.whenServed_storeOk ?_ hs)
    split <;> exact hs
  · exact .fault

theorem execCqHeadDoorbell_keeps (v : Nat) (s : State) (hs : StoreOk s.store) :
    KeepsStore (execCqHeadDoorbell v s) := by
  unfold execCqHeadDoorbell
  dsimp only
  split
  · refine .next (State.whenServed_storeOk ?_ hs)
    split <;> exact hs
  · exact .fault

theorem execViroftPairEnable_keeps (v : Nat) (s : State) (hs : StoreOk s.store) :
    KeepsStore (execViroftPairEnable v s) := by
  unfold execViroftPairEnable
  split
  · exact .next (State.whenServed_storeOk hs hs)
  · exact .fault

theorem execLaunch_keeps (cid : BitVec 32) (lra : BitVec 64) (s : State) (hs : StoreOk s.store) :
    KeepsStore (execLaunch cid lra s) := by
  unfold execLaunch
  split
  · refine .next ?_
    split
    · exact hs
    · split <;> exact hs
  · exact .fault

theorem execResume_keeps (cid : BitVec 32) (w : Withheld) (s : State) (hs : StoreOk s.store) :
    KeepsStore (execResume cid w s) := by
  unfold execResume
  refine accepted_keeps (fun s hs => ?_) hs
  refine State.withNamed_storeOk (fun h k n x => ?_) (fun q => ?_) hs
  · simp [hs]
  · simp [hs]

theorem execAbort_keeps (cid : BitVec 32) (w : Withheld) (s : State) (hs : StoreOk s.store) :
    KeepsStore (execAbort cid w s) := by
  unfold execAbort
  refine accepted_keeps (fun s hs => ?_) hs
  refine State.withNamed_storeOk (fun h k n x => ?_) (fun q => ?_) hs
  · simp [hs]
  · simp [hs]

theorem execRelease_keeps (cid rtag : BitVec 32) (m : BitVec 8) (s : State) (hs : StoreOk s.store) :
    KeepsStore (execRelease cid rtag m s) := by
  unfold execRelease
  refine accepted_keeps (fun s hs => ?_) hs
  refine State.withKernel_storeOk (fun e => ?_) hs
  exact hs

theorem execRetire_keeps (cid rtag : BitVec 32) (m : BitVec 8) (s : State) (hs : StoreOk s.store) :
    KeepsStore (execRetire cid rtag m s) := by
  unfold execRetire
  refine accepted_keeps (fun s hs => ?_) hs
  refine State.withKernel_storeOk (fun e => ?_) hs
  simp [hs]

theorem execCtxres_keeps (cid : BitVec 32) (m : BitVec 8) (s : State) (hs : StoreOk s.store) :
    KeepsStore (execCtxres cid m s) := by
  unfold execCtxres
  refine accepted_keeps (fun s hs => ?_) hs
  simp [hs]

theorem execUnknownCommand_keeps (cid : BitVec 32) (opc : BitVec 8) (s : State) (hs : StoreOk s.store) :
    KeepsStore (execUnknownCommand cid opc s) := by
  unfold execUnknownCommand
  split
  · refine .next ?_
    split <;> exact hs
  · exact .fault

theorem execSnapTrig_keeps (v : BitVec 32) (s : State) (hs : StoreOk s.store) :
    KeepsStore (execSnapTrig v s) := by
  unfold execSnapTrig
  split
  · refine .next (State.whenServed_storeOk ?_ hs)
    split <;> exact hs
  · exact .fault

theorem execXlinv_keeps (v : BitVec 64) (s : State) (hs : StoreOk s.store) :
    KeepsStore (execXlinv v s) := by
  unfold execXlinv
  split
  · refine .next ?_
    split <;> exact hs
  · exact .fault

theorem execAttNonce_keeps (nonce : BitVec 256) (s : State) (hs : StoreOk s.store) :
    KeepsStore (execAttNonce nonce s) := by
  unfold execAttNonce
  split
  · exact .next (State.whenServed_storeOk hs hs)
  · exact .fault

theorem execJrnlBase_keeps (v : BitVec 64) (s : State) (hs : StoreOk s.store) :
    KeepsStore (execJrnlBase v s) := by
  unfold execJrnlBase
  split
  · refine .next (State.whenServed_storeOk ?_ hs)
    split <;> exact hs
  · exact .fault

theorem execJrnlSize_keeps (v : BitVec 32) (s : State) (hs : StoreOk s.store) :
    KeepsStore (execJrnlSize v s) := by
  unfold execJrnlSize
  split
  · refine .next (State.whenServed_storeOk ?_ hs)
    split <;> exact hs
  · exact .fault

theorem execPwrLim_keeps (v : BitVec 32) (s : State) (hs : StoreOk s.store) :
    KeepsStore (execPwrLim v s) := by
  unfold execPwrLim
  split
  · exact .next (State.whenServed_storeOk hs hs)
  · exact .fault

theorem execQueueEnWrite_keeps (on : Bool) (s : State) (hs : StoreOk s.store) :
    KeepsStore (execQueueEnWrite on s) := by
  unfold execQueueEnWrite
  split
  · exact .next (State.whenServed_storeOk hs hs)
  · exact .fault

theorem execCounterClear_keeps (a : Nat) (s : State) (hs : StoreOk s.store) :
    KeepsStore (execCounterClear a s) := by
  unfold execCounterClear
  split
  · refine .next (State.whenServed_storeOk ?_ hs)
    split
    · exact hs
    · split
      · exact hs
      · split
        · exact hs
        · split <;> exact hs
  · exact .fault

theorem execRegisterWrite_keeps (a : Nat) (bytes : List Byte) (s : State) (hs : StoreOk s.store) :
    KeepsStore (execRegisterWrite a bytes s) := by
  unfold execRegisterWrite
  split
  · refine .next (State.whenServed_storeOk ?_ hs)
    split
    · exact hs
    · exact .of_eq (writeBytesAt_store ..) hs
  · exact .fault

theorem execThermalThrottle_keeps (on : Bool) (s : State) (hs : StoreOk s.store) :
    KeepsStore (execThermalThrottle on s) := by
  unfold execThermalThrottle
  split
  · exact .next hs
  · exact .fault

theorem execCxlMemRequest_keeps (a : Nat) (write : Option (List Byte)) (len : Nat) (s : State) (hs : StoreOk s.store) :
    KeepsStore (execCxlMemRequest a write len s) := by
  unfold execCxlMemRequest
  split
  · refine .next ?_
    split
    · exact hs
    · split
      · split
        · exact State.put_storeOk (hs := hs) ..
        · exact hs
      · split
        · exact hs
        · split <;> exact hs
  · exact .fault

theorem execTxprOutput_keeps (s : State) (hs : StoreOk s.store) :
    KeepsStore (execTxprOutput s) := by
  unfold execTxprOutput
  split
  · split
    · exact .next hs
    · split
      · split
        · exact .next (.of_eq ((State.sendAll_store ..).trans (State.modSlot_store ..)) hs)
        · exact .next hs
      · exact .next hs
  · exact .fault

theorem execTokenArrival_keeps (s : State) (hs : StoreOk s.store) :
    KeepsStore (execTokenArrival s) := by
  unfold execTokenArrival
  split
  · refine .next ?_
    split
    · split
      · exact State.arrive_storeOk (hs := hs) ..
      · exact hs
    · exact hs
  · exact .fault

theorem execMeshMessageReceive_keeps (s : State) (hs : StoreOk s.store) :
    KeepsStore (execMeshMessageReceive s) := by
  unfold execMeshMessageReceive
  dsimp only
  split
  · refine .next ?_
    split
    · exact hs
    · split
      · exact hs
      · split
        · exact hs
        · split
          · exact .of_eq (State.takeControl_store ..) hs
          · split
            · exact hs
            · exact State.deliver_storeOk (hs := hs) ..
  · exact .fault

theorem execFrameSlotEntry_keeps (s : State) (hs : StoreOk s.store) :
    KeepsStore (execFrameSlotEntry s) := by
  unfold execFrameSlotEntry
  split
  · refine .next ?_
    split
    · exact hs
    · exact .of_eq (State.enterSlot_store ..) hs
  · exact .fault

theorem execRequestIssue_keeps (s : State) (hs : StoreOk s.store) :
    KeepsStore (execRequestIssue s) := by
  unfold execRequestIssue
  split
  · split
    · refine .next ?_
      split
      · exact State.issue_storeOk (hs := hs) ..
      · exact hs
    · exact .next hs
  · exact .fault

theorem execLoadReply_keeps (s : State) (hs : StoreOk s.store) :
    KeepsStore (execLoadReply s) := by
  unfold execLoadReply
  split
  · split
    · refine .next ?_
      split
      · exact .of_eq (State.reply_store ..) hs
      · exact hs
    · exact .next hs
  · exact .fault

theorem execDeferredTokenSend_keeps (s : State) (hs : StoreOk s.store) :
    KeepsStore (execDeferredTokenSend s) := by
  unfold execDeferredTokenSend
  split
  · refine .next ?_
    split
    · split
      · exact .of_eq (State.sendDeferred_store ..) hs
      · exact hs
    · exact hs
  · exact .fault

theorem execDelayExpiry_keeps (s : State) (hs : StoreOk s.store) :
    KeepsStore (execDelayExpiry s) := by
  unfold execDelayExpiry
  split
  · refine .next ?_
    split <;> exact hs
  · exact .fault

theorem execYieldExpiry_keeps (s : State) (hs : StoreOk s.store) :
    KeepsStore (execYieldExpiry s) := by
  unfold execYieldExpiry
  split
  · refine .next ?_
    split <;> exact hs
  · exact .fault

theorem execWaveRetire_keeps (s : State) (hs : StoreOk s.store) :
    KeepsStore (execWaveRetire s) := by
  unfold execWaveRetire
  split
  · exact .next (.of_eq (State.retireWave_store ..) hs)
  · exact .fault

theorem execReweight_keeps (s : State) (hs : StoreOk s.store) :
    KeepsStore (execReweight s) := by
  unfold execReweight
  split
  · refine .next ?_
    split <;> exact hs
  · exact .fault

theorem execStarving_keeps (s : State) (hs : StoreOk s.store) :
    KeepsStore (execStarving s) := by
  unfold execStarving
  split
  · refine .next ?_
    split <;> exact hs
  · exact .fault

theorem execContractionStep_keeps (s : State) (hs : StoreOk s.store) :
    KeepsStore (execContractionStep s) := by
  unfold execContractionStep
  split
  · split
    · split
      · exact .next hs
      · split
        · exact .next (.of_eq ((State.nodeFault_store ..).trans (State.modSlot_store ..)) hs)
        · exact .next (.of_eq (State.trineStep_store ..) hs)
    · exact .next hs
  · exact .fault

theorem execContractionEnd_keeps (s : State) (hs : StoreOk s.store) :
    KeepsStore (execContractionEnd s) := by
  unfold execContractionEnd
  split
  · split
    · split
      · split <;> exact .next hs
      · exact .next hs
    · exact .next hs
  · exact .fault

theorem execAccumulatorSpill_keeps (s : State) (hs : StoreOk s.store) :
    KeepsStore (execAccumulatorSpill s) := by
  unfold execAccumulatorSpill
  dsimp only
  split
  · refine .next ?_
    split
    · split <;> exact hs
    · split
      · split
        · exact hs
        · exact State.beginSpill_storeOk (hs := hs) ..
      · split
        · exact hs
        · exact State.beginSpill_storeOk (hs := hs) ..
  · exact .fault

theorem execActivationCommit_keeps (s : State) (hs : StoreOk s.store) :
    KeepsStore (execActivationCommit s) := by
  unfold execActivationCommit
  split
  · refine .next ?_
    split
    · exact State.applyPhase_storeOk (hs := hs) ..
    · split
      · exact State.prepare_storeOk (hs := hs) ..
      · split <;> exact hs
  · exact .fault

theorem execPurgeComplete_keeps (s : State) (hs : StoreOk s.store) :
    KeepsStore (execPurgeComplete s) := by
  unfold execPurgeComplete
  dsimp only
  split
  · refine .next ?_
    split <;> exact hs
  · exact .fault

theorem execDamperEntryEligible_keeps (s : State) (hs : StoreOk s.store) :
    KeepsStore (execDamperEntryEligible s) := by
  unfold execDamperEntryEligible
  split
  · refine .next ?_
    split
    · exact .of_eq (State.advanceEntry_store ..) hs
    · exact hs
  · exact .fault

theorem execCommitWriteRefused_keeps (s : State) (hs : StoreOk s.store) :
    KeepsStore (execCommitWriteRefused s) := by
  unfold execCommitWriteRefused
  split
  · refine .next ?_
    split
    · split
      · exact State.refuse_storeOk (hs := hs) ..
      · exact hs
    · exact hs
  · exact .fault

theorem execCommitWriteTimeout_keeps (s : State) (hs : StoreOk s.store) :
    KeepsStore (execCommitWriteTimeout s) := by
  unfold execCommitWriteTimeout
  split
  · refine .next ?_
    split
    · split
      · split
        · exact .of_eq (State.resend_store ..) hs
        · exact State.loseWrite_storeOk (hs := hs) ..
      · exact hs
    · exact hs
  · exact .fault

theorem execStrikeReport_keeps (s : State) (hs : StoreOk s.store) :
    KeepsStore (execStrikeReport s) := by
  unfold execStrikeReport
  split
  · refine .next ?_
    split
    · split
      · exact .of_eq (State.reportStrike_store ..) hs
      · exact hs
    · split
      · exact .of_eq (State.reportStrike_store ..) hs
      · exact hs
  · exact .fault

theorem execPurgeNotice_keeps (s : State) (hs : StoreOk s.store) :
    KeepsStore (execPurgeNotice s) := by
  unfold execPurgeNotice
  split
  · refine .next ?_
    split
    · exact .of_eq ((State.takeNotice_store ..).trans (State.modRegion_store ..)) hs
    · exact hs
  · exact .fault

theorem execFaultMessageSend_keeps (s : State) (hs : StoreOk s.store) :
    KeepsStore (execFaultMessageSend s) := by
  unfold execFaultMessageSend
  split
  · refine .next ?_
    split
    · split <;> exact hs
    · exact hs
  · exact .next (.of_eq (State.queueMessage_store ..) hs)
  · exact .fault

theorem execQuiesce_keeps (s : State) (hs : StoreOk s.store) :
    KeepsStore (execQuiesce s) := by
  unfold execQuiesce
  split
  · refine .next ?_
    split
    · exact .of_eq (State.quiesce_store ..) hs
    · exact hs
  · exact .fault

theorem execBarrierAlign_keeps (s : State) (hs : StoreOk s.store) :
    KeepsStore (execBarrierAlign s) := by
  unfold execBarrierAlign
  split
  · refine .next ?_
    split
    · split
      · exact .of_eq (State.alignBarrier_store ..) hs
      · exact hs
    · exact hs
  · exact .fault

theorem execSnapshotFirstMarker_keeps (s : State) (hs : StoreOk s.store) :
    KeepsStore (execSnapshotFirstMarker s) := by
  unfold execSnapshotFirstMarker
  split
  · refine .next ?_
    split
    · split <;> exact hs
    · exact hs
  · exact .fault

theorem execSnapshotAlign_keeps (s : State) (hs : StoreOk s.store) :
    KeepsStore (execSnapshotAlign s) := by
  unfold execSnapshotAlign
  split
  · refine .next ?_
    split
    · split
      · exact State.alignSnapshot_storeOk (hs := hs) ..
      · exact hs
    · exact hs
  · exact .fault

theorem execSnapshotAbandon_keeps (s : State) (hs : StoreOk s.store) :
    KeepsStore (execSnapshotAbandon s) := by
  unfold execSnapshotAbandon
  dsimp only
  split
  · refine .next ?_
    split
    · exact hs
    · split
      · exact hs
      · split
        · exact hs
        · exact .of_eq ((State.holdStatus_store ..).trans (State.modRegion_store ..)) hs
  · exact .fault

theorem execDrainSourceMarker_keeps (s : State) (hs : StoreOk s.store) :
    KeepsStore (execDrainSourceMarker s) := by
  unfold execDrainSourceMarker
  dsimp only
  split
  · refine .next ?_
    split
    · split
      · split
        · exact State.endSnapshot_storeOk (hs := .of_eq (State.snapAligned_store ..) (State.nodeRecordOut_storeOk (hs := .of_eq ((State.sendMarker_store ..).trans (State.modNode_store ..)) hs) ..)) ..
        · exact .of_eq ((State.sendMarker_store ..).trans (State.modNode_store ..)) hs
      · exact hs
    · exact hs
  · exact .fault

theorem execDrainComplete_keeps (s : State) (hs : StoreOk s.store) :
    KeepsStore (execDrainComplete s) := by
  unfold execDrainComplete
  split
  · refine .next ?_
    split
    · exact hs
    · split
      · exact hs
      · exact .of_eq ((State.holdStatus_store ..).trans (State.modRegion_store ..)) hs
  · exact .fault

theorem execHeartbeat_keeps (s : State) (hs : StoreOk s.store) :
    KeepsStore (execHeartbeat s) := by
  unfold execHeartbeat
  dsimp only
  split
  · refine .next ?_
    split
    · exact hs
    · split
      · exact hs
      · split <;> exact hs
  · exact .fault

theorem execDieFence_keeps (s : State) (hs : StoreOk s.store) :
    KeepsStore (execDieFence s) := by
  unfold execDieFence
  split
  · exact .next (.of_eq (State.fenceDie_store ..) hs)
  · exact .fault

theorem execElectionEnd_keeps (s : State) (hs : StoreOk s.store) :
    KeepsStore (execElectionEnd s) := by
  unfold execElectionEnd
  split
  · refine .next ?_
    split
    · split <;> exact hs
    · exact hs
  · exact .fault

theorem execGroupHandout_keeps (s : State) (hs : StoreOk s.store) :
    KeepsStore (execGroupHandout s) := by
  unfold execGroupHandout
  dsimp only
  split
  · refine .next ?_
    split
    · exact hs
    · split
      · split
        · exact .of_eq (State.handOut_store ..) hs
        · exact hs
      · exact hs
  · exact .fault

theorem execKernelComplete_keeps (s : State) (hs : StoreOk s.store) :
    KeepsStore (execKernelComplete s) := by
  unfold execKernelComplete
  dsimp only
  split
  · refine .next ?_
    split
    · exact .of_eq (State.detachAll_store ..) (State.advanceKernel_storeOk (hs := hs) ..)
    · exact State.advanceKernel_storeOk (hs := hs) ..
  · exact .fault

theorem execKernelVisible_keeps (s : State) (hs : StoreOk s.store) :
    KeepsStore (execKernelVisible s) := by
  unfold execKernelVisible
  dsimp only
  split
  · refine .next ?_
    split
    · exact .of_eq (State.kernelMessage_store ..) (State.journalState_storeOk (hs := .of_eq (State.setKernel_store ..) hs) ..)
    · exact hs
  · exact .fault

theorem execConfigLoad_keeps (s : State) (hs : StoreOk s.store) :
    KeepsStore (execConfigLoad s) := by
  unfold execConfigLoad
  split
  · exact .next (State.advanceLoad_storeOk (hs := hs) ..)
  · exact .next (.of_eq (State.endBinding_store ..) hs)
  · exact .fault

theorem execCover_keeps (s : State) (hs : StoreOk s.store) :
    KeepsStore (execCover s) := by
  unfold execCover
  split
  · refine .next ?_
    split
    · exact State.cover_storeOk (hs := hs) ..
    · exact hs
  · exact .fault

theorem execCalleeStart_keeps (s : State) (hs : StoreOk s.store) :
    KeepsStore (execCalleeStart s) := by
  unfold execCalleeStart
  split
  · refine .next ?_
    split
    · exact State.startCallee_storeOk (hs := hs) ..
    · exact hs
  · exact .fault

theorem execRekindle_keeps (s : State) (hs : StoreOk s.store) :
    KeepsStore (execRekindle s) := by
  unfold execRekindle
  dsimp only
  split
  · refine .next ?_
    split
    · refine .of_eq (State.modRegion_store ..) (foldl_storeOk _ (fun s x hs => ?_) _ _ ?_)
      · exact hs
      · exact hs
    · exact hs
  · exact .fault

theorem execCallerResume_keeps (s : State) (hs : StoreOk s.store) :
    KeepsStore (execCallerResume s) := by
  unfold execCallerResume
  split
  · refine .next ?_
    split
    · split
      · exact .of_eq (State.resumeCaller_store ..) hs
      · split <;> exact hs
    · split <;> exact hs
  · exact .fault

theorem execTailgSwap_keeps (s : State) (hs : StoreOk s.store) :
    KeepsStore (execTailgSwap s) := by
  unfold execTailgSwap
  dsimp only
  split
  · refine .next ?_
    split
    · split
      · exact .of_eq (((State.startEntry_store ..).trans (State.modRegion_store ..)).trans (State.installBlocks_store ..)) hs
      · exact hs
    · exact hs
  · exact .fault

theorem execPlaneMoveDown_keeps (s : State) (hs : StoreOk s.store) :
    KeepsStore (execPlaneMoveDown s) := by
  unfold execPlaneMoveDown
  dsimp only
  split
  · refine .next ?_
    split
    · exact .of_eq (State.moveDown_store ..) (State.finishMoves_storeOk (hs := .of_eq (State.abandonUps_store ..) hs) ..)
    · exact State.finishMoves_storeOk (hs := .of_eq (State.abandonUps_store ..) hs) ..
  · exact .fault

theorem execPlaneMoveUp_keeps (s : State) (hs : StoreOk s.store) :
    KeepsStore (execPlaneMoveUp s) := by
  unfold execPlaneMoveUp
  dsimp only
  split
  · refine .next ?_
    split
    · split
      · exact State.finishMoves_storeOk (hs := .of_eq (State.abandonUps_store ..) hs) ..
      · exact .of_eq (State.moveUp_store ..) (State.finishMoves_storeOk (hs := .of_eq (State.abandonUps_store ..) hs) ..)
    · exact State.finishMoves_storeOk (hs := .of_eq (State.abandonUps_store ..) hs) ..
  · exact .fault

theorem execContextEvict_keeps (s : State) (hs : StoreOk s.store) :
    KeepsStore (execContextEvict s) := by
  unfold execContextEvict
  split
  · exact .next (.of_eq (State.advanceEvict_store ..) hs)
  · exact .fault

theorem execContextRestore_keeps (s : State) (hs : StoreOk s.store) :
    KeepsStore (execContextRestore s) := by
  unfold execContextRestore
  split
  · refine .next ?_
    split
    · exact .of_eq (State.bringBack_store ..) hs
    · exact State.advanceRestore_storeOk (hs := hs) ..
  · exact .fault

theorem execContextSwap_keeps (s : State) (hs : StoreOk s.store) :
    KeepsStore (execContextSwap s) := by
  unfold execContextSwap
  split
  · exact .next (.of_eq (State.advanceSwap_store ..) hs)
  · exact .fault

theorem execContextHalt_keeps (s : State) (hs : StoreOk s.store) :
    KeepsStore (execContextHalt s) := by
  unfold execContextHalt
  dsimp only
  split
  · refine .next ?_
    split
    · split
      · exact State.haltContext_storeOk (hs := .of_eq (State.stopRegions_store ..) hs) ..
      · exact .of_eq (State.stopRegions_store ..) hs
    · exact hs
  · exact .fault

theorem execWaitvRecheck_keeps (s : State) (hs : StoreOk s.store) :
    KeepsStore (execWaitvRecheck s) := by
  unfold execWaitvRecheck
  split
  · refine .next ?_
    split
    · split
      · exact State.waitvRead_storeOk (hs := hs) ..
      · exact hs
    · exact hs
  · exact .fault

theorem execWaitvTimeout_keeps (s : State) (hs : StoreOk s.store) :
    KeepsStore (execWaitvTimeout s) := by
  unfold execWaitvTimeout
  split
  · refine .next ?_
    split
    · split
      · exact State.finishEntry_storeOk (hs := .of_eq ((State.workEntry_store ..).trans (State.modQueue_store ..)) hs) ..
      · exact hs
    · exact hs
  · exact .fault

theorem execCollectiveMemberLost_keeps (s : State) (hs : StoreOk s.store) :
    KeepsStore (execCollectiveMemberLost s) := by
  unfold execCollectiveMemberLost
  dsimp only
  split
  · refine .next ?_
    split
    · exact hs
    · split
      · exact hs
      · split
        · exact .of_eq ((State.sendAround_store ..).trans (State.modColl_store ..)) hs
        · exact hs
  · exact .fault

theorem execForwardRetire_keeps (s : State) (hs : StoreOk s.store) :
    KeepsStore (execForwardRetire s) := by
  unfold execForwardRetire
  split
  · exact .next hs
  · exact .fault

theorem execFlueFence_keeps (s : State) (hs : StoreOk s.store) :
    KeepsStore (execFlueFence s) := by
  unfold execFlueFence
  dsimp only
  split
  · refine .next ?_
    split
    · split <;> exact hs
    · split
      · exact hs
      · exact .of_eq ((State.fenceLink_store ..).trans (State.setLink_store ..)) hs
  · exact .fault

theorem execDetectTimeout_keeps (s : State) (hs : StoreOk s.store) :
    KeepsStore (execDetectTimeout s) := by
  unfold execDetectTimeout
  dsimp only
  split
  · refine .next ?_
    split <;> exact hs
  · exact .fault

theorem execEqualisationConverge_keeps (s : State) (hs : StoreOk s.store) :
    KeepsStore (execEqualisationConverge s) := by
  unfold execEqualisationConverge
  split
  · refine .next ?_
    split <;> exact hs
  · exact .fault

theorem execCxlLinkUp_keeps (s : State) (hs : StoreOk s.store) :
    KeepsStore (execCxlLinkUp s) := by
  unfold execCxlLinkUp
  split
  · refine .next ?_
    split <;> exact hs
  · exact .fault

theorem execCxlLinkLoss_keeps (s : State) (hs : StoreOk s.store) :
    KeepsStore (execCxlLinkLoss s) := by
  unfold execCxlLinkLoss
  split
  · exact .next hs
  · exact .fault

theorem execCompletionEntry_keeps (s : State) (hs : StoreOk s.store) :
    KeepsStore (execCompletionEntry s) := by
  unfold execCompletionEntry
  dsimp only
  split
  · refine .next ?_
    split
    · exact hs
    · split
      · exact hs
      · exact .of_eq (State.setPair_store ..) (State.putPhys_storeOk (hs := hs) ..)
  · exact .fault

theorem execXlinvComplete_keeps (s : State) (hs : StoreOk s.store) :
    KeepsStore (execXlinvComplete s) := by
  unfold execXlinvComplete
  dsimp only
  split
  · refine .next ?_
    split
    · split
      · exact .of_eq (State.invalidate_store ..) hs
      · exact hs
    · exact hs
  · exact .fault

theorem execAttReport_keeps (s : State) (hs : StoreOk s.store) :
    KeepsStore (execAttReport s) := by
  unfold execAttReport
  split
  · refine .next ?_
    split <;> exact hs
  · exact .fault

theorem execBootReady_keeps (s : State) (hs : StoreOk s.store) :
    KeepsStore (execBootReady s) := by
  unfold execBootReady
  split
  · refine .next ?_
    split <;> exact hs
  · exact .fault

theorem execWithdraw_keeps (cid rtag : BitVec 32) (m : BitVec 8) (s : State) (hs : StoreOk s.store) :
    KeepsStore (execWithdraw cid rtag m s) :=
  accepted_keeps (fun _ h => State.withKernel_storeOk (fun _ => State.withdrawKernel_storeOk (hs := h) ..) h) hs

theorem execReissue_keeps (s : State) (hs : StoreOk s.store) : KeepsStore (execReissue s) := by
  unfold execReissue
  split
  · refine .next ?_
    split
    · rename_i h
      obtain ⟨x, -, hx⟩ := List.exists_of_findSome?_eq_some h
      exact .of_eq (State.tryReissue_store hx) hs
    · exact hs
  · exact .fault

theorem execBindRegion_keeps (s : State) (hs : StoreOk s.store) : KeepsStore (execBindRegion s) := by
  unfold execBindRegion
  split
  · refine .next ?_
    split
    · exact hs
    · split
      · rename_i h
        obtain ⟨e, -, he⟩ := List.exists_of_findSome?_eq_some h
        exact State.tryKernel_storeOk he hs
      · exact hs
  · exact .fault

/-- Forgetting cells and poisoned granules keeps the canonical form. -/
theorem StoreOk.filter {m : List Host.Cell × List Nat} (hs : StoreOk m) (p : Host.Cell → Bool) (q : Nat → Bool) :
    StoreOk (m.1.filter p, m.2.filter q) := ⟨Memory.wf_filter p hs.1, risingFrom_filter q hs.2⟩

theorem execPowerOnReset_keeps (s : State) (hs : StoreOk s.store) : KeepsStore (execPowerOnReset s) := by
  unfold execPowerOnReset
  split
  · exact .next (StoreOk.filter hs _ _)
  · exact .fault

theorem execThermalShutdown_keeps (s : State) (hs : StoreOk s.store) : KeepsStore (execThermalShutdown s) := by
  unfold execThermalShutdown
  split
  · exact .next (StoreOk.filter (.of_eq (foldl_store _ (fun _ _ => State.fenceDie_store ..) _ _) hs) _ _)
  · exact .fault

theorem exec_keeps (i : Instr) (s : State) (hs : StoreOk s.store) : KeepsStore (exec i s) := by
  cases i with
  | pass r => exact fireNode_keeps (fun _ _ h => h) hs
  | const r => exact fireNode_keeps (fun _ _ h => h) hs
  | steer r => exact fireNode_keeps (fun _ _ h => h) hs
  | merge r => exact fireNode_keeps (fun _ _ h => h) hs
  | mergeu r => exact fireNode_keeps (fun _ _ h => h) hs
  | gate r => exact fireNode_keeps (fun _ _ h => h) hs
  | sync r => exact fireNode_keeps (fun _ _ h => h) hs
  | sel r => exact fireNode_keeps (fun _ _ h => h) hs
  | wave r => exact fireNode_same (fun _ _ => waveFire_store ..) hs
  | wexit r => exact fireNode_same (fun _ _ => waveFire_store ..) hs
  | calloc r => exact fireNode_same (fun _ _ => callocFire_store ..) hs
  | cfree r => exact fireNode_same (fun _ _ => endColour_store ..) hs
  | cbind r => exact fireNode_same (fun _ _ => cbindFire_store ..) hs
  | cret r => exact fireNode_same (fun _ _ => cretFire_store ..) hs
  | pack r => exact fireNode_keeps (fun _ _ h => h) hs
  | unpack r => exact fireNode_keeps (fun _ _ h => h) hs
  | inject r => exact fireNode_same (fun _ _ => injectFire_store ..) hs
  | sink r => exact fireNode_keeps (fun _ _ h => h) hs
  | cntf r => exact fireNode_same (fun _ _ => cntfFire_store ..) hs
  | spawn r => exact fireNode_same (fun _ _ => spawnFire_store ..) hs
  | trap r => exact fireNode_keeps (fun _ _ h => h) hs
  | mark r => exact fireHeld_keeps (fun _ _ h => h) hs
  | pred r => exact fireNode_keeps (fun _ _ h => h) hs
  | pand r => exact fireNode_same (fun _ _ => predCombine_store ..) hs
  | por r => exact fireNode_same (fun _ _ => predCombine_store ..) hs
  | pxor r => exact fireNode_same (fun _ _ => predCombine_store ..) hs
  | pnot r => exact fireNode_keeps (fun _ _ h => h) hs
  | vote r => exact fireNode_keeps (fun _ _ h => h) hs
  | flags r => exact fireNode_keeps (fun _ _ h => h) hs
  | delay r => exact fireNode_keeps (fun _ _ h => h) hs
  | tsget r => exact fireNode_keeps (fun _ _ h => h) hs
  | add r => exact fireNode_same (fun _ _ => summed_store ..) hs
  | sub r => exact fireNode_same (fun _ _ => summed_store ..) hs
  | mul r => exact fireNode_same (fun _ _ => mulFire_store ..) hs
  | mulh r => exact fireNode_keeps (fun _ _ h => h) hs
  | mulhu r => exact fireNode_keeps (fun _ _ h => h) hs
  | mad r => exact fireNode_same (fun _ _ => madFire_store ..) hs
  | div r => exact fireNode_same (fun _ _ => checked_store ..) hs
  | divu r => exact fireNode_same (fun _ _ => checked_store ..) hs
  | rem r => exact fireNode_same (fun _ _ => checked_store ..) hs
  | remu r => exact fireNode_same (fun _ _ => checked_store ..) hs
  | neg r => exact fireNode_keeps (fun _ _ h => h) hs
  | abs r => exact fireNode_same (fun _ _ => unary_store ..) hs
  | min r => exact fireNode_same (fun _ _ => binary_store ..) hs
  | max r => exact fireNode_same (fun _ _ => binary_store ..) hs
  | minu r => exact fireNode_same (fun _ _ => binary_store ..) hs
  | maxu r => exact fireNode_same (fun _ _ => binary_store ..) hs
  | and r => exact fireNode_same (fun _ _ => bitwise_store ..) hs
  | or r => exact fireNode_same (fun _ _ => bitwise_store ..) hs
  | xor r => exact fireNode_same (fun _ _ => bitwise_store ..) hs
  | not r => exact fireNode_keeps (fun _ _ h => h) hs
  | andn r => exact fireNode_same (fun _ _ => bitwise_store ..) hs
  | shl r => exact fireNode_same (fun _ _ => binary_store ..) hs
  | shr r => exact fireNode_same (fun _ _ => binary_store ..) hs
  | sra r => exact fireNode_same (fun _ _ => binary_store ..) hs
  | rol r => exact fireNode_same (fun _ _ => binary_store ..) hs
  | clz r => exact fireNode_same (fun _ _ => unary_store ..) hs
  | popc r => exact fireNode_same (fun _ _ => unary_store ..) hs
  | brev r => exact fireNode_same (fun _ _ => unary_store ..) hs
  | bfx r => exact fireNode_same (fun _ _ => unary_store ..) hs
  | bfi r => exact fireNode_same (fun _ _ => binary_store ..) hs
  | adds r => exact fireNode_same (fun _ _ => summed_store ..) hs
  | subs r => exact fireNode_same (fun _ _ => summed_store ..) hs
  | cmpeq r => exact fireNode_same (fun _ _ => compare_store ..) hs
  | cmpne r => exact fireNode_same (fun _ _ => compare_store ..) hs
  | cmplt r => exact fireNode_same (fun _ _ => compare_store ..) hs
  | cmple r => exact fireNode_same (fun _ _ => compare_store ..) hs
  | cmpltu r => exact fireNode_same (fun _ _ => compare_store ..) hs
  | cmpleu r => exact fireNode_same (fun _ _ => compare_store ..) hs
  | idx r => exact fireNode_keeps (fun _ _ h => h) hs
  | idx2 r => exact fireNode_same (fun _ _ => binary_store ..) hs
  | wrap r => exact fireNode_same (fun _ _ => unary_store ..) hs
  | range r => exact fireHeld_same (fun _ _ => rangeFire_store ..) hs
  | shuf r => exact fireNode_keeps (fun _ _ h => h) hs
  | lanex r => exact fireNode_keeps (fun _ _ h => h) hs
  | lanei r => exact fireNode_keeps (fun _ _ h => h) hs
  | bcast r => exact fireNode_keeps (fun _ _ h => h) hs
  | rsum r => exact fireNode_keeps (fun _ _ h => h) hs
  | rmin r => exact fireNode_keeps (fun _ _ h => h) hs
  | rmax r => exact fireNode_keeps (fun _ _ h => h) hs
  | fadd r => exact fireNode_same (fun _ _ => rounding_store ..) hs
  | fsub r => exact fireNode_same (fun _ _ => rounding_store ..) hs
  | fmul r => exact fireNode_same (fun _ _ => rounding_store ..) hs
  | fma r => exact fireNode_same (fun _ _ => rounding_store ..) hs
  | fnma r => exact fireNode_same (fun _ _ => rounding_store ..) hs
  | fmin r => exact fireNode_same (fun _ _ => exactly_store ..) hs
  | fmax r => exact fireNode_same (fun _ _ => exactly_store ..) hs
  | fabs r => exact fireNode_same (fun _ _ => exactly_store ..) hs
  | fneg r => exact fireNode_same (fun _ _ => exactly_store ..) hs
  | fcmpeq r => exact fireNode_same (fun _ _ => fcompare_store ..) hs
  | fcmplt r => exact fireNode_same (fun _ _ => fcompare_store ..) hs
  | fcmple r => exact fireNode_same (fun _ _ => fcompare_store ..) hs
  | fcmpun r => exact fireNode_same (fun _ _ => fcompare_store ..) hs
  | fclass r => exact fireNode_keeps (fun _ _ h => h) hs
  | fdiv r => exact fireNode_same (fun _ _ => rounding_store ..) hs
  | fsqrt r => exact fireNode_same (fun _ _ => rounding_store ..) hs
  | frcp r => exact fireNode_same (fun _ _ => special_store ..) hs
  | frsq r => exact fireNode_same (fun _ _ => special_store ..) hs
  | fexp2 r => exact fireNode_same (fun _ _ => special_store ..) hs
  | flog2 r => exact fireNode_same (fun _ _ => special_store ..) hs
  | fsin r => exact fireNode_same (fun _ _ => special_store ..) hs
  | fcos r => exact fireNode_same (fun _ _ => special_store ..) hs
  | ftanh r => exact fireNode_same (fun _ _ => special_store ..) hs
  | fsigm r => exact fireNode_same (fun _ _ => special_store ..) hs
  | fsilu r => exact fireNode_same (fun _ _ => special_store ..) hs
  | cvtf r => exact fireNode_same (fun _ _ => converting_store ..) hs
  | cvtfi r => exact fireNode_same (fun _ _ => converting_store ..) hs
  | cvtif r => exact fireNode_same (fun _ _ => converting_store ..) hs
  | qntb r => exact fireNode_same (fun _ _ => qntbFire_store ..) hs
  | dqntb r => exact fireNode_same (fun _ _ => dqntbFire_store ..) hs
  | expsel r => exact fireNode_keeps (fun _ _ h => h) hs
  | scl r => exact fireNode_same (fun _ _ => rounding_store ..) hs
  | uscl r => exact fireNode_same (fun _ _ => rounding_store ..) hs
  | frsum r => exact fireNode_same (fun _ _ => Fire.draws_store ..) hs
  | frmax r => exact fireNode_keeps (fun _ _ h => h) hs
  | frmin r => exact fireNode_keeps (fun _ _ h => h) hs
  | smrg r => exact fireNode_same (fun _ _ => smrgFire_store ..) hs
  | rope r => exact fireNode_same (fun _ _ => Fire.draws_store ..) hs
  | tdld r => exact fireNode_same (fun _ _ => tdWrite_store ..) hs
  | tdset r => exact fireNode_same (fun _ _ => tdWrite_store ..) hs
  | tddrop r => exact fireNode_same (fun _ _ => tdWrite_store ..) hs
  | tdkeep r => exact fireNode_same (fun _ _ => tdWrite_store ..) hs
  | tdreg r => exact fireNode_same (fun _ _ => tdWrite_store ..) hs
  | tdq r => exact fireNode_same (fun _ _ => tdqFire_store ..) hs
  | tric r => exact fireHeld_same (fun _ _ => beginFire_store ..) hs
  | mma r => exact fireHeld_same (fun _ _ => beginFire_store ..) hs
  | tris r => exact fireHeld_same (fun _ _ => beginFire_store ..) hs
  | mmas r => exact fireHeld_same (fun _ _ => beginFire_store ..) hs
  | had r => exact fireNode_same (fun _ _ => hadFire_store ..) hs
  | lutp r => exact fireNode_same (fun _ _ => lutpFire_store ..) hs
  | lutm r => exact fireNode_same (fun _ _ => lutmFire_store ..) hs
  | accrd r => exact fireNode_same (fun _ _ => accrdFire_store ..) hs
  | accz r => exact fireNode_same (fun _ _ => acczFire_store ..) hs
  | accld r => exact fireNode_same (fun _ _ => accldFire_store ..) hs
  | tstay r => exact fireNode_same (fun _ _ => tstayFire_store ..) hs
  | txpr r => exact fireNode_same (fun _ _ => txprFire_store ..) hs
  | cdxset r => exact fireNode_same (fun _ _ => cdxsetFire_store ..) hs
  | accx r => exact fireNode_same (fun _ _ => accxFire_store ..) hs
  | agen r => exact fireHeld_same (fun _ _ => agenFire_store ..) hs
  | ld r => exact memNode_keeps (fun _ _ h => .of_eq (loadPlan_store ..) h) hs
  | st r => exact memNode_keeps (fun _ _ h => .of_eq (storePlan_store ..) h) hs
  | ldx r => exact memNode_keeps (fun _ _ h => .of_eq (ldxPlan_store ..) h) hs
  | lds r => exact memNode_keeps (fun _ _ h => .of_eq (loadPlan_store ..) h) hs
  | sts r => exact memNode_keeps (fun _ _ h => .of_eq (storePlan_store ..) h) hs
  | ldt r => exact memNode_keeps (fun _ _ h => ldtPlan_storeOk (hs := h) ..) hs
  | stt r => exact memNode_keeps (fun _ _ h => sttPlan_storeOk (hs := h) ..) hs
  | ldn r => exact memNode_keeps (fun _ _ h => .of_eq (loadPlan_store ..) h) hs
  | pref r => exact memNode_keeps (fun _ _ h => .of_eq (prefPlan_store ..) h) hs
  | aadd r => exact memNode_keeps (fun _ _ h => .of_eq (atomicPlan_store ..) h) hs
  | afadd r => exact memNode_keeps (fun _ _ h => .of_eq (atomicPlan_store ..) h) hs
  | amin r => exact memNode_keeps (fun _ _ h => .of_eq (atomicPlan_store ..) h) hs
  | amax r => exact memNode_keeps (fun _ _ h => .of_eq (atomicPlan_store ..) h) hs
  | aand r => exact memNode_keeps (fun _ _ h => .of_eq (atomicPlan_store ..) h) hs
  | aor r => exact memNode_keeps (fun _ _ h => .of_eq (atomicPlan_store ..) h) hs
  | axor r => exact memNode_keeps (fun _ _ h => .of_eq (atomicPlan_store ..) h) hs
  | axchg r => exact memNode_keeps (fun _ _ h => .of_eq (atomicPlan_store ..) h) hs
  | acas r => exact memNode_keeps (fun _ _ h => .of_eq (atomicPlan_store ..) h) hs
  | ainc r => exact memNode_keeps (fun _ _ h => .of_eq (atomicPlan_store ..) h) hs
  | optst r => exact memNode_keeps (fun _ _ h => .of_eq (optPlan_store ..) h) hs
  | retw r => exact memNode_keeps (fun _ _ h => .of_eq (retPlan_store ..) h) hs
  | fence r => exact memNode_keeps (fun _ _ h => h) hs
  | mcast r => exact memNode_keeps (fun _ _ h => .of_eq (storePlan_store ..) h) hs
  | wptr r => exact fireNode_keeps (fun _ _ h => h) hs
  | wpwait r => exact fireNode_keeps (fun _ _ h => h) hs
  | enq r => exact fireHeld_keeps (fun _ _ h => enqFire_storeOk (hs := h) ..) hs
  | tail r => exact fireNode_keeps (fun _ _ h => h) hs
  | seqrd r => exact fireNode_keeps (fun _ _ h => h) hs
  | seqwait r => exact fireNode_keeps (fun _ _ h => h) hs
  | cfgld r => exact fireNode_keeps (fun _ _ h => cfgldFire_storeOk (hs := h) ..) hs
  | callg r => exact fireNode_keeps (fun _ _ h => callgFire_storeOk (hs := h) ..) hs
  | retg r => exact fireNode_same (fun _ _ => retgFire_store ..) hs
  | tailg r => exact fireNode_keeps (fun _ _ h => tailgFire_storeOk (hs := h) ..) hs
  | drain r => exact fireNode_same (fun _ _ => drainFire_store ..) hs
  | prio r => exact fireNode_same (fun _ _ => prioFire_store ..) hs
  | yield r => exact fireNode_keeps (fun _ _ h => h) hs
  | snap r => exact fireHeld_keeps (fun _ _ h => snapFire_storeOk (hs := h) ..) hs
  | rdsr r => exact fireNode_same (fun _ _ => rdsrFire_store ..) hs
  | wrsr r => exact fireNode_same (fun _ _ => wrsrFire_store ..) hs
  | halt r => exact fireNode_keeps (fun _ _ h => h) hs
  | wdog r => exact fireNode_keeps (fun _ _ h => h) hs
  | rangeEmission r => exact fireHeld_same (fun _ _ => rangeFire_store ..) hs
  | agenEmission r => exact fireHeld_same (fun _ _ => agenFire_store ..) hs
  | markMarkerEmission r => exact fireHeld_same (fun _ _ => markMarkerFire_store ..) hs
  | uncorrectableError w => exact execUncorrectableError_keeps w s hs
  | kernelAccept a => exact execKernelAccept_keeps a s hs
  | copy e b => exact engineTurn_keeps (fun _ _ _ h => h) (fun _ _ _ h => copyGo_storeOk (hs := h) ..) hs
  | copyt e b =>
    exact engineTurn_keeps (fun _ _ _ h => tensorStart_storeOk (hs := h) ..) (fun _ _ _ h => copytGo_storeOk (hs := h) ..) hs
  | perm e b =>
    exact engineTurn_keeps (fun _ _ _ h => tensorStart_storeOk (hs := h) ..) (fun _ _ _ h => tensorGo_storeOk (hs := h) ..) hs
  | fill e b => exact engineTurn_keeps (fun _ _ _ h => h) (fun _ _ _ h => fillGo_storeOk (hs := h) ..) hs
  | gath e b =>
    exact engineTurn_keeps (fun _ _ _ h => rowsStart_storeOk (hs := h) ..) (fun _ _ _ h => rowsGo_storeOk (hs := h) ..) hs
  | scat e b =>
    exact engineTurn_keeps (fun _ _ _ h => rowsStart_storeOk (hs := h) ..) (fun _ _ _ h => rowsGo_storeOk (hs := h) ..) hs
  | copyr e b =>
    exact engineTurn_keeps (fun _ _ _ h => seqStart_storeOk (hs := h) ..) (fun _ _ _ h => copyrGo_storeOk (hs := h) ..) hs
  | kvpatch e b =>
    exact engineTurn_keeps (fun _ _ _ h => seqStart_storeOk (hs := h) ..) (fun _ _ _ h => patchGo_storeOk (hs := h) ..) hs
  | compact e b =>
    exact engineTurn_keeps (fun _ _ _ h => compactStart_storeOk (hs := h) ..) (fun _ _ _ h => compactGo_storeOk (hs := h) ..) hs
  | promo e b =>
    exact engineTurn_keeps (fun _ _ _ h => pageStart_storeOk (hs := h) ..) (fun _ _ _ h => pageGo_storeOk (hs := h) ..) hs
  | demo e b =>
    exact engineTurn_keeps (fun _ _ _ h => pageStart_storeOk (hs := h) ..) (fun _ _ _ h => pageGo_storeOk (hs := h) ..) hs
  | redsc e b =>
    exact engineTurn_keeps (fun _ _ _ h => collStart_storeOk (hs := h) ..) (fun _ _ _ h => collGo_storeOk (hs := h) ..) hs
  | allga e b =>
    exact engineTurn_keeps (fun _ _ _ h => collStart_storeOk (hs := h) ..) (fun _ _ _ h => collGo_storeOk (hs := h) ..) hs
  | allrd e b =>
    exact engineTurn_keeps (fun _ _ _ h => collStart_storeOk (hs := h) ..) (fun _ _ _ h => collGo_storeOk (hs := h) ..) hs
  | send e b =>
    exact engineTurn_keeps (fun _ _ _ h => .of_eq (sendStart_store ..) h) (fun _ _ _ h => sendGo_storeOk (hs := h) ..) hs
  | recv e b =>
    exact engineTurn_keeps (fun _ _ _ h => .of_eq (recvStart_store ..) h) (fun _ _ _ h => recvGo_storeOk (hs := h) ..) hs
  | qfence e b =>
    exact engineTurn_keeps (fun _ _ _ h => .of_eq (qfenceStart_store ..) h) (fun _ _ _ h => qfenceGo_storeOk (hs := h) ..) hs
  | wdraw e b => exact engineTurn_keeps (fun _ _ _ h => h) (fun _ _ _ h => wdrawGo_storeOk (hs := h) ..) hs
  | signal e b => exact engineTurn_keeps (fun _ _ _ h => h) (fun _ _ _ h => signalGo_storeOk (hs := h) ..) hs
  | waitv e b => exact engineTurn_keeps (fun _ _ _ h => h) (fun _ _ _ h => waitvGo_storeOk (hs := h) ..) hs
  | badkind e kind body => exact execBadkind_keeps e kind body s hs
  | flueEnable on => exact execFlueEnable_keeps on s hs
  | configExchange side key asks => exact execConfigExchange_keeps side key asks s hs
  | flitReceive f => exact execFlitReceive_keeps f s hs
  | retryRequest seq => exact execRetryRequest_keeps seq s hs
  | recoveryRetrain o => exact execRecoveryRetrain_keeps o s hs
  | sqTailDoorbell v => exact execSqTailDoorbell_keeps v s hs
  | cqHeadDoorbell v => exact execCqHeadDoorbell_keeps v s hs
  | viroftPairEnable v => exact execViroftPairEnable_keeps v s hs
  | launch cid lra => exact execLaunch_keeps cid lra s hs
  | resume cid w => exact execResume_keeps cid w s hs
  | abort cid w => exact execAbort_keeps cid w s hs
  | release cid rtag m => exact execRelease_keeps cid rtag m s hs
  | withdraw cid rtag m => exact execWithdraw_keeps cid rtag m s hs
  | retire cid rtag m => exact execRetire_keeps cid rtag m s hs
  | ctxres cid m => exact execCtxres_keeps cid m s hs
  | unknownCommand cid opc => exact execUnknownCommand_keeps cid opc s hs
  | snapTrig v => exact execSnapTrig_keeps v s hs
  | xlinv v => exact execXlinv_keeps v s hs
  | attNonce nonce => exact execAttNonce_keeps nonce s hs
  | jrnlBase v => exact execJrnlBase_keeps v s hs
  | jrnlSize v => exact execJrnlSize_keeps v s hs
  | pwrLim v => exact execPwrLim_keeps v s hs
  | queueEnWrite on => exact execQueueEnWrite_keeps on s hs
  | counterClear a => exact execCounterClear_keeps a s hs
  | registerWrite a bytes => exact execRegisterWrite_keeps a bytes s hs
  | thermalThrottle on => exact execThermalThrottle_keeps on s hs
  | cxlMemRequest a write len => exact execCxlMemRequest_keeps a write len s hs
  | txprOutput => exact execTxprOutput_keeps s hs
  | tokenArrival => exact execTokenArrival_keeps s hs
  | meshMessageReceive => exact execMeshMessageReceive_keeps s hs
  | frameSlotEntry => exact execFrameSlotEntry_keeps s hs
  | requestIssue => exact execRequestIssue_keeps s hs
  | loadReply => exact execLoadReply_keeps s hs
  | deferredTokenSend => exact execDeferredTokenSend_keeps s hs
  | delayExpiry => exact execDelayExpiry_keeps s hs
  | yieldExpiry => exact execYieldExpiry_keeps s hs
  | waveRetire => exact execWaveRetire_keeps s hs
  | reweight => exact execReweight_keeps s hs
  | starving => exact execStarving_keeps s hs
  | contractionStep => exact execContractionStep_keeps s hs
  | contractionEnd => exact execContractionEnd_keeps s hs
  | accumulatorSpill => exact execAccumulatorSpill_keeps s hs
  | activationCommit => exact execActivationCommit_keeps s hs
  | reissue => exact execReissue_keeps s hs
  | purgeComplete => exact execPurgeComplete_keeps s hs
  | damperEntryEligible => exact execDamperEntryEligible_keeps s hs
  | commitWriteRefused => exact execCommitWriteRefused_keeps s hs
  | commitWriteTimeout => exact execCommitWriteTimeout_keeps s hs
  | strikeReport => exact execStrikeReport_keeps s hs
  | purgeNotice => exact execPurgeNotice_keeps s hs
  | requestTimeout => exact timeoutEvent_keeps _ _ hs
  | linkFaultTimeout => exact timeoutEvent_keeps _ _ hs
  | faultMessageSend => exact execFaultMessageSend_keeps s hs
  | quiesce => exact execQuiesce_keeps s hs
  | barrierAlign => exact execBarrierAlign_keeps s hs
  | snapshotFirstMarker => exact execSnapshotFirstMarker_keeps s hs
  | snapshotAlign => exact execSnapshotAlign_keeps s hs
  | snapshotAbandon => exact execSnapshotAbandon_keeps s hs
  | drainSourceMarker => exact execDrainSourceMarker_keeps s hs
  | drainComplete => exact execDrainComplete_keeps s hs
  | heartbeat => exact execHeartbeat_keeps s hs
  | dieFence => exact execDieFence_keeps s hs
  | electionEnd => exact execElectionEnd_keeps s hs
  | bindRegion => exact execBindRegion_keeps s hs
  | groupHandout => exact execGroupHandout_keeps s hs
  | kernelComplete => exact execKernelComplete_keeps s hs
  | kernelVisible => exact execKernelVisible_keeps s hs
  | configLoad => exact execConfigLoad_keeps s hs
  | cover => exact execCover_keeps s hs
  | calleeStart => exact execCalleeStart_keeps s hs
  | rekindle => exact execRekindle_keeps s hs
  | callerResume => exact execCallerResume_keeps s hs
  | tailgSwap => exact execTailgSwap_keeps s hs
  | planeMoveDown => exact execPlaneMoveDown_keeps s hs
  | planeMoveUp => exact execPlaneMoveUp_keeps s hs
  | contextEvict => exact execContextEvict_keeps s hs
  | contextRestore => exact execContextRestore_keeps s hs
  | contextSwap => exact execContextSwap_keeps s hs
  | contextHalt => exact execContextHalt_keeps s hs
  | waitvRecheck => exact execWaitvRecheck_keeps s hs
  | waitvTimeout => exact execWaitvTimeout_keeps s hs
  | collectiveMemberLost => exact execCollectiveMemberLost_keeps s hs
  | forwardRetire => exact execForwardRetire_keeps s hs
  | flueFence => exact execFlueFence_keeps s hs
  | electricalIdleExit => exact linkStep_keeps _ _ _ hs
  | laneLock => exact linkStep_keeps _ _ _ hs
  | detectTimeout => exact execDetectTimeout_keeps s hs
  | equalisationConverge => exact execEqualisationConverge_keeps s hs
  | cxlLinkUp => exact execCxlLinkUp_keeps s hs
  | cxlLinkLoss => exact execCxlLinkLoss_keeps s hs
  | completionEntry => exact execCompletionEntry_keeps s hs
  | xlinvComplete => exact execXlinvComplete_keeps s hs
  | attReport => exact execAttReport_keeps s hs
  | powerOnReset => exact execPowerOnReset_keeps s hs
  | bootReady => exact execBootReady_keeps s hs
  | thermalShutdown => exact execThermalShutdown_keeps s hs

theorem State.fetchNode_storeOk {s t : State} {h k n : Nat} (e : s.fetchNode h k n = .idle t) (hs : StoreOk s.store) :
    StoreOk t.store := by
  unfold State.fetchNode at e
  split at e
  · cases e
    exact hs
  · split at e <;> cases e

theorem State.fetchEntry_storeOk {s t : State} {q : Nat} (e : s.fetchEntry q = .idle t) (hs : StoreOk s.store) :
    StoreOk t.store := by
  unfold State.fetchEntry at e
  split at e
  · cases e
    split
    · exact State.readEntry_storeOk (hs := hs) ..
    · exact hs
  · cases e

theorem State.fetchSubmission_storeOk {s t : State} {p : Nat} (e : s.fetchSubmission p = .idle t) (hs : StoreOk s.store) :
    StoreOk t.store := by
  unfold State.fetchSubmission at e
  split at e <;> cases e
  exact hs

/-- A move without an instruction keeps the store in canonical form. -/
theorem State.fetchTurn_storeOk {s t : State} {m : Turn} (e : s.fetchTurn m = .idle t) (hs : StoreOk s.store) :
    StoreOk t.store := by
  cases m with
  | sweep p =>
    rw [← Fetched.idle.inj e]
    exact State.sweep_storeOk (hs := hs) ..
  | pick h =>
    rw [← Fetched.idle.inj e]
    exact .of_eq (State.pick_store ..) hs
  | fire h k n => exact State.fetchNode_storeOk e hs
  | entry q => exact State.fetchEntry_storeOk e hs
  | submit p => exact State.fetchSubmission_storeOk e hs
  | event i l => cases e

theorem step_keeps (s : State) (hs : StoreOk s.store) : KeepsStore (step s) := by
  unfold step
  split
  · exact .next (.of_eq (State.tick_store s) hs)
  · split
    · rename_i h
      exact .next (State.fetchTurn_storeOk h hs)
    · exact exec_keeps _ _ hs
    · intro t h
      cases h

/-- Settles O5: whatever a step does, the store that it leaves is in canonical form where the store that it found was
(`step_keeps`). -/
theorem stepKeepsInvariant : Obligations.StepKeepsInvariant := by
  unfold Obligations.StepKeepsInvariant
  intro s t hs h
  exact t.inv_iff_storeOk.2 (step_keeps s (s.inv_iff_storeOk.1 hs) t h)

end Sys2Proof.Machine
end

section
namespace Sys2Proof.Machine

/-! ### Registers written at the commit -/

/-- A write pointer is read at its die. -/
theorem State.statusReg_pointer (s : State) (g c d : Nat) {n : Nat} (h : 0x40 ≤ n) (h' : n ≤ 0x7F) :
    s.statusReg g c d n = s.pointer d (n - 0x40) := by
  unfold State.statusReg
  split
  all_goals try omega -- the other registers lie below 0x40
  simp [h, h']

/-- A write of a write pointer changes the pointers of its die. -/
theorem State.applyRegister_pointer (s : State) (g h v : Nat) {n : Nat} (hn : 0x40 ≤ n) :
    s.applyRegister g h n v = { s with pointers := Tab.set s.pointers (64 * dieOf h + (n - 0x40)) (v % 2 ^ 48) } := by
  unfold State.applyRegister
  split
  all_goals try omega -- the other registers lie below 0x40
  simp [hn]

@[simp] theorem State.injectStrike_context (s : State) (d v m : Nat) : (s.injectStrike d v).context m = s.context m := by
  unfold State.injectStrike
  split <;> rfl

@[simp] theorem State.injectStrike_mem (s : State) (d v : Nat) : (s.injectStrike d v).mem = s.mem := by
  unfold State.injectStrike
  split <;> rfl

@[simp] theorem State.injectStrike_poison (s : State) (d v : Nat) : (s.injectStrike d v).poison = s.poison := by
  unfold State.injectStrike
  split <;> rfl

@[simp] theorem State.injectStrike_kernels (s : State) (d v : Nat) : (s.injectStrike d v).kernels = s.kernels := by
  unfold State.injectStrike
  split <;> rfl

/-- A register write leaves the other contexts, memory and the kernels alone. -/
theorem State.applyRegister_frame (s : State) (g h r v : Nat) :
    (∀ m, m ≠ (s.region g).ctx → (s.applyRegister g h r v).context m = s.context m) ∧
    (s.applyRegister g h r v).mem = s.mem ∧ (s.applyRegister g h r v).poison = s.poison ∧
    (s.applyRegister g h r v).kernels = s.kernels := by
  have ctx : ∀ (x : Context) m, m ≠ (s.region g).ctx → (s.setContext (s.region g).ctx x).context m = s.context m :=
    fun x m hm => State.setContext_context_other _ _ _ _ hm.symm
  unfold State.applyRegister
  dsimp only
  split
  · exact ⟨ctx _, rfl, rfl, rfl⟩
  · exact ⟨ctx _, rfl, rfl, rfl⟩
  · exact ⟨fun _ _ => rfl, rfl, rfl, rfl⟩
  · exact ⟨fun _ _ => State.injectStrike_context .., State.injectStrike_mem .., State.injectStrike_poison ..,
      State.injectStrike_kernels ..⟩
  · exact ⟨ctx _, rfl, rfl, rfl⟩
  · exact ⟨ctx _, rfl, rfl, rfl⟩
  · exact ⟨ctx _, rfl, rfl, rfl⟩
  · split <;> exact ⟨fun _ _ => rfl, rfl, rfl, rfl⟩

/-- What each register reads as once the commit has written it (R243). -/
theorem State.statusReg_applyRegister (s : State) (g c h r v d : Nat) :
    (r = 0x04 → (s.applyRegister g h r v).statusReg g c d 0x04 = v % 2 ^ 32) ∧
    (r = 0x0C → (s.applyRegister g h r v).statusReg g c d 0x0C = v % 2 ^ 32) ∧
    (r = 0x12 → (s.applyRegister g h r v).statusReg g c d 0x12 = v % 256) ∧
    (r = 0x16 → (s.applyRegister g h r v).statusReg g c d 0x16 = v % 2 ^ 32) ∧
    (r = 0x17 → (s.applyRegister g h r v).statusReg g c d 0x17 = min v 4096) ∧
    (0x40 ≤ r → r ≤ 0x7F → (s.applyRegister g h r v).statusReg g c (dieOf h) r = v % 2 ^ 48) := by
  have pointer : 0x40 ≤ r → r ≤ 0x7F → (s.applyRegister g h r v).statusReg g c (dieOf h) r = v % 2 ^ 48 := fun hr hr' => by
    rw [State.statusReg_pointer _ _ _ _ hr hr', State.applyRegister_pointer _ _ _ _ hr]
    exact Tab.get_set_same _ _ _ _
  refine ⟨?_, ?_, ?_, ?_, ?_, pointer⟩ <;> rintro rfl <;> simp [State.applyRegister, State.statusReg]

/-! ### The write pointers when a request issues -/

theorem State.pointers_of_around {s t : State} (h : t.around = s.around) : t.pointers = s.pointers :=
  congrArg (fun u => u.pointers) h

@[simp] theorem cacheIn_pointers {α : Type} (size : Nat) (x : α) (l : List α) (s : State) :
    (cacheIn size x l s).2.pointers = s.pointers := by
  unfold cacheIn
  split <;> rfl

@[simp] theorem State.fillPointers_pointers (s : State) (u : Nat) (ps : List CachedPointer) :
    (s.fillPointers u ps).pointers = s.pointers := by
  induction ps generalizing s with
  | nil => rfl
  | cons x t ih => exact (ih _).trans (cacheIn_pointers _ x _ s)

@[simp] theorem State.fillLeaf_pointers (s : State) (u : Nat) (x : CachedLeaf) : (s.fillLeaf u x).pointers = s.pointers :=
  cacheIn_pointers _ _ _ _

@[simp] theorem State.orLeaf_pointers (s : State) (place mask : Nat) : (s.orLeaf place mask).pointers = s.pointers := by
  unfold State.orLeaf
  dsimp only
  split <;> rfl

@[simp] theorem State.touch_pointers (s : State) (u m va : Nat) (w : Bool) : (s.touch u m va w).pointers = s.pointers := by
  unfold State.touch
  split
  · rfl
  · extract_lets new mask
    split
    · rfl
    · exact (State.fillLeaf_pointers ..).trans ((State.orLeaf_pointers ..).trans (State.fillPointers_pointers ..))

@[simp] theorem State.touchAll_pointers (s : State) (u m va n : Nat) (w : Bool) : (s.touchAll u m va n w).pointers = s.pointers := by
  unfold State.touchAll
  induction pieces va n generalizing s with
  | nil => rfl
  | cons p t ih => exact (ih _).trans (State.touch_pointers ..)

@[simp] theorem touchLeaves_pointers (u m : Nat) (s : State) (l : List (Nat × Nat × Bool)) :
    (touchLeaves u m s l).pointers = s.pointers := by
  induction l generalizing s with
  | nil => rfl
  | cons a t ih => exact (ih _).trans (State.touchAll_pointers ..)

@[simp] theorem State.sendMessages_pointers (s : State) (l : List MeshMessage) : (s.sendMessages l).pointers = s.pointers := by
  unfold State.sendMessages
  induction l generalizing s with
  | nil => rfl
  | cons x t ih => exact ih _

/-- Entering the unit moves the request's own pointer by its bytes. -/
theorem State.enter_pointers (s : State) (g h k : Nat) (q : Request) {n o b : Nat} (hq : q.pointer = some (n, o, b)) :
    (s.enter g h k q).1.pointers =
      Tab.set s.pointers (64 * dieOf h + n) ((s.pointer (dieOf h) n + b) % 2 ^ 48) := by
  simp [State.enter, State.advance, hq, State.pointer]

/-- After it has entered, a request that issues leaves the pointers alone. -/
theorem State.issue_pointers (s : State) (g h k : Nat) (q : Request) (hp : s.pointerOff h q = false)
    (hm : s.mixes g q.col q.mix = false) : (s.issue g h k q).pointers = (s.enter g h k q).1.pointers := by
  unfold State.issue
  simp only [hp, hm, Bool.false_eq_true, if_false]
  generalize s.enter g h k q = x
  obtain ⟨u, q'⟩ := x
  dsimp only
  rw [State.sendMessages_pointers]
  split
  · exact State.pointers_of_around (State.sendAll_around ..)
  · split <;> rfl

/-- The step that issues a request which may issue. -/
theorem exec_requestIssue {s : State} {h k id g : Nat} {q : Request} (hc : s.cur = .request h k id)
    (hg : (s.slot h k).region = some g) (hq : s.request h k id = some q) (hi : s.mayIssue g h k q = true) :
    exec .requestIssue s = .next (s.issue g h k q) := by
  show execRequestIssue s = _
  simp [execRequestIssue, hc, hg, hq, hi]

/-! ### A purge discards what is staged -/

/-- An activation belongs to its own family. -/
theorem Region.self_mem_family (r : Region) (c : Nat) : c ∈ r.family c := by
  have keeps : ∀ (cols : Tab Colour) (n : Nat) (ps : List (Nat × Nat)) (acc : List Nat), c ∈ acc → c ∈ descend cols n ps acc := by
    intro cols n
    induction n with
    | zero => exact fun _ _ h => h
    | succ n ih =>
      intro ps acc h
      unfold descend
      dsimp only
      split
      · exact h
      · exact ih _ _ (List.mem_append_left _ h)
  exact keeps _ _ _ _ (List.mem_singleton.2 rfl)

theorem Region.self_mem_purgeable {r : Region} {c : Nat} (ha : (Tab.get {} r.cols c).active = true)
    (hc : (Tab.get {} r.cols c).committed = false) {cs : List Nat} (h : c ∈ cs) : c ∈ r.purgeable cs :=
  List.mem_filter.2 ⟨h, by rw [ha, hc]; rfl⟩

theorem mem_insertRising_foldl {c : Nat} {l : List Nat} (h : c ∈ l) : c ∈ l.foldl insertRising [] :=
  (mem_foldl_insertRising l c []).2 (.inl h)

/-- A purge of an activation that is active and has not committed reaches it. -/
theorem Region.self_mem_purged {r : Region} {c : Nat} (ha : (Tab.get {} r.cols c).active = true)
    (hc : (Tab.get {} r.cols c).committed = false) :
    c ∈ r.purgeable (((r.purgeable [c]).flatMap r.family).foldl insertRising []) :=
  Region.self_mem_purgeable ha hc (mem_insertRising_foldl (List.mem_flatMap.2
    ⟨c, Region.self_mem_purgeable ha hc (List.mem_singleton.2 rfl), r.self_mem_family c⟩))

/-- A change of the entries of some keys, at one of those keys: the entry that is listed is changed. -/
theorem Tab.get_map_at {α : Type} (P : α → Prop) (d : α) (hd : P d) (t : Tab α) (cs : List Nat) (f : α → α) (hf : ∀ x, P (f x))
    {i : Nat} (hi : i ∈ cs) : P (Tab.get d (t.map (fun e => if cs.contains e.1 then (e.1, f e.2) else e)) i) := by
  induction t with
  | nil => exact hd
  | cons e t ih =>
    obtain ⟨k, v⟩ := e
    by_cases hk : k = i
    · subst hk
      simpa [Tab.get, hi] using hf v
    · have : (Tab.get d (List.map (fun e => if cs.contains e.1 then (e.1, f e.2) else e) ((k, v) :: t)) i) =
          Tab.get d (t.map (fun e => if cs.contains e.1 then (e.1, f e.2) else e)) i := by
        rw [List.map_cons]
        split <;> simp [Tab.get, hk]
      rw [this]
      exact ih

/-- Nothing is staged: neither flags nor counts. -/
def Colour.Unstaged (c : Colour) : Prop := c.flagsSt = 0 ∧ c.mxcNan = 0 ∧ c.mxcOvf = 0 ∧ c.mxcSat = 0

theorem State.notify_colour (s : State) (g : Nat) (cs : List Nat) (b : Bool) (g' c : Nat) :
    (s.notify g cs b).colour g' c = s.colour g' c := by
  refine congrArg (Tab.get {} · c) (Tab.get_map_keep {} (fun r : Region => r.cols) _ (fun e => ?_) (fun e => ?_) s.regions g') <;>
    dsimp only <;> split <;> rfl

@[simp] theorem State.purge_kernels (s : State) (g : Nat) (cs : List Nat) (a b : Bool) : (s.purge g cs a b).kernels = s.kernels := by
  unfold State.purge
  dsimp only
  split <;> rfl

/-- A purge leaves nothing staged in the activation that it names (R36). -/
theorem State.purge_unstaged {s : State} {g c : Nat} (a b : Bool) (ha : (s.colour g c).active = true)
    (hc : (s.colour g c).committed = false) : ((s.purge g [c] a b).colour g c).Unstaged := by
  have hm := Region.self_mem_purged ha hc
  unfold State.purge
  dsimp only
  rw [if_neg (by simpa [List.isEmpty_iff] using List.ne_nil_of_mem hm), State.notify_colour]
  unfold State.colour State.region
  dsimp only
  rw [Tab.get_set_same]
  exact Tab.get_map_at Colour.Unstaged {} ⟨rfl, rfl, rfl, rfl⟩ _ _ (fun x => x.purged s.nextId) (fun _ => ⟨rfl, rfl, rfl, rfl⟩) hm

/-! ### The end of a commit -/

/-- An activation without damper entries: nothing of it is to be applied. -/
theorem State.applySent_of_none {s : State} {g c : Nat} (h : s.entriesOf g c = []) : s.applySent g c = s := by
  unfold State.applySent
  rw [h]
  rfl

theorem Colour.staged_filter_of_none {x : Colour} (h : x.staged = []) : { x with staged := x.staged.filter Staged.isSpawn } = x := by
  cases x
  subst h
  rfl

/-- An activation with nothing staged has no effects to apply: its colour is written as it was. -/
theorem State.applyEffects_of_none {s : State} {g c : Nat} (h : (s.colour g c).staged = []) :
    s.applyEffects g c = s.setColour g c (s.colour g c) := by
  unfold State.applyEffects
  dsimp only
  rw [h]
  exact congrArg (s.setColour g c) (Colour.staged_filter_of_none h)

theorem State.modRegion_colour (s : State) (g d : Nat) (f : Region → Region) :
    (s.modRegion g f).colour g d = Tab.get {} (f (s.region g)).cols d := by
  simp [State.colour]

theorem State.push_colour (s : State) (l : List Turn) (g d : Nat) : (s.push l).colour g d = s.colour g d := rfl

theorem State.setColour_colour_same (s : State) (g c : Nat) (x : Colour) : (s.setColour g c x).colour g c = x := by
  simp [State.colour, Tab.get_set_same]

theorem State.setColour_colour_other (s : State) (g c : Nat) (x : Colour) {d : Nat} (h : d ≠ c) :
    (s.setColour g c x).colour g d = s.colour g d := by
  simp [State.colour, Tab.get_set_other _ _ _ _ _ h.symm]

theorem State.setColour_self_colour (s : State) (g c d : Nat) : (s.setColour g c (s.colour g c)).colour g d = s.colour g d := by
  by_cases h : d = c
  · subst h
    exact State.setColour_colour_same ..
  · exact State.setColour_colour_other _ _ _ _ h

/-- The phase after the commit point, where everything is applied: the commit ends. -/
theorem State.applyPhase_of_done {s : State} {g c : Nat} (hs : (s.colour g c).staged = []) (he : s.entriesOf g c = [])
    (hq : s.queueWaits g c = false) (hw : s.spawnWaits g c = false) :
    s.applyPhase g c = (s.setColour g c (s.colour g c)).endCommit g c := by
  have hleft : s.writesLeft g c = false := by rw [State.writesLeft, he]; rfl
  have heff : s.effectsWait g c = false := by rw [State.effectsWait, hs]; rfl
  have hq' : (s.setColour g c (s.colour g c)).queueWaits g c = false := hq
  unfold State.applyPhase
  rw [State.applySent_of_none he]
  simp only [hleft, hw, heff, Bool.or_self, Bool.false_eq_true, if_false]
  rw [State.applyEffects_of_none hs]
  simp only [State.setColour_self_colour, hs, hq', Bool.false_eq_true, if_false]

/-- Whether a hold may be released depends on the region's colours only. -/
theorem releaseHold_congr {r r' : Region} (h : ∀ d, Tab.get {} r'.cols d = Tab.get {} r.cols d) (c now : Nat) (x : Hold) :
    releaseHold r' c now x = releaseHold r c now x := by
  unfold releaseHold
  rw [h]

theorem State.orphans_congr {s t : State} {g : Nat} (c : Nat) (hs : t.slots = s.slots) (hc : t.cycle = s.cycle)
    (hi : (t.region g).image = (s.region g).image) (hd : ∀ d, t.colour g d = s.colour g d) : t.orphans g c = s.orphans g c := by
  unfold State.orphans
  simp only [hs, hc, hi, releaseHold_congr hd]

/-- Where nothing was left behind, the returns of an activation leave the kernels alone. -/
theorem State.releaseReturns_of_none {s : State} {g c : Nat} (h : s.orphans g c = []) :
    (s.releaseReturns g c).kernels = s.kernels ∧ (s.releaseReturns g c).mem = s.mem ∧
    ∀ d, (s.releaseReturns g c).colour g d = s.colour g d := by
  unfold State.releaseReturns
  dsimp only
  rw [h, List.foldl_nil]
  refine ⟨rfl, rfl, fun d => ?_⟩
  rw [State.push_colour, State.modRegion_colour]
  rfl

theorem State.freeColour_colour_same (s : State) (g c : Nat) : (s.freeColour g c).colour g c = {} := by
  unfold State.freeColour
  exact (State.modRegion_colour ..).trans (Tab.get_set_same ..)

theorem State.freeColour_colour_other (s : State) (g c : Nat) {d : Nat} (h : d ≠ c) : (s.freeColour g c).colour g d = s.colour g d := by
  unfold State.freeColour
  exact (State.modRegion_colour ..).trans (Tab.get_set_other _ _ _ _ _ h.symm)

/-- What a commit makes of the record of the kernel that holds its region (R36, R38, R64). -/
def Kernel.committed (k : Kernel) (x : Colour) : Kernel :=
  if x.taint then { k.merge x with verdict := 2 } else k.merge x

theorem Kernel.committed_fields (k : Kernel) (x : Colour) :
    (k.committed x).flagsK = k.flagsK ||| x.flagsSt ∧
    (k.committed x).mxcNan = min 0xFFFFFFFF (k.mxcNan + x.mxcNan) ∧ (k.committed x).mxcOvf = min 0xFFFFFFFF (k.mxcOvf + x.mxcOvf) ∧
    (k.committed x).mxcSat = min 0xFFFFFFFF (k.mxcSat + x.mxcSat) ∧
    (k.committed x).verdict = (if x.taint then 2 else k.verdict) := by
  unfold Kernel.committed
  split <;> exact ⟨rfl, rfl, rfl, rfl, rfl⟩

/-- The activations of a region that ends a commit, before the colour is freed. -/
def State.mergedInto (s : State) (g c e : Nat) : State :=
  (s.modKernel e (fun k => k.committed (s.colour g c))).modRegion g
    (fun r => { r with calls := r.calls.map (fun y => if y.col = c then { y with done := true } else y) })

theorem State.mergedInto_colour (s : State) (g c e d : Nat) : (s.mergedInto g c e).colour g d = s.colour g d :=
  State.modRegion_colour ..

/-- The end of a commit that left neither damper entries nor returns behind. -/
theorem State.endCommit_of_done {s : State} {g c e : Nat} (hk : (s.region g).kernel = some e) (he : s.entriesOf g c = []) :
    s.endCommit g c = ((s.mergedInto g c e).releaseReturns g c).freeColour g c := by
  have hlen : ((s.mergedInto g c e).entriesOf g c).length = 0 := congrArg List.length he
  have horph : (s.mergedInto g c e).orphanWrites g c = s.mergedInto g c e := by
    unfold State.orphanWrites
    rw [hlen]
    rfl
  unfold State.endCommit State.modHolder
  rw [hk]
  exact congrArg (fun u => State.freeColour (State.releaseReturns u g c) g c) horph

theorem State.endCommit_after {s : State} {g c e : Nat} (hk : (s.region g).kernel = some e) (he : s.entriesOf g c = [])
    (ho : s.orphans g c = []) :
    (s.endCommit g c).kernel e = (s.kernel e).committed (s.colour g c) ∧ (s.endCommit g c).colour g c = {} ∧
    (∀ d, d ≠ c → (s.endCommit g c).colour g d = s.colour g d) ∧ (s.endCommit g c).mem = s.mem := by
  have hnone : (s.mergedInto g c e).orphans g c = [] := by
    rw [State.orphans_congr (s := s) (t := s.mergedInto g c e) c rfl rfl ?_ (State.mergedInto_colour s g c e), ho]
    simp [State.mergedInto]
  obtain ⟨hkernels, hmem, hcolour⟩ := State.releaseReturns_of_none hnone
  rw [State.endCommit_of_done hk he]
  refine ⟨?_, State.freeColour_colour_same .., fun d hd => ?_, hmem⟩
  · refine (congrArg (Tab.get {} · e) hkernels).trans ?_
    exact Tab.get_set_same ..
  · rw [State.freeColour_colour_other _ _ _ hd, hcolour, State.mergedInto_colour]

/-- The step that ends a commit. -/
theorem exec_activationCommit {s : State} {g c : Nat} (hc : s.cur = .colour g c) (hm : (s.colour g c).committed = true) :
    exec .activationCommit s = .next (s.applyPhase g c) := by
  show execActivationCommit s = _
  simp [execActivationCommit, hc, hm]

/-- Settles O45: the end of a commit by `State.endCommit_after`, the purge by `State.purge_unstaged`, the pointers by
`State.issue_pointers` and the registers by `State.statusReg_applyRegister`. -/
theorem commitsMergeAndRegistersChange : Obligations.CommitsMergeAndRegistersChange := by
  unfold Obligations.CommitsMergeAndRegistersChange
  refine ⟨?_, ?_, ?_, ?_⟩
  · intro s g c e hk hm hs hc he ho hq hw
    let u := s.setColour g c (s.colour g c)
    have hu : ∀ d, u.colour g d = s.colour g d := s.setColour_self_colour g c
    have hku : (u.region g).kernel = some e := by simpa [u] using hk
    have hou : u.orphans g c = [] := by
      rw [State.orphans_congr (s := s) (t := u) c rfl rfl (by simp [u]) hu, ho]
    obtain ⟨hkern, hfree, hother, hmem⟩ := State.endCommit_after hku (show u.entriesOf g c = [] from he) hou
    obtain ⟨hflags, hnan, hovf, hsat, hverdict⟩ := Kernel.committed_fields (s.kernel e) (s.colour g c)
    rw [hu] at hkern
    refine ⟨u.endCommit g c, ?_, ?_⟩
    · rw [exec_activationCommit hc hm, State.applyPhase_of_done hs he hq hw]
    · rw [hkern, hfree]
      exact ⟨hflags, hnan, hovf, hsat, hverdict, rfl, fun d hd => by rw [hother d hd, hu], hmem⟩
  · intro s g c a b ha hc
    obtain ⟨hflags, hnan, hovf, hsat⟩ := State.purge_unstaged a b ha hc
    refine ⟨hflags, hnan, hovf, hsat, fun e => ?_⟩
    unfold State.kernel
    rw [State.purge_kernels]
  · intro s t h k id g n o b q hc hg hq hi hptr ho hm hn hstep
    rw [exec_requestIssue hc hg hq hi] at hstep
    obtain rfl : s.issue g h k q = t := Host.Outcome.next.inj hstep
    have hoff : s.pointerOff h q = false := by simp [State.pointerOff, hptr, ho]
    have hp := (State.issue_pointers s g h k q hoff hm).trans (State.enter_pointers s g h k q hptr)
    rw [ho] at hp
    unfold State.pointer
    rw [hp]
    refine ⟨Tab.get_set_same .., fun d m hm hne => Tab.get_set_other _ _ _ _ _ ?_⟩
    omega
  · intro s g c h k r v d
    obtain ⟨hctx, hmem, hpoison, hkernels⟩ := State.applyRegister_frame s g h r v
    obtain ⟨h04, h0C, h12, h16, h17, hptr⟩ := State.statusReg_applyRegister s g c h r v d
    exact ⟨h04, h0C, h12, h16, h17, hptr, hctx, hmem, hpoison, hkernels⟩

end Sys2Proof.Machine
end

section
/-! Floating arithmetic, choices, comparisons and reductions (R113, R114, R121, R122). -/

namespace Sys2Proof.Machine

/-! ### What the shared bodies emit -/

/-- A rounding instruction whose elements are `op` of the operands' values emits `Fire.rounded`. -/
theorem rounding_emits (lat : Nat) (op : Nat → Val → Val → Val → Exact × BitVec 5) (f : Fire) (s : State) :
    rounding lat (fun fmt m d a b c => roundWith fmt m d f.sat (op m (val fmt a) (val fmt b) (val fmt c))) f s =
      ((f.rounded s op).1, .emit lat (f.rounded s op).2) := rfl

/-- An instruction that takes no draw emits `Fire.chosen`. -/
theorem exactly_emits (lat : Nat) (op : Nat → Nat → Nat → Nat × BitVec 5) (f : Fire) (s : State) :
    exactly lat op f s = (s, .emit lat (f.chosen op)) := rfl

/-- A comparison reads both lanes of a pair before it compares or raises: `Fire.compared`. -/
theorem fcompare_emits (anyNan : Bool) (op : Val → Val → Bool) (f : Fire) (s : State) :
    fcompare anyNan op f s = (s, .emit 1 (f.compared op (cmpFlags anyNan))) := by
  simp [fcompare, Fire.compared, val, List.map_map, List.foldl_map, Function.comp_def]

/-- NV of an ordered comparison: any NaN. -/
theorem cmpFlags_true : cmpFlags true = fun a b => if a.isNan || b.isNan then flagNV else 0 := rfl

/-- NV of an unordered comparison: a signalling NaN. -/
theorem cmpFlags_false : cmpFlags false = fun a b => nanFlags [a, b] := rfl

/-! ### The scale mark (R121) -/

/-- A rounded token carries the mark of its firing. -/
theorem rounded_sc (f : Fire) (s : State) (op : Nat → Val → Val → Val → Exact × BitVec 5) :
    (f.rounded s op).2.sc = f.scOut := rfl

theorem scOut_of_scl {f : Fire} (ho : f.opc = 0x0E8) : f.scOut = true := by
  simp [Fire.scOut, ho]

/-- USCL clears the mark unless SCL = 3 sets it (log 85). -/
theorem scOut_of_uscl {f : Fire} (ho : f.opc = 0x0E9) : f.scOut = (f.nrec.scl == 3) := by
  rw [Bool.eq_iff_iff]
  simp [Fire.scOut, ho]

/-- A token whose mark already is `b` is the token with the mark `b`. -/
theorem Token.with_sc_eq {t : Token} {b : Bool} (h : t.sc = b) : { t with sc := b } = t := by
  subst h; rfl

/-! ### Instructions by their shared body -/

/-- An instruction whose meaning is `rounding` of `op`. -/
theorem givesFrom_rounded {i : Rec → Instr} {o lat : Nat} (op : Nat → Val → Val → Val → Exact × BitVec 5)
    (h : ∀ r s, exec (i r) s = fireNode o r {} (fun f => rounding lat (fun fmt m d a b c =>
      roundWith fmt m d f.sat (op m (val fmt a) (val fmt b) (val fmt c))) f) s) :
    GivesFrom i o {} lat (fun f s => f.rounded s op) :=
  givesFrom_of h (fun f s _ => rounding_emits lat op f s)

/-- The same where the mark that the opcode gives is stated. -/
theorem givesFrom_rounded_marked {i : Rec → Instr} {o lat : Nat} (op : Nat → Val → Val → Val → Exact × BitVec 5)
    (mark : Fire → Bool) (hm : ∀ f : Fire, f.opc = o → f.scOut = mark f)
    (h : ∀ r s, exec (i r) s = fireNode o r {} (fun f => rounding lat (fun fmt m d a b c =>
      roundWith fmt m d f.sat (op m (val fmt a) (val fmt b) (val fmt c))) f) s) :
    GivesFrom i o {} lat (fun f s => ((f.rounded s op).1, { (f.rounded s op).2 with sc := mark f })) := by
  refine givesFrom_of h (fun f s ho => ?_)
  have hsc : (f.rounded s op).2.sc = mark f := (rounded_sc f s op).trans (hm f ho)
  rw [rounding_emits, Token.with_sc_eq hsc]

/-- An instruction whose meaning is `exactly` of an `op` that may read the record's bits. -/
theorem gives_chosen {i : Rec → Instr} {o lat : Nat} (op : Fire → Nat → Nat → Nat → Nat × BitVec 5)
    (h : ∀ r s, exec (i r) s = fireNode o r {} (fun f => exactly lat (op f) f) s) :
    Gives i o {} lat (fun f _ => f.chosen (op f)) :=
  gives_of h (fun f s _ => exactly_emits lat (op f) f s)

/-- An instruction whose meaning is `fcompare`. -/
theorem gives_compared {i : Rec → Instr} {o : Nat} (anyNan : Bool) (op : Val → Val → Bool)
    (h : ∀ r s, exec (i r) s = fireNode o r {} (fcompare anyNan op) s) :
    Gives i o {} 1 (fun f _ => f.compared op (cmpFlags anyNan)) :=
  gives_of h (fun f s _ => fcompare_emits anyNan op f s)

/-! ### The reductions (R122) -/

/-- FRMAX and FRMIN: the choice over the elements in order. -/
theorem gives_picked {i : Rec → Instr} {o : Nat} (wantMax : Bool)
    (h : ∀ r s, exec (i r) s = fireNode o r {} (fun f s => (s, floatReduced f 4
      (saturate r.fmt.toNat f.sat (pickInOrder r.fmt.toNat wantMax (elemsOf r.fmt.toNat f.ta.lanes))))) s) :
    Gives i o {} 4 (fun f _ =>
      let r := saturate f.nrec.fmt.toNat (f.nrec.sat == 1) (pickInOrder f.nrec.fmt.toNat wantMax (elemsOf f.nrec.fmt.toNat f.ta.lanes))
      f.token f.nrec.fmt.toNat [BitVec.ofNat 32 r.1] r.2 0) :=
  gives_of h (fun _ _ _ => rfl)

/-- FRSUM: FP32 sums in order, one rounding to the output format at the end. -/
theorem frsum_gives : GivesFrom .frsum 0x0F0 {} 8 (fun f s =>
    let fmt := f.nrec.fmt.toNat
    let xs := elemsOf fmt f.ta.lanes
    let d := f.draws s 1
    let t := sumInOrder fmt (decodeFloat fmt (xs.headD 0)) xs.tail
    let o := roundWith fmt (f.mode s) (d.1.headD 0) (f.nrec.sat == 1) t.1.exact
    (d.2, f.token fmt [BitVec.ofNat 32 o.1] (o.2 ||| t.2) 0)) :=
  givesFrom_of (fun _ _ => rfl) (fun _ _ _ => rfl)

/-- FCLASS: a one-hot class in 16 bits for every element of a lane. -/
theorem fclass_gives : Gives .fclass 0x0CD {} 1 (fun f _ => f.token 1 (f.ta.lanes.map (fun w => BitVec.ofNat 32
    ((laneElems f.nrec.fmt.toNat w).foldr (fun x a => classOf f.nrec.fmt.toNat x + 65536 * a) 0))) 0 0) :=
  gives_of (fun _ _ => rfl) (fun _ _ _ => rfl)

/-! ### O29 -/

/-- Settles O29: each clause is the equation of its instruction's shared body (a rounding, a choice, a comparison, a
reduction), and the mark of SCL and USCL is that of their opcodes. -/
theorem floatArithmeticEmits : Obligations.FloatArithmeticEmits := by
  unfold Obligations.FloatArithmeticEmits
  refine ⟨?fadd, ?fsub, ?fmul, ?fma, ?fnma, ?fdiv, ?fsqrt, ?scl, ?uscl,
    ?fmin, ?fmax, ?fabs, ?fneg, ?fcmpeq, ?fcmplt, ?fcmple, ?fcmpun, fclass_gives, ?frmax, ?frmin, frsum_gives⟩
  case fadd => exact givesFrom_rounded (fun m a b _ => addVal m a b) (fun _ _ => rfl)
  case fsub => exact givesFrom_rounded (fun m a b _ => addVal m a b.negate) (fun _ _ => rfl)
  case fmul => exact givesFrom_rounded (fun _ a b _ => mulVal a b) (fun _ _ => rfl)
  case fma => exact givesFrom_rounded (fun m a b c => fmaVal m a b c) (fun _ _ => rfl)
  case fnma => exact givesFrom_rounded (fun m a b c => fmaVal m a.negate b c) (fun _ _ => rfl)
  case fdiv => exact givesFrom_rounded (fun _ a b _ => divVal a b) (fun _ _ => rfl)
  case fsqrt => exact givesFrom_rounded (fun _ a _ _ => sqrtVal a) (fun _ _ => rfl)
  case scl => exact givesFrom_rounded_marked (fun _ a b _ => mulVal a b) (fun _ => true) (fun _ => scOut_of_scl) (fun _ _ => rfl)
  case uscl =>
    exact givesFrom_rounded_marked (fun _ a b _ => mulVal a b) (fun f => f.nrec.scl == 3) (fun _ => scOut_of_uscl) (fun _ _ => rfl)
  case fmin => exact gives_chosen (fun f fmt a b => saturate fmt f.sat (minMax fmt false a b)) (fun _ _ => rfl)
  case fmax => exact gives_chosen (fun f fmt a b => saturate fmt f.sat (minMax fmt true a b)) (fun _ _ => rfl)
  case fabs =>
    exact gives_chosen (fun f fmt a _ => saturate fmt f.sat (signOp (fun b x => x % b) fmt a)) (fun _ _ => rfl)
  case fneg =>
    exact gives_chosen (fun f fmt a _ =>
      saturate fmt f.sat (signOp (fun b x => if x ≥ b then x - b else x + b) fmt a)) (fun _ _ => rfl)
  case fcmpeq => exact gives_compared false eqVal (fun _ _ => rfl)
  case fcmplt => exact gives_compared true ltVal (fun _ _ => rfl)
  case fcmple => exact gives_compared true (fun a b => ltVal a b || eqVal a b) (fun _ _ => rfl)
  case fcmpun => exact gives_compared false (fun a b => a.isNan || b.isNan) (fun _ _ => rfl)
  case frmax => exact gives_picked true (fun _ _ => rfl)
  case frmin => exact gives_picked false (fun _ _ => rfl)

end Sys2Proof.Machine
end

section
/-! The life of a token between two firings (R33, R54, R68, R71, R81, R163, R418). -/

namespace Sys2Proof.Machine

/-! ### Arrival (R33) -/

/-- A flight that has come is taken in by `State.arrive`. -/
theorem exec_tokenArrival_of_flight {s : State} {id : Nat} {f : Flight} (hc : s.cur = .flight id)
    (hf : Tab.find s.flights id = some f) (ht : f.arrive ≤ s.cycle) :
    exec .tokenArrival s = .next (s.arrive id f) := by
  show execTokenArrival s = _
  simp only [execTokenArrival, hc, hf, ht, if_true]

/-- A whole token of a live activation that meets no fault enters its node. -/
theorem arrive_live_whole {s : State} {id : Nat} {f : Flight} (hl : (s.colour f.region f.tok.col).st = .live)
    (hw : f.corrupt = false) (hm : f.tok.mark = .data) (hn : s.arrivalFault f.region f = none) :
    s.arrive id f = s.enterNode id f.region f := by
  simp [State.arrive, State.absorbs, hl, hw, hm, hn]

/-- A corrupt token of a live activation purges it. -/
theorem arrive_live_corrupt {s : State} {id : Nat} {f : Flight} (hl : (s.colour f.region f.tok.col).st = .live)
    (hw : f.corrupt = true) : s.arrive id f = (s.dropFlight id).purgeCorrected f.region [f.tok.col] := by
  simp [State.arrive, hl, hw]

theorem tokenArrival_enters (id : Nat) (f : Flight) : Does .tokenArrival (.flight id)
    (fun s => Tab.find s.flights id = some f ∧ f.arrive ≤ s.cycle ∧ (s.colour f.region f.tok.col).st = .live ∧
      f.corrupt = false ∧ f.tok.mark = .data ∧ s.arrivalFault f.region f = none)
    (fun s => s.enterNode id f.region f) := by
  rintro s hc ⟨hf, ht, hl, hw, hm, hn⟩
  rw [exec_tokenArrival_of_flight hc hf ht, arrive_live_whole hl hw hm hn]

theorem tokenArrival_purges (id : Nat) (f : Flight) : Does .tokenArrival (.flight id)
    (fun s => Tab.find s.flights id = some f ∧ f.arrive ≤ s.cycle ∧ (s.colour f.region f.tok.col).st = .live ∧ f.corrupt = true)
    (fun s => (s.dropFlight id).purgeCorrected f.region [f.tok.col]) := by
  rintro s hc ⟨hf, ht, hl, hw⟩
  rw [exec_tokenArrival_of_flight hc hf ht, arrive_live_corrupt hl hw]

/-! ### Mesh messages (R54) -/

/-- A malformed message is dropped and counted (log 36). -/
theorem meshMessageReceive_bad (id : Nat) (m : MeshMessage) : Does .meshMessageReceive (.flight id)
    (fun s => Tab.find s.messages id = some m ∧ m.arrive ≤ s.cycle ∧ m.bad = true)
    (fun s => { s with messages := Tab.drop s.messages id, meshErrors := s.meshErrors + 1 }) := by
  rintro s hc ⟨hm, ht, hb⟩
  show execMeshMessageReceive s = _
  unfold execMeshMessageReceive
  split
  next i hi =>
    obtain rfl : id = i := by simpa using hc.symm.trans hi
    simp only [hm, Nat.not_lt.mpr ht, hb, if_true, if_false]
  next hne => exact absurd hc (hne id)

/-- A token message is delivered to the region that is found for it. -/
theorem meshMessageReceive_token (id : Nat) (m : MeshMessage) (t : Token) (g : Nat) : Does .meshMessageReceive (.flight id)
    (fun s => Tab.find s.messages id = some m ∧ m.arrive ≤ s.cycle ∧ m.bad = false ∧ m.token = some t ∧
      (if m.cls = 5 then m.source else s.homeOf (hearthAt m.ddie m.dx m.dy) m.mctx) = some g)
    (fun s => ({ s with messages := Tab.drop s.messages id } : State).deliver id g (hearthAt m.ddie m.dx m.dy) t m.expect) := by
  rintro s hc ⟨hm, ht, hb, htok, hg⟩
  have hg' : (if m.cls = 5 then m.source else
      ({ s with messages := Tab.drop s.messages id } : State).homeOf (hearthAt m.ddie m.dx m.dy) m.mctx) = some g := hg
  show execMeshMessageReceive s = _
  unfold execMeshMessageReceive
  split
  next i hi =>
    obtain rfl : id = i := by simpa using hc.symm.trans hi
    simp only [hm, Nat.not_lt.mpr ht, hb, htok, hg', Bool.false_eq_true, if_false]
  next hne => exact absurd hc (hne id)

/-! ### Frame slots (R68) -/

/-- A slot keeps its region when one of its nodes changes. -/
theorem State.modNode_region (s : State) (h k n : Nat) (fn : NodeState → NodeState) :
    ((s.modNode h k n fn).slot h k).region = (s.slot h k).region := by
  simp [SlotState.setNode]

/-- A token that finds its frame slot is taken by `State.enterSlot`. -/
theorem exec_frameSlotEntry_of_slotEntry {s : State} {h k n p : Nat} {f : FrameSlot} {t : Token}
    (hc : s.cur = .port h k n p) (he : s.slotEntry h k n p = some (f, t)) :
    exec .frameSlotEntry s = .next (s.enterSlot h k n p f t) := by
  show execFrameSlotEntry s = _
  simp only [execFrameSlotEntry, hc, he]

theorem frameSlotEntry_enters (h k n p : Nat) (f : FrameSlot) (t : Token) : Does .frameSlotEntry (.port h k n p)
    (fun s => s.slotEntry h k n p = some (f, t) ∧ t.res = tokenResidue t.fmt t.lanes)
    (fun s => (s.modNode h k n (fun x => x.pop p s.cycle)).modSlot h k
      (fun x => { x with frames := putSlot x.frames (f.setPort p (some { t with since := s.cycle })) })) := by
  rintro s hc ⟨he, hr⟩
  rw [exec_frameSlotEntry_of_slotEntry hc he, State.enterSlot, if_pos hr]
  rfl

/-- Where the residue does not agree on entry, the activation is purged. -/
theorem frameSlotEntry_purges (h k n p : Nat) (f : FrameSlot) (t : Token) (g : Nat) : Does .frameSlotEntry (.port h k n p)
    (fun s => s.slotEntry h k n p = some (f, t) ∧ t.res ≠ tokenResidue t.fmt t.lanes ∧ (s.slot h k).region = some g)
    (fun s => (s.modNode h k n (fun x => x.pop p s.cycle)).purgeCorrected g [t.col]) := by
  rintro s hc ⟨he, hr, hg⟩
  rw [exec_frameSlotEntry_of_slotEntry hc he, State.enterSlot, if_neg hr]
  have hreg : ((s.modNode h k n (fun x => x.pop p s.cycle)).slot h k).region = some g := (State.modNode_region s h k n _).trans hg
  simp only [hreg]

/-! ### Deferred tokens, delays and transposed blocks (R418, R81, R163) -/

theorem deferredTokenSend_sends (h k n g : Nat) (x : Hold) (rest : List Hold) : Does .deferredTokenSend (.node h k n)
    (fun s => (s.slot h k).region = some g ∧ firstReady s.cycle (s.node h k n).holds = some (x, rest) ∧ s.firing g = true ∧
      s.roomAll (s.bothTargets g h k n x.nrec) = true)
    (fun s =>
      let u := s.modNode h k n (fun v => { v with holds := rest })
      (if x.kind = .result then u.modSlot h k (fun v => { v with contraction := none }) else u).sendAll g h k n x.nrec true
        s.cycle x.tok) := by
  rintro s hc ⟨hg, hx, hf, hr⟩
  show execDeferredTokenSend s = _
  simp only [execDeferredTokenSend, hc, hg, hx, hf, hr, Bool.and_self, if_true, State.sendDeferred, beq_iff_eq]
  split <;> rfl

theorem delayExpiry_readies (h k n : Nat) : Does .delayExpiry (.node h k n)
    (fun s => ∃ e ∈ (s.node h k n).holds, e.kind = .delay ∧ e.ready = false ∧ e.due ≤ s.cycle)
    (fun s => (s.modNode h k n (fun x => { x with holds := x.holds.map (fun e =>
      if e.kind = .delay ∧ e.due ≤ s.cycle then { e with ready := true } else e) })).push
        [.event .deferredTokenSend (.node h k n)]) := by
  rintro s hc ⟨e, he, hk, hr, hd⟩
  have hany : (s.node h k n).holds.any (fun e => e.kind == .delay && !e.ready && decide (e.due ≤ s.cycle)) = true :=
    List.any_eq_true.mpr ⟨e, he, by simp [hk, hr, hd]⟩
  show execDelayExpiry s = _
  simp only [execDelayExpiry, hc, hany, if_true, NodeState.expire, Bool.and_eq_true, beq_iff_eq, decide_eq_true_eq]

theorem txprOutput_sends (h k g : Nat) (t : Transpose) (x : Token) (more : List Token) : Does .txprOutput (.slot h k)
    (fun s => (s.slot h k).region = some g ∧ (s.slot h k).transpose = some t ∧ t.out = x :: more ∧ s.blockDue h k = true)
    (fun s => (s.modSlot h k (fun v => { v with transpose := (match more with
        | [] => none
        | _ => some { t with out := more, due := s.cycle + 1 }) })).sendAll g h k t.node t.nrec true s.cycle x) := by
  rintro s hc ⟨hg, ht, ho, hd⟩
  show execTxprOutput s = _
  simp only [execTxprOutput, hc, hd, hg, ht, ho, Bool.not_true, Bool.false_eq_true, if_false]
  cases more <;> rfl

/-! ### Waves (R71) -/

theorem exec_waveRetire_of_colour {s : State} {g c : Nat} (hc : s.cur = .colour g c) :
    exec .waveRetire s = .next (s.retireWave g c) := by
  show execWaveRetire s = _
  simp only [execWaveRetire, hc]

/-- The last wave of a loop: nothing comes back, and the loop ends. -/
theorem waveRetire_ends (g c : Nat) : Does .waveRetire (.colour g c)
    (fun s => (s.colour g c).loop = true ∧ (s.colour g c).vm1 + 1 ≤ (s.colour g c).vcnt ∧ (s.colour g c).back = false)
    (fun s =>
      let x := s.colour g c
      ((s.dropWaves g [c]).dropChains g c (fun w => w == x.lwave)).setColour g c
        { x with loop := false, owave := x.lwave, nwave := x.lwave, vcnt := 0, back := false }) := by
  rintro s hc ⟨hl, hv, hb⟩
  rw [exec_waveRetire_of_colour hc]
  simp [State.retireWave, hl, Nat.not_lt.mpr hv, hb]

/-- A wave before the last: the next one takes over the tokens that already came for it. -/
theorem waveRetire_advances (g c : Nat) : Does .waveRetire (.colour g c)
    (fun s => (s.colour g c).loop = true ∧ (s.colour g c).vm1 + 1 ≤ (s.colour g c).vcnt ∧ (s.colour g c).back = true)
    (fun s =>
      let x := s.colour g c
      let w := (x.owave + 1) % 256
      let came := s.slots.foldl (fun a e => if e.2.region == some g then
        e.2.waves.foldl (fun a y => if y.col == c && y.wave == w then (a.1 + y.cnt, a.2 || y.bk) else a) a else a) (0, false)
      let u := ((s.takeWave g c w).dropChains g c (fun v => v != (w + 254) % 256 || v == x.lwave)).setColour g c
        { x with owave := w, vcnt := came.1, back := came.2 }
      if x.vm1 + 1 ≤ came.1 then u.push [.event .waveRetire (.colour g c)] else u) := by
  rintro s hc ⟨hl, hv, hb⟩
  rw [exec_waveRetire_of_colour hc]
  simp only [State.retireWave, State.bufferedWaves, hl, Nat.not_lt.mpr hv, hb, Bool.not_true, Bool.false_or, decide_false,
    Bool.false_eq_true, if_false]

/-! ### O42 -/

/-- Settles O42: each step, at its place and under its condition, takes the one branch of its meaning that the clause names. -/
theorem tokensMoveOn : Obligations.TokensMoveOn :=
  ⟨tokenArrival_enters, tokenArrival_purges, meshMessageReceive_bad, meshMessageReceive_token, frameSlotEntry_enters,
    frameSlotEntry_purges, deferredTokenSend_sends, delayExpiry_readies, txprOutput_sends, waveRetire_ends, waveRetire_advances⟩

end Sys2Proof.Machine
end

section
/-! SUPPORT. O1: a node record and its instruction (R39, R55). -/

namespace Sys2Proof

/-- What a look-up answers is listed under its key. -/
theorem lookupOp_mem {α : Type} {l : List (Nat × α)} {k : Nat} {v : α} (h : lookupOp l k = some v) : (k, v) ∈ l := by
  induction l with
  | nil => cases h
  | cons e l ih =>
    obtain ⟨k', v'⟩ := e
    simp only [lookupOp] at h
    split at h
    · rename_i hk
      subst hk
      cases h
      exact List.mem_cons_self
    · exact List.mem_cons_of_mem _ (ih h)

/-! ### The fields of a record -/

theorem decodeDest_encodeDest (d : Dest) : decodeDest (encodeDest d) = d := by
  unfold decodeDest encodeDest
  simp (disch := omega) only [BitVec.extractLsb'_append_eq_of_le, BitVec.extractLsb'_append_eq_of_add_le, Nat.reduceSub]
  simp

theorem encodeDest_decodeDest (w : BitVec 11) : encodeDest (decodeDest w) = w := by
  unfold decodeDest encodeDest
  simp (disch := omega) only [BitVec.extractLsb'_append_extractLsb'_eq_extractLsb']
  exact BitVec.extractLsb'_eq_self

theorem decodeFields_encodeRecord (o : Nat) (r : Rec) : decodeFields (encodeRecord o r) = r := by
  unfold decodeFields encodeRecord
  simp (disch := omega) only [BitVec.extractLsb'_append_eq_of_le, BitVec.extractLsb'_append_eq_of_add_le, Nat.reduceSub]
  simp [decodeDest_encodeDest]

theorem recordOpc_encodeRecord (o : Nat) (r : Rec) (h : o < 1024) : recordOpc (encodeRecord o r) = o := by
  unfold recordOpc encodeRecord
  simp (disch := omega) only [BitVec.extractLsb'_append_eq_of_le, Nat.reduceSub]
  simp [Nat.mod_eq_of_lt h]

theorem encodeRecord_decodeFields (w : BitVec 96) : encodeRecord (recordOpc w) (decodeFields w) = w := by
  unfold decodeFields encodeRecord recordOpc
  simp only [encodeDest_decodeDest, BitVec.ofNat_toNat, BitVec.setWidth_eq]
  simp (disch := omega) only [BitVec.extractLsb'_append_extractLsb'_eq_extractLsb']
  exact BitVec.extractLsb'_eq_self

/-! ### The opcode table -/

theorem opTable_lt : ∀ e ∈ opTable, e.1 < 1024 := by
  simp only [opTable, List.forall_mem_append]
  decide

/-- Every entry of the opcode table is a constructor whose record has its opcode. -/
theorem opTable_record : ∀ e ∈ opTable, ∀ r, (e.2 r).record = some (e.1, r) := by
  simp only [opTable, List.forall_mem_append]
  simp only [controlOps, arithOps, logicOps, compareOps, indexOps, reduceOps, floatOps, specialOps, convertOps, scalingOps,
    floatReduceOps, tensorOps, contractOps, loadOps, atomicOps, updateOps, fenceOps, queueOps, regionOps, List.forall_mem_cons,
    List.not_mem_nil, false_implies, implies_true, and_true]
  repeat' apply And.intro
  all_goals exact fun _ => rfl

theorem record_of_lookupOp {o : Nat} {f : Rec → Instr} (h : lookupOp opTable o = some f) (r : Rec) :
    (f r).record = some (o, r) := opTable_record _ (lookupOp_mem h) r

/-- The opcode table lists the constructor of every node instruction but those of a node's later emissions. -/
theorem lookupOp_of_record {i : Instr} {o : Nat} {r : Rec} (h : i.record = some (o, r)) (h1 : i ≠ .rangeEmission r)
    (h2 : i ≠ .agenEmission r) (h3 : i ≠ .markMarkerEmission r) : (lookupOp opTable o).map (fun f => f r) = some i := by
  cases i with
  | rangeEmission => cases h; contradiction
  | agenEmission => cases h; contradiction
  | markMarkerEmission => cases h; contradiction
  | _ => cases h <;> rfl

/-! ### O1 -/

/-- Settles O1: both ways by `opTable`, which lists for each opcode the constructor whose record has it, and by the fields, which
stand side by side in the record. -/
theorem recordsRoundTrip : Obligations.RecordsRoundTrip := by
  refine ⟨fun i o r h h1 h2 h3 => ?_, fun w i h => ?_⟩
  · have hi := lookupOp_of_record h h1 h2 h3
    obtain ⟨f, hf, -⟩ := Option.map_eq_some_iff.mp hi
    rw [decodeRecord, recordOpc_encodeRecord o r (opTable_lt _ (lookupOp_mem hf)), decodeFields_encodeRecord, hi]
  · obtain ⟨f, hf, rfl⟩ := Option.map_eq_some_iff.mp h
    exact ⟨_, _, record_of_lookupOp hf _, encodeRecord_decodeFields w⟩

end Sys2Proof
end

section
/-! SUPPORT. O2: the engine command entry with the body of each KIND (R272), and the Viroft submission (R364). -/

namespace Sys2Proof

open BitVec (extractLsb'_append_eq_of_le extractLsb'_append_eq_of_add_le)

/-! ### Bodies

A body without a stray byte is read back as it was packed, and one whose stray bytes are zero is packed as it was read. -/

theorem unpackCopy_packCopy (b : XferBody) (hs : b.stray = false) (hp : b.pat = 0) : unpackCopy (packCopy b) = b := by
  obtain ⟨src, dst, len, wpc, pat, stray⟩ := b
  cases hs; cases hp
  simp (disch := omega) only [unpackCopy, packCopy, extractLsb'_append_eq_of_le, extractLsb'_append_eq_of_add_le, Nat.reduceSub]
  simp

theorem packCopy_unpackCopy (w : BitVec 320) (h : (unpackCopy w).stray = false) : packCopy (unpackCopy w) = w :=
  bne_eq_false_iff_eq.mp h

theorem unpackFill_packFill (b : XferBody) (hs : b.stray = false) (hp : b.src = 0) : unpackFill (packFill b) = b := by
  obtain ⟨src, dst, len, wpc, pat, stray⟩ := b
  cases hs; cases hp
  simp (disch := omega) only [unpackFill, packFill, extractLsb'_append_eq_of_le, extractLsb'_append_eq_of_add_le, Nat.reduceSub]
  simp

theorem packFill_unpackFill (w : BitVec 320) (h : (unpackFill w).stray = false) : packFill (unpackFill w) = w :=
  bne_eq_false_iff_eq.mp h

theorem unpackCopyt_packCopyt (b : TensorBody) (hs : b.stray = false) (hp : b.pcode = 0) : unpackCopyt (packCopyt b) = b := by
  obtain ⟨stid, dtid, pcode, stray⟩ := b
  cases hs; cases hp
  simp (disch := omega) only [unpackCopyt, packCopyt, extractLsb'_append_eq_of_le, extractLsb'_append_eq_of_add_le, Nat.reduceSub]
  simp

theorem packCopyt_unpackCopyt (w : BitVec 320) (h : (unpackCopyt w).stray = false) : packCopyt (unpackCopyt w) = w :=
  bne_eq_false_iff_eq.mp h

theorem unpackPerm_packPerm (b : TensorBody) (hs : b.stray = false) : unpackPerm (packPerm b) = b := by
  obtain ⟨stid, dtid, pcode, stray⟩ := b
  cases hs
  simp (disch := omega) only [unpackPerm, packPerm, extractLsb'_append_eq_of_le, extractLsb'_append_eq_of_add_le, Nat.reduceSub]
  simp

theorem packPerm_unpackPerm (w : BitVec 320) (h : (unpackPerm w).stray = false) : packPerm (unpackPerm w) = w :=
  bne_eq_false_iff_eq.mp h

theorem unpackRows_packRows (b : RowsBody) (hs : b.stray = false) : unpackRows (packRows b) = b := by
  obtain ⟨src, dst, idx, rsz, nidx, nrows, rstr, stray⟩ := b
  cases hs
  simp (disch := omega) only [unpackRows, packRows, extractLsb'_append_eq_of_le, extractLsb'_append_eq_of_add_le, Nat.reduceSub]
  simp

theorem packRows_unpackRows (w : BitVec 320) (h : (unpackRows w).stray = false) : packRows (unpackRows w) = w :=
  bne_eq_false_iff_eq.mp h

theorem unpackCopyr_packCopyr (b : CopyrBody) (hs : b.stray = false) : unpackCopyr (packCopyr b) = b := by
  obtain ⟨sd, src, srcv, dpos, spos, nrow, stray⟩ := b
  cases hs
  simp (disch := omega) only [unpackCopyr, packCopyr, extractLsb'_append_eq_of_le, extractLsb'_append_eq_of_add_le, Nat.reduceSub]
  simp

theorem packCopyr_unpackCopyr (w : BitVec 320) (h : (unpackCopyr w).stray = false) : packCopyr (unpackCopyr w) = w :=
  bne_eq_false_iff_eq.mp h

theorem unpackPatch_packPatch (b : PatchBody) (hs : b.stray = false) : unpackPatch (packPatch b) = b := by
  obtain ⟨sd, first, last, delta, rot, moved, stale, stray⟩ := b
  cases hs
  simp (disch := omega) only [unpackPatch, packPatch, extractLsb'_append_eq_of_le, extractLsb'_append_eq_of_add_le, Nat.reduceSub]
  simp

theorem packPatch_unpackPatch (w : BitVec 320) (h : (unpackPatch w).stray = false) : packPatch (unpackPatch w) = w :=
  bne_eq_false_iff_eq.mp h

theorem unpackPage_packPage (b : PageBody) (hs : b.stray = false) : unpackPage (packPage b) = b := by
  obtain ⟨va, dpa, krtag, flags, prev, stray⟩ := b
  cases hs
  simp (disch := omega) only [unpackPage, packPage, extractLsb'_append_eq_of_le, extractLsb'_append_eq_of_add_le, Nat.reduceSub]
  simp

theorem packPage_unpackPage (w : BitVec 320) (h : (unpackPage w).stray = false) : packPage (unpackPage w) = w :=
  bne_eq_false_iff_eq.mp h

theorem unpackColl_packColl (b : CollBody) (hs : b.stray = false) : unpackColl (packColl b) = b := by
  obtain ⟨tid, op, nm, rank, topo, grp, ctag, map, stray⟩ := b
  cases hs
  simp (disch := omega) only [unpackColl, packColl, extractLsb'_append_eq_of_le, extractLsb'_append_eq_of_add_le, Nat.reduceSub]
  simp

theorem packColl_unpackColl (w : BitVec 320) (h : (unpackColl w).stray = false) : packColl (unpackColl w) = w :=
  bne_eq_false_iff_eq.mp h

theorem unpackPeer_packPeer (b : PeerBody) (hs : b.stray = false) : unpackPeer (packPeer b) = b := by
  obtain ⟨buf, len, peer, link, wpc, mtag, map, stray⟩ := b
  cases hs
  simp (disch := omega) only [unpackPeer, packPeer, extractLsb'_append_eq_of_le, extractLsb'_append_eq_of_add_le, Nat.reduceSub]
  simp

theorem packPeer_unpackPeer (w : BitVec 320) (h : (unpackPeer w).stray = false) : packPeer (unpackPeer w) = w :=
  bne_eq_false_iff_eq.mp h

theorem unpackFence_packFence (b : FenceBody) (hs : b.stray = false) : unpackFence (packFence b) = b := by
  obtain ⟨name0, name1, name2, name3, stray⟩ := b
  cases hs
  simp (disch := omega) only [unpackFence, packFence, extractLsb'_append_eq_of_le, extractLsb'_append_eq_of_add_le, Nat.reduceSub]
  simp

theorem packFence_unpackFence (w : BitVec 320) (h : (unpackFence w).stray = false) : packFence (unpackFence w) = w :=
  bne_eq_false_iff_eq.mp h

theorem unpackWithdraw_packWithdraw (b : WithdrawBody) (hs : b.stray = false) : unpackWithdraw (packWithdraw b) = b := by
  obtain ⟨tag, mask, stray⟩ := b
  cases hs
  simp (disch := omega) only [unpackWithdraw, packWithdraw, extractLsb'_append_eq_of_le, extractLsb'_append_eq_of_add_le, Nat.reduceSub]
  simp

theorem packWithdraw_unpackWithdraw (w : BitVec 320) (h : (unpackWithdraw w).stray = false) : packWithdraw (unpackWithdraw w) = w :=
  bne_eq_false_iff_eq.mp h

theorem unpackSignal_packSignal (b : SignalBody) (hs : b.stray = false) : unpackSignal (packSignal b) = b := by
  obtain ⟨va, val, op, stray⟩ := b
  cases hs
  simp (disch := omega) only [unpackSignal, packSignal, extractLsb'_append_eq_of_le, extractLsb'_append_eq_of_add_le, Nat.reduceSub]
  simp

theorem packSignal_unpackSignal (w : BitVec 320) (h : (unpackSignal w).stray = false) : packSignal (unpackSignal w) = w :=
  bne_eq_false_iff_eq.mp h

theorem unpackWait_packWait (b : WaitBody) (hs : b.stray = false) : unpackWait (packWait b) = b := by
  obtain ⟨va, val, cmp, tmo, stray⟩ := b
  cases hs
  simp (disch := omega) only [unpackWait, packWait, extractLsb'_append_eq_of_le, extractLsb'_append_eq_of_add_le, Nat.reduceSub]
  simp

theorem packWait_unpackWait (w : BitVec 320) (h : (unpackWait w).stray = false) : packWait (unpackWait w) = w :=
  bne_eq_false_iff_eq.mp h

theorem unpackCompact_packCompact (b : CompactBody) : unpackCompact (packCompact b) = b := by
  obtain ⟨sd, outk, outv, outp, top, count, thr⟩ := b
  simp (disch := omega) only [unpackCompact, packCompact, extractLsb'_append_eq_of_le, extractLsb'_append_eq_of_add_le, Nat.reduceSub]
  simp

theorem packCompact_unpackCompact (w : BitVec 320) : packCompact (unpackCompact w) = w := by
  unfold packCompact unpackCompact
  simp (disch := omega) only [BitVec.extractLsb'_append_extractLsb'_eq_extractLsb']
  exact BitVec.extractLsb'_eq_self

/-! ### The entry -/

theorem encodeEntry_decode (w : BitVec 512) : encodeEntry (entryKind w) (decodeHeader w) (w.extractLsb' 128 320) = w := by
  unfold encodeEntry entryKind decodeHeader
  simp (disch := omega) only [BitVec.extractLsb'_append_extractLsb'_eq_extractLsb']
  exact BitVec.extractLsb'_eq_self

theorem entryKind_encodeEntry (k : BitVec 8) (e : EntryHeader) (b : BitVec 320) : entryKind (encodeEntry k e b) = k := by
  simp (disch := omega) only [entryKind, encodeEntry, extractLsb'_append_eq_of_le, extractLsb'_append_eq_of_add_le, Nat.reduceSub]
  simp

theorem decodeHeader_encodeEntry (k : BitVec 8) (e : EntryHeader) (b : BitVec 320) : decodeHeader (encodeEntry k e b) = e := by
  obtain ⟨status, nv, irq, cmp, rsvA, rtag, rsvB, next, rsvC, cseq⟩ := e
  simp (disch := omega) only [decodeHeader, encodeEntry, extractLsb'_append_eq_of_le, extractLsb'_append_eq_of_add_le, Nat.reduceSub]
  simp

theorem body_encodeEntry (k : BitVec 8) (e : EntryHeader) (b : BitVec 320) : (encodeEntry k e b).extractLsb' 128 320 = b := by
  simp (disch := omega) only [encodeEntry, extractLsb'_append_eq_of_le, extractLsb'_append_eq_of_add_le, Nat.reduceSub]
  simp

theorem bodyTidy_of_wellFormed {i : Instr} (h : i.wellFormed = true) (hi : i.record = none) : bodyTidy i = true := by
  simpa only [Instr.wellFormed, hi] using h

/-- An entry read back from its KIND, its header and its body. -/
theorem decodeEntry_encodeEntry {i : Instr} {k : BitVec 8} {e : EntryHeader} {b : BitVec 320} (h : entryOf i = some (k, e, b))
    (w : bodyTidy i = true) : decodeEntry (encodeEntry k e b) = i := by
  simp only [decodeEntry, decodeHeader_encodeEntry, body_encodeEntry, entryKind_encodeEntry]
  cases i <;> cases h <;> simp only [bodyTidy, Bool.and_eq_true, Bool.not_eq_true', beq_iff_eq] at w
  case copy => exact congrArg (Instr.copy e) (unpackCopy_packCopy _ w.1 w.2)
  case copyt => exact congrArg (Instr.copyt e) (unpackCopyt_packCopyt _ w.1 w.2)
  case perm => exact congrArg (Instr.perm e) (unpackPerm_packPerm _ w)
  case fill => exact congrArg (Instr.fill e) (unpackFill_packFill _ w.1 w.2)
  case gath => exact congrArg (Instr.gath e) (unpackRows_packRows _ w)
  case scat => exact congrArg (Instr.scat e) (unpackRows_packRows _ w)
  case copyr => exact congrArg (Instr.copyr e) (unpackCopyr_packCopyr _ w)
  case kvpatch => exact congrArg (Instr.kvpatch e) (unpackPatch_packPatch _ w)
  case promo => exact congrArg (Instr.promo e) (unpackPage_packPage _ w)
  case demo => exact congrArg (Instr.demo e) (unpackPage_packPage _ w)
  case redsc => exact congrArg (Instr.redsc e) (unpackColl_packColl _ w)
  case allga => exact congrArg (Instr.allga e) (unpackColl_packColl _ w)
  case allrd => exact congrArg (Instr.allrd e) (unpackColl_packColl _ w)
  case send => exact congrArg (Instr.send e) (unpackPeer_packPeer _ w)
  case recv => exact congrArg (Instr.recv e) (unpackPeer_packPeer _ w)
  case qfence => exact congrArg (Instr.qfence e) (unpackFence_packFence _ w)
  case wdraw => exact congrArg (Instr.wdraw e) (unpackWithdraw_packWithdraw _ w)
  case signal => exact congrArg (Instr.signal e) (unpackSignal_packSignal _ w)
  case waitv => exact congrArg (Instr.waitv e) (unpackWait_packWait _ w)
  case compact => exact congrArg (Instr.compact e) (unpackCompact_packCompact _)
  case badkind => split <;> simp_all [entryKinds]

/-- A KIND byte and a body named again. -/
theorem entryParts_eq {w : BitVec 512} {k : BitVec 8} {e : EntryHeader} {b b' : BitVec 320} (hk : (entryKind w).toNat = k.toNat)
    (hb : b' = b) : some (k, e, b') = some (entryKind w, e, b) := by
  rw [hb, BitVec.eq_of_toNat_eq hk]

/-- A well-formed entry that decodes keeps its KIND, its header and its body. -/
theorem entryOf_decodeEntry {w : BitVec 512} (h : bodyTidy (decodeEntry w) = true) :
    entryOf (decodeEntry w) = some (entryKind w, decodeHeader w, w.extractLsb' 128 320) := by
  unfold decodeEntry at h ⊢
  split at h <;> simp only [bodyTidy, Bool.and_eq_true, Bool.not_eq_true'] at h
  case h_1 hk => exact entryParts_eq hk (packCopy_unpackCopy _ h.1)
  case h_2 hk => exact entryParts_eq hk (packCopyt_unpackCopyt _ h.1)
  case h_3 hk => exact entryParts_eq hk (packPerm_unpackPerm _ h)
  case h_4 hk => exact entryParts_eq hk (packFill_unpackFill _ h.1)
  case h_5 hk => exact entryParts_eq hk (packRows_unpackRows _ h)
  case h_6 hk => exact entryParts_eq hk (packRows_unpackRows _ h)
  case h_7 hk => exact entryParts_eq hk (packCopyr_unpackCopyr _ h)
  case h_8 hk => exact entryParts_eq hk (packPatch_unpackPatch _ h)
  case h_9 hk => exact entryParts_eq hk (packCompact_unpackCompact _)
  case h_10 hk => exact entryParts_eq hk (packPage_unpackPage _ h)
  case h_11 hk => exact entryParts_eq hk (packPage_unpackPage _ h)
  case h_12 hk => exact entryParts_eq hk (packColl_unpackColl _ h)
  case h_13 hk => exact entryParts_eq hk (packColl_unpackColl _ h)
  case h_14 hk => exact entryParts_eq hk (packColl_unpackColl _ h)
  case h_15 hk => exact entryParts_eq hk (packPeer_unpackPeer _ h)
  case h_16 hk => exact entryParts_eq hk (packPeer_unpackPeer _ h)
  case h_17 hk => exact entryParts_eq hk (packFence_unpackFence _ h)
  case h_18 hk => exact entryParts_eq hk (packWithdraw_unpackWithdraw _ h)
  case h_19 hk => exact entryParts_eq hk (packSignal_unpackSignal _ h)
  case h_20 hk => exact entryParts_eq hk (packWait_unpackWait _ h)
  case h_21 => rfl

/-! ### Submissions -/

/-- A well-formed Viroft command is what its submission decodes to. -/
theorem decodeSubmission_submissionOf {i : Instr} {w : BitVec 512} (h : submissionOf i = some w) (hw : bodyTidy i = true) :
    decodeSubmission w = i := by
  cases i <;> cases h <;> simp (disch := omega) only [decodeSubmission, encodeSubmissionWords, extractLsb'_append_eq_of_le,
    extractLsb'_append_eq_of_add_le, BitVec.extractLsb'_eq_self, Nat.reduceSub]
  case unknownCommand cid opc =>
    simp only [bodyTidy, Bool.not_eq_true'] at hw
    split <;> simp_all [commandCodes]
  all_goals rfl

theorem record_of_entryOf {i : Instr} {x : BitVec 8 × EntryHeader × BitVec 320} (h : entryOf i = some x) : i.record = none := by
  cases i <;> cases h <;> rfl

theorem record_of_submissionOf {i : Instr} {w : BitVec 512} (h : submissionOf i = some w) : i.record = none := by
  cases i <;> cases h <;> rfl

theorem record_decodeEntry (w : BitVec 512) : (decodeEntry w).record = none := by
  unfold decodeEntry
  split <;> rfl

/-! ### O2 -/

/-- Settles O2: bodies are packed and read back field by field, the header and the KIND stand beside them, and what KIND selects is the
constructor that `entryOf` gives it. -/
theorem entriesRoundTrip : Obligations.EntriesRoundTrip :=
  ⟨fun _ _ _ _ h w => decodeEntry_encodeEntry h (bodyTidy_of_wellFormed w (record_of_entryOf h)),
    fun w h => ⟨_, _, _, entryOf_decodeEntry (bodyTidy_of_wellFormed h (record_decodeEntry w)), encodeEntry_decode w⟩,
    fun _ _ h w => decodeSubmission_submissionOf h (bodyTidy_of_wellFormed w (record_of_submissionOf h))⟩

end Sys2Proof
end

section
/-! SUPPORT. O3: worked records, and the opcodes that Table 3-7 does not allocate (R55, R58). -/

namespace Sys2Proof

/-- The ranges of opcodes that Table 3-7 allocates. -/
def allocatedRanges : List (Nat × Nat) :=
  [(0x001, 0x01F), (0x040, 0x072), (0x0C0, 0x0F4), (0x140, 0x15D), (0x1C0, 0x1E3), (0x240, 0x243), (0x280, 0x28B)]

/-- An opcode lies in one of them. -/
def allocated (o : Nat) : Bool := allocatedRanges.any (fun x => decide (x.1 ≤ o) && decide (o ≤ x.2))

theorem allocated_iff (o : Nat) : allocated o = true ↔
    (0x001 ≤ o ∧ o ≤ 0x01F) ∨ (0x040 ≤ o ∧ o ≤ 0x072) ∨ (0x0C0 ≤ o ∧ o ≤ 0x0F4) ∨ (0x140 ≤ o ∧ o ≤ 0x15D) ∨
    (0x1C0 ≤ o ∧ o ≤ 0x1E3) ∨ (0x240 ≤ o ∧ o ≤ 0x243) ∨ (0x280 ≤ o ∧ o ≤ 0x28B) := by
  simp [allocated, allocatedRanges]

theorem opTable_allocated : ∀ e ∈ opTable, allocated e.1 = true := by
  simp only [opTable, List.forall_mem_append]
  decide

theorem lookupOp_unallocated {o : Nat} (h : allocated o = false) : lookupOp opTable o = none := by
  cases e : lookupOp opTable o with
  | none => rfl
  | some f => exact absurd (opTable_allocated _ (lookupOp_mem e)) (Bool.eq_false_iff.mp h)

theorem decodeRecord_unallocated {w : BitVec 96} (h : allocated (recordOpc w) = false) : decodeRecord w = none := by
  rw [decodeRecord, lookupOp_unallocated h, Option.map_none]

theorem recordReason_unallocated {o : Nat} (h : allocated o = false) (r : Rec) (pad : Nat) : recordReason o r pad = some 1 := by
  simp only [recordReason, lookupOp_unallocated h, Option.isNone_none, if_true]

/-- Settles O3: the worked records by evaluation, and an opcode between the ranges by `opTable_allocated`. -/
theorem workedRecordsDecode : Obligations.WorkedRecordsDecode := by
  refine ⟨rfl, rfl, rfl, rfl, rfl, rfl, rfl, fun w h => ?_⟩
  have ha : allocated (recordOpc w) = false := Bool.eq_false_iff.mpr fun e => by
    rw [allocated_iff, recordOpc] at e
    omega
  exact ⟨decodeRecord_unallocated ha, recordReason_unallocated ha⟩

end Sys2Proof
end

section
/-! SUPPORT. O4: what a step fetches and runs (R39, R276, R363). -/

namespace Sys2Proof.Machine

/-! ### A step is what its move comes to -/

theorem step_run {s : State} {t : Turn} {rest : List Turn} {i : Instr} {l : Locus} (ha : s.agenda = t :: rest)
    (hf : ({ s with agenda := rest } : State).fetchTurn t = .run i l) : step s = exec i { s with agenda := rest, cur := l } := by
  simp only [step, ha, hf]

theorem step_idle {s u : State} {t : Turn} {rest : List Turn} (ha : s.agenda = t :: rest)
    (hf : ({ s with agenda := rest } : State).fetchTurn t = .idle u) : step s = .next u := by
  simp only [step, ha, hf]

theorem step_broken {s : State} {t : Turn} {rest : List Turn} {r : Refusal} (ha : s.agenda = t :: rest)
    (hf : ({ s with agenda := rest } : State).fetchTurn t = .broken r) : step s = .refused r := by
  simp only [step, ha, hf]

/-! ### What a node's move comes to -/

theorem State.fetchNode_empty {s : State} {h k n : Nat} (hw : Tab.find (s.slot h k).cfg.store n = none) :
    s.fetchNode h k n = .idle s := by
  simp only [State.fetchNode, hw]

theorem State.fetchNode_unallocated {s : State} {h k n : Nat} {w : BitVec 96} (hw : Tab.find (s.slot h k).cfg.store n = some w)
    (hi : decodeRecord w = none) : s.fetchNode h k n = .broken (.undecoded h k n) := by
  simp only [State.fetchNode, hw, State.nodeInstr, hi, Option.map_none]

/-- A head trigger without emissions runs the instruction of the record. -/
theorem State.fetchNode_first {s : State} {h k n : Nat} {w : BitVec 96} {i : Instr} (hw : Tab.find (s.slot h k).cfg.store n = some w)
    (hi : decodeRecord w = some i) (he : (s.node h k n).emitted = 0) : s.fetchNode h k n = .run i (.node h k n) := by
  simp only [State.fetchNode, hw, State.nodeInstr, hi, he, Option.map_some, if_true]

/-- One with emissions behind it runs the next of them. -/
theorem State.fetchNode_later {s : State} {h k n : Nat} {w : BitVec 96} {i : Instr} (hw : Tab.find (s.slot h k).cfg.store n = some w)
    (hi : decodeRecord w = some i) (he : (s.node h k n).emitted ≠ 0) : s.fetchNode h k n = .run (laterOf i) (.node h k n) := by
  simp only [State.fetchNode, hw, State.nodeInstr, hi, he, Option.map_some, if_false]

/-- Only RANGE, AGEN and MARK have later emissions of their own. -/
theorem laterOf_other {i : Instr} (h : ∀ x, i ≠ .range x ∧ i ≠ .agen x ∧ i ≠ .mark x) : laterOf i = i := by
  unfold laterOf
  split
  · exact absurd rfl (h _).1
  · exact absurd rfl (h _).2.1
  · exact absurd rfl (h _).2.2
  · rfl

theorem State.fetchEntry_current {s : State} {q : Nat} {c : CurrentEntry} (hc : (s.queue q).cur = some c) :
    s.fetchEntry q = .run (decodeEntry c.image) (.queue q) := by
  simp only [State.fetchEntry, hc]

theorem State.fetchSubmission_waiting {s : State} {p : Nat} (hen : (s.pair p).en = true) (hne : (s.pair p).sqHead ≠ (s.pair p).sqTail) :
    s.fetchSubmission p =
      .run (decodeSubmission (BitVec.ofNat 512 (leNat (s.fetch (s.pair p).headAddr 64)))) (.pair p) := by
  simp [State.fetchSubmission, Pair.submitted, hen, hne]

/-! ### O4 -/

/-- Settles O4: each clause is the branch of `State.fetchTurn` that its move takes. -/
theorem stepRunsTheDecodedInstruction : Obligations.StepRunsTheDecodedInstruction := by
  refine ⟨fun s rest h k n w i ha hw hi he => step_run ha (State.fetchNode_first hw hi he),
    fun s rest h k n w r ha hw he => ?_,
    fun s rest h k n ha hw => step_idle ha (State.fetchNode_empty hw),
    fun s rest h k n w ha hw hi => step_broken ha (State.fetchNode_unallocated hw hi),
    fun s rest q c ha hc => step_run ha (State.fetchEntry_current hc),
    fun s rest p ha hen hne => step_run ha (State.fetchSubmission_waiting hen hne),
    fun s rest i l ha => step_run ha rfl,
    fun s ha => by simp only [step, ha]⟩
  have later : ∀ i, decodeRecord w = some i → step s = exec (laterOf i) { s with agenda := rest, cur := .node h k n } :=
    fun i hi => step_run ha (State.fetchNode_later hw hi he)
  exact ⟨later _, later _, later _, fun i hi hx => laterOf_other hx ▸ later i hi⟩

end Sys2Proof.Machine
end

section
/-! SUPPORT. O12: the first fault at a node (R60, R254, R259). -/

namespace Sys2Proof.Machine

/-! ### The purge -/

/-- A change of listed entries changes the entry of a key that the table holds. -/
theorem Tab.get_map_listed {α : Type} {d : α} {t : Tab α} {cs : List Nat} (f : α → α) {c : Nat} (hm : c ∈ cs)
    (hd : Tab.get d t c ≠ d) :
    Tab.get d (t.map (fun e => if cs.contains e.1 then (e.1, f e.2) else e)) c = f (Tab.get d t c) := by
  induction t with
  | nil => exact absurd rfl hd
  | cons e t ih =>
    obtain ⟨k, v⟩ := e
    by_cases hk : k = c
    · subst hk
      simp [Tab.get, hm]
    · simp only [Tab.get, hk, if_false] at hd ⊢
      rw [← ih hd]
      simp only [List.map_cons]
      split <;> simp [Tab.get, hk]

/-- A purge moves the activation that it names to Purging, without a trace of what it staged (R76). -/
theorem State.purge_colour {s : State} {g c : Nat} (a b : Bool) (ha : (s.colour g c).active = true)
    (hc : (s.colour g c).committed = false) : (s.purge g [c] a b).colour g c = (s.colour g c).purged s.nextId := by
  have hm := Region.self_mem_purged ha hc
  unfold State.purge
  dsimp only
  rw [if_neg (by simpa [List.isEmpty_iff] using List.ne_nil_of_mem hm), State.notify_colour]
  generalize hx : (s.colour g c).purged s.nextId = x
  unfold State.colour State.region
  dsimp only
  rw [Tab.get_set_same]
  subst hx
  refine Tab.get_map_listed (fun x : Colour => x.purged s.nextId) hm fun e => ?_
  have h0 : (s.colour g c).active = false := congrArg Colour.active e
  simp [h0] at ha

theorem State.notify_kernelOf (s : State) (g : Nat) (cs : List Nat) (b : Bool) (g' : Nat) :
    ((s.notify g cs b).region g').kernel = (s.region g').kernel := by
  refine Tab.get_map_keep {} Region.kernel _ (fun e => ?_) (fun e => ?_) s.regions g' <;> dsimp only <;> split <;> rfl

@[simp] theorem State.purge_kernelOf (s : State) (g : Nat) (cs : List Nat) (a b : Bool) :
    ((s.purge g cs a b).region g).kernel = (s.region g).kernel := by
  unfold State.purge
  dsimp only
  split
  · rfl
  · rw [State.notify_kernelOf]
    unfold State.region
    dsimp only
    rw [Tab.get_set_same]

@[simp] theorem State.purge_contexts (s : State) (g : Nat) (cs : List Nat) (a b : Bool) : (s.purge g cs a b).contexts = s.contexts := by
  unfold State.purge
  dsimp only
  split <;> rfl

@[simp] theorem State.purge_cycle (s : State) (g : Nat) (cs : List Nat) (a b : Bool) : (s.purge g cs a b).cycle = s.cycle := by
  unfold State.purge
  dsimp only
  split <;> rfl

/-! ### The fault -/

/-- A kernel that has not faulted yet and still runs. -/
def Kernel.canFault (k : Kernel) : Prop := k.st = .ready ∨ k.st = .bound ∨ k.st = .running ∨ k.st = .draining

/-- The first fault of a kernel is recorded, and the kernel moves to Faulting (R254). -/
theorem State.kernelFault_first {s : State} {e : Nat} (f : FaultRecord) (h : (s.kernel e).canFault) :
    s.kernelFault e f = (({ s with failing := s.failing ++ [e] } : State).setKernel e
      { s.kernel e with st := .faulting, fault := some f, faultAt := s.cycle, status := 1 }).modContext (s.kernel e).ctx
        (fun c => { c with faultPtr := (s.kernel e).cra + 0x40 }) := by
  unfold State.kernelFault
  rcases h with h | h | h | h <;> simp only [h]

@[simp] theorem State.kernelFault_regions (s : State) (e : Nat) (f : FaultRecord) : (s.kernelFault e f).regions = s.regions := by
  unfold State.kernelFault
  dsimp only
  split
  iterate 4 · rfl
  · split
    · rfl
    · split <;> rfl
  · rfl

theorem State.kernelFault_colour (s : State) (e : Nat) (f : FaultRecord) (g c : Nat) :
    (s.kernelFault e f).colour g c = s.colour g c := by
  simp only [State.colour, State.region, State.kernelFault_regions]

/-- The kernel of a region notes the groups that are broken. -/
theorem State.breakGroups_of_kernel {s : State} {g e : Nat} (hk : (s.region g).kernel = some e) (ps : List Nat) :
    s.breakGroups g ps = s.setKernel e { s.kernel e with broken := ps.foldl insertRising (s.kernel e).broken } := by
  simp only [State.breakGroups, State.modHolder, hk, State.modKernel_eq]

/-- The state in which a fault reaches the kernel of its region: the activation is purged for good. -/
theorem State.nodeFault_of_kernel {s : State} {g e : Nat} (hk : (s.region g).kernel = some e) (h k n c w x d : Nat) :
    s.nodeFault g h k n c w x d = (s.purgeForGood g c).kernelFault e (nodeRecord s g h k n c w x d) := by
  have hu : ((s.purgeForGood g c).region g).kernel = some e := by
    rw [State.purgeForGood, State.purge_kernelOf, State.breakGroups_of_kernel hk, State.setKernel_region, hk]
  simp only [State.nodeFault, hu]

/-- The kernel after the purge: only its broken groups may have grown. -/
theorem State.purgeForGood_kernel {s : State} {g e : Nat} (hk : (s.region g).kernel = some e) (c : Nat) :
    (s.purgeForGood g c).kernel e =
      { s.kernel e with broken := (s.colour g c).openGroup.toList.foldl insertRising (s.kernel e).broken } := by
  rw [State.purgeForGood, State.breakGroups_of_kernel hk]
  rw [State.kernel, State.purge_kernels]
  exact State.setKernel_kernel _ _ _

/-- The activation after it. -/
theorem State.purgeForGood_colour {s : State} {g c e : Nat} (hk : (s.region g).kernel = some e) (ha : (s.colour g c).active = true)
    (hc : (s.colour g c).committed = false) : (s.purgeForGood g c).colour g c = (s.colour g c).purged s.nextId := by
  rw [State.purgeForGood, State.breakGroups_of_kernel hk]
  exact State.purge_colour _ _ ha hc

theorem State.purgeForGood_cycle {s : State} {g e : Nat} (hk : (s.region g).kernel = some e) (c : Nat) :
    (s.purgeForGood g c).cycle = s.cycle := by
  rw [State.purgeForGood, State.purge_cycle, State.breakGroups_of_kernel hk, State.setKernel_cycle]

/-! ### O12 -/

/-- The activation at which a fault comes about is purged (R60). -/
theorem State.nodeFault_colour {s : State} {g c e : Nat} (hk : (s.region g).kernel = some e) (ha : (s.colour g c).active = true)
    (hc : (s.colour g c).committed = false) (h k n w x d : Nat) :
    (s.nodeFault g h k n c w x d).colour g c = (s.colour g c).purged s.nextId := by
  rw [State.nodeFault_of_kernel hk, State.kernelFault_colour, State.purgeForGood_colour hk ha hc]

/-- The first fault of a kernel: what the kernel and its context hold after it (R254, R259). -/
theorem State.nodeFault_first {s : State} {g e : Nat} (hk : (s.region g).kernel = some e) (hf : (s.kernel e).canFault)
    (h k n c w x d : Nat) :
    (((s.nodeFault g h k n c w x d).kernel e).st = .faulting ∧ ((s.nodeFault g h k n c w x d).kernel e).status = 1 ∧
      ((s.nodeFault g h k n c w x d).kernel e).fault = some (nodeRecord s g h k n c w x d)) ∧
    ((s.nodeFault g h k n c w x d).context (s.kernel e).ctx).faultPtr = (s.kernel e).cra + 0x40 := by
  have hkn := State.purgeForGood_kernel hk c
  have hcan : ((s.purgeForGood g c).kernel e).canFault := by rw [hkn]; exact hf
  have hctx : ((s.purgeForGood g c).kernel e).ctx = (s.kernel e).ctx := by rw [hkn]
  have hcra : ((s.purgeForGood g c).kernel e).cra = (s.kernel e).cra := by rw [hkn]
  rw [State.nodeFault_of_kernel hk, State.kernelFault_first _ hcan, hctx, hcra]
  simp

/-- Settles O12: the fault reaches the kernel in the state after the purge (`State.nodeFault_of_kernel`), and there it is the first. -/
theorem nodeFaultsStopTheirKernel : Obligations.NodeFaultsStopTheirKernel := by
  intro s g h k n c w x d e hk hf ha hc t
  have hcol : t.colour g c = _ := State.nodeFault_colour hk ha hc h k n w x d
  obtain ⟨⟨hst, hstatus, hfault⟩, hptr⟩ := State.nodeFault_first hk hf h k n c w x d
  exact ⟨by rw [hcol]; rfl, by rw [hcol]; rfl, hst, hstatus,
    ⟨_, hfault, rfl, rfl, rfl, rfl, rfl, rfl, rfl, rfl, rfl, rfl, rfl⟩, hptr, State.nodeFault_around ..⟩

end Sys2Proof.Machine
end

section
/-! SUPPORT. O51: entries that end before their body is looked at (R59, R274, R276, R289). -/

namespace Sys2Proof.Machine

/-- How an entry of KIND `k` with the header `e` is turned away at the end of its start. -/
def TurnsAway (i : Instr) (k : Nat) (e : EntryHeader) (s : State) (q : Nat) (c : CurrentEntry) : Prop :=
  (performs q k = false → exec i s = .next (s.finishEntry q 0x02)) ∧
  (i.wellFormed = true → performs q k = true → (s.queue q).withdrew c = true → exec i s = .next (s.finishEntry q 0x01)) ∧
  (i.wellFormed = true → performs q k = true → (s.queue q).withdrew c = false → headerBad e = true →
    exec i s = .next (s.finishEntry q 0x03))

/-- Every command that runs as an engine's turn turns its entries away alike. -/
theorem turnsAway_of {i : Instr} {k : Nat} {e : EntryHeader} {start : State → Nat → CurrentEntry → State × Start}
    {go : State → Nat → CurrentEntry → State} {s : State} {q : Nat} {c : CurrentEntry} (h : exec i s = engineTurn k e start go s)
    (ht : s.turn q c) (hb : c.begun = false) : TurnsAway i k e s q c := by
  obtain ⟨hq, hc, hserves, hfinish, hbusy⟩ := ht
  rw [TurnsAway, h, engineTurn, hq]
  simp only [hc, hserves, hfinish, hb, Nat.not_lt.mpr hbusy, Bool.not_true, Option.isSome_none, Bool.false_eq_true, if_false]
  exact ⟨fun hp => by simp [hp, stBadKind], fun _ hp hw => by simp [hp, hw, stWithdrawn],
    fun _ hp hw he => by simp [hp, hw, he, stBadArg]⟩

/-- A turn of an entry of unknown KIND ends it. -/
theorem badkind_ends (k : BitVec 8) (e : EntryHeader) (b : BitVec 320) {s : State} {q : Nat} {c : CurrentEntry} (ht : s.turn q c) :
    exec (.badkind e k b) s = .next (s.finishEntry q 0x02) := by
  obtain ⟨hq, hc, hserves, hfinish, hbusy⟩ := ht
  show execBadkind e k b s = _
  rw [execBadkind, hq]
  simp only [hc, hserves, hfinish, Nat.not_lt.mpr hbusy, Bool.not_true, Option.isSome_none, Bool.false_eq_true, if_false]
  rfl

/-- An engine performs only kinds that Table 3-14 lists. -/
theorem entryKinds_of_performs {q k : Nat} (h : performs q k = true) : entryKinds.contains k = true := by
  unfold performs at h
  rcases Bool.or_eq_true_iff.mp h with h | h
  · simp [entryKinds] at h ⊢
    omega
  · split at h <;> simp [entryKinds] at h ⊢ <;> omega

/-- A well-formed BADKIND entry has a KIND that no engine performs. -/
theorem performs_badkind {k : BitVec 8} {e : EntryHeader} {b : BitVec 320} (h : (Instr.badkind e k b).wellFormed = true) (q : Nat) :
    performs q k.toNat = false := by
  have hk : entryKinds.contains k.toNat = false := Bool.not_eq_true' _ ▸ bodyTidy_of_wellFormed h rfl
  exact Bool.eq_false_iff.mpr fun hp => Bool.eq_false_iff.mp hk (entryKinds_of_performs hp)

theorem turnsAway_of_entry {i : Instr} {k : BitVec 8} {e : EntryHeader} {b : BitVec 320} {s : State} {q : Nat} {c : CurrentEntry}
    (h : entryOf i = some (k, e, b)) (ht : s.turn q c) (hb : c.begun = false) : TurnsAway i k.toNat e s q c := by
  cases i <;> cases h
  case badkind =>
    exact ⟨fun _ => badkind_ends _ _ _ ht, fun hw hp => absurd hp (Bool.eq_false_iff.mp (performs_badkind hw q)),
      fun hw hp => absurd hp (Bool.eq_false_iff.mp (performs_badkind hw q))⟩
  all_goals exact turnsAway_of rfl ht hb

/-- Settles O51: every command but BADKIND runs as its engine's turn (`turnsAway_of`), and a BADKIND entry has a KIND that no engine
performs. -/
theorem entriesTurnedAwayEnd : Obligations.EntriesTurnedAwayEnd :=
  ⟨fun _ _ _ _ _ _ _ h ht hb => turnsAway_of_entry h ht hb, fun k e b _ _ _ ht => badkind_ends k e b ht⟩

end Sys2Proof.Machine
end

section
/-! SUPPORT. O13: privileged uses (R57, R60, R275). -/

namespace Sys2Proof.Machine

theorem firstFault_breach {p : FireSpec} {f : Fire} {s : State} (h : p.breach f s = true) : firstFault p f s = some 0x01 := by
  simp [firstFault, h, faultPriv]

theorem canFire_rec {s : State} {p : FireSpec} {h k n o : Nat} {r : Rec} {f : Fire} (e : s.canFire p h k n o r = some f) :
    f.nrec = r := by
  obtain ⟨g, -, -, -, -, -, -, hr⟩ := canFire_isAt e
  exact hr

/-- A breach takes PRIV before anything else of the firing. -/
theorem breach_faults {i : Rec → Instr} {o : Nat} {p : FireSpec} {body : Rec → Fire → State → State × Effect}
    (h : ∀ r s, exec (i r) s = fireNode o r p (body r) s) : FaultsFirst i o p false (fun f s => p.breach f s = true) 0x01 :=
  faultsFirst_of h fun _ _ => firstFault_breach

theorem breach_faultsHeld {i : Rec → Instr} {o : Nat} {p : FireSpec} {body : Rec → Fire → State → State × Effect}
    (h : ∀ r s, exec (i r) s = fireHeld o r p (body r) s) : FaultsFirst i o p true (fun f s => p.breach f s = true) 0x01 :=
  faultsFirst_held_of h fun _ _ => firstFault_breach

theorem Fire.plain_iff (f : Fire) (s : State) : f.plain s = true ↔ (s.context (s.region f.g).ctx).priv = false := by
  simp [Fire.plain, Fire.context]

theorem queueBreach_iff (f : Fire) (s : State) : queueBreach f s = true ↔
    (s.queue (f.nrec.lit32.toNat % 512)).host = true ∨
      ((s.queue (f.nrec.lit32.toNat % 512)).ctx ≠ (s.region f.g).ctx ∧ (s.context (s.region f.g).ctx).priv = false) := by
  simp [queueBreach, Fire.qid, Fire.lit, Fire.context]

/-- Settles O13: each use is the breach that its instruction's `FireSpec` names. -/
theorem privilegedUseFaults : Obligations.PrivilegedUseFaults := by
  refine ⟨?_, ?_, ?_, ?_, ?_, ?_⟩ <;> intro r s h k n f hc e u hu <;> obtain rfl := canFire_rec e
  · exact breach_faults (fun _ _ => rfl) _ s h k n f hc e (Bool.and_eq_true_iff.mpr ⟨hu.1, (f.plain_iff u).mpr hu.2⟩)
  · exact breach_faults (fun _ _ => rfl) _ s h k n f hc e (Bool.and_eq_true_iff.mpr ⟨hu.1, (f.plain_iff u).mpr hu.2⟩)
  · exact breach_faults (fun _ _ => rfl) _ s h k n f hc e ((f.plain_iff u).mpr hu.2)
  · exact breach_faultsHeld (fun _ _ => rfl) _ s h k n f hc e ((f.plain_iff u).mpr hu.2)
  · exact breach_faultsHeld (fun _ _ => rfl) _ s h k n f hc e ((queueBreach_iff f u).mpr hu)
  · exact breach_faults (fun _ _ => rfl) _ s h k n f hc e ((queueBreach_iff f u).mpr hu)

end Sys2Proof.Machine
end

section
/-! SUPPORT. O14: widths and scale tags (R46, R60, R78). -/

namespace Sys2Proof.Machine

/-! ### The conditions of Table 3-16 -/

/-- Operands differ in width where two of them do. -/
theorem Fire.mixedWidth_iff (f : Fire) : f.mixedWidth = true ↔ ∃ t ∈ f.operands, ∃ u ∈ f.operands, t.wid ≠ u.wid := by
  unfold Fire.mixedWidth
  split
  · rename_i ho
    simp [ho]
  · rename_i t more ho
    simp only [ho, List.any_eq_true, bne_iff_ne]
    constructor
    · rintro ⟨u, hu, hne⟩
      exact ⟨u, List.mem_cons_of_mem _ hu, t, List.mem_cons_self, hne⟩
    · rintro ⟨a, ha, b, hb, hne⟩
      by_cases hat : a.wid = t.wid
      · refine ⟨b, (List.mem_cons.mp hb).resolve_left ?_, fun e => hne (hat.trans e.symm)⟩
        rintro rfl
        exact hne hat
      · refine ⟨a, (List.mem_cons.mp ha).resolve_left ?_, hat⟩
        rintro rfl
        exact hat rfl

/-- Operand tokens break SCL = 01 or 10. -/
theorem Fire.badScale_iff (f : Fire) : f.badScale = true ↔ (f.nrec.scl = 1 ∧ ∃ e ∈ f.tokens, e.1 ≠ 3 ∧ e.2.sc = true) ∨
    (f.nrec.scl = 2 ∧ ∃ e ∈ f.tokens, e.1 ≠ 3 ∧ e.2.sc = false) := by
  unfold Fire.badScale
  split_ifs with h1 h2
  · simp [h1]
  · simp [h2]
  · simp only [h1, h2, false_and, or_self]

theorem firstFault_mixed {p : FireSpec} {f : Fire} {s : State} (hb : p.breach f s = false) (hl : p.lut = false)
    (ha : p.anyWidth = false) (hm : f.mixedWidth = true) : firstFault p f s = some 0x04 := by
  simp [firstFault, hb, hl, ha, hm, faultWidth]

theorem firstFault_badWidth {p : FireSpec} {f : Fire} {s : State} (hb : p.breach f s = false) (hl : p.lut = false)
    (hw : p.badWidth f = true) : firstFault p f s = some 0x04 := by
  simp [firstFault, hb, hl, hw, faultWidth]

theorem firstFault_scale {f : Fire} {s : State} (hm : f.mixedWidth = false) (hs : f.badScale = true) :
    firstFault {} f s = some 0x05 := by
  simp [firstFault, hm, hs, faultSclTag]

/-- A firing whose width its instruction does not take, and that breaches nothing, takes WIDTH. -/
theorem faults_badWidth {i : Rec → Instr} {o : Nat} {p : FireSpec} {bad : Fire → State → Prop}
    {body : Rec → Fire → State → State × Effect} (h : ∀ r s, exec (i r) s = fireNode o r p (body r) s)
    (hb : ∀ f s, bad f s → p.breach f s = false ∧ p.badWidth f = true) (hl : p.lut = false := by rfl) :
    FaultsFirst i o p false bad 0x04 :=
  faultsFirst_of h fun f s w => firstFault_badWidth (hb f s w).1 hl (hb f s w).2

theorem faults_badWidth_held {i : Rec → Instr} {o : Nat} {p : FireSpec} {bad : Fire → State → Prop}
    {body : Rec → Fire → State → State × Effect} (h : ∀ r s, exec (i r) s = fireHeld o r p (body r) s)
    (hb : ∀ f s, bad f s → p.breach f s = false ∧ p.badWidth f = true) (hl : p.lut = false := by rfl) :
    FaultsFirst i o p true bad 0x04 :=
  faultsFirst_held_of h fun f s w => firstFault_badWidth (hb f s w).1 hl (hb f s w).2

/-! ### Instructions without conditions of their own -/

/-- An instruction whose firing asks nothing beyond the rules that all share. -/
def FiresPlainly (x : (Rec → Instr) × Nat) : Prop :=
  ∃ body : Rec → Fire → State → State × Effect, ∀ r s, exec (x.1 r) s = fireNode x.2 r {} (body r) s

theorem FiresPlainly.mixed {x : (Rec → Instr) × Nat} (h : FiresPlainly x) :
    FaultsFirst x.1 x.2 {} false (fun f _ => ∃ t ∈ f.operands, ∃ u ∈ f.operands, t.wid ≠ u.wid) 0x04 := by
  obtain ⟨body, h⟩ := h
  exact faultsFirst_of h fun f _ hm => firstFault_mixed rfl rfl rfl (f.mixedWidth_iff.mpr hm)

theorem FiresPlainly.clash {x : (Rec → Instr) × Nat} (h : FiresPlainly x) :
    FaultsFirst x.1 x.2 {} false (fun f _ => (¬ ∃ t ∈ f.operands, ∃ u ∈ f.operands, t.wid ≠ u.wid) ∧
      ((f.nrec.scl = 1 ∧ ∃ e ∈ f.tokens, e.1 ≠ 3 ∧ e.2.sc = true) ∨
        (f.nrec.scl = 2 ∧ ∃ e ∈ f.tokens, e.1 ≠ 3 ∧ e.2.sc = false))) 0x05 := by
  obtain ⟨body, h⟩ := h
  exact faultsFirst_of h fun f _ hm =>
    firstFault_scale (Bool.eq_false_iff.mpr (mt f.mixedWidth_iff.mp hm.1)) (f.badScale_iff.mpr hm.2)

/-! ### A token wider than its colour was granted -/

/-- An instruction that emits a token of its operands takes WIDTH where the token is too wide (R78). -/
theorem faults_tooWide {i : Rec → Instr} {o lat : Nat} {tok : Fire → Token}
    (h : ∀ r s, exec (i r) s = fireNode o r {} (fun f s => (s, .emit lat (tok f))) s) :
    Faults i o {} (fun f s => (tok f).col = f.col ∧ (s.colour f.g f.col).wid < (tok f).wid) 0x04 (fun _ => 0) := by
  refine faults_of h fun f s _ hw => ?_
  have hwide : s.tooWide f.g f (tok f) = true := by simp [State.tooWide, hw.1, hw.2]
  simp only [State.conclude, hwide, if_true, faultWidth]

/-! ### O14 -/

/-- Settles O14: the shared conditions by `FiresPlainly`, the granted width by `faults_tooWide`, and the widths that an instruction
does not take by the `badWidth` of its `FireSpec`. -/
theorem widthsAndScalesFault : Obligations.WidthsAndScalesFault := by
  refine ⟨?_, ?_, ?_⟩
  · intro mixed clash tokens integers floats others
    have plain : ∀ x ∈ tokens ++ integers ++ floats ++ others, FiresPlainly x := by
      simp only [tokens, integers, floats, others, List.forall_mem_append, List.forall_mem_cons, List.not_mem_nil, false_implies,
        implies_true, and_true]
      repeat' apply And.intro
      all_goals exact ⟨_, fun _ _ => rfl⟩
    exact ⟨fun x hx => (plain x hx).mixed, fun x hx => (plain x hx).clash⟩
  · exact ⟨faults_tooWide fun _ _ => rfl, faults_tooWide fun _ _ => rfl, faults_tooWide fun _ _ => rfl, faults_tooWide fun _ _ => rfl⟩
  · refine ⟨?_, ?_, ?_, ?_, ?_, ?_, ?_, ?_, ?_, ?_, ?_⟩
    · exact faults_badWidth (fun _ _ => rfl) fun f s w => ⟨rfl, decide_eq_true w⟩
    · exact faults_badWidth (fun _ _ => rfl) fun f s w => ⟨rfl, decide_eq_true w⟩
    · exact faults_badWidth (fun _ _ => rfl) fun f s w => ⟨rfl, w⟩
    · exact faults_badWidth (fun _ _ => rfl) fun f s w => ⟨rfl, decide_eq_true w⟩
    · exact faults_badWidth (fun _ _ => rfl) fun f s w => ⟨rfl, bne_iff_ne.mpr w⟩
    · exact faults_badWidth (fun _ _ => rfl) fun f s w => ⟨rfl, by simpa using w⟩
    · exact faults_badWidth (fun _ _ => rfl) fun f s w => ⟨rfl, decide_eq_true w⟩
    · exact faults_badWidth (fun _ _ => rfl) fun f s w => ⟨rfl, bne_iff_ne.mpr w⟩
    · exact faults_badWidth (fun _ _ => rfl) fun f s w => ⟨rfl, bne_iff_ne.mpr w⟩
    · exact faults_badWidth (fun _ _ => rfl) fun f s w => ⟨by simp [Fire.plain, Fire.context, w.1],
        Bool.and_eq_true_iff.mpr ⟨decide_eq_true w.2.1, bne_iff_ne.mpr w.2.2⟩⟩
    · exact faults_badWidth_held (fun _ _ => rfl) fun f s w =>
        ⟨by simp [Fire.plain, Fire.context, w.1], by simpa [Fire.lit] using w.2⟩

end Sys2Proof.Machine
end

section
/-! SUPPORT. O15: faults of colours, calls and arrivals (R78, R86 to R88, R227 to R231, R417). -/

namespace Sys2Proof.Machine

/-! ### Colours -/

theorem cbindFire_notLive {f : Fire} {s : State} (h : (s.colour f.g ((f.tc.lanes.headD 0).toNat % 4096)).st ≠ .live) :
    cbindFire f s = (s, .fault 0x07 0) := by
  have hb := bne_iff_ne.mpr h
  simp only [cbindFire, hb, if_true, faultColour]

theorem injectFire_notLive {f : Fire} {s : State} (h : (s.colour f.g f.col).st ≠ .live) : injectFire f s = (s, .fault 0x07 0) := by
  simp [injectFire, h, faultColour]

theorem cretFire_group {f : Fire} {s : State} (h : (s.colour f.g f.col).group ≠ none) : cretFire f s = (s, .fault 0x07 0) := by
  simp [cretFire, Option.isSome_iff_ne_none.mpr h, faultColour]

theorem callocFire_late {f : Fire} {s : State} (h : callocTs f ≠ 0 ∧ callocTs f < s.horizon f.g) :
    callocFire f s = (s, .fault 0x16 0) := by
  simp [callocFire, h.1, h.2, faultTslate]

theorem callocFire_exhausted {f : Fire} {s : State} (ht : callocTs f = 0 ∨ s.horizon f.g ≤ callocTs f)
    (ha : (s.region f.g).allocate (s.ovsz f.g)
      (f.want s (callocWidth f) (callocTs f) (bits f.lit 11 6) (bits f.lit 15 12)) false = .exhausted) :
    callocFire f s = (s, .fault 0x09 0) := by
  have hl : (callocTs f != 0 && decide (callocTs f < s.horizon f.g)) = false := by
    rcases ht with h | h
    · simp [h]
    · simp [Nat.not_lt.mpr h]
  simp [callocFire, hl, ha, faultColExh]

theorem endColour_surplus {f : Fire} {s : State} (hu : s.unfinished f.g f.col = none) (hs : s.surplus f.g f.col = true) :
    endColour f s = (s, .fault 0x06 0) := by
  simp [endColour, hu, hs, faultPcount]

/-! ### Calls -/

theorem callgFire_deep {f : Fire} {s : State} (h : s.depthLimit f.g ≤ (s.region f.g).depth) : callgFire f s = (s, .fault 0x17 0) := by
  simp [callgFire, h, faultCallDepth]

theorem callgFire_noEntry {f : Fire} {s : State} {d : Nat} (hd : (s.region f.g).depth < s.depthLimit f.g)
    (he : s.directory f.g (bits f.lit 31 24) = .error d) :
    callgFire f s = (s.directoryRead f.g (bits f.lit 31 24), .fault 0x18 d) := by
  simp [callgFire, Nat.not_le.mpr hd, he, faultCallBad]

theorem callgFire_exhausted {f : Fire} {s : State} {x : Nat × Nat} (hd : (s.region f.g).depth < s.depthLimit f.g)
    (he : s.directory f.g (bits f.lit 31 24) = .ok x)
    (ha : (s.region f.g).allocate ((s.directoryRead f.g (bits f.lit 31 24)).ovsz f.g)
      (f.want (s.directoryRead f.g (bits f.lit 31 24)) f.ta.wid
        ((s.directoryRead f.g (bits f.lit 31 24)).colour f.g f.col).ts 0 0) false = .exhausted) :
    callgFire f s = (s.directoryRead f.g (bits f.lit 31 24), .fault 0x09 0) := by
  simp [callgFire, Nat.not_le.mpr hd, he, ha, faultColExh]

theorem retgFire_bad {f : Fire} {s : State} (h : (s.region f.g).depth = 0 ∨ (s.region f.g).isBase f.col = false) :
    retgFire f s = (s, .fault 0x18 0) := by
  rcases h with h | h <;> simp [retgFire, h, faultCallBad]

theorem retgFire_surplus {f : Fire} {s : State} (hd : (s.region f.g).depth ≠ 0) (hb : (s.region f.g).isBase f.col = true)
    (hu : s.unfinished f.g f.col = none) (hs : s.surplus f.g f.col = true) : retgFire f s = (s, .fault 0x06 0) := by
  simp [retgFire, hd, hb, endColour_surplus hu hs]

theorem tailgFire_bad {f : Fire} {s : State} (h : (s.region f.g).isBase f.col = false) : tailgFire f s = (s, .fault 0x18 0) := by
  simp [tailgFire, h, faultCallBad]

theorem tailgFire_surplus {f : Fire} {s : State} (hb : (s.region f.g).isBase f.col = true)
    (hu : s.unfinished f.g f.col = none) (hs : s.surplus f.g f.col = true) : tailgFire f s = (s, .fault 0x06 0) := by
  simp [tailgFire, hb, hu, hs, faultPcount]

/-- A TAILG that goes on to the directory: its colour is the base of its depth, and nothing of it is left. -/
def tailGoesOn (f : Fire) (s : State) : Prop :=
  (s.region f.g).isBase f.col = true ∧ s.unfinished f.g f.col = none ∧ s.surplus f.g f.col = false

theorem tailgFire_noEntry {f : Fire} {s : State} {d : Nat} (hg : tailGoesOn f s)
    (he : s.directory f.g (bits f.lit 31 24) = .error d) :
    tailgFire f s = (s.directoryRead f.g (bits f.lit 31 24), .fault 0x18 d) := by
  obtain ⟨hb, hu, hs⟩ := hg
  simp [tailgFire, hb, hu, hs, he, faultCallBad]

theorem tailgFire_noImage {f : Fire} {s : State} {va id : Nat} {e : LoadFail} (hg : tailGoesOn f s)
    (he : s.directory f.g (bits f.lit 31 24) = .ok (va, id))
    (hi : s.loadImage (s.region f.g).ctx va ((s.region f.g).site f.g) = .error e) :
    tailgFire f s = ((s.directoryRead f.g (bits f.lit 31 24)).loadRead (s.region f.g).ctx va ((s.region f.g).site f.g),
      .fault 0x18 (e.status + 256 * e.reason)) := by
  obtain ⟨hb, hu, hs⟩ := hg
  simp [tailgFire, hb, hu, hs, he, hi, faultCallBad, LoadFail.detail]

theorem tailgFire_noNode {f : Fire} {s : State} {va id : Nat} {i : Image} (hg : tailGoesOn f s)
    (he : s.directory f.g (bits f.lit 31 24) = .ok (va, id))
    (hi : s.loadImage (s.region f.g).ctx va ((s.region f.g).site f.g) = .ok i)
    (hn : i.hasEntry (bits f.lit 23 17) (bits f.lit 16 10) (bits f.lit 9 6) = false) :
    tailgFire f s = ((s.directoryRead f.g (bits f.lit 31 24)).loadRead (s.region f.g).ctx va ((s.region f.g).site f.g),
      .fault 0x18 0) := by
  obtain ⟨hb, hu, hs⟩ := hg
  simp [tailgFire, hb, hu, hs, he, hi, hn, faultCallBad]

/-- A firing whose body answers a fault, and the state in which it takes it. -/
theorem fireNode_fault {o : Nat} {r : Rec} {p : FireSpec} {body : Fire → State → State × Effect} {s t : State} {f : Fire} {x d : Nat}
    (e : s.fires p o r f = true) (hb : body f (s.taken f) = (t, .fault x d)) :
    fireNode o r p body s = .next ((t.nodeFault f.g f.h f.k f.n f.col f.wave x d).rejoined f r) := by
  rw [fires_next body e, hb]
  rfl

/-- An instruction whose body answers a fault where `bad` holds, in the state it was given. -/
theorem faults_of_body {i : Rec → Instr} {o : Nat} {p : FireSpec} {bad : Fire → State → Prop} {cause : Nat}
    {body : Fire → State → State × Effect} (h : ∀ r s, exec (i r) s = fireNode o r p body s)
    (hb : ∀ f s, bad f s → body f s = (s, .fault cause 0)) : Faults i o p bad cause (fun _ => 0) := by
  intro r s f e w
  rw [h, fireNode_fault e (hb f _ w)]

/-! ### Arrivals -/

/-- The token's node has the port on which it arrives. -/
def Flight.hasPort (f : Flight) (s : State) : Prop := ∃ o r, s.record f.h f.k f.tok.node = some (o, r) ∧ recHasPort r f.tok.port = true

/-- The token's width is one that its colour takes. -/
def Flight.fits (f : Flight) (s : State) : Prop :=
  0 < f.tok.wid ∧ f.tok.wid ≤ 32 ∧ f.tok.wid ≤ (s.colour f.region f.tok.col).wid

theorem arrivalFault_noPort {s : State} {f : Flight} (hm : f.tok.mark = .data) (hp : ¬ f.hasPort s) :
    s.arrivalFault f.region f = some 0x03 := by
  cases hr : s.record f.h f.k f.tok.node with
  | none => simp [State.arrivalFault, hm, hr, faultArity]
  | some e =>
    obtain ⟨o, r⟩ := e
    have hb : recHasPort r f.tok.port = false := Bool.eq_false_iff.mpr fun h => hp ⟨o, r, hr, h⟩
    simp [State.arrivalFault, hm, hr, hb, faultArity]

theorem arrivalFault_unfit {s : State} {f : Flight} (hm : f.tok.mark = .data) (hp : f.hasPort s) (hf : ¬ f.fits s) :
    s.arrivalFault f.region f = some 0x04 := by
  obtain ⟨o, r, hr, hp⟩ := hp
  have hw : f.tok.wid = 0 ∨ 32 < f.tok.wid ∨ (s.colour f.region f.tok.col).wid < f.tok.wid := by
    simp only [Flight.fits] at hf
    omega
  simp [State.arrivalFault, hm, hr, hp, hw, faultWidth]

theorem arrivalFault_ended {s : State} {f : Flight} (hm : f.tok.mark = .data) (hp : f.hasPort s) (hf : f.fits s)
    (he : (s.colour f.region f.tok.col).st = .ended) : s.arrivalFault f.region f = some 0x06 := by
  obtain ⟨o, r, hr, hp⟩ := hp
  have hw : ¬ (f.tok.wid = 0 ∨ 32 < f.tok.wid ∨ (s.colour f.region f.tok.col).wid < f.tok.wid) := by
    obtain ⟨h0, h1, h2⟩ := hf
    omega
  simp [State.arrivalFault, hm, hr, hp, hw, he, faultPcount]

/-- A whole data token of a colour that is neither Free nor purging takes the fault of its arrival. -/
theorem arrive_fault {s : State} {id x : Nat} {f : Flight} (hm : f.tok.mark = .data)
    (hp : (s.colour f.region f.tok.col).st ≠ .purging) (hf : (s.colour f.region f.tok.col).st ≠ .free) (hc : f.corrupt = false)
    (hx : s.arrivalFault f.region f = some x) :
    s.arrive id f = (s.dropFlight id).nodeFault f.region f.h f.k f.tok.node f.tok.col f.tok.wave x 0 := by
  simp [State.arrive, State.absorbs, hm, hp, hf, hc, hx]

/-- A data token of a colour that is Free is discarded, and stops the kernel. -/
theorem arrive_stray {s : State} {id e : Nat} {f : Flight} (hm : f.tok.mark = .data)
    (hf : (s.colour f.region f.tok.col).st = .free) (hk : (s.region f.region).kernel = some e) :
    s.arrive id f = (s.dropFlight id).kernelFault e
      (nodeRecord (s.dropFlight id) f.region f.h f.k f.tok.node f.tok.col f.tok.wave 0x07 0) := by
  have hk' : ((s.dropFlight id).region f.region).kernel = some e := hk
  simp [State.arrive, hm, hf, State.strayToken, hk', faultColour]

/-! ### O15 -/

/-- Settles O15: what each body answers, and what `State.arrive` makes of a token at its node. -/
theorem coloursAndCallsFault : Obligations.ColoursAndCallsFault := by
  constructor
  · intro none' bases left cfgn limit bad site
    refine ⟨?_, ?_, ?_, ?_, ?_, ?_, ?_, ?_, ?_, ?_, ?_, ?_, ?_, ?_⟩
    · exact faults_of_body (fun _ _ => rfl) fun _ _ h => cbindFire_notLive h
    · exact faults_of_body (fun _ _ => rfl) fun _ _ h => injectFire_notLive h
    · exact faults_of_body (fun _ _ => rfl) fun _ _ h => cretFire_group h
    · exact faults_of_body (fun _ _ => rfl) fun _ _ h => callocFire_late h
    · exact faults_of_body (fun _ _ => rfl) fun _ _ h => callocFire_exhausted h.1 h.2
    · exact faults_of_body (fun _ _ => rfl) fun _ _ h => endColour_surplus h.1 h.2
    · exact faults_of_body (fun _ _ => rfl) fun _ _ h => callgFire_deep h
    · intro r s f d e u hd he
      exact fireNode_fault e (callgFire_noEntry hd he)
    · intro r s f x e u v hd he ha
      exact fireNode_fault e (callgFire_exhausted hd he ha)
    · exact faults_of_body (fun _ _ => rfl) fun _ _ h => retgFire_bad h
    · exact faults_of_body (fun _ _ => rfl) fun _ _ h => retgFire_surplus h.1 h.2.1 h.2.2.1 h.2.2.2
    · exact faults_of_body (fun _ _ => rfl) fun _ _ h => tailgFire_bad h
    · exact faults_of_body (fun _ _ => rfl) fun _ _ h => tailgFire_surplus h.1 h.2.1 h.2.2
    · intro goesOn
      refine ⟨?_, ?_, ?_⟩
      · intro r s f d e hg he
        exact fireNode_fault e (tailgFire_noEntry hg he)
      · intro r s f va id x e hg he u hi
        exact fireNode_fault e (tailgFire_noImage hg he hi)
      · intro r s f va id i e hg he u hi hn
        exact fireNode_fault e (tailgFire_noNode hg he hi hn)
  · intro comes whole port fits faulted
    refine ⟨?_, ?_, ?_, ?_⟩
    · rintro id f s hc ⟨⟨hfl, ht, hm⟩, ⟨hp, hf, hr⟩, hport⟩
      rw [exec_tokenArrival_of_flight hc hfl ht, arrive_fault hm hp hf hr (arrivalFault_noPort hm hport)]
    · rintro id f s hc ⟨⟨hfl, ht, hm⟩, ⟨hp, hf, hr⟩, hport, hfit⟩
      rw [exec_tokenArrival_of_flight hc hfl ht,
        arrive_fault hm hp hf hr (arrivalFault_unfit hm hport hfit)]
    · rintro id f s hc ⟨⟨hfl, ht, hm⟩, ⟨hp, hf, hr⟩, hport, hfit, hend⟩
      rw [exec_tokenArrival_of_flight hc hfl ht,
        arrive_fault hm hp hf hr (arrivalFault_ended hm hport hfit hend)]
    · rintro id f e s hc ⟨⟨hfl, ht, hm⟩, hf, hk⟩
      rw [exec_tokenArrival_of_flight hc hfl ht, arrive_stray hm hf hk]

end Sys2Proof.Machine
end

section
/-! SUPPORT. O9: what a firing that asks memory for nothing leaves as it was (R47, R60, R190, R259). -/

namespace Sys2Proof.Machine

/-! ### What is kept from one state to the next -/

@[simp] theorem SameAround.refl (s : State) : SameAround s s := ⟨rfl, fun _ => rfl⟩

theorem SameAround.trans {s t u : State} (h : SameAround s t) (h' : SameAround t u) : SameAround s u :=
  ⟨h'.1.trans h.1, fun m => (h'.2 m).trans (h.2 m)⟩

/-- An effect that a fault forestalls. -/
theorem SameAround.unless {s : State} {c : Prop} [Decidable c] {x : Effect} {p : State × Effect} (h : SameAround s p.1) :
    SameAround s (if c then (s, x) else p).1 := by
  split
  · exact .refl s
  · exact h

/-- The two parts of `SameAround`, each in the form that the lemmas about the shared operations have. -/
theorem sameAround_iff {s t : State} : SameAround s t ↔ t.around = s.around ∧ ∀ m, t.contextRest m = s.contextRest m := Iff.rfl

/-- Memory, poison, write pointers and queues are among what is around a node. -/
theorem SameAround.memory {s t : State} (h : SameAround s t) :
    (∀ a, Memory.read t.mem a = Memory.read s.mem a) ∧ t.poison = s.poison ∧ t.pointers = s.pointers ∧ t.queues = s.queues := by
  have field : ∀ {α : Type} (p : State → α), p t.around = p s.around := fun p => congrArg p h.1
  have hm : t.mem = s.mem := field State.mem
  exact ⟨fun a => by rw [hm], field State.poison, field State.pointers, field State.queues⟩

/-! ### The instructions whose effect keeps it -/

/-- A firing of the instruction keeps what is around its node. -/
def FiringKeeps (i : Instr) : Prop := ∀ s t, exec i s = .next t → SameAround s t

/-- A firing of the instruction keeps what the trine units hold. -/
def FiringKeepsTrine (i : Instr) : Prop := ∀ s t, exec i s = .next t → SameTrine s t

theorem FiringKeeps.of_node {i : Instr} {o : Nat} {r : Rec} {p : FireSpec} {body : Fire → State → State × Effect}
    (h : ∀ s, exec i s = fireNode o r p body s) (hb : ∀ f s, SameAround s (body f s).1) : FiringKeeps i := fun s _ e =>
  ⟨fireNode_around (fun f s => (hb f s).1) ((h s).symm.trans e),
    fun m => fireNode_contextRest m (fun f s => (hb f s).2 m) ((h s).symm.trans e)⟩

theorem FiringKeeps.of_held {i : Instr} {o : Nat} {r : Rec} {p : FireSpec} {body : Fire → State → State × Effect}
    (h : ∀ s, exec i s = fireHeld o r p body s) (hb : ∀ f s, SameAround s (body f s).1) : FiringKeeps i := fun s _ e =>
  ⟨fireHeld_around (fun f s => (hb f s).1) ((h s).symm.trans e),
    fun m => fireHeld_contextRest m (fun f s => (hb f s).2 m) ((h s).symm.trans e)⟩

/-- A firing of the instruction keeps what is around its node and what the trine units hold. -/
def FiringKeepsAll (i : Instr) : Prop := FiringKeeps i ∧ FiringKeepsTrine i

theorem FiringKeepsAll.of_node {i : Instr} {o : Nat} {r : Rec} {p : FireSpec} {body : Fire → State → State × Effect}
    (h : ∀ s, exec i s = fireNode o r p body s) (hb : ∀ f s, SameAround s (body f s).1 ∧ SameTrine s (body f s).1) :
    FiringKeepsAll i :=
  ⟨.of_node h fun f s => (hb f s).1, fun s _ e k => fireNode_trineAt k (fun f s => (hb f s).2 k) ((h s).symm.trans e)⟩

/-- An instruction whose own effect on the state is none. -/
theorem FiringKeepsAll.of_pure {i : Instr} {o : Nat} {r : Rec} {p : FireSpec} {body : Fire → State → State × Effect}
    (h : ∀ s, exec i s = fireNode o r p body s) (hb : ∀ f s, (body f s).1 = s) : FiringKeepsAll i :=
  .of_node h fun f s => by simp only [hb f s, SameAround.refl, true_and]; exact fun _ => rfl

/-! ### The instructions that only make a token -/

theorem Fire.draws_keeps (f : Fire) (s : State) (n : Nat) : SameAround s (f.draws s n).2 ∧ SameTrine s (f.draws s n).2 := by
  unfold Fire.draws SameTrine
  dsimp only
  split <;> simp [sameAround_iff]

theorem checked_state (op : Fire → Word → Word → Word) (signed : Bool) (f : Fire) (s : State) : (checked op signed f s).1 = s := by
  unfold checked
  split <;> rfl

theorem bitwise_state (op : Word → Word → Word) (res : Fire → Int → Int → Int) (f : Fire) (s : State) :
    (bitwise op res f s).1 = s := by
  unfold bitwise
  split <;> rfl

/-- The instructions of `plainNode` change the state, if at all, by flags of their token or by a draw. -/
theorem plainNode_keeps (i : Instr) (h : plainNode i = true) : FiringKeepsAll i := by
  cases i <;> simp only [plainNode, Bool.false_eq_true] at h
  case pass | const | steer | merge | mergeu | gate | sync | sel | pack | unpack | sink | trap | pred | pand | por
      | pxor | pnot | vote | tsget =>
    exact .of_pure (fun _ => rfl) fun _ _ => rfl
  case add | sub | mul | mulh | mulhu | mad | neg | abs | min | max | minu | maxu | not | shl | shr | sra | rol
      | clz | popc | brev | bfx | bfi | adds | subs =>
    exact .of_pure (fun _ => rfl) fun _ _ => rfl
  case cmpeq | cmpne | cmplt | cmple | cmpltu | cmpleu | idx | idx2 | wrap | shuf | lanex | lanei | bcast | rsum
      | rmin | rmax =>
    exact .of_pure (fun _ => rfl) fun _ _ => rfl
  case fmin | fmax | fabs | fneg | fcmpeq | fcmplt | fcmple | fcmpun | fclass | frcp | frsq | fexp2 | flog2 | fsin
      | fcos | ftanh | fsigm | fsilu | frmax | frmin =>
    exact .of_pure (fun _ => rfl) fun _ _ => rfl
  case div | divu | rem | remu => exact .of_pure (fun _ => rfl) (checked_state _ _)
  case and | or | xor | andn => exact .of_pure (fun _ => rfl) (bitwise_state _ _)
  case flags => exact .of_node (fun _ => rfl) fun _ _ => ⟨⟨rfl, fun _ => rfl⟩, fun _ => rfl⟩
  case fadd | fsub | fmul | fma | fnma | fdiv | fsqrt | cvtf | cvtfi | cvtif | scl | uscl | frsum =>
    exact .of_node (fun _ => rfl) fun f s => f.draws_keeps s _

/-! ### The effects of the other instructions -/

theorem State.cutShort_keeps (s : State) (g : Nat) (x : Nat × Nat × Contraction) : SameAround s (s.cutShort g x) := by
  simp [State.cutShort, sameAround_iff]

theorem State.hold_keeps (s : State) (f : Fire) (x : Hold) : SameAround s (s.hold f x) := by
  simp [State.hold, sameAround_iff]

theorem State.setEmitted_keeps (s : State) (f : Fire) (i : Nat) : SameAround s (s.setEmitted f i) := by
  simp [State.setEmitted, sameAround_iff]

theorem State.stageEffect_keeps (s : State) (f : Fire) (x : Staged) : SameAround s (s.stageEffect f x) := by
  simp [State.stageEffect, sameAround_iff]

theorem State.dependOn_keeps (s : State) (g col from' c ser : Nat) : SameAround s (s.dependOn g col from' c ser) := by
  unfold State.dependOn
  split <;> simp [sameAround_iff]

theorem State.consume_keeps (s : State) (f : Fire) : SameAround s (s.consume f) := by
  simp [sameAround_iff]

theorem State.pipe_keeps (s : State) (f : Fire) (n : Nat) : SameAround s (s.pipe f n) := by
  simp [sameAround_iff]

theorem State.modRegion_keeps (s : State) (g : Nat) (f : Region → Region) : SameAround s (s.modRegion g f) := ⟨rfl, fun _ => rfl⟩

theorem State.modColour_keeps (s : State) (g c : Nat) (f : Colour → Colour) : SameAround s (s.modColour g c f) := ⟨rfl, fun _ => rfl⟩

theorem State.modSlot_keeps (s : State) (h k : Nat) (f : SlotState → SlotState) : SameAround s (s.modSlot h k f) :=
  ⟨rfl, fun _ => rfl⟩

theorem State.setAcc_keeps (s : State) (h m : Nat) (a : AccFile) : SameAround s (s.setAcc h m a) := ⟨rfl, fun _ => rfl⟩

theorem State.setStay_keeps (s : State) (h m : Nat) (a : StayFile) : SameAround s (s.setStay h m a) := ⟨rfl, fun _ => rfl⟩

theorem State.resultDelay_keeps (s : State) (f : Fire) (n : Nat) : SameAround s (s.resultDelay f n).2 := ⟨rfl, fun _ => rfl⟩

theorem State.inFlight_keeps (s : State) (f : Fire) (d : Nat) : SameAround s (s.inFlight f d) := ⟨rfl, fun _ => rfl⟩

theorem waveFire_keeps (b : Bool) (f : Fire) (s : State) : SameAround s (waveFire b f s).1 := by
  unfold waveFire State.countWave
  dsimp only
  split_ifs <;> simp [sameAround_iff]

theorem cntfFire_keeps (f : Fire) (s : State) : SameAround s (cntfFire f s).1 := by
  unfold cntfFire
  dsimp only
  split <;> simp [sameAround_iff]

theorem callocFire_keeps (f : Fire) (s : State) : SameAround s (callocFire f s).1 := by
  refine .unless ?_
  split <;> simp [sameAround_iff]

theorem endColour_keeps (f : Fire) (s : State) : SameAround s (endColour f s).1 := by
  unfold endColour
  split
  · exact s.cutShort_keeps _ _
  · exact .unless (s.modColour_keeps _ _ _)

theorem cbindFire_keeps (f : Fire) (s : State) : SameAround s (cbindFire f s).1 := by
  refine .unless ?_
  dsimp only
  split
  · exact .refl s
  · exact (s.modRegion_keeps _ _).trans (State.dependOn_keeps _ _ _ _ _ _)

theorem cretFire_keeps (f : Fire) (s : State) : SameAround s (cretFire f s).1 :=
  .unless ((s.pipe_keeps f 1).trans (State.hold_keeps _ _ _))

theorem injectFire_keeps (f : Fire) (s : State) : SameAround s (injectFire f s).1 := by
  refine .unless ?_
  dsimp only
  split
  · exact .refl s
  · have ht := fun v g' c ser => (s.modRegion_keeps f.g v).trans (State.dependOn_keeps _ f.g f.col g' c ser)
    split
    · exact (ht _ _ _ _).trans (State.modRegion_keeps _ _ _)
    · exact ht _ _ _ _

theorem markMarkerFire_keeps (f : Fire) (s : State) : SameAround s (markMarkerFire f s).1 :=
  (s.setEmitted_keeps f 0).trans (State.consume_keeps _ f)

/-- Counting an emission: after the last one the operands are consumed. -/
theorem emission_keeps (f : Fire) (s : State) (c : Prop) [Decidable c] (j : Nat) :
    SameAround s (if c then (s.setEmitted f 0).consume f else s.setEmitted f j) := by
  split
  · exact (s.setEmitted_keeps f 0).trans (State.consume_keeps _ f)
  · exact s.setEmitted_keeps f j

theorem rangeFire_keeps (f : Fire) (s : State) : SameAround s (rangeFire f s).1 := emission_keeps f s _ _

theorem State.countElem_keeps (s : State) (f : Fire) : SameAround s (s.countElem f) := by
  simp [State.countElem, sameAround_iff]

theorem State.unwithhold_keeps (s : State) (f : Fire) : SameAround s (s.unwithhold f) := by
  simp [State.unwithhold, sameAround_iff]

theorem State.withhold_keeps (s : State) (f : Fire) (d : Denied) : SameAround s (s.withhold f d) := by
  simp [State.withhold, sameAround_iff]

theorem agenFire_keeps (f : Fire) (s : State) : SameAround s (agenFire f s).1 := by
  unfold agenFire
  dsimp only
  split
  · exact s.withhold_keeps f _
  · refine (s.unwithhold_keeps f).trans ?_
    split
    · split
      · exact State.consume_keeps _ f
      · exact (State.consume_keeps _ f).trans (State.countElem_keeps _ f)
    · exact (emission_keeps f _ _ _).trans (State.countElem_keeps _ f)

theorem qntbFire_keeps (f : Fire) (s : State) : SameAround s (qntbFire f s).1 :=
  (f.draws_keeps s _).1.trans (State.modColour_keeps _ _ _ _)

theorem smrgFire_keeps (f : Fire) (s : State) : SameAround s (smrgFire f s).1 := by
  unfold smrgFire
  dsimp only
  split <;> exact (f.draws_keeps s _).1

theorem tdWrite_keeps (b : Bool) (bad : Fire → Bool) (write : Fire → BitVec 512 × BitVec 512) (f : Fire) (s : State) :
    SameAround s (tdWrite b bad write f s).1 :=
  .unless (.unless (s.stageEffect_keeps _ _))

/-- A value that a firing waits for and that is then on its way. -/
theorem answered_keeps (f : Fire) (s : State) (n d : Nat) : SameAround s ((s.resultDelay f n).2.inFlight f d) :=
  (s.resultDelay_keeps f n).trans (State.inFlight_keeps _ f d)

theorem cdxsetFire_keeps (f : Fire) (s : State) : SameAround s (cdxsetFire f s).1 :=
  .unless (s.stageEffect_keeps _ _)

theorem State.trineStep_keeps (s : State) (g h k : Nat) (c : Contraction) : SameAround s (s.trineStep g h k c) := by
  unfold State.trineStep
  dsimp only
  split
  · simp [sameAround_iff]
  · split_ifs <;> simp [sameAround_iff, State.setAcc, State.setNode]

theorem beginFire_keeps (f : Fire) (s : State) : SameAround s (beginFire f s).1 := by
  refine .unless (.unless (.unless ?_))
  dsimp only
  split
  · exact s.trineStep_keeps _ _ _ _
  · exact (s.setAcc_keeps _ _ _).trans (State.trineStep_keeps _ _ _ _ _)

theorem lutpFire_keeps (f : Fire) (s : State) : SameAround s (lutpFire f s).1 :=
  .unless (s.setStay_keeps _ _ _)

theorem lutmFire_keeps (f : Fire) (s : State) : SameAround s (lutmFire f s).1 :=
  .unless (.unless (.unless (s.setAcc_keeps _ _ _)))

theorem accrdFire_keeps (f : Fire) (s : State) : SameAround s (accrdFire f s).1 :=
  ((f.draws_keeps s _).1.trans (State.setAcc_keeps _ _ _ _)).trans (State.modColour_keeps _ _ _ _)

theorem accldFire_keeps (f : Fire) (s : State) : SameAround s (accldFire f s).1 :=
  .unless (s.setAcc_keeps _ _ _)

theorem accxFire_keeps (f : Fire) (s : State) : SameAround s (accxFire f s).1 :=
  .unless (.unless ((s.setAcc_keeps _ _ _).trans (State.modColour_keeps _ _ _ _)))

theorem tstayFire_keeps (f : Fire) (s : State) : SameAround s (tstayFire f s).1 :=
  .unless (s.setStay_keeps _ _ _)

theorem txprFire_keeps (f : Fire) (s : State) : SameAround s (txprFire f s).1 :=
  .unless ((s.pipe_keeps f 2).trans (State.modSlot_keeps _ _ _ _))

theorem retgFire_keeps (f : Fire) (s : State) : SameAround s (retgFire f s).1 := by
  have he := endColour_keeps f s
  refine .unless ?_
  split
  · rename_i u hu
    rw [hu] at he
    exact he.trans (State.modRegion_keeps _ _ _)
  · exact he

theorem State.oweMarkers_keeps (s : State) (g : Nat) (t : Token) : SameAround s (s.oweMarkers g t) := by
  unfold State.oweMarkers
  refine ⟨foldl_around _ (fun s x => ?_) _ _, fun m => foldl_contextRest m _ (fun s x => ?_) _ _⟩ <;> split <;> simp

theorem drainFire_keeps (f : Fire) (s : State) : SameAround s (drainFire f s).1 :=
  ((s.modRegion_keeps _ _).trans (State.oweMarkers_keeps _ _ _)).trans (State.pipe_keeps _ f 1)

/-- The instructions of `stagingNode` change tokens, nodes, activations and the trine unit, and nothing around them. -/
theorem stagingNode_keeps (i : Instr) (h : stagingNode i = true) : FiringKeeps i := by
  cases i <;> simp only [stagingNode, Bool.false_eq_true] at h
  case cntf => exact .of_node (fun _ => rfl) cntfFire_keeps
  case delay => exact .of_node (fun _ => rfl) fun f s => (s.pipe_keeps f _).trans (State.hold_keeps _ _ _)
  case mark => exact .of_held (fun _ => rfl) fun f s => s.setEmitted_keeps f 1
  case markMarkerEmission => exact .of_held (fun _ => rfl) markMarkerFire_keeps
  case spawn | tail | wrsr | prio | halt => exact .of_node (fun _ => rfl) fun f s => s.stageEffect_keeps f _
  case wave | wexit => exact .of_node (fun _ => rfl) (waveFire_keeps _)
  case calloc => exact .of_node (fun _ => rfl) callocFire_keeps
  case cfree => exact .of_node (fun _ => rfl) endColour_keeps
  case cbind => exact .of_node (fun _ => rfl) cbindFire_keeps
  case cret => exact .of_node (fun _ => rfl) cretFire_keeps
  case inject => exact .of_node (fun _ => rfl) injectFire_keeps
  case range | rangeEmission => exact .of_held (fun _ => rfl) rangeFire_keeps
  case agen | agenEmission => exact .of_held (fun _ => rfl) agenFire_keeps
  case qntb => exact .of_node (fun _ => rfl) qntbFire_keeps
  case dqntb | had => exact .of_node (fun _ => rfl) fun f s => (f.draws_keeps s _).1
  case rope r => exact .of_node (fun _ => rfl) fun f s => (f.draws_keeps s ((elemsOf r.fmt.toNat f.ta.lanes).length / 2 * 2)).1
  case smrg => exact .of_node (fun _ => rfl) smrgFire_keeps
  case expsel | wptr => exact .of_node (fun _ => rfl) fun _ s => .refl s
  case tdld | tdset | tddrop | tdkeep | tdreg => exact .of_node (fun _ => rfl) (tdWrite_keeps _ _ _)
  case cdxset => exact .of_node (fun _ => rfl) cdxsetFire_keeps
  case tdq => exact .of_node (fun _ => rfl) fun f s => answered_keeps f s 3 _
  case wpwait | seqrd | seqwait | rdsr => exact .of_node (fun _ => rfl) fun f s => answered_keeps f s 0 _
  case tric | mma | tris | mmas => exact .of_held (fun _ => rfl) beginFire_keeps
  case lutp => exact .of_node (fun _ => rfl) lutpFire_keeps
  case lutm => exact .of_node (fun _ => rfl) lutmFire_keeps
  case accrd => exact .of_node (fun _ => rfl) accrdFire_keeps
  case accz => exact .of_node (fun _ => rfl) fun _ s => s.setAcc_keeps _ _ _
  case accld => exact .of_node (fun _ => rfl) accldFire_keeps
  case accx => exact .of_node (fun _ => rfl) accxFire_keeps
  case tstay => exact .of_node (fun _ => rfl) tstayFire_keeps
  case txpr => exact .of_node (fun _ => rfl) txprFire_keeps
  case retg => exact .of_node (fun _ => rfl) retgFire_keeps
  case yield => exact .of_node (fun _ => rfl) fun _ s => s.modSlot_keeps _ _ _
  case wdog => exact .of_node (fun _ => rfl) fun _ s => s.modRegion_keeps _ _
  case drain => exact .of_node (fun _ => rfl) drainFire_keeps

/-! ### O9 -/

/-- Settles O9: `plainNode_keeps` and `stagingNode_keeps`, with what is around a node read back as memory, poison, write pointers
and queues. -/
theorem nodeFiringFrames : Obligations.NodeFiringFrames := by
  refine ⟨fun i s t hi e => ?_, fun i s t hi e => ?_⟩
  · have hk := plainNode_keeps i hi
    exact ⟨hk.1 s t e, hk.2 s t e, (hk.1 s t e).memory⟩
  · have hs := stagingNode_keeps i hi s t e
    exact ⟨hs, hs.memory⟩

end Sys2Proof.Machine
end

section
/-! SUPPORT. What a firing emits, and changes of the state that grant its colour no other width (R47, R78). -/

namespace Sys2Proof.Machine

/-- A firing whose body answers a token that its colour has room for, and the state in which it is emitted. -/
theorem fireNode_emit {o lat : Nat} {r : Rec} {p : FireSpec} {body : Fire → State → State × Effect} {s t : State} {f : Fire}
    {x : Token} (e : s.fires p o r f = true) (hb : body f (s.taken f) = (t, .emit lat x)) (hw : t.tooWide f.g f x = false) :
    fireNode o r p body s = .next ((t.emitted f lat x).rejoined f r) := by
  rw [fires_next body e, hb, conclude_emit hw]

/-- Two tokens leave to D0 and to D1. -/
theorem conclude_pair (s : State) (f : Fire) (t0 t1 : Token) : s.conclude f (.pair 1 t0 t1) = s.emittedPair f t0 t1 := by
  simp only [State.conclude, State.emittedPair, Bool.and_eq_true, decide_eq_true_eq]

/-- An instruction that emits two tokens and does nothing else. -/
theorem acts_pair {i : Rec → Instr} {o : Nat} {p : FireSpec} {t0 t1 : Fire → Token}
    (h : ∀ r s, exec (i r) s = fireNode o r p (fun f s => (s, .pair 1 (t0 f) (t1 f))) s) :
    Acts i o p (fun _ _ => True) (fun f s => s.emittedPair f (t0 f) (t1 f)) :=
  acts_of h fun f s _ _ => conclude_pair s f (t0 f) (t1 f)

/-- A change in a slot grants no other width. -/
theorem State.modSlot_tooWide (s : State) (h k : Nat) (fn : SlotState → SlotState) (g : Nat) (f : Fire) (t : Token) :
    (s.modSlot h k fn).tooWide g f t = s.tooWide g f t := rfl

/-- Nor does a change in a node. -/
theorem State.modNode_tooWide (s : State) (h k n : Nat) (fn : NodeState → NodeState) (g : Nat) (f : Fire) (t : Token) :
    (s.modNode h k n fn).tooWide g f t = s.tooWide g f t := rfl

/-- Nor does one in the firing's colour that keeps its WID. -/
theorem State.modColour_tooWide (s : State) (f : Fire) (fn : Colour → Colour) (t : Token) (hw : ∀ c, (fn c).wid = c.wid) :
    (s.modColour f.g f.col fn).tooWide f.g f t = s.tooWide f.g f t := by
  by_cases ht : t.col = f.col
  · simp [State.tooWide, ht, State.colour, Tab.get_set_same, hw]
  · have hne : (t.col == f.col) = false := beq_false_of_ne ht
    simp only [State.tooWide, hne, Bool.false_and]

/-- Nor does the staging of an effect. -/
theorem State.stageEffect_tooWide (s : State) (f : Fire) (x : Staged) (t : Token) :
    (s.stageEffect f x).tooWide f.g f t = s.tooWide f.g f t :=
  s.modColour_tooWide f _ t fun _ => rfl

end Sys2Proof.Machine
end

section
/-! SUPPORT. O19: PASS, GATE, STEER, CONST, TRAP, MERGE, MERGEU, SEL and SYNC (R81 to R84, R92). -/

namespace Sys2Proof.Machine

/-! ### TRAP (R92) -/

/-- A lane that qualifies and is not zero traps. -/
theorem trapped_of_lane {f : Fire} {i : Nat} (hq : f.qual.getD i false = true) (hl : f.ta.lanes.getD i 0 ≠ 0) : trapped f = true := by
  have hi : i < f.qual.length := by
    by_contra h
    rw [List.getD_eq_default _ _ (Nat.not_lt.mp h)] at hq
    cases hq
  have hj : i < f.ta.lanes.length := by
    by_contra h
    exact hl (List.getD_eq_default _ _ (Nat.not_lt.mp h))
  rw [List.getD_eq_getElem _ _ hi] at hq
  rw [List.getD_eq_getElem _ _ hj] at hl
  refine List.any_eq_true.mpr ⟨(f.qual[i], f.ta.lanes[i]), ?_, Bool.and_eq_true_iff.mpr ⟨hq, bne_iff_ne.mpr hl⟩⟩
  exact List.mem_iff_getElem.mpr ⟨i, by simp [hi, hj], by simp⟩

/-- Such a lane is what TRAP's fault needs; its detail is LIT32. -/
theorem trap_faults : Faults .trap 0x015 {} (fun f _ => ∃ i, f.qual.getD i false = true ∧ f.ta.lanes.getD i 0 ≠ 0) 0x0A
    (fun f => f.nrec.lit32.toNat) := by
  refine faults_of (body := fun _ f s => (s, if trapped f then .fault faultTrap f.lit else .emit 1 f.passed)) (fun _ _ => rfl) ?_
  rintro f s - ⟨i, hq, hl⟩
  simp only [trapped_of_lane hq hl, if_true]
  rfl

/-! ### MERGE and MERGEU (R81, R82) -/

theorem mergeToken_eq (f : Fire) : mergeToken f = f.moved (if (f.tp.lanes.headD 0).toNat % 2 = 1 then f.ta else f.tb) := by
  unfold mergeToken armOf
  split <;> rfl

theorem mergeuToken_eq (f : Fire) : mergeuToken f = f.moved (f.a.getD f.tb) := by
  unfold mergeuToken
  cases f.a <;> rfl

/-! ### O19 -/

/-- Settles O19: each instruction is `fireNode` with the token of its clause, once MERGE's arm and MERGEU's are named; TRAP takes its
fault where `trapped_of_lane` finds a lane, and lets A pass otherwise. -/
theorem passingAndJoiningNodesEmit : Obligations.PassingAndJoiningNodesEmit := by
  refine ⟨?pass, ?gate, ?steer, ?const, ?trap, trap_faults, ?merge, ?mergeu, ?sel, ?sync⟩
  case pass | gate | steer | const | sel => exact gives_of (fun _ _ => rfl) fun _ _ _ => rfl
  case trap =>
    intro r s f e ht hw
    have hb : trapped f ≠ true := Bool.eq_false_iff.mp ht
    exact fireNode_emit e (congrArg (Prod.mk (s.taken f)) (if_neg hb)) hw
  case merge => exact gives_of (fun _ _ => rfl) fun f s _ => by rw [mergeToken_eq]
  case mergeu => exact gives_of (fun _ _ => rfl) fun f s _ => by rw [mergeuToken_eq]
  case sync => exact acts_pair fun _ _ => rfl

end Sys2Proof.Machine
end

section
/-! SUPPORT. O20: PACK, UNPACK, predicates, flags, tags and comparisons (R89, R93 to R95, R104). -/

namespace Sys2Proof.Machine

/-! ### Predicates (R93) -/

/-- Bits of predicate lanes combined are the lanes combined. -/
theorem zipWith_predBits (op : Bool → Bool → Bool) (a b : List Word) : List.zipWith op (predBits a) (predBits b) =
    List.zipWith (fun x y => op (x.toNat % 2 == 1) (y.toNat % 2 == 1)) a b := by
  simp only [predBits, List.zipWith_map]

/-- An instruction whose meaning is `predCombine`. -/
theorem gives_combined {i : Rec → Instr} {o : Nat} {op : Bool → Bool → Bool} {by' : Word → Word → Bool}
    (h : ∀ r s, exec (i r) s = fireNode o r {} (predCombine op) s)
    (hop : ∀ a b : Word, op (a.toNat % 2 == 1) (b.toNat % 2 == 1) = by' a b) :
    Gives i o {} 1 (fun f _ => f.predicate (List.zipWith by' f.ta.lanes f.tb.lanes) 0) :=
  gives_of h fun f s _ => by simp only [predCombine, zipWith_predBits, hop]

/-- Two lanes differ in bit 0 where their sum is odd. -/
theorem bit_bne_eq_sum_odd (a b : Nat) : ((a % 2 == 1) != (b % 2 == 1)) = ((a + b) % 2 == 1) := by
  rcases Nat.mod_two_eq_zero_or_one a with ha | ha <;> rcases Nat.mod_two_eq_zero_or_one b with hb | hb <;> simp [Nat.add_mod, ha, hb]

/-- Bit 0 is clear where the lane is even. -/
theorem not_bit_eq_even (a : Nat) : (!(a % 2 == 1)) = (a % 2 == 0) := by
  rcases Nat.mod_two_eq_zero_or_one a with ha | ha <;> simp [ha]

/-- VOTE's bit by the number of lanes whose bit 0 is set. -/
theorem voteBit_predBits (mode : Nat) (ls : List Word) : voteBit mode (predBits ls) =
    (match mode with
      | 0 => decide (0 < (ls.filter (fun a => a.toNat % 2 == 1)).length)
      | 1 => decide ((ls.filter (fun a => a.toNat % 2 == 1)).length = ls.length)
      | _ => (ls.filter (fun a => a.toNat % 2 == 1)).length % 2 == 1) := by
  rw [Bool.eq_iff_iff]
  match mode with
  | 0 => simp only [voteBit, predBits, List.any_map, List.any_eq_true, Function.comp_apply, decide_eq_true_eq,
      List.length_filter_pos_iff]
  | 1 => simp only [voteBit, predBits, List.all_map, List.all_eq_true, Function.comp_apply, decide_eq_true_eq,
      List.length_filter_eq_length_iff]
  | _ + 2 => simp only [voteBit, predBits, List.filter_map, List.length_map, Function.comp_def]

/-! ### Comparisons (R104) -/

/-- A comparison whose lanes `op` compares as `by'` says. -/
theorem gives_comparison {i : Rec → Instr} {o : Nat} {op by' : Word → Word → Bool}
    (h : ∀ r s, exec (i r) s = fireNode o r {} (compare op) s) (hop : ∀ a b, op a b = by' a b) :
    Gives i o {} 1 (fun f _ => { f.predicate (List.zipWith by' f.ta.lanes f.tb.lanes) 0 with sc := false }) := by
  obtain rfl : op = by' := funext₂ hop
  exact gives_of h fun _ _ _ => rfl

/-! ### O20 -/

/-- Settles O20: the predicate instructions by `gives_combined` and the lemmas that read bit 0 of their lanes as a parity, VOTE by the
number of lanes whose bit 0 is set, the comparisons by `gives_comparison`; the others are `fireNode` with the token of their clause. -/
theorem predicatesAndComparisonsEmit : Obligations.PredicatesAndComparisonsEmit := by
  refine ⟨?pack, ?unpack, ?pred, ?pand, ?por, ?pxor, ?pnot, ?vote, ?flags, ?tsget, ?eq, ?ne, ?lt, ?le, ?ltu, ?leu⟩
  case pack | tsget => exact gives_of (fun _ _ => rfl) fun _ _ _ => rfl
  case unpack => exact acts_pair fun _ _ => rfl
  case pred => exact gives_of (body := fun r f s => (s, .emit 1 (f.predicate (f.ta.lanes.map (fun w =>
      (laneElems r.fmt.toNat w).any (elemTrue r.fmt.toNat f.ta.scw))) 0))) (fun _ _ => rfl) fun _ _ _ => rfl
  case pand | por => exact gives_combined (fun _ _ => rfl) fun _ _ => rfl
  case pxor => exact gives_combined (fun _ _ => rfl) fun a b => bit_bne_eq_sum_odd a.toNat b.toNat
  case pnot =>
    refine gives_of (fun _ _ => rfl) fun f s _ => ?_
    simp only [predBits, List.map_map, Function.comp_def, not_bit_eq_even]
  case vote =>
    exact gives_of (fun _ _ => rfl) fun f s _ => congrArg (fun b => (s, Effect.emit 2 (f.predicate (List.replicate f.wid b) 0)))
      (voteBit_predBits (f.lit % 4) f.ta.lanes)
  case flags => exact givesFrom_of (fun _ _ => rfl) fun _ _ _ => rfl
  case ne => exact gives_comparison (fun _ _ => rfl) fun _ _ => decide_not.symm
  case eq | lt | le | ltu | leu => exact gives_comparison (fun _ _ => rfl) fun _ _ => rfl

end Sys2Proof.Machine
end

section
/-! SUPPORT. O21: SINK, CNTF, DELAY, MARK and SPAWN (R81, R90, R91, R260, R318). -/

namespace Sys2Proof.Machine

/-! ### CNTF (R91) -/

/-- The count slot that a CNTF firing finds. -/
def Fire.counting (f : Fire) (s : State) : FrameSlot :=
  countSlot (s.slot f.h f.k).frames f.n f.col ((s.colour f.g f.col).owave % ((s.colour f.g f.col).km1 + 1)) f.wave

/-- A firing before the n-th is counted, and its FLG and TNT are kept with the count. -/
theorem cntfFire_counts {f : Fire} {s : State} {x y : FrameSlot} (hx : f.counting s = x) (hn : x.count + 1 ≠ f.lit)
    (hy : y = { x with count := x.count + 1, flg := x.flg ||| f.ta.flg, tnt := x.tnt || f.ta.tnt }) :
    cntfFire f s = ((s.pipe f 1).modSlot f.h f.k (fun v => { v with frames := putSlot v.frames y }), .done) := by
  subst hx hy
  exact if_neg hn

/-- The n-th is emitted with what the n tokens carried, and the count begins again. -/
theorem cntfFire_emits {f : Fire} {s : State} {x : FrameSlot} (hx : f.counting s = x) (hn : x.count + 1 = f.lit) :
    cntfFire f s =
      (s.modSlot f.h f.k (fun v => { v with frames := putSlot v.frames { x with count := 0, flg := 0, tnt := false } }),
        .emit 1 { f.passed with flg := x.flg ||| f.ta.flg, tnt := x.tnt || f.ta.tnt }) := by
  subst hx
  exact if_pos hn

/-! ### O21 -/

/-- Settles O21: CNTF by its two branches, the others each by the effect that its body answers; what SPAWN and MARK change before they
emit grants no other width. -/
theorem countingNodesAct : Obligations.CountingNodesAct := by
  refine ⟨?sink, ?counts, ?emits, ?delay, ?mark, ?marker, ?spawn⟩
  case sink => exact acts_of (body := fun _ _ s => (s, .quiet)) (fun _ _ => rfl) fun _ _ _ _ => rfl
  case counts =>
    intro r s f e u c x hn y
    show execCntf r s = _
    rw [execCntf, fires_next _ e, cntfFire_counts (x := x) rfl hn rfl]
    rfl
  case emits =>
    intro r s f e u c x t hn hw
    exact fireNode_emit e (cntfFire_emits rfl hn) ((u.modSlot_tooWide f.h f.k _ f.g f t).trans hw)
  case delay => exact acts_of (fun _ _ => rfl) fun _ _ _ _ => rfl
  case mark =>
    exact actsHeld_of (body := fun _ f s => (s.setEmitted f 1, .emit 1 f.passed)) (fun _ _ => rfl)
      fun f s _ hw => conclude_emit ((s.modNode_tooWide f.h f.k f.n _ f.g f _).trans hw)
  case marker => exact actsHeld_of (body := fun _ => markMarkerFire) (fun _ _ => rfl) fun f s _ hw => conclude_emit hw
  case spawn =>
    intro r s f e hw
    exact fireNode_emit e rfl (((s.taken f).stageEffect_tooWide f _ f.passed).trans hw)

end Sys2Proof.Machine
end

section
/-! SUPPORT. O22: WAVE, WEXIT, CALLOC, CFREE, CBIND, CRET and INJECT (R71, R85 to R88). -/

namespace Sys2Proof.Machine

/-! ### CALLOC (R86) -/

/-- CALLOC's token: A under the new colour, its payload widened to the width granted. -/
def Fire.widened (f : Fire) (n : Nat) : Token :=
  { f.passed with col := n, wave := 0, wid := callocWidth f, lanes := widen (callocWidth f) f.ta.lanes
                  res := if callocWidth f = f.ta.wid then f.ta.res else tokenResidue f.ta.fmt (widen (callocWidth f) f.ta.lanes) }

/-- A timestamp that is none, or not behind the horizon, is allocated, and the new colour keeps a copy of its token. -/
theorem callocFire_granted {f : Fire} {s : State} {n : Nat} {g' : Region} (ht : callocTs f = 0 ∨ s.horizon f.g ≤ callocTs f)
    (ha : (s.region f.g).allocate (s.ovsz f.g)
      (f.want s (callocWidth f) (callocTs f) (bits f.lit 11 6) (bits f.lit 15 12)) false = .granted n g') :
    callocFire f s = ((s.setRegion f.g g').modColour f.g n (fun c => { c with copy := some (f.widened n) }), .emit 2 (f.widened n)) := by
  have hl : (callocTs f != 0 && decide (callocTs f < s.horizon f.g)) = false := by
    rcases ht with h | h
    · simp [h]
    · simp [Nat.not_lt.mpr h]
  simp only [callocFire, hl, ha, Bool.false_eq_true, if_false]
  rfl

/-! ### CFREE (R87) -/

/-- A colour of which nothing is left ends. -/
theorem endColour_ends {f : Fire} {s : State} (hu : s.unfinished f.g f.col = none) (hs : s.surplus f.g f.col = false) :
    endColour f s = (s.modColour f.g f.col (fun c => { c with st := .ended }), .quiet) := by
  simp only [endColour, hu, hs, Bool.false_eq_true, if_false]

/-! ### CBIND, INJECT and CRET (R88) -/

/-- A Live colour is not found to be anything else. -/
theorem Colour.not_bne_live {c : Colour} (h : c.st = .live) : ¬ (c.st != .live) = true := by simp [h]

/-- The token of a colour that is no group's waits at its node until the colour commits. -/
theorem cretFire_free {f : Fire} {s : State} (h : (s.colour f.g f.col).group = none) :
    cretFire f s = ((s.pipe f 1).hold f
      { kind := .cret
        tok := { f.passed with col := (s.colour f.g f.col).pcol, wave := (s.colour f.g f.col).pwave, since := s.cycle }
        nrec := f.nrec, due := s.cycle, ready := false, col := f.col, wave := f.wave, pser := (s.colour f.g f.col).pser }, .done) := by
  simp only [cretFire, h, Option.isSome_none, Bool.false_eq_true, if_false]

/-! ### O22 -/

/-- Settles O22: WAVE and WEXIT emit the wave of `Colour.waveOut`; the others each by the branch of their effect that the clause's
conditions leave. -/
theorem colourNodesAct : Obligations.ColourNodesAct := by
  refine ⟨?wave, ?wexit, ?calloc, ?cfree, ?cbind, ?cret, ?inject⟩
  case wave | wexit => exact givesFrom_of (fun _ _ => rfl) fun _ _ _ => rfl
  case calloc =>
    intro r s f n g' e u w out ht ha v hw
    exact fireNode_emit e (callocFire_granted ht ha) hw
  case cfree =>
    exact acts_of (fun _ _ => rfl) fun f s _ h => by rw [endColour_ends h.1 h.2]; rfl
  case cbind =>
    intro r s f e u c out hl v hw
    exact fireNode_emit e (if_neg (Colour.not_bne_live hl)) hw
  case cret =>
    exact acts_of (fun _ _ => rfl) fun f s _ h => by rw [cretFire_free h]; rfl
  case inject =>
    intro r s f e hl u v hw
    exact fireNode_emit e (if_neg (Colour.not_bne_live hl)) hw

end Sys2Proof.Machine
end

section
/-! SUPPORT. O43: what becomes of a slot between its firings (R72, R73, R144, R145, R151, R238, R244). -/

namespace Sys2Proof.Machine

/-! ### Weights, starving, yields and contractions (R72, R73, R144, R145, R244) -/

theorem reweight_weighs (h k : Nat) : Does .reweight (.slot h k) (fun s => s.cycle % 1024 = 0)
    (fun s => s.modSlot h k (fun x => { x with cfg := { x.cfg with nodes := x.cfg.nodes.map (fun e =>
      let wgt := (match Tab.find x.cfg.store e.1 with
        | some w => (decodeFields w).wgt.toNat
        | none => 0)
      (e.1, { e.2 with weight := min 8 (wgt + 1 + e.2.qsum / 1024 / 4), qsum := 0 })) } })) := by
  rintro s hc hz
  show execReweight s = _
  rw [execReweight, hc]
  exact congrArg Host.Outcome.next (if_pos hz)

theorem starving_begins (h k : Nat) : Does .starving (.slot h k)
    (fun s => 65536 ≤ (s.slot h k).starve ∧ (s.hearth h).starving = none)
    (fun s => s.modHearth h (fun x => { x with starving := some 0 })) := by
  rintro s hc ⟨hs, hn⟩
  show execStarving s = _
  simp only [execStarving, hc, hs, hn, Option.isNone_none, decide_true, Bool.and_self, if_true]

theorem yieldExpiry_ends (h k : Nat) : Does .yieldExpiry (.slot h k) (fun s => (s.slot h k).yieldUntil ≤ s.cycle)
    (fun s => s.modSlot h k (fun x => { x with yieldUntil := 0 })) := by
  rintro s hc hy
  show execYieldExpiry s = _
  simp only [execYieldExpiry, hc, hy, if_true]

theorem contractionStep_steps (h k g : Nat) (c : Contraction) : Does .contractionStep (.slot h k)
    (fun s => (s.slot h k).region = some g ∧ (s.slot h k).contraction = some c ∧ s.stepDue h k = true ∧
      c.foreign c.walk (s.node h k c.node) = none ∧ stepFault c c.walk (c.taking c.walk (s.node h k c.node)) = none)
    (fun s => s.trineStep g h k c) := by
  rintro s hc ⟨hg, hx, hd, hf, -⟩
  show execContractionStep s = _
  simp only [execContractionStep, hc, hg, hx, hd, hf, Bool.not_true, Bool.false_eq_true, if_false]

theorem contractionEnd_ends (h k g : Nat) (c : Contraction) (x : GroupSum) : Does .contractionEnd (.slot h k)
    (fun s => (s.slot h k).region = some g ∧ (s.slot h k).contraction = some c ∧ c.last = some x ∧ c.done = true ∧
      c.lastStep + 8 ≤ s.cycle)
    (fun s => s.endContraction g h k c x) := by
  rintro s hc ⟨hg, hx, hl, hd, ht⟩
  show execContractionEnd s = _
  simp only [execContractionEnd, hc, hg, hx, hl, hd, ht, decide_true, Bool.and_self, if_true]

/-! ### Places of files (R238) -/

/-- Where one context's file is put does not move another's. -/
theorem Hearth.setPlace_placeOf_other (x : Hearth) {o m : Nat} (stay : Bool) (p : FilePlace) (hm : o ≠ m) :
    (x.setPlace o stay p).placeOf m stay = x.placeOf m stay := by
  cases stay <;> simp [Hearth.placeOf, Hearth.setPlace, Tab.modify, Tab.get_set_other _ _ _ _ _ hm]

/-- Where a context has no T1 home, nothing is written there. -/
theorem State.writeT1Home_of_none {s : State} {h m : Nat} (hn : s.t1HomeAt h m = none) : s.writeT1Home h m = s := by
  simp only [State.writeT1Home, hn]

/-- A change in a hearth leaves the T1 homes where they are. -/
theorem State.modHearth_t1HomeAt (s : State) (h : Nat) (fn : Hearth → Hearth) (h' m : Nat) :
    (s.modHearth h fn).t1HomeAt h' m = s.t1HomeAt h' m := rfl

/-- A home is there, or there is room for one, and making it takes no cycle. -/
theorem State.makeHome_of_room {s : State} {h m : Nat} (hr : (s.hearth h).homes.contains m = true ∨ s.statePlanes h < 4) :
    s.makeHome h m = (.home, 0, s) := by
  have hc : ((s.hearth h).homes.contains m || s.statePlanes h < 4) = true := by
    simpa only [Bool.or_eq_true, decide_eq_true_eq] using hr
  simp only [State.makeHome, hc, if_true]

/-- A file that does not come from T1 comes back from its home in 64 or 128 cycles, and in none where it has no home. -/
theorem State.refillTime_near {s : State} {h m : Nat} {stay : Bool} (hp : (s.hearth h).placeOf m stay ≠ .t1Home) :
    s.refillTime h m stay = (if (s.hearth h).placeOf m stay = .home then (if stay then 64 else 128) else 0, s) := by
  unfold State.refillTime
  cases hx : (s.hearth h).placeOf m stay with
  | t1Home => exact absurd hx hp
  | _ => simp

/-! ### The microtrap (R151) -/

/-- A touch that finds no microtrap under way and its file elsewhere begins one. -/
theorem accumulatorSpill_begins (h m : Nat) (stay : Bool) : Does .accumulatorSpill (.touch h m stay)
    (fun s => (s.hearth h).spills.find? (fun e => e.2.1 == stay) = none ∧ (if stay then s.hasStay h m else s.hasAcc h m) = false)
    (fun s => s.beginSpill h m stay) := by
  rintro s hc ⟨hn, hh⟩
  show execAccumulatorSpill s = _
  simp only [execAccumulatorSpill, hc, hn, hh, Bool.false_eq_true, if_false]

/-- A file that no one owns: nothing leaves. -/
theorem State.beginSpill_unowned {s : State} {h m : Nat} {stay : Bool} (ho : (s.hearth h).owner stay = none)
    (hp : (s.hearth h).placeOf m stay ≠ .t1Home) :
    s.beginSpill h m stay = (s.modHearth h (fun x => { x with spills := x.spills ++ [(m, stay,
      s.cycle + if (s.hearth h).placeOf m stay = .home then (if stay then 64 else 128) else 0)] })).modContext m
        (fun c => { c with accSpill := min 0xFFFFFFFF (c.accSpill + 1) }) := by
  simp only [State.beginSpill, ho, State.refillTime_near hp, satAdd, Nat.add_zero]

/-- Another's file, which a home of the hearth takes: it leaves, and the toucher's comes back. -/
theorem State.beginSpill_owned {s : State} {h m o : Nat} {stay : Bool} (ho : (s.hearth h).owner stay = some o) (hm : o ≠ m)
    (ht : s.t1HomeAt h o = none) (hr : (s.hearth h).homes.contains o = true ∨ s.statePlanes h < 4)
    (hp : (s.hearth h).placeOf m stay ≠ .t1Home) :
    s.beginSpill h m stay = ((s.modHearth h (fun x => x.setPlace o stay .home)).modHearth h (fun x =>
      { x with spills := x.spills ++ [(m, stay, s.cycle + (if stay then 64 else 128) +
        if (s.hearth h).placeOf m stay = .home then (if stay then 64 else 128) else 0)] })).modContext m
          (fun c => { c with accSpill := min 0xFFFFFFFF (c.accSpill + 1) }) := by
  have hplace : ((s.modHearth h (fun x => x.setPlace o stay .home)).hearth h).placeOf m stay = (s.hearth h).placeOf m stay := by
    simp [Hearth.setPlace_placeOf_other _ _ _ hm]
  have hout : (s.modHearth h (fun x => x.setPlace o stay .home)).writeT1Home h o = s.modHearth h (fun x => x.setPlace o stay .home) :=
    State.writeT1Home_of_none ((s.modHearth_t1HomeAt h _ h o).trans ht)
  have hback := State.refillTime_near (hplace.trans_ne hp)
  simp only [State.beginSpill, ho, State.makeHome_of_room hr, hout, hback, hplace, satAdd, Nat.add_zero]

/-- A microtrap whose cycles have passed gives the file to the context that began it. -/
theorem accumulatorSpill_ends (h m n t : Nat) (stay : Bool) : Does .accumulatorSpill (.touch h m stay)
    (fun s => (s.hearth h).spills.find? (fun e => e.2.1 == stay) = some (n, stay, t) ∧ t ≤ s.cycle)
    (fun s => s.modHearth h (fun x =>
      { x.claim n stay with spills := x.spills.filter (fun e => !(e.1 == n && e.2.1 == stay)) })) := by
  rintro s hc ⟨hf, ht⟩
  show execAccumulatorSpill s = _
  simp only [execAccumulatorSpill, hc, hf, ht, if_true, State.endSpill]

/-! ### O43 -/

/-- Settles O43: each event takes the branch that its clause names; a microtrap is `accumulatorSpill_begins`, with what
`State.beginSpill` comes to where no file leaves and where one leaves to a home. -/
theorem slotEventsAct : Obligations.SlotEventsAct := by
  refine ⟨reweight_weighs, starving_begins, yieldExpiry_ends, contractionStep_steps, contractionEnd_ends,
    ⟨accumulatorSpill_begins, ?unowned, ?owned⟩, accumulatorSpill_ends⟩
  case unowned =>
    rintro h m stay s hc ⟨hb, ho, hp⟩
    exact (accumulatorSpill_begins h m stay s hc hb).trans (congrArg _ (State.beginSpill_unowned ho hp))
  case owned =>
    rintro h m o stay s hc ⟨hb, ho, hm, ht, hr, hp⟩
    exact (accumulatorSpill_begins h m stay s hc hb).trans (congrArg _ (State.beginSpill_owned ho hm ht hr hp))

end Sys2Proof.Machine
end

section
/-! SUPPORT. Results of integer instructions: elements as the claims read and keep them are the model's, and what the shared
bodies of integer instructions emit (R96 to R99, R103). -/

namespace Sys2Proof.Machine

/-! ### Elements -/

/-- An exact result that is kept is the model's write of it (R98). -/
theorem Fire.kept_eq (f : Fire) (x : Int) : writeElem f.sat (fmtSigned f.fmt) (intWidth f.fmt) x = f.kept x := by
  unfold writeElem Fire.kept Fire.sat
  simp only [beq_iff_eq]
  rfl

/-! ### What the shared bodies emit -/

/-- A result with a predicted residue. -/
theorem Fire.predicted_eq (f : Fire) (lat : Nat) (out : List Word) (clamped : Bool) (res : Int) :
    f.predicted lat f.fmt out clamped res = .emit lat (f.foretold (f.blend out) clamped res) := rfl

/-- A result whose residue is predicted at w = 32 only. -/
theorem Fire.predicted32_eq (f : Fire) (out : List Word) (clamped : Bool) (res : Int) :
    f.predicted32 out clamped res = .emit 3 (f.foretold (f.blend out) (clamped || f.width != 32) res) := rfl

/-- Lanes of A and B whose exact results are kept as SAT says. -/
theorem Fire.blend_byFmt (f : Fire) (op : Int → Int → Int) :
    f.blend (lanes2 (byFmt f.sat op f) f) = f.each2 (fun a b => f.kept (op (f.num a) (f.num b))) := by
  simp only [← Fire.kept_eq]
  rfl

/-- An instruction on A and B, element by element. -/
theorem gives_binary {i : Rec → Instr} {o lat : Nat} {op by' : Fire → Nat → Nat → Nat}
    (h : ∀ r s, exec (i r) s = fireNode o r {} (binary lat (fun f => lane2 f.fmt (op f))) s)
    (hop : ∀ f a b, op f a b = by' f a b) : Gives i o {} lat (fun f _ => f.ints (f.each2 (by' f))) := by
  obtain rfl : op = by' := funext fun f => funext₂ (hop f)
  exact gives_of (body := fun _ => binary lat (fun f => lane2 f.fmt (op f))) h fun _ _ _ => rfl

/-- An instruction on A alone, element by element. -/
theorem gives_unary {i : Rec → Instr} {o lat : Nat} {op by' : Fire → Nat → Nat}
    (h : ∀ r s, exec (i r) s = fireNode o r {} (unary lat (fun f => lane1 f.fmt (op f))) s)
    (hop : ∀ f a, op f a = by' f a) : Gives i o {} lat (fun f _ => f.ints (f.each1 (by' f))) := by
  obtain rfl : op = by' := funext₂ hop
  exact gives_of (body := fun _ => unary lat (fun f => lane1 f.fmt (op f))) h fun _ _ _ => rfl

end Sys2Proof.Machine
end

section
/-! SUPPORT. O23: integer arithmetic (R97, R98, R100, R103). -/

namespace Sys2Proof.Machine

/-! ### Sums and products (R100, R103) -/

/-- A sum or a difference whose elements are kept as `keep` says. -/
theorem gives_summed {i : Rec → Instr} {o : Nat} {sat : Fire → Bool} {op : Int → Int → Int} {res : Fire → Int}
    {keep : Fire → Int → Nat} (h : ∀ r s, exec (i r) s = fireNode o r {} (summed sat op res) s)
    (hk : ∀ f x, writeElem (sat f) (fmtSigned f.fmt) (intWidth f.fmt) x = keep f x) :
    Gives i o {} 1 (fun f _ => f.foretold (f.each2 (fun a b => keep f (op (f.num a) (f.num b))))
      (clamps f (sat f) (exactPair f.fmt op)) (res f)) := by
  refine gives_of h fun f s _ => ?_
  simp only [← hk]
  rfl

/-- MUL's elements are kept as SAT says. -/
theorem mulFire_eq (f : Fire) (s : State) : mulFire f s = (s, .emit 3 (f.foretold
    (f.each2 (fun a b => f.kept (f.num a * f.num b))) (clamps f f.sat (exactPair f.fmt (· * ·)) || f.width != 32)
    (mulResidue f (f.ta.lanes.map (fun _ => 0)) ((exactProducts f (f.ta.lanes.map (fun _ => 0))).map upperHalf)))) := by
  simp only [mulFire, Fire.predicted32_eq, Fire.blend_byFmt]

/-- MAD's elements are kept as SAT says. -/
theorem madLane_eq (f : Fire) (a b c : Word) : madLane f a b c = laneOf f.fmt
    (List.zipWith (fun (x : Nat × Nat) z => f.kept (f.num x.1 * f.num x.2 + f.num z))
      ((laneElems f.fmt a).zip (laneElems f.fmt b)) (laneElems f.fmt c)) := by
  simp only [← Fire.kept_eq]
  rfl

/-- The high half of a product read unsigned. -/
theorem highHalf_natCast (w a b : Nat) : highHalf w a b = ((a * b / 2 ^ w : Nat) : Int) := by
  rw [highHalf]
  push_cast
  rfl

/-- MULHU's lanes. -/
theorem Fire.blend_mulhu (f : Fire) : f.blend (lanes2 (bySign false highHalf f) f) =
    f.each2 (fun a b => f.wrapped ((a * b / 2 ^ f.width : Nat) : Int)) := by
  simp only [← highHalf_natCast]
  rfl

/-! ### Signs and bounds (R100) -/

/-- An operation on A alone whose exact results are kept as SAT says. -/
theorem Fire.blend_byFmt1 (f : Fire) (op : Int → Int) :
    f.blend (f.ta.lanes.map (byFmt1 op f)) = f.each1 (fun a => f.kept (op (f.num a))) := by
  simp only [← Fire.kept_eq]
  rfl

/-- A magnitude by the sign. -/
theorem natAbs_eq_ite (x : Int) : (x.natAbs : Int) = if x < 0 then -x else x := by
  split <;> omega

/-! ### O23 -/

/-- Settles O23: every instruction is `fireNode` with the token of its clause, once its exact results are read as the model's
(`Fire.kept_eq`); unsigned results come from the naturals by a cast. -/
theorem integerArithmeticEmits : Obligations.IntegerArithmeticEmits := by
  refine ⟨?add, ?sub, ?mul, ?mulh, ?mulhu, ?mad, ?neg, ?abs, ?min, ?max, ?minu, ?maxu, ?adds, ?subs⟩
  case add => exact gives_summed (op := (· + ·)) (fun _ _ => rfl) Fire.kept_eq
  case sub => exact gives_summed (op := (· - ·)) (fun _ _ => rfl) Fire.kept_eq
  case adds =>
    exact gives_summed (op := (· + ·)) (keep := fun f x => f.wrapped (f.clamped x)) (fun _ _ => rfl) fun _ _ => rfl
  case subs =>
    exact gives_summed (op := (· - ·)) (keep := fun f x => f.wrapped (f.clamped x)) (fun _ _ => rfl) fun _ _ => rfl
  case mul => exact gives_of (fun _ _ => rfl) fun f s _ => mulFire_eq f s
  case mulh => exact gives_of (fun _ _ => rfl) fun f s _ => rfl
  case mulhu => exact gives_of (fun _ _ => rfl) fun f s _ => by rw [Fire.predicted32_eq, Fire.blend_mulhu]; rfl
  case mad =>
    refine gives_of (body := fun _ => madFire) (fun _ _ => rfl) fun f s _ => ?_
    simp only [madFire, Fire.predicted32_eq, lanes3, madLane_eq]
    rfl
  case neg =>
    refine gives_of (fun _ _ => rfl) fun f s _ => ?_
    rw [Fire.predicted_eq, Fire.blend_byFmt1]
    simp only [zero_sub]
    rfl
  case abs =>
    refine gives_unary (op := fun f x => writeElem f.sat (fmtSigned f.fmt) (intWidth f.fmt) ((f.num x).natAbs : Int)) (fun _ _ => rfl)
      fun f a => ?_
    rw [Fire.kept_eq, natAbs_eq_ite]
  case min | max => exact gives_binary (fun _ _ => rfl) fun _ _ _ => rfl
  case minu => exact gives_binary (fun _ _ => rfl) fun f a b => congrArg f.wrapped (Nat.cast_min a b).symm
  case maxu => exact gives_binary (fun _ _ => rfl) fun f a b => congrArg f.wrapped (Nat.cast_max a b).symm

end Sys2Proof.Machine
end

section
/-! SUPPORT. O24: division (R101, R103). -/

namespace Sys2Proof.Machine

/-! ### The check of the unit (R103) -/

/-- A condition that holds of every pair holds of all pairs of two lists. -/
theorem all_zipWith_of_forall {α β : Type} {p : α → β → Bool} (h : ∀ a b, p a b = true) (as : List α) (bs : List β) :
    (List.zipWith p as bs).all (fun c => c) = true := by
  induction as generalizing bs with
  | nil => rfl
  | cons a as ih =>
    cases bs with
    | nil => rfl
    | cons b bs => simp [h a b, ih bs]

/-- The exact quotient and remainder of every pair of elements satisfy the identity that the unit checks. -/
theorem divides_true (signed : Bool) (f : Fire) : divides signed f = true :=
  all_zipWith_of_forall (fun _ _ => all_zipWith_of_forall (fun _ _ => by simp [Int.tdiv_mul_add_tmod]) _ _) _ _

/-- A checked instruction, element by element: its check passes. -/
theorem gives_checked {i : Rec → Instr} {o : Nat} {signed : Bool} {op by' : Fire → Nat → Nat → Nat}
    (h : ∀ r s, exec (i r) s = fireNode o r {} (checked (fun f => lane2 f.fmt (op f)) signed) s)
    (hop : ∀ f a b, op f a b = by' f a b) : Gives i o {} 12 (fun f _ => f.ints (f.each2 (by' f))) := by
  obtain rfl : op = by' := funext fun f => funext₂ (hop f)
  exact gives_of (body := fun _ => checked (fun f => lane2 f.fmt (op f)) signed) h fun f s _ => if_pos (divides_true signed f)

/-! ### Quotients and remainders (R101) -/

/-- A signed quotient, as the firing's SAT bit has it. -/
theorem Fire.quotient_signed (f : Fire) (w : Nat) (a b : Int) : quotient f.sat true w a b =
    if b = 0 then ((2 ^ w : Nat) : Int) - 1
    else if a = -(2 ^ (w - 1) : Nat) ∧ b = -1 then
      (if f.nrec.sat = 1 then ((2 ^ (w - 1) : Nat) : Int) - 1 else -(2 ^ (w - 1) : Nat))
    else Int.tdiv a b := by
  simp only [quotient, Fire.sat, Bool.true_and, Bool.and_eq_true, beq_iff_eq]

/-- A signed remainder. -/
theorem remainder_signed (w : Nat) (a b : Int) : remainder true w a b =
    if b = 0 then a else if a = -(2 ^ (w - 1) : Nat) ∧ b = -1 then 0 else Int.tmod a b := by
  simp only [remainder, Bool.true_and, Bool.and_eq_true, beq_iff_eq, Int.tmod_def, Int.mul_comm]

/-- An unsigned quotient is that of the naturals. -/
theorem quotient_natCast (w a b : Nat) :
    quotient false false w a b = if b = 0 then ((2 ^ w : Nat) : Int) - 1 else ((a / b : Nat) : Int) := by
  simp only [quotient, Bool.false_and, Bool.false_eq_true, if_false, Int.ofNat_tdiv, Int.natCast_eq_zero]

/-- So is an unsigned remainder. -/
theorem remainder_natCast (w a b : Nat) : remainder false w a b = if b = 0 then (a : Int) else ((a % b : Nat) : Int) := by
  simp only [remainder, Bool.false_and, Bool.false_eq_true, if_false, Int.ofNat_tmod, Int.tmod_def, Int.mul_comm, Int.natCast_eq_zero]

/-! ### O24 -/

/-- Settles O24: the unit's check always passes (`divides_true`), and the quotient or remainder of every pair of elements is the one
that R101 names. -/
theorem divisionEmits : Obligations.DivisionEmits := by
  refine ⟨?div, ?divu, ?rem, ?remu⟩
  case div =>
    exact gives_checked (fun _ _ => rfl) fun f a b => congrArg f.wrapped (f.quotient_signed f.width (f.snum a) (f.snum b))
  case divu => exact gives_checked (fun _ _ => rfl) fun f a b => congrArg f.wrapped (quotient_natCast f.width a b)
  case rem =>
    exact gives_checked (fun _ _ => rfl) fun f a b => congrArg f.wrapped (remainder_signed f.width (f.snum a) (f.snum b))
  case remu => exact gives_checked (fun _ _ => rfl) fun f a b => congrArg f.wrapped (remainder_natCast f.width a b)

end Sys2Proof.Machine
end

section
/-! SUPPORT. O25: logic, shifts and bit fields (R98, R102, R103). -/

namespace Sys2Proof.Machine

/-! ### The bitwise instructions on A and B (R103) -/

/-- A AND B over the qualifying lanes. -/
def Fire.sumAnd (f : Fire) : Int := f.sumQualified (List.zipWith (fun a b => ((a &&& b).toNat : Int)) f.ta.lanes f.tb.lanes)

/-- A XOR B over the qualifying lanes. -/
def Fire.sumXor (f : Fire) : Int := f.sumQualified (List.zipWith (fun a b => ((a ^^^ b).toNat : Int)) f.ta.lanes f.tb.lanes)

theorem bitResidues_of_agree {f : Fire} (h : f.bitsAgree) : bitResidues f = some (f.sumAnd, f.sumXor) := by
  refine (if_pos h).trans ?_
  simp only [List.map_zipWith]
  rfl

theorem bitResidues_of_disagree {f : Fire} (h : ¬ f.bitsAgree) : bitResidues f = none := if_neg h

/-- A bitwise instruction predicts its residue where its unit's check passes, and is a residue error where it fails. -/
theorem bitwise_emits {i : Rec → Instr} {o : Nat} {op : Word → Word → Word} {res : Fire → Int → Int → Int}
    (h : ∀ r s, exec (i r) s = fireNode o r {} (bitwise op res) s) :
    GivesWhen i o {} (fun f _ => f.bitsAgree) 1 (fun f s =>
      (s, f.foretold (f.blend (List.zipWith op f.ta.lanes f.tb.lanes)) false (f.unqualified f.ta + res f f.sumAnd f.sumXor))) ∧
    Acts i o {} (fun f _ => ¬ f.bitsAgree) (fun f s => s.purgeCorrected f.g [f.col]) := by
  constructor
  · refine givesWhen_of h fun f s _ hok => ?_
    simp only [bitwise, bitResidues_of_agree hok]
    rfl
  · refine acts_of h fun f s _ hbad => ?_
    simp only [bitwise, bitResidues_of_disagree hbad]
    rfl

/-! ### Shifts (R102) -/

/-- A multiple of 2^w is 0 modulo 2^w. -/
theorem wrapInt_mul_pow_of_le {w n : Nat} (h : w ≤ n) (a : Int) : wrapInt w (a * (2 ^ n : Nat)) = 0 := by
  have hd : ((2 ^ w : Nat) : Int) ∣ a * (2 ^ n : Nat) := Dvd.dvd.mul_left (Int.natCast_dvd_natCast.mpr (Nat.pow_dvd_pow 2 h)) a
  rw [wrapInt, Int.emod_eq_zero_of_dvd hd]
  rfl

/-- The bounds of an element lie between −2^w and 2^w. -/
theorem intBounds (signed : Bool) (w : Nat) :
    -(2 ^ w : Nat) ≤ intLow signed w ∧ intLow signed w ≤ 0 ∧ 0 ≤ intHigh signed w ∧ intHigh signed w ≤ (2 ^ w : Nat) := by
  have hle : 2 ^ (w - 1) ≤ 2 ^ w := Nat.pow_le_pow_right Nat.two_pos (Nat.sub_le w 1)
  have hpos : 0 < 2 ^ (w - 1) := Nat.two_pow_pos _
  unfold intLow intHigh
  cases signed <;> simp only [Bool.false_eq_true, if_true, if_false] <;> omega

/-- A shift by the width or more is clamped by the sign. -/
theorem clampInt_mul_pow_of_le (signed : Bool) {w n : Nat} (h : w ≤ n) (a : Int) : clampInt signed w (a * (2 ^ n : Nat)) =
    if a = 0 then 0 else if a < 0 then intLow signed w else intHigh signed w := by
  obtain ⟨hlow, hlow0, hhigh0, hhigh⟩ := intBounds signed w
  have hpow : ((2 ^ w : Nat) : Int) ≤ (2 ^ n : Nat) := Int.ofNat_le.mpr (Nat.pow_le_pow_right Nat.two_pos h)
  have hnonneg : (0 : Int) ≤ (2 ^ n : Nat) := Int.natCast_nonneg _
  unfold clampInt
  split_ifs with hz hn
  · simp [hz, hlow0, hhigh0]
  · have hx : a * (2 ^ n : Nat) ≤ -1 * (2 ^ n : Nat) := mul_le_mul_of_nonneg_right (by omega) hnonneg
    omega
  · have hx : 1 * (2 ^ n : Nat) ≤ a * (2 ^ n : Nat) := mul_le_mul_of_nonneg_right (by omega) hnonneg
    omega

/-- SHL's short cuts for a shift by the width or more give the element that the exact result is kept as. -/
theorem shlElem_eq (sat signed : Bool) (w : Nat) (a : Int) (n : Nat) :
    shlElem sat signed w a n = writeElem sat signed w (a * (2 ^ n : Nat)) := by
  unfold shlElem
  by_cases hn : n < w
  · exact if_pos hn
  · have hle : w ≤ n := Nat.not_lt.mp hn
    rw [if_neg hn]
    cases sat with
    | false => exact (wrapInt_mul_pow_of_le hle a).symm
    | true =>
      simp only [writeElem, clampInt_mul_pow_of_le signed hle, Bool.not_true, Bool.false_or, decide_eq_true_eq, if_true]
      split_ifs <;> rfl

/-- A rotation by powers of two. -/
theorem rotl_eq (w x n : Nat) : rotl w x n = x * 2 ^ (n % w) % 2 ^ w + x / 2 ^ (w - n % w) := by
  rw [rotl, Nat.shiftLeft_eq, Nat.shiftRight_eq_div_pow]

/-! ### O25 -/

/-- Settles O25: the bitwise instructions by `bitwise_emits`, SHL by `shlElem_eq`, the other shifts and fields by reading a shift as a
product or a quotient by a power of two. -/
theorem logicAndShiftsEmit : Obligations.LogicAndShiftsEmit := by
  refine ⟨⟨?and, ?or, ?xor, ?andn⟩, ?not, ?shl, ?shr, ?sra, ?rol, ?clz, ?popc, ?brev, ?bfx, ?bfi⟩
  case and => exact bitwise_emits (res := fun _ n _ => n) fun _ _ => rfl
  case or => exact bitwise_emits (res := fun _ n x => x + n) fun _ _ => rfl
  case xor => exact bitwise_emits (res := fun _ _ x => x) fun _ _ => rfl
  case andn => exact bitwise_emits (res := fun f n _ => f.qualified f.ta - n) fun _ _ => rfl
  case not => exact gives_of (fun _ _ => rfl) fun _ _ _ => rfl
  case shl =>
    exact gives_binary (fun _ _ => rfl) fun f a n =>
      (shlElem_eq f.sat (fmtSigned f.fmt) (intWidth f.fmt) (f.num a) n).trans (f.kept_eq _)
  case shr => exact gives_binary (fun _ _ => rfl) fun f a n => by rw [Nat.shiftRight_eq_div_pow]; rfl
  case sra | bfi => exact gives_binary (fun _ _ => rfl) fun _ _ _ => rfl
  case rol => exact gives_binary (fun _ _ => rfl) fun f a n => rotl_eq f.width a n
  case clz | popc | brev => exact gives_unary (fun _ _ => rfl) fun _ _ => rfl
  case bfx =>
    refine gives_unary (op := fun f => fieldOf (fmtSigned f.fmt) (intWidth f.fmt) (bits f.lit 4 0) (bits f.lit 10 5)) (fun _ _ => rfl)
      fun f a => ?_
    simp only [fieldOf, Nat.shiftRight_eq_div_pow]
    rfl

end Sys2Proof.Machine
end

section
/-! SUPPORT. O26: IDX, IDX2 and WRAP (R106, R107). -/

namespace Sys2Proof.Machine

/-- A position's slot and wrap generation as a lane (R107). -/
theorem ofNat_wrapPosition (sink win p : Nat) : BitVec.ofNat 32 (wrapPosition sink win p) =
    if p < sink then BitVec.ofNat 32 p
    else BitVec.ofNat 32 (sink + (p - sink) % win + 2 ^ 16 * (((p - sink) / win + 1) % 2 ^ 16)) :=
  apply_ite (BitVec.ofNat 32) (p < sink) _ _

/-! ### O26 -/

/-- Settles O26: IDX2 is `fireNode` with the token of its clause; IDX forms its product in the naturals, and WRAP's lane is
`ofNat_wrapPosition`. -/
theorem linearIndexAndWrapEmit : Obligations.LinearIndexAndWrapEmit := by
  refine ⟨?idx, ?idx2, ?wrap⟩
  case idx =>
    refine gives_of (fun _ _ => rfl) fun f s _ => ?_
    simp only [Nat.cast_mul]
    rfl
  case idx2 => exact gives_of (fun _ _ => rfl) fun _ _ _ => rfl
  case wrap =>
    refine gives_of (body := fun _ => unary 3 (fun f a => BitVec.ofNat 32 (wrapPosition (bits f.lit 31 16) (bits f.lit 15 0) a.toNat)))
      (fun _ _ => rfl) fun f s _ => ?_
    simp only [unary, ofNat_wrapPosition]
    rfl

end Sys2Proof.Machine
end

section
/-! SUPPORT. O27: RANGE, AGEN and their later emissions (R108, R169). -/

namespace Sys2Proof.Machine

/-! ### AGEN's offsets (R169) -/

/-- The offset at which a firing's pattern starts. -/
def Fire.agenStart (f : Fire) (b : Nat) : Int :=
  (agbStart b : Int) + (if f.nrec.ary = 1 then ((f.ta.lanes.headD 0).toNat : Int) else 0)

/-- The lanes that emission j of a pattern carries: one offset, or in IDX mode an offset for each lane of A. -/
def Fire.agenLanes (f : Fire) (b j : Nat) : List Word :=
  let at' := fun (i : Nat) (x : Nat) => (x : Int) * agbStr b i
  match f.code with
  | 0 => [BitVec.ofInt 32 (f.agenStart b + at' 0 j)]
  | 1 => [BitVec.ofInt 32 (f.agenStart b + at' 0 (j % agbN b 0) + at' 1 (j / agbN b 0 % agbN b 1))]
  | 2 => [BitVec.ofInt 32 (f.agenStart b + at' 0 (j % agbN b 0) + at' 1 (j / agbN b 0 % agbN b 1)
      + at' 2 (j / (agbN b 0 * agbN b 1)))]
  | _ => f.ta.lanes.map (fun a => BitVec.ofInt 32 (agbStart b + (a.toNat : Int) * agbStr b 0))

/-- They are what the model makes of its one formula for the modes with strides. -/
theorem Fire.agenLanes_eq {f : Fire} (h : f.code < 4) (b j : Nat) : f.agenLanes b j =
    if f.code = 3 then f.ta.lanes.map (fun a => wordOf (agbStart b + a.toNat * agbStr b 0)) else [agenOffset f b j] := by
  have hmode : f.code = 0 ∨ f.code = 1 ∨ f.code = 2 ∨ f.code = 3 := by omega
  rcases hmode with h | h | h | h <;> simp [Fire.agenLanes, agenOffset, h, wordOf, Fire.agenStart, Fire.offset]

/-! ### AGEN's emissions (R169) -/

/-- The token of a pattern's next emission. -/
def Fire.agenToken (f : Fire) (s : State) : Token :=
  f.token 1 (f.agenLanes (s.binding f.g f.nrec) (s.node f.h f.k f.n).emitted) 0 0

/-- The state after a pattern's next emission: the last consumes its trigger. -/
def Fire.agenNext (f : Fire) (s : State) : State :=
  let j := (s.node f.h f.k f.n).emitted
  (if agenCount f.code (s.binding f.g f.nrec) ≤ j + 1 then ((s.unwithhold f).setEmitted f 0).consume f
    else (s.unwithhold f).setEmitted f (j + 1)).countElem f

/-- A firing whose binding is valid, or was found valid at the first emission, makes the next emission of its pattern. -/
theorem agenFire_pattern {f : Fire} {s : State} (hc : f.code < 4)
    (hv : (s.node f.h f.k f.n).emitted = 0 → agbV (s.binding f.g f.nrec) = true) :
    agenFire f s = (f.agenNext s, .emit 1 (f.agenToken s)) := by
  have hvalid : ¬ ((s.node f.h f.k f.n).emitted = 0 && !agbV (s.binding f.g f.nrec)) = true := by simpa using hv
  refine (if_neg hvalid).trans ((if_neg (Nat.ne_of_lt hc)).trans ?_)
  simp only [Fire.agenToken, Fire.agenLanes_eq hc]
  rfl

/-- Such a firing, where its colour was granted the token's width. -/
theorem agenFire_emits {f : Fire} {s : State} (hc : f.code < 4)
    (hv : (s.node f.h f.k f.n).emitted = 0 → agbV (s.binding f.g f.nrec) = true)
    (hw : (f.agenNext s).tooWide f.g f (f.agenToken s) = false) :
    (agenFire f s).1.conclude f (agenFire f s).2 = (f.agenNext s).emitted f 1 (f.agenToken s) := by
  rw [agenFire_pattern hc hv]
  exact conclude_emit hw

/-- In LINK mode it emits the next offset of its list. -/
theorem agenFire_link {f : Fire} {s : State} {w : Word} (hc : f.code = 4) (hv : agbV (s.binding f.g f.nrec) = true)
    (hw : linkOffset f (s.binding f.g f.nrec) = some w) :
    agenFire f s = (((s.unwithhold f).consume f).countElem f, .emit 1 (f.token 1 [w] 0 0)) := by
  have hvalid : ¬ ((s.node f.h f.k f.n).emitted = 0 && !agbV (s.binding f.g f.nrec)) = true := by simp [hv]
  refine (if_neg hvalid).trans ((if_pos hc).trans ?_)
  simp only [Fire.agb, hw]
  rfl

/-! ### O27 -/

/-- Settles O27: RANGE and AGEN each have one body for the first emission and the later ones. -/
theorem progressionsEmit : Obligations.ProgressionsEmit := by
  refine ⟨⟨?range, ?rangeEmission⟩, ?agen, ?agenEmission, ?link⟩
  case range | rangeEmission => exact actsHeld_of (body := fun _ => rangeFire) (fun _ _ => rfl) fun f s _ hw => conclude_emit hw
  case agen | agenEmission =>
    refine actsHeld_of (body := fun _ => agenFire) (fun _ _ => rfl) ?_
    rintro f s - ⟨hc, hv, hw⟩
    exact agenFire_emits hc hv hw
  case link =>
    intro r s f w e hc u v _ hv hw ht
    show execAgen r s = _
    rw [execAgen, firesHeld_next _ e, agenFire_link hc hv hw, conclude_emit ht]

end Sys2Proof.Machine
end

section
/-! SUPPORT. O28: moving lanes and reductions (R109, R110). -/

namespace Sys2Proof.Machine

/-- An integer kept modulo 2^32 as a lane. -/
theorem ofNat_wrapInt (x : Int) : BitVec.ofNat 32 (wrapInt 32 x) = BitVec.ofInt 32 x := by
  apply BitVec.eq_of_toNat_eq
  rw [BitVec.toNat_ofNat, BitVec.toNat_ofInt, wrapInt]
  omega

/-- A reduction's lane holds its exact result modulo 2^32. -/
theorem reduceToken_wrapInt (f : Fire) (x : Int) : reduceToken f (wrapInt 32 x) =
    f.token (if fmtSigned f.fmt then 0 else 1) [BitVec.ofInt 32 x] 0 0 := by
  rw [reduceToken, ofNat_wrapInt]

/-- A sum as a 32-bit lane bounds it: with SAT = 1 at the nearer bound of its range (R98, R110). -/
def Fire.bounded32 (f : Fire) (x : Int) : Int :=
  if f.nrec.sat = 1 then
    (if fmtSigned f.fmt then max (-2 ^ 31) (min (2 ^ 31 - 1) x) else max 0 (min (2 ^ 32 - 1) x))
  else x

theorem Fire.writeElem_eq_bounded32 (f : Fire) (x : Int) :
    writeElem f.sat (fmtSigned f.fmt) 32 x = wrapInt 32 (f.bounded32 x) := by
  unfold writeElem Fire.bounded32 Fire.sat clampInt intLow intHigh
  cases fmtSigned f.fmt <;> simp

/-- The least or greatest of a list is folded from its head. -/
theorem pickInt_eq (op : Int → Int → Int) (xs : List Int) : pickInt op xs = xs.tail.foldl op (xs.headD 0) := by
  cases xs <;> rfl

/-! ### O28 -/

/-- Settles O28: the lane instructions are `fireNode` with the token of their clause; a reduction's lane is `reduceToken_wrapInt`, of a
sum that `Fire.bounded32` bounds or of the list's least or greatest element. -/
theorem laneMovesAndReductionsEmit : Obligations.LaneMovesAndReductionsEmit := by
  refine ⟨⟨?shuf, ?lanex, ?lanei, ?bcast⟩, ?rsum, ?rmin, ?rmax⟩
  case shuf | lanex | lanei | bcast => exact gives_of (fun _ _ => rfl) fun _ _ _ => rfl
  case rsum =>
    refine gives_of (fun _ _ => rfl) fun f s _ => ?_
    rw [Fire.writeElem_eq_bounded32, reduceToken_wrapInt]
    rfl
  case rmin | rmax =>
    refine gives_of (fun _ _ => rfl) fun f s _ => ?_
    rw [pickInt_eq, reduceToken_wrapInt]
    rfl

end Sys2Proof.Machine
end

section
/-! SUPPORT. O30: the special functions (R26, R115). -/

namespace Sys2Proof.Machine

/-! ### What an element's function delivers (R115) -/

/-- On a value of Table 6-2 an element is that table's. -/
theorem specialElem_of_special {fn fmt x : Nat} {v : Val} {y : Exact × BitVec 5} (sat : Bool) (hd : decodeFloat fmt x = v)
    (hv : specialValue fn v = some y) : specialElem fn fmt sat x = roundWith fmt 1 0 sat y := by
  simp only [specialElem, hd, hv]

/-- A non-zero number is in Table 6-2 only where FRSQ or FLOG2 reads a negative one. -/
theorem specialValue_fin {m : Nat} (fn : Nat) (n : Bool) (e : Int) (hm : m ≠ 0) :
    specialValue fn (.fin n m e) = if n = true ∧ (fn = 1 ∨ fn = 3) then some (.nan, flagNV) else none := by
  simp only [specialValue, if_neg hm, Bool.and_eq_true, Bool.or_eq_true, decide_eq_true_eq]

/-- On any other number it is what is delivered for the exact result. -/
theorem specialElem_of_fin {fn fmt x m : Nat} {n : Bool} {e : Int} (sat : Bool) (hd : decodeFloat fmt x = .fin n m e) (hm : m ≠ 0)
    (hn : fn = 1 ∨ fn = 3 → n = false) :
    specialElem fn fmt sat x = deliver fmt fn (inputKey n m e) sat (specialFinite fn n m e) := by
  have hnone : specialValue fn (.fin n m e) = none := by
    refine (specialValue_fin fn n e hm).trans (if_neg ?_)
    rintro ⟨hneg, hfn⟩
    exact absurd hneg (by simp [hn hfn])
  simp only [specialElem, hd, hnone]

/-- An exact result within the range of the format is delivered rounded towards zero or away from it. -/
theorem deliver_within {fmt fn m : Nat} {e : Int} {sticky : Bool} (key : Nat) (sat n : Bool) (hm : m ≠ 0)
    (hmax : aboveMax fmt m e sticky = false) (hleast : fn = 2 → belowLeast fmt m e = false) :
    deliver fmt fn key sat (.num n m e sticky) = roundFloat fmt 1 0 sat n m e sticky ∨
    deliver fmt fn key sat (.num n m e sticky) = roundFloat fmt 5 0 sat n m e sticky := by
  have hexp2 : ¬ (fn = fnExp2 && belowLeast fmt m e) = true := by
    rw [Bool.and_eq_true, decide_eq_true_eq]
    rintro ⟨hfn, hbelow⟩
    exact absurd hbelow (by simp [hleast hfn])
  simp only [deliver, if_neg hm, hmax, if_neg hexp2, Bool.false_eq_true, if_false]
  cases Config.outerNeighbour fn fmt key
  · exact .inl rfl
  · exact .inr rfl

/-- FRSQ and FLOG2 of a negative number. -/
theorem specialElem_of_negative {fn fmt x m : Nat} {e : Int} (sat : Bool) (hfn : fn = 1 ∨ fn = 3)
    (hd : decodeFloat fmt x = .fin true m e) (hm : m ≠ 0) : specialElem fn fmt sat x = (quietNan fmt, flagNV) :=
  specialElem_of_special sat hd ((specialValue_fin fn true e hm).trans (if_pos ⟨rfl, hfn⟩))

/-- The reciprocal of a power of two is a power of two. -/
theorem specialFinite_rcp_pow (n : Bool) (k : Nat) (e : Int) :
    specialFinite 0 n (2 ^ k) e = .num n (2 ^ 121) (-(e + k) - 121) false := by
  have hlen : bitLen (2 ^ k) = k + 1 := by
    rw [bitLen, if_neg (Nat.two_pow_pos k).ne', Nat.log2_two_pow]
  have hpow : 2 ^ (120 + (k + 1)) = 2 ^ 121 * 2 ^ k := by rw [← pow_add]; congr 1; omega
  have hexp : -e - ((120 + (k + 1) : Nat) : Int) = -(e + k) - 121 := by push_cast; omega
  simp only [specialFinite, hlen, hpow, hexp, Nat.mul_div_cancel _ (Nat.two_pow_pos k), Nat.mul_mod_left,
    bne_self_eq_false]

/-! ### O30 -/

/-- An instruction whose meaning is `special` of a function. -/
theorem gives_special {i : Rec → Instr} {o : Nat} (fn : Nat) (h : ∀ r s, exec (i r) s = fireNode o r {} (special fn) s) :
    Gives i o {} 10 (fun f _ => f.chosen (fun fmt a _ => specialElem fn fmt (f.nrec.sat == 1) a)) :=
  gives_chosen (fun f fmt a _ => specialElem fn fmt f.sat a) h

/-- Settles O30: the instructions by `gives_special`; the zeros and infinities of Table 6-2 in each format and under each SAT, its
negative numbers by `specialElem_of_negative`; the other numbers by `specialElem_of_fin` and `deliver_within`. -/
theorem specialFunctionsEmit : Obligations.SpecialFunctionsEmit := by
  refine ⟨?rcp, ?rsq, ?exp2, ?log2, ?sin, ?cos, ?tanh, ?sigm, ?silu, ?table, ?between, specialFinite_rcp_pow⟩
  case rcp | rsq | exp2 | log2 | sin | cos | tanh | sigm | silu => exact gives_special _ fun _ _ => rfl
  case table =>
    intro fmt sat hfmt top sign nan one half inf at'
    refine ⟨?minusInf, ?minusZero, ?plusZero, ?plusInf, ?negative⟩
    case minusInf | minusZero | plusZero | plusInf => rcases hfmt with rfl | rfl <;> cases sat <;> decide
    case negative =>
      rintro x n m e hd rfl hm
      exact ⟨specialElem_of_negative sat (.inl rfl) hd hm, specialElem_of_negative sat (.inr rfl) hd hm⟩
  case between =>
    intro fn fmt x sat n n' sticky m m' e e' hd hm hn hx hm' hmax hleast
    rw [specialElem_of_fin sat hd hm hn, hx]
    exact deliver_within _ sat n' hm' hmax hleast

end Sys2Proof.Machine
end

section
/-! SUPPORT. O31: conversions, block formats, SMRG and ROPE (R117 to R120, R123, R124). -/

namespace Sys2Proof.Machine

/-- Settles O31: each instruction is `fireNode` with the draws and the token of its clause; SMRG answers one token or the other by
whether a maximum is a NaN, in one state. -/
theorem conversionsEmit : Obligations.ConversionsEmit := by
  refine ⟨?cvtf, ?cvtfi, ?cvtif, ?qntb, ?dqntb, ?expsel, ?rope, ?smrg⟩
  case expsel => exact gives_of (fun _ _ => rfl) fun _ _ _ => rfl
  case cvtf | cvtfi | cvtif | rope => exact givesFrom_of (fun _ _ => rfl) fun _ _ _ => rfl
  case qntb => exact givesFrom_of (body := fun _ => qntbFire) (fun _ _ => rfl) fun _ _ _ => rfl
  case dqntb =>
    intro r s f e fmt ofmt part no n lanes xs d es out hw
    obtain ⟨-, rfl⟩ := fires_rec e
    exact fireNode_emit e rfl hw
  case smrg =>
    intro r s f e a0 b0 ma mb d mx fa fb es out hw
    obtain ⟨-, rfl⟩ := fires_rec e
    have hfire : smrgFire f (s.taken f) = (d.2, .emit 12 out) :=
      (apply_ite (fun t => (d.2, Effect.emit 12 t)) (ma.isNan || mb.isNan) _ _).symm
    exact fireNode_emit e hfire hw

end Sys2Proof.Machine
end

section
/-! SUPPORT. Instructions that answer a fault with its detail, and the writes of the tensor table (R137). -/

namespace Sys2Proof.Machine

/-- An instruction whose body answers a fault with its detail where `bad` holds, in the state it was given. -/
theorem faults_of_answer {i : Rec → Instr} {o : Nat} {p : FireSpec} {bad : Fire → State → Prop} {cause : Nat} {detail : Fire → Nat}
    {body : Fire → State → State × Effect} (h : ∀ r s, exec (i r) s = fireNode o r p body s)
    (hb : ∀ f s, bad f s → body f s = (s, .fault cause (detail f))) : Faults i o p bad cause detail := by
  intro r s f e w
  rw [h, fireNode_fault e (hb f _ w)]

section
variable {two : Bool} {bad : Fire → Bool} {write : Fire → BitVec 512 × BitVec 512} {f : Fire} {s : State}

theorem tdWrite_outOfRange (h : (s.context (f.context s)).tidCntNow ≤ tidOf f two) :
    tdWrite two bad write f s = (s, .fault 0x0B (tidOf f two)) :=
  if_pos h

theorem tdWrite_bad (h : tidOf f two < (s.context (f.context s)).tidCntNow) (hb : bad f = true) :
    tdWrite two bad write f s = (s, .fault 0x0C (tidOf f two)) := by
  simp only [tdWrite, Nat.not_le.mpr h, hb, if_true, if_false, faultTidBad]

theorem tdWrite_stages (h : tidOf f two < (s.context (f.context s)).tidCntNow) (hb : bad f = false) :
    tdWrite two bad write f s = (s.stageEffect f (.tensor (f.context s) (tidOf f two) (write f).1 (write f).2),
      .emit 2 (tidToken f (tidOf f two))) := by
  simp only [tdWrite, Nat.not_le.mpr h, hb, Bool.false_eq_true, if_false]

end

end Sys2Proof.Machine
end

section
/-! SUPPORT. O16: faults of tensor writes, contractions and the trine unit (R137, R141, R146, R150, R157 to R164). -/

namespace Sys2Proof.Machine

/-! ### The tensor table (R137) -/

/-- An instruction that writes the tensor table takes TIDRANGE, and TIDBAD where its check `bad` says what `breaks` says. -/
theorem tdWrite_faults {i : Rec → Instr} {o : Nat} {p : FireSpec} {two : Bool} {bad : Fire → Bool} {breaks : Fire → Prop}
    {write : Fire → BitVec 512 × BitVec 512} (h : ∀ r s, exec (i r) s = fireNode o r p (tdWrite two bad write) s)
    (hb : ∀ f, breaks f → bad f = true) :
    Faults i o p (fun f s => (s.context (f.context s)).tidCntNow ≤ tidOf f two) 0x0B (fun f => tidOf f two) ∧
      Faults i o p (fun f s => tidOf f two < (s.context (f.context s)).tidCntNow ∧ breaks f) 0x0C (fun f => tidOf f two) :=
  ⟨faults_of_answer h fun _ _ => tdWrite_outOfRange, faults_of_answer h fun f _ w => tdWrite_bad w.1 (hb f w.2)⟩

/-! ### Descriptors (R141, R164) -/

theorem cdxsetFire_bad {f : Fire} {s : State} (h : cdxOk (imageOf f.ta) = false) :
    cdxsetFire f s = (s, .fault 0x0D ((f.tb.lanes.headD 0).toNat % 16)) := by
  simp only [cdxsetFire, h, Bool.not_false, if_true, faultCdxBad]

/-! ### Where a contraction begins (R150, R157) -/

section
variable {f : Fire} {s : State}

theorem beginFire_badDescriptor (h : beginOk f s = false) : beginFire f s = (s, .fault 0x0D (f.lit % 16)) := by
  simp only [beginFire, h, Bool.not_false, if_true, faultCdxBad]

theorem beginFire_badStay (hok : beginOk f s = true) (hheld : heldOf f s = true)
    (hfmt : (s.stayFile f.h (f.context s)).fmt ≠ f.nrec.fmt.toNat) : beginFire f s = (s, .fault 0x10 0) := by
  simp only [beginFire, hok, hheld, bne_iff_ne.mpr hfmt, Bool.not_true, Bool.and_self, Bool.false_eq_true, if_false, if_true,
    faultStayBad]

theorem beginFire_unchained (hok : beginOk f s = true)
    (hfmt : heldOf f s = true → (s.stayFile f.h (f.context s)).fmt = f.nrec.fmt.toNat)
    (hacc : cdxAcc (s.descriptor f.g f.nrec).toNat = true) (hc : s.chained f = false) : beginFire f s = (s, .fault 0x11 0) := by
  have hstay : (heldOf f s && (s.stayFile f.h (f.context s)).fmt != f.nrec.fmt.toNat) = false := by
    cases hheld : heldOf f s
    · rfl
    · simp [hfmt hheld]
  simp only [beginFire, hok, hstay, hacc, hc, Bool.not_true, Bool.not_false, Bool.and_self, Bool.false_eq_true, if_false, if_true,
    faultAchain]

end

/-- An instruction whose meaning is `beginFire` takes the faults of a contraction that begins. -/
theorem beginFire_faults {i : Rec → Instr} {o : Nat} (h : ∀ r s, exec (i r) s = fireHeld o r trineSpec beginFire s) :
    FaultsHeld i o trineSpec (fun f s => beginOk f s = false) 0x0D (fun f => f.lit % 16) ∧
    FaultsHeld i o trineSpec (fun f s => beginOk f s = true ∧ heldOf f s = true ∧
      (s.stayFile f.h (f.context s)).fmt ≠ f.nrec.fmt.toNat) 0x10 (fun _ => 0) ∧
    FaultsHeld i o trineSpec (fun f s => beginOk f s = true ∧
      (heldOf f s = true → (s.stayFile f.h (f.context s)).fmt = f.nrec.fmt.toNat) ∧
      cdxAcc (s.descriptor f.g f.nrec).toNat = true ∧ s.chained f = false) 0x11 (fun _ => 0) := by
  refine ⟨faultsHeld_of h ?_, faultsHeld_of h ?_, faultsHeld_of h ?_⟩
  · exact fun f s _ hbad => beginFire_badDescriptor hbad
  · rintro f s - ⟨hok, hheld, hfmt⟩
    exact beginFire_badStay hok hheld hfmt
  · rintro f s - ⟨hok, hfmt, hacc, hc⟩
    exact beginFire_unchained hok hfmt hacc hc

/-! ### Accumulators, tables, the stay register and the transposition buffer (R159 to R163) -/

section
variable {f : Fire} {s : State}

theorem accldFire_beyond (h : 1024 < bits f.lit 9 0 + f.wid) : accldFire f s = (s, .fault 0x12 0) :=
  if_pos h

theorem accxFire_unchained (h : s.chained f = false) : accxFire f s = (s, .fault 0x11 0) := by
  simp only [accxFire, h, Bool.not_false, if_true, faultAchain]

theorem accxFire_beyond (hc : s.chained f = true) (h : 1024 < bits f.lit 9 0 + f.wid) : accxFire f s = (s, .fault 0x12 0) := by
  simp only [accxFire, hc, gt_iff_lt, h, Bool.not_true, Bool.false_eq_true, if_false, if_true, faultAccRange]

theorem lutpFire_beyond (h : 32 < f.lit % 32 + (elemsOf f.nrec.fmt.toNat f.ta.lanes).length / 4) :
    lutpFire f s = (s, .fault 0x10 0) := by
  simp only [lutpFire, List.length_map, gt_iff_lt, h, if_true, faultStayBad]

theorem lutmFire_noTable (h : (s.stayFile f.h (f.context s)).fmt ≠ 16) : lutmFire f s = (s, .fault 0x10 0) :=
  if_pos (bne_iff_ne.mpr h)

theorem lutmFire_unchained (h : (s.stayFile f.h (f.context s)).fmt = 16) (hc : s.chained f = false) :
    lutmFire f s = (s, .fault 0x11 0) := by
  simp [lutmFire, h, hc, tableMark, faultAchain]

theorem lutmFire_beyond (h : (s.stayFile f.h (f.context s)).fmt = 16) (hc : s.chained f = true)
    (hr : 1024 < f.lit % 1024 + (elemsOf 10 f.ta.lanes).length / (4 * (bits f.lit 14 10 + 1))) :
    lutmFire f s = (s, .fault 0x12 0) := by
  simp [lutmFire, h, hc, hr, tableMark, faultAccRange]

/-- The element offset at which TSTAY writes: CNT, or the literal's. -/
def Fire.stayBase (f : Fire) (s : State) : Nat :=
  if bit f.lit 13 then (s.stayFile f.h (f.context s)).cnt else f.lit % 8192

theorem tstayFire_bad
    (h : 16384 < (f.stayBase s + (elemsOf f.nrec.fmt.toNat f.ta.lanes).length) * elemWidth f.nrec.fmt.toNat ∨
      (f.stayBase s ≠ 0 ∧ ((s.stayFile f.h (f.context s)).fmt ≠ f.nrec.fmt.toNat ∨
        ((f.nrec.fmt.toNat = 8 ∨ f.nrec.fmt.toNat = 9) ∧ (s.stayFile f.h (f.context s)).scw ≠ f.ta.scw)))) :
    tstayFire f s = (s, .fault 0x10 0) := by
  refine if_pos ?_
  rcases h with h | ⟨h0, h | h⟩
  · exact .inl h
  · exact .inr (.inl ⟨Nat.pos_of_ne_zero h0, h⟩)
  · exact .inr (.inr ⟨Nat.pos_of_ne_zero h0, h⟩)

theorem txprFire_foreign {t : Transpose} (ht : (s.slot f.h f.k).transpose = some t)
    (h : t.scw ≠ f.ta.scw ∨ t.tag ≠ (f.col, f.wave) ∨ 1024 < t.elems.length + (elemsOf f.nrec.fmt.toNat f.ta.lanes).length) :
    txprFire f s = (s, .fault 0x13 0) := by
  simp only [txprFire, ht, h, if_true, faultTxBlk]

end

/-! ### Steps of a contraction (R146) -/

/-- A step that has a fault ends the contraction with it. -/
theorem State.trineStep_fault {s : State} {g h k cause detail : Nat} {c : Contraction}
    (hf : stepFault c c.walk (c.taking c.walk (s.node h k c.node)) = some (cause, detail)) :
    s.trineStep g h k c =
      (s.modSlot h k (fun v => { v with contraction := none })).nodeFault g h k c.node c.col c.wave cause detail := by
  simp only [State.trineStep, hf]

theorem contractionStep_foreign (h k g : Nat) (c : Contraction) (p n e : Nat) : Does .contractionStep (.slot h k)
    (fun s => (s.slot h k).region = some g ∧ (s.slot h k).contraction = some c ∧ s.stepDue h k = true ∧
      c.foreign c.walk (s.node h k c.node) = some (p, n, e))
    (fun s => (s.modSlot h k (fun v => { v with contraction := none })).nodeFault g h k c.node c.col c.wave 0x0E
      (tlenDetail p n e)) := by
  rintro s hc ⟨hg, hx, hd, hf⟩
  show execContractionStep s = _
  simp only [execContractionStep, hc, hg, hx, hd, hf, Bool.not_true, Bool.false_eq_true, if_false, faultTlen]

theorem contractionStep_faults (h k g : Nat) (c : Contraction) (cause detail : Nat) : Does .contractionStep (.slot h k)
    (fun s => (s.slot h k).region = some g ∧ (s.slot h k).contraction = some c ∧ s.stepDue h k = true ∧
      c.foreign c.walk (s.node h k c.node) = none ∧
      stepFault c c.walk (c.taking c.walk (s.node h k c.node)) = some (cause, detail))
    (fun s => (s.modSlot h k (fun v => { v with contraction := none })).nodeFault g h k c.node c.col c.wave cause detail) := by
  rintro s hc ⟨hg, hx, hd, hf, hs⟩
  show execContractionStep s = _
  simp only [execContractionStep, hc, hg, hx, hd, hf, State.trineStep_fault hs, Bool.not_true, Bool.false_eq_true, if_false]

/-! ### O16 -/

/-- Settles O16: the writes of the tensor table by `tdWrite_faults`, the beginnings by `beginFire_faults`, the other instructions by
what their bodies answer, and a contraction's step by the foreign head that it finds or by its own fault. -/
theorem tensorsAndTrinesFault : Obligations.TensorsAndTrinesFault := by
  refine ⟨?writes, ?cdxset, ?trine, contractionStep_foreign, contractionStep_faults⟩
  case writes =>
    intro tb ta count writes
    refine ⟨?tdld, ?tdset, ?tddrop, ?tdkeep, ?tdreg⟩
    case tdld | tdset => exact tdWrite_faults (two := true) (fun _ _ => rfl) fun _ hf => congrArg not hf
    case tddrop | tdkeep => exact tdWrite_faults (two := false) (fun _ _ => rfl) fun _ hf => hf.elim
    case tdreg =>
      exact tdWrite_faults (two := true) (fun _ _ => rfl) fun f hf =>
        Bool.or_eq_true_iff.mpr (hf.imp bne_iff_ne.mpr (fun hv => decide_eq_true hv))
  case cdxset => exact faults_of_answer (fun _ _ => rfl) fun _ _ => cdxsetFire_bad
  case trine =>
    intro stay none' begins base lutm lutp table
    refine ⟨?tric, ?mma, ?tris, ?mmas, ?accld, ?accx, ?accx', ?lutp, ?noTable, ?lutm, ?lutm', ?tstay, ?txpr⟩
    case tric | mma | tris | mmas => exact beginFire_faults fun _ _ => rfl
    case accld => exact faults_of_body (fun _ _ => rfl) fun _ _ => accldFire_beyond
    case accx => exact faults_of_body (fun _ _ => rfl) fun _ _ => accxFire_unchained
    case accx' => exact faults_of_body (fun _ _ => rfl) fun _ _ w => accxFire_beyond w.1 w.2
    case lutp => exact faults_of_body (fun _ _ => rfl) fun _ _ => lutpFire_beyond
    case noTable => exact faults_of_body (fun _ _ => rfl) fun _ _ => lutmFire_noTable
    case lutm => exact faults_of_body (fun _ _ => rfl) fun _ _ w => lutmFire_unchained w.1 w.2
    case lutm' => exact faults_of_body (fun _ _ => rfl) fun _ _ w => lutmFire_beyond w.1 w.2.1 w.2.2
    case tstay => exact faults_of_body (fun _ _ => rfl) fun _ _ => tstayFire_bad
    case txpr => exact faults_of_body (fun _ _ => rfl) fun _ _ ⟨_, ht, w⟩ => txprFire_foreign ht w

end Sys2Proof.Machine
end

section
/-! SUPPORT. O32: TDLD, TDSET, TDDROP, TDKEEP, TDREG, TDQ and CDXSET (R135, R137, R138, R164). -/

namespace Sys2Proof.Machine

/-- The effect of a write of the tensor table: `w` is staged, and the identifier is emitted. -/
def tidStaged (two : Bool) (w : Fire → BitVec 512 × BitVec 512) (f : Fire) (s : State) : State × Token :=
  (s.stageEffect f (.tensor (f.context s) (tidOf f two) (w f).1 (w f).2), tidToken f (tidOf f two))

/-- An instruction that writes the tensor table stages the write of an identifier in range that its check lets pass. -/
theorem tdWrite_gives {i : Rec → Instr} {o : Nat} {p : FireSpec} {two : Bool} {bad : Fire → Bool} {ok : Fire → State → Prop}
    {write : Fire → BitVec 512 × BitVec 512} (h : ∀ r s, exec (i r) s = fireNode o r p (tdWrite two bad write) s)
    (hok : ∀ f s, ok f s → tidOf f two < (s.context (f.context s)).tidCntNow ∧ bad f = false) :
    GivesWhen i o p ok 2 (tidStaged two write) :=
  givesWhen_of h fun f s _ w => tdWrite_stages (hok f s w).1 (hok f s w).2

theorem cdxsetFire_stages {f : Fire} {s : State} (h : cdxOk (imageOf f.ta) = true) : cdxsetFire f s =
    (s.stageEffect f (.descriptor ((f.tb.lanes.headD 0).toNat % 16) (BitVec.ofNat 512 (imageOf f.ta))),
      .emit 2 (countToken f ((f.tb.lanes.headD 0).toNat % 16) 0)) := by
  simp only [cdxsetFire, h, Bool.not_true, Bool.false_eq_true, if_false]

/-- Settles O32: the writes of the tensor table by `tdWrite_gives`, CDXSET by `cdxsetFire_stages`; TDQ's delay and token are those of
its body. -/
theorem tensorWritesStage : Obligations.TensorWritesStage := by
  unfold Obligations.TensorWritesStage
  intro put tb ta known
  refine ⟨?tdld, ?tdset, ?tddrop, ?tdkeep, ?tdreg, ?tdq, ?cdxset⟩
  case tdld | tdset => exact tdWrite_gives (two := true) (fun _ _ => rfl) fun _ _ w => ⟨w.1, congrArg not w.2⟩
  case tddrop | tdkeep => exact tdWrite_gives (two := false) (fun _ _ => rfl) fun _ _ w => ⟨w, rfl⟩
  case tdreg =>
    refine tdWrite_gives (two := true) (fun _ _ => rfl) ?_
    rintro f s ⟨ht, h64, h55⟩
    exact ⟨ht, Bool.or_eq_false_iff.mpr ⟨bne_eq_false_iff_eq.mpr h64, decide_eq_false (Nat.not_le.mpr h55)⟩⟩
  case tdq =>
    intro r s f e u v d x out hw
    exact fireNode_emit (body := tdqFire) e rfl hw
  case cdxset => exact givesWhen_of (fun _ _ => rfl) fun _ _ _ => cdxsetFire_stages

end Sys2Proof.Machine
end

section
/-! SUPPORT. O33: where a contraction begins (R150, R157). -/

namespace Sys2Proof.Machine

/-- With the descriptor, the stay register and the accumulation in order, the contraction begins and takes its first step. -/
theorem beginFire_begins {f : Fire} {s : State} (hok : beginOk f s = true)
    (hfmt : heldOf f s = true → (s.stayFile f.h (f.context s)).fmt = f.nrec.fmt.toNat)
    (hacc : cdxAcc (s.descriptor f.g f.nrec).toNat = true → s.chained f = true) :
    beginFire f s = ((if cdxAcc (s.descriptor f.g f.nrec).toNat then s else s.setAcol f).trineStep f.g f.h f.k
      (startContraction f s), .done) := by
  have hstay : (heldOf f s && (s.stayFile f.h (f.context s)).fmt != f.nrec.fmt.toNat) = false :=
    Bool.and_eq_false_imp.mpr fun hheld => bne_eq_false_iff_eq.mpr (hfmt hheld)
  have hchain : (cdxAcc (s.descriptor f.g f.nrec).toNat && !s.chained f) = false :=
    Bool.and_eq_false_imp.mpr fun hcont => congrArg not (hacc hcont)
  simp only [beginFire, hok, hstay, hchain, Bool.not_true, Bool.false_eq_true, if_false]

/-- Settles O33: TRIC, MMA, TRIS and MMAS share one body, which begins the contraction by `beginFire_begins` whether or not its first
step has a fault. -/
theorem contractionsBegin : Obligations.ContractionsBegin := by
  unfold Obligations.ContractionsBegin
  intro ok go
  have begins : ∀ f s, ok f s → (beginFire f s).1.conclude f (beginFire f s).2 = go f s := by
    rintro f s ⟨hok, hfmt, hacc, -⟩
    rw [beginFire_begins hok hfmt hacc]
    rfl
  refine ⟨?tric, ?mma, ?tris, ?mmas⟩
  case tric | mma | tris | mmas => exact actsHeld_of (fun _ _ => rfl) fun f s _ => begins f s

end Sys2Proof.Machine
end

section
/-! SUPPORT. O34: ACCRD, ACCZ, ACCLD and ACCX (R160, R161). -/

namespace Sys2Proof.Machine

/-- ACCLD sets a run that ends within the file. -/
theorem accldFire_loads {f : Fire} {s : State} (h : bits f.lit 9 0 + f.wid ≤ 1024) : accldFire f s =
    (s.setAcc f.h (f.context s)
      { loadAccs f.ta.flg f.ta.tnt (s.accFile f.h (f.context s)) (bits f.lit 9 0) f.ta.lanes with acol := some (f.k, f.col) },
     .emit 2 (countToken f f.wid 0)) :=
  if_neg (Nat.not_lt.mpr h)

theorem State.chained_iff (s : State) (f : Fire) :
    s.chained f = true ↔ (s.accFile f.h (f.context s)).acol = some (f.k, f.col) :=
  beq_iff_eq

/-- What ACCX makes of its lanes: the file with the sums, and how many accumulators became NaN or infinite. -/
def Fire.accSums (f : Fire) (s : State) : AccFile × Nat × Nat :=
  addLanes f.ta.flg f.ta.tnt (s.accFile f.h (f.context s), 0, 0) (bits f.lit 9 0) f.ta.lanes

/-- ACCX adds to a run of the accumulation that is the firing's own. -/
theorem accxFire_adds {f : Fire} {s : State} (hc : s.chained f = true) (h : bits f.lit 9 0 + f.wid ≤ 1024) : accxFire f s =
    ((s.setAcc f.h (f.context s) (f.accSums s).1).modColour f.g f.col (fun c => c.count (f.accSums s).2.1 (f.accSums s).2.2 0),
     .emit 2 (countToken f f.wid 0)) := by
  simp only [accxFire, hc, gt_iff_lt, Nat.not_lt.mpr h, Bool.not_true, Bool.false_eq_true, if_false, Fire.accSums]

/-- Settles O34: ACCLD and ACCX by what their bodies answer for a run within the file, ACCZ and ACCRD by their bodies alone. -/
theorem accumulatorsAct : Obligations.AccumulatorsAct := by
  unfold Obligations.AccumulatorsAct
  intro base file own count
  refine ⟨?accz, ?accld, ?accx, ?accrd⟩
  case accz => exact givesFrom_of (fun _ _ => rfl) fun _ _ _ => rfl
  case accld => exact givesWhen_of (fun _ _ => rfl) fun _ _ _ => accldFire_loads
  case accx => exact givesWhen_of (fun _ _ => rfl) fun f s _ w => accxFire_adds ((s.chained_iff f).mpr w.1) w.2
  case accrd =>
    refine givesFrom_of (body := fun _ => accrdFire) (fun _ _ => rfl) fun f s _ => ?_
    -- The body tests for a block format by a Bool.
    simp only [accrdFire, Bool.or_eq_true, beq_iff_eq]
    rfl

end Sys2Proof.Machine
end

section
/-! SUPPORT. O35: HAD, LUTP, LUTM, TSTAY and TXPR (R158, R159, R162, R163). -/

namespace Sys2Proof.Machine

section
variable {f : Fire} {s : State}

/-- The real values of A's elements. -/
def Fire.reals (f : Fire) : List Val := (elemsOf f.nrec.fmt.toNat f.ta.lanes).map (decodeFloat f.nrec.fmt.toNat)

/-- The entries of the tables that LUTP makes of its groups of four. -/
def Fire.tableEntries (f : Fire) : List (Nat × BitVec 5) :=
  (chunks 4 f.reals.length f.reals).flatMap (fun g => (List.range 16).map (tableEntry g))

/-- LUTP writes tables that fit the stay register behind the base. -/
theorem lutpFire_writes (h : f.lit % 32 + f.reals.length / 4 ≤ 32) : lutpFire f s =
    (s.setStay f.h (f.context s) { s.stayFile f.h (f.context s) with
        lanes := putLanes (s.stayFile f.h (f.context s)).lanes (16 * (f.lit % 32)) (f.tableEntries.map (fun e => e.1)), fmt := 16 },
     .emit 4 (countToken f (f.reals.length / 4) (f.tableEntries.foldl (fun a e => a ||| e.2) 0))) :=
  if_neg (Nat.not_lt.mpr h)

/-- LUTM adds its sums to a run of the firing's own accumulation, where the stay register holds tables. -/
theorem lutmFire_adds (ht : (s.stayFile f.h (f.context s)).fmt = 16) (hc : s.chained f = true)
    (hr : f.lit % 1024 + (elemsOf 10 f.ta.lanes).length / (4 * (bits f.lit 14 10 + 1)) ≤ 1024) : lutmFire f s =
    (s.setAcc f.h (f.context s) (addSums f.ta.flg f.ta.tnt (s.accFile f.h (f.context s)) (f.lit % 1024)
       ((chunks (4 * (bits f.lit 14 10 + 1)) (elemsOf 10 f.ta.lanes).length (elemsOf 10 f.ta.lanes)).map
         (lutSum (s.stayFile f.h (f.context s)) (bits f.lit 19 15)))),
     .emit 4 (countToken f ((elemsOf 10 f.ta.lanes).length / (4 * (bits f.lit 14 10 + 1))) 0)) := by
  have hmark : ((s.stayFile f.h (f.context s)).fmt != tableMark) = false := bne_eq_false_iff_eq.mpr ht
  simp only [lutmFire, hmark, hc, gt_iff_lt, Nat.not_lt.mpr hr, Bool.not_true, Bool.false_eq_true, if_false]

/-- TSTAY writes elements that fit the register, and behind the first only those of the format and scale that it holds. -/
theorem tstayFire_writes
    (hn : (f.stayBase s + (elemsOf f.nrec.fmt.toNat f.ta.lanes).length) * elemWidth f.nrec.fmt.toNat ≤ 16384)
    (hb : f.stayBase s = 0 ∨ ((s.stayFile f.h (f.context s)).fmt = f.nrec.fmt.toNat ∧
      ((f.nrec.fmt.toNat = 8 ∨ f.nrec.fmt.toNat = 9) → (s.stayFile f.h (f.context s)).scw = f.ta.scw))) : tstayFire f s =
    (s.setStay f.h (f.context s) { s.stayFile f.h (f.context s) with
        lanes := putElems f.nrec.fmt.toNat (s.stayFile f.h (f.context s)).lanes (f.stayBase s) (elemsOf f.nrec.fmt.toNat f.ta.lanes)
        cnt := f.stayBase s + (elemsOf f.nrec.fmt.toNat f.ta.lanes).length, fmt := f.nrec.fmt.toNat, scw := f.ta.scw },
     .emit 2 (countToken f (f.stayBase s + (elemsOf f.nrec.fmt.toNat f.ta.lanes).length) 0)) := by
  refine if_neg ?_
  rintro (h | ⟨h0, hfmt⟩ | ⟨h0, hblock, hscw⟩)
  · exact Nat.not_lt.mpr hn h
  · exact hfmt (hb.resolve_left (Nat.ne_of_gt h0)).1
  · exact hscw ((hb.resolve_left (Nat.ne_of_gt h0)).2 hblock)

/-- The block to which TXPR adds its token: the one in the buffer, or a new one. -/
def Fire.blockBefore (f : Fire) (s : State) : Transpose :=
  match (s.slot f.h f.k).transpose with
  | some t => t
  | none => { node := f.n, tag := (f.col, f.wave), scw := f.ta.scw, elems := [], widths := [], flg := 0, tnt := false
              sc := false, out := [], nrec := f.nrec, due := 0 }

/-- The block with the token's elements and marks. -/
def Fire.blockGrown (f : Fire) (s : State) : Transpose :=
  { f.blockBefore s with
    elems := (f.blockBefore s).elems ++ elemsOf f.nrec.fmt.toNat f.ta.lanes, widths := (f.blockBefore s).widths ++ [f.wid]
    flg := (f.blockBefore s).flg ||| flagsOf f.operands, tnt := (f.blockBefore s).tnt || taintOf f.operands
    sc := (f.blockBefore s).sc || f.scOut, due := s.cycle + 2 }

/-- A block of 1,024 elements goes out. -/
def Fire.blockAfter (f : Fire) (s : State) : Transpose :=
  if (f.blockGrown s).elems.length = 1024 then
    { f.blockGrown s with
      out := blockTokens f.k f.nrec.fmt.toNat (f.blockGrown s) (f.blockGrown s).widths (transposed (f.blockGrown s).elems) }
  else f.blockGrown s

/-- TXPR adds a token of the block's scale and tag for which the buffer has room. -/
theorem txprFire_adds (hs : (f.blockBefore s).scw = f.ta.scw) (ht : (f.blockBefore s).tag = (f.col, f.wave))
    (hl : (f.blockBefore s).elems.length + (elemsOf f.nrec.fmt.toNat f.ta.lanes).length ≤ 1024) : txprFire f s =
    ((s.pipe f 2).modSlot f.h f.k (fun x => { x with transpose := some (f.blockAfter s) }), .done) := by
  refine if_neg ?_
  rintro (h | h | h)
  · exact h hs
  · exact h ht
  · exact Nat.not_lt.mpr hl h

end

/-- Settles O35: HAD by its body alone, the tables, the stay register and the buffer by what their bodies answer where the
conditions hold. -/
theorem trineUnitsAct : Obligations.TrineUnitsAct := by
  unfold Obligations.TrineUnitsAct
  intro stay reals count
  refine ⟨?had, ?lutp, ?lutm, ?tstay, ?txpr⟩
  case had => exact givesFrom_of (fun _ _ => rfl) fun _ _ _ => rfl
  case lutp => exact givesWhen_of (fun _ _ => rfl) fun _ _ _ => lutpFire_writes
  case lutm => exact givesWhen_of (fun _ _ => rfl) fun _ _ _ w => lutmFire_adds w.1 w.2.1 w.2.2
  case tstay => exact givesWhen_of (fun _ _ => rfl) fun _ _ _ w => tstayFire_writes w.1 w.2
  case txpr =>
    intro r s f e u fmt xs old t t' hs ht hl
    obtain ⟨-, rfl⟩ := fires_rec e
    show fireNode 0x15B f.nrec { ready := blockReady } txprFire s = _
    rw [fires_next txprFire e, txprFire_adds hs ht hl]
    rfl

end Sys2Proof.Machine
end

section
/-! SUPPORT. What the plans of the memory nodes answer: where the binding is not valid, where the access is denied, and where it
goes through (R167, R168). -/

namespace Sys2Proof.Machine

/-- The common form of a memory node's plan: AGBINV where the binding that it names is not valid, else what the access finds, or what
is to be asked of the parts that it reaches. -/
def accessPlan {α : Type} (f : Fire) (s : State) (x : Except Denied α) (plan : α → Plan) : State × Except Denied Plan :=
  if !agbV (f.agb s) then (s, .error (denied causeAgbInv f.offset))
  else
    match x with
    | .error d => (s, .error d)
    | .ok ps => (s, .ok (plan ps))

section

variable {α : Type} {f : Fire} {s : State} {x : Except Denied α} {plan : α → Plan}

theorem accessPlan_unbound (h : agbV (f.agb s) = false) : accessPlan f s x plan = (s, .error (denied causeAgbInv f.offset)) := by
  simp only [accessPlan, h, Bool.not_false, if_true]

theorem accessPlan_denied {d : Denied} (h : agbV (f.agb s) = true) (hx : x = .error d) : accessPlan f s x plan = (s, .error d) := by
  simp only [accessPlan, h, hx, Bool.not_true, Bool.false_eq_true, if_false]

theorem accessPlan_granted {ps : α} (h : agbV (f.agb s) = true) (hx : x = .ok ps) :
    accessPlan f s x plan = (s, .ok (plan ps)) := by
  simp only [accessPlan, h, hx, Bool.not_true, Bool.false_eq_true, if_false]

end

/-! ### The accesses of the memory nodes -/

/-- One access of `n` bytes at the offset in lane 0 of A. -/
def Fire.wholeAsk (f : Fire) (s : State) (n align : Nat) (write local' : Bool) : Ask :=
  { o := f.offset, n := n, write := write, align := align, local' := local', base := agbBase (f.agb s) }

/-- The parts that the access reaches. -/
def Fire.wholeParts (f : Fire) (s : State) (n align : Nat) (write local' : Bool) : Except Denied Parts :=
  s.reach f.g f.h (f.agb s) (f.wholeAsk s n align write local')

/-- The parts that the accesses of the qualifying lanes reach, each aligned to its size. -/
def Fire.laneParts (f : Fire) (s : State) (n : Nat) (write : Bool) : Except Denied (List Parts) :=
  s.reachAll f.g f.h (f.agb s) (laneAsks f n write n (agbBase (f.agb s)))

/-- A load of `w` words asks for them one after another. -/
def loadOf (tracked : Bool) (fixed w : Nat) (f : Fire) (s : State) (ps : Parts) : Plan :=
  { reads := (List.range w).map (fun i => laneAtPart ps (4 * i) 4), tracked := tracked, leaves := leavesOf (f.agb s) false ps
    tok := f.token f.nrec.fmt.toNat (List.replicate w 0) 0 0, lat := loadLat (f.agb s) fixed, answer := .atReply, t3 := inT3 ps }

/-- A store asks to write B's bytes. -/
def storeOf (local' : Bool) (tok : Fire → Token) (f : Fire) (s : State) (ps : Parts) : Plan :=
  { writes := storeEntries f f.tb.tnt ps (bytesOf f.tb.lanes), leaves := leavesOf (f.agb s) true ps, tok := tok f
    pointer := if local' && agbWpe (f.agb s) then some (agbWpn (f.agb s), f.offset, 4 * f.tb.wid) else none, t3 := inT3 ps }

/-- OPTST asks to write the granules that its row meets. -/
def optOf (f : Fire) (s : State) (ps : Parts) : Plan :=
  { writes := optEntries f (f.tc.lanes.getD 0 0).toNat (f.tc.lanes.getD 1 0).toNat ps f.tb.wid 0 f.tb.lanes
    leaves := leavesOf (f.agb s) true ps, tok := f.token 1 [BitVec.ofNat 32 f.tb.wid] 0 0, t3 := inT3 ps }

/-- LDX asks for one word for each qualifying lane. -/
def ldxOf (f : Fire) (s : State) (pss : List Parts) : Plan :=
  { reads := laneReads f.qual f.ta.lanes pss, tracked := true, leaves := pss.flatMap (leavesOf (f.agb s) false)
    tok := f.token f.nrec.fmt.toNat f.ta.lanes 0 0, lat := loadLat (f.agb s) 4, answer := .atReply, t3 := pss.any inT3 }

/-- Atomic `op` asks for one entry and one old word for each qualifying lane. -/
def atomicOf (op : Nat) (f : Fire) (s : State) (pss : List Parts) : Plan :=
  { reads := laneReads f.qual f.ta.lanes pss, tracked := true, compare := op == 8
    writes := atomicEntries f op pss (qualLanes f f.tb) (if op = 8 then qualLanes f f.tc else [])
    leaves := pss.flatMap (leavesOf (f.agb s) true), tok := f.token f.code f.ta.lanes 0 0, lat := 0, answer := .atReply
    t3 := pss.any inT3 }

/-- RETW asks to write one byte for each qualifying lane. -/
def retOf (f : Fire) (s : State) (pss : List Parts) : Plan :=
  { writes := retEntries f pss (qualLanes f f.tb), leaves := pss.flatMap (leavesOf (f.agb s) true)
    tok := f.token 1 [BitVec.ofNat 32 pss.length] 0 0, t3 := pss.any inT3 }

/-- The words of a load (R173). -/
def Fire.words (f : Fire) : Nat := bits f.lit 13 9 + 1

theorem loadPlan_eq (local' tracked : Bool) (fixed : Nat) (f : Fire) (s : State) : loadPlan local' tracked fixed f s =
    accessPlan f s (f.wholeParts s (4 * f.words) 4 false local') (loadOf tracked fixed f.words f s) := by
  unfold loadPlan accessPlan Fire.wholeParts Fire.wholeAsk Fire.words
  dsimp only
  cases s.reach f.g f.h _ _ <;> rfl

theorem storePlan_eq (local' : Bool) (tok : Fire → Token) (f : Fire) (s : State) : storePlan local' tok f s =
    accessPlan f s (f.wholeParts s (4 * f.tb.wid) 4 true local') (storeOf local' tok f s) := by
  unfold storePlan accessPlan Fire.wholeParts Fire.wholeAsk
  dsimp only
  cases s.reach f.g f.h _ _ <;> rfl

theorem optPlan_eq (f : Fire) (s : State) : optPlan f s =
    accessPlan f s (f.wholeParts s (4 * f.tb.wid) 64 true false) (optOf f s) := by
  unfold optPlan accessPlan Fire.wholeParts Fire.wholeAsk
  dsimp only
  cases s.reach f.g f.h _ _ <;> rfl

theorem ldxPlan_eq (f : Fire) (s : State) : ldxPlan f s = accessPlan f s (f.laneParts s 4 false) (ldxOf f s) := by
  unfold ldxPlan accessPlan Fire.laneParts
  dsimp only
  cases s.reachAll f.g f.h _ _ <;> rfl

theorem retPlan_eq (f : Fire) (s : State) : retPlan f s = accessPlan f s (f.laneParts s 1 true) (retOf f s) := by
  unfold retPlan accessPlan Fire.laneParts
  dsimp only
  cases s.reachAll f.g f.h _ _ <;> rfl

theorem atomicPlan_eq {op : Nat} {f : Fire} (h : f.opc = 0x1D0 + op) (s : State) : atomicPlan f s =
    accessPlan f s (f.laneParts s 4 true) (atomicOf op f s) := by
  have e : f.opc - 0x1D0 = op := by omega
  unfold atomicPlan accessPlan Fire.laneParts
  dsimp only
  rw [e]
  cases s.reachAll f.g f.h _ _ <;> rfl

end Sys2Proof.Machine
end

section
/-! SUPPORT. O17: accesses that find a fault are withheld (R167, R168, R174). -/

namespace Sys2Proof.Machine

/-- AGBINV: the binding that the firing names is not valid. -/
def Fire.unbound (f : Fire) (s : State) (cause addr detail : Nat) : Prop :=
  agbV (f.agb s) = false ∧ cause = 1 ∧ addr = f.offset ∧ detail = 1

/-- The whole access of `n` bytes finds a fault of Table 9-2. -/
def Fire.wholeDenied (n : Fire → Nat) (align : Nat) (f : Fire) (s : State) (cause addr detail : Nat) : Prop :=
  agbV (f.agb s) = true ∧ FaultsAccess f s (f.agb s) f.offset (n f) align cause addr detail

/-- The first qualifying lane whose access of `n` bytes fails finds a fault of Table 9-2. -/
def Fire.laneDenied (n : Nat) (write : Bool) (f : Fire) (s : State) (cause addr detail : Nat) : Prop :=
  agbV (f.agb s) = true ∧ ∃ before a after ps, laneAsks f n write n (agbBase (f.agb s)) = before ++ a :: after ∧
    s.reachAll f.g f.h (f.agb s) before = .ok ps ∧ FaultsAccess f s (f.agb s) a.o n n cause addr detail

/-- A lane's access is as `laneAsks` makes them all. -/
theorem mem_laneAsks {f : Fire} {n align base : Nat} {write : Bool} {a : Ask} (h : a ∈ laneAsks f n write align base) :
    a.n = n ∧ a.align = align ∧ a.base = base := by
  obtain ⟨x, -, hx⟩ := List.mem_filterMap.mp h
  rw [Option.ite_none_right_eq_some] at hx
  obtain ⟨-, ⟨⟩⟩ := hx
  exact ⟨rfl, rfl, rfl⟩

/-- What the whole access finds is what its parts answer. -/
theorem Fire.wholeDenied.parts {n : Fire → Nat} {align cause addr detail : Nat} {f : Fire} {s : State}
    (h : f.wholeDenied n align s cause addr detail) (write local' : Bool) :
    f.wholeParts s (n f) align write local' = .error { cause := cause, addr := addr, detail := detail } :=
  h.2.reach rfl rfl rfl rfl

/-- What the first failing lane finds is what the parts of all lanes answer. -/
theorem Fire.laneDenied.parts {n cause addr detail : Nat} {write : Bool} {f : Fire} {s : State}
    (h : f.laneDenied n write s cause addr detail) :
    f.laneParts s n write = .error { cause := cause, addr := addr, detail := detail } := by
  obtain ⟨-, before, a, after, ps, hl, hb, ha⟩ := h
  have hm : a ∈ laneAsks f n write n (agbBase (f.agb s)) := hl ▸ List.mem_append_right _ List.mem_cons_self
  obtain ⟨hn, hal, hba⟩ := mem_laneAsks hm
  unfold Fire.laneParts
  rw [hl]
  exact reachAll_denied (ha.reach rfl hn hal hba) after before ps hb

section

variable {i : Rec → Instr} {o : Nat} {p : FireSpec} {z : Bool} {q : MemSpec}

/-- A memory node of one access withholds it through an invalid binding, and where Table 9-2 finds a fault. -/
theorem wholeNode_withholds {n : Fire → Nat} {align : Nat} {write local' : Bool} {plan : Fire → State → Parts → Plan}
    (h : ∀ r s, exec (i r) s = fireHeld o r p (memFire q) s) (hz : q.laneZero = z)
    (hq : ∀ f s, q.plan f s = accessPlan f s (f.wholeParts s (n f) align write local') (plan f s)) :
    Withholds i o p z Fire.unbound ∧ Withholds i o p z (Fire.wholeDenied n align) := by
  constructor
  · refine withholds_of h hz ?_
    rintro f s c a d ⟨hv, rfl, rfl, rfl⟩ -
    rw [hq, accessPlan_unbound hv]
    rfl
  · refine withholds_of h hz fun f s c a d hd _ => ?_
    rw [hq, accessPlan_denied hd.1 (hd.parts write local')]

/-- A memory node of one access for each qualifying lane withholds them through an invalid binding, and where Table 9-2 finds a fault
in one. -/
theorem laneNode_withholds {n : Nat} {write : Bool} {plan : Fire → State → List Parts → Plan}
    (h : ∀ r s, exec (i r) s = fireHeld o r p (memFire q) s) (hz : q.laneZero = z)
    (hq : ∀ f s, f.opc = o → q.plan f s = accessPlan f s (f.laneParts s n write) (plan f s)) :
    Withholds i o p z Fire.unbound ∧ Withholds i o p z (Fire.laneDenied n write) := by
  constructor
  · refine withholds_of h hz ?_
    rintro f s c a d ⟨hv, rfl, rfl, rfl⟩ ho
    rw [hq f s ho, accessPlan_unbound hv]
    rfl
  · refine withholds_of h hz fun f s c a d hd ho => ?_
    rw [hq f s ho, accessPlan_denied hd.1 hd.parts]

end

/-! ### What a request finds when it issues -/

/-- The pointer that an STS names stands elsewhere. -/
theorem State.pointerOff_of {s : State} {h : Nat} {q : Request} {n o b : Nat} (hq : q.pointer = some (n, o, b))
    (hp : s.pointer (dieOf h) n ≠ o) : s.pointerOff h q = true := by
  simp only [State.pointerOff, hq, bne_iff_ne, ne_eq, hp, not_false_eq_true]

theorem State.pointerOff_eq_false {s : State} {h : Nat} {q : Request}
    (hp : ∀ n o b, q.pointer = some (n, o, b) → s.pointer (dieOf h) n = o) : s.pointerOff h q = false := by
  unfold State.pointerOff
  split
  · rfl
  · rename_i n o b hq
    simp only [hp n o b hq, bne_self_eq_false]

/-- Another run of the activation has staged another scale word for the block. -/
theorem State.mixes_of {s : State} {g col a v : Nat} {x : Nat × Nat} (hx : x ∈ (s.colour g col).blocks)
    (ha : forwardAddr s.forwards x.1 = forwardAddr s.forwards a) (hv : x.2 ≠ v) : s.mixes g col (some (a, v)) = true := by
  simp only [State.mixes, List.any_eq_true, Bool.and_eq_true, beq_iff_eq, bne_iff_ne]
  exact ⟨x, hx, ha, hv⟩

theorem State.issue_wpord {s : State} {g h k : Nat} {q : Request} (hp : s.pointerOff h q = true) :
    s.issue g h k q = s.nodeFault g h k q.node q.col q.wave 0x14 0 := by
  simp only [State.issue, hp, if_true]
  rfl

theorem State.issue_scwmix {s : State} {g h k : Nat} {q : Request} (hp : s.pointerOff h q = false)
    (hm : s.mixes g q.col q.mix = true) : s.issue g h k q = s.nodeFault g h k q.node q.col q.wave 0x15 0 := by
  simp only [State.issue, hp, hm, Bool.false_eq_true, if_false, if_true]
  rfl

/-- Settles O17: nodes of one access by `wholeNode_withholds`, nodes of an access a lane by `laneNode_withholds`, both through the
common form of their plans; WPORD and SCWMIX by what an issue finds first. -/
theorem memoryNodesWithhold : Obligations.MemoryNodesWithhold := by
  unfold Obligations.MemoryNodesWithhold
  refine ⟨?access, ?wpord, ?scwmix⟩
  case access =>
    intro bind o whole lanes w b
    refine ⟨?ld, ?ldn, ?lds, ?ldx, ?st, ?sts, ?mcast, ?optst, ?retw, ?atomics⟩
    case ld | ldn | lds => exact wholeNode_withholds (fun _ _ => rfl) rfl (loadPlan_eq _ _ _)
    case ldx => exact laneNode_withholds (fun _ _ => rfl) rfl fun f s _ => ldxPlan_eq f s
    case st | sts | mcast => exact wholeNode_withholds (fun _ _ => rfl) rfl (storePlan_eq _ _)
    case optst => exact wholeNode_withholds (fun _ _ => rfl) rfl optPlan_eq
    case retw => exact laneNode_withholds (fun _ _ => rfl) rfl fun f s _ => retPlan_eq f s
    case atomics =>
      refine ⟨?aadd, ?afadd, ?amin, ?amax, ?aand, ?aor, ?axor, ?axchg, ?acas, ?ainc⟩
      all_goals exact laneNode_withholds (fun _ _ => rfl) rfl fun f s ho => atomicPlan_eq ho s
  case wpord =>
    rintro h k id g q n o b s hc ⟨hg, hq, hi, hp, hn⟩
    rw [exec_requestIssue hc hg hq hi, State.issue_wpord (State.pointerOff_of hp hn)]
  case scwmix =>
    rintro h k id g q a v x s hc ⟨hg, hq, hi, hp, hm, hx, ha, hv⟩
    rw [exec_requestIssue hc hg hq hi, State.issue_scwmix (State.pointerOff_eq_false hp) (hm ▸ State.mixes_of hx ha hv)]

end Sys2Proof.Machine
end

section
/-! SUPPORT. O36: a PREF whose request waits keeps the parts that it hints at (R175). -/

namespace Sys2Proof.Machine

/-- A PREF through binding 0 with NOP = 0, the second of a chain (SEQ 1, PRED 0, SUCC 2). -/
def prefRec : Rec :=
  { fmt := 1, ary := 1, tag := 0, lit := 2, rnd := 0, sat := 0, scl := 0, pm := 0, wgt := 0, jdq := 0
    d1 := { v := 0, oport := 0, node := 0, opnd := 0 }, d0 := { v := 1, oport := 12, node := 1, opnd := 0 }, rsv := 0
    lit32 := 0x04008000 }

/-- The offset 0 on port A. -/
def prefToken : Token := { fmt := 1, wid := 1, lanes := [0] }

/-- A valid local binding over 4 KiB (R165): V, LOC and LIMIT. -/
def bankBinding : BitVec 512 := BitVec.ofNat 512 (2 ^ 511 + 2 ^ 510 + 4096 * 2 ^ 399)

/-- The PREF stands in node 0 with its offset, and no access of its chain has issued. -/
def prefState : State :=
  let s := (State.reset.withRecord (encodeRecord 0x1C9 prefRec)).modRegion 0 (fun r =>
    { r with cfg := { r.cfg with agb := [(0, bankBinding)] } })
  { s.modNode 0 0 0 (fun x => { x with qa := [prefToken] }) with cur := .node 0 0 0 }

/-- Its firing. -/
def prefFire : Fire := fireOf 0 0 0 0 0x1C9 prefRec [(0, prefToken)] none false prefToken

/-- The hints of the requests that stand in slot 0 of hearth 0 after a step. -/
def hintsAfter : Host.Outcome State Fault Refusal → List Parts
  | .next t => (t.slot 0 0).cfg.buffer.map (fun q => q.hint)
  | _ => []

/-- It fires on its offset: the record, the operand and the ordering buffer let it. -/
theorem prefState_fires : prefState.firesHeld (specPref.fires true) 0x1C9 prefRec prefFire = true := by decide +kernel

/-- The model keeps the four bytes that the PREF hints at with the request, which waits for its chain. -/
theorem pref_keepsHint : hintsAfter (exec (.pref prefRec) prefState) = [[(0, bankBase 0, 4)]] := by decide +kernel

/-- Refutes O36: the plan that the statement gives a PREF has no hint, while the model's has the parts that it reads into the row
buffers (R175). In `prefState` the request waits for its chain, so that the two leave different ordering buffers. -/
theorem not_loadsAsk : ¬ Obligations.LoadsAsk := by
  unfold Obligations.LoadsAsk
  rintro ⟨-, -, -, -, -, hpref, -⟩
  have hidle : prefFire.idle = false := by decide +kernel
  have stated := hpref prefRec prefState (prefState.noteFiring prefFire) prefFire _ prefState_fires hidle nofun ⟨rfl, rfl⟩
    (by decide +kernel)
  have hints := pref_keepsHint
  rw [stated] at hints
  exact absurd hints (by decide +kernel)

end Sys2Proof.Machine
end

section
/-! SUPPORT. O37: stores, MCAST, STT, atomics, OPTST and RETW (R174, R176 to R178, R180, R304). -/

namespace Sys2Proof.Machine

theorem storePlan_reaches {local' : Bool} {tok : Fire → Token} {f : Fire} {s : State} {ps : Parts}
    (h : Reaches f s (4 * f.tb.wid) 4 true local' ps) : storePlan local' tok f s = (s, .ok (storeOf local' tok f s ps)) := by
  obtain ⟨hv, hr⟩ := h
  exact (storePlan_eq local' tok f s).trans (accessPlan_granted hv hr)

theorem optPlan_reaches {f : Fire} {s : State} {ps : Parts} (h : Reaches f s (4 * f.tb.wid) 64 true false ps) :
    optPlan f s = (s, .ok (optOf f s ps)) := by
  obtain ⟨hv, hr⟩ := h
  exact (optPlan_eq f s).trans (accessPlan_granted hv hr)

theorem retPlan_reaches {f : Fire} {s : State} {pss : List Parts} (h : ReachesEach f s 1 true pss) :
    retPlan f s = (s, .ok (retOf f s pss)) := by
  obtain ⟨hv, hr⟩ := h
  exact (retPlan_eq f s).trans (accessPlan_granted hv hr)

theorem atomicPlan_reaches {op : Nat} {f : Fire} {s : State} {pss : List Parts} (ho : f.opc = 0x1D0 + op)
    (h : ReachesEach f s 4 true pss) : atomicPlan f s = (s, .ok (atomicOf op f s pss)) := by
  obtain ⟨hv, hr⟩ := h
  exact (atomicPlan_eq ho s).trans (accessPlan_granted hv hr)

/-- What STT asks: the run at `ps`, and its block's scale word at `sp`. -/
def sttOf (f : Fire) (s : State) (ps sp : Parts) : Plan :=
  { writes := storeEntries f f.tb.tnt ps (bytesOf f.tb.lanes) ++ storeEntries f f.tb.tnt sp (leBytes 2 f.tb.scw)
    mix := if sp.isEmpty then none else some (partAddr sp 0, f.tb.scw % 65536)
    leaves := leavesOf (f.agb s) true (ps ++ sp), tok := bytesToken f, t3 := inT3 ps }

/-- STT goes through where its pass has an entry, in the state in which the pass has begun, and its run and scale word are reached. -/
theorem sttPlan_reaches {f : Fire} {s t : State} {e : Nat} {ps sp : Parts} (hv : agbV (f.agb s) = true)
    (he : passEntry f false s = (t, .ok e)) (hr : tensorReach f t e (4 * f.tb.wid) true = .ok (ps, sp)) :
    sttPlan f s = (t, .ok (sttOf f s ps sp)) := by
  simp only [sttPlan, hv, he, hr, Bool.not_true, Bool.false_eq_true, if_false]
  rfl

/-- The ten atomics ask alike. -/
theorem atomicNode_asks {i : Rec → Instr} {op : Nat}
    (h : ∀ r s, exec (i r) s = fireHeld (0x1D0 + op) r (specAtomic.fires false) (memFire specAtomic) s) :
    Asks i (0x1D0 + op) (specAtomic.fires false) true false
      (fun f s t x => t = s ∧ ∃ pss, ReachesEach f s 4 true pss ∧ x = atomicOf op f s pss) := by
  refine asks_of h rfl rfl rfl ?_
  rintro f _ s _ ⟨rfl, pss, hr, rfl⟩ ho
  exact atomicPlan_reaches ho hr

/-- Settles O37: the plan that each node's reached parts give it is the one of its clause; MCAST's token leaves in the firing. -/
theorem storesAsk : Obligations.StoresAsk := by
  unfold Obligations.StoresAsk
  intro b run stored atom atomic'
  refine ⟨?st, ?sts, ?mcast, ?stt, ?aadd, ?afadd, ?amin, ?amax, ?aand, ?aor, ?axor, ?axchg, ?acas, ?ainc, ?optst, ?retw⟩
  case st | sts =>
    refine asks_of (fun _ _ => rfl) rfl rfl rfl ?_
    rintro f _ s _ ⟨rfl, ps, hr, rfl⟩ -
    exact storePlan_reaches hr
  case mcast =>
    refine asksAndGives_of (fun _ _ => rfl) rfl rfl rfl ?_
    rintro f _ s _ ⟨rfl, ps, hr, rfl⟩ -
    exact storePlan_reaches (tok := fun f => f.moved f.tb) hr
  case stt =>
    refine asks_of (fun _ _ => rfl) rfl rfl rfl ?_
    rintro f s t _ ⟨e, ps, sp, hv, he, hr, rfl⟩ -
    exact sttPlan_reaches hv he hr
  case optst =>
    refine asks_of (fun _ _ => rfl) rfl rfl rfl ?_
    rintro f _ s _ ⟨rfl, ps, hr, rfl⟩ -
    exact optPlan_reaches hr
  case retw =>
    refine asks_of (fun _ _ => rfl) rfl rfl rfl ?_
    rintro f _ s _ ⟨rfl, pss, hr, rfl⟩ -
    exact retPlan_reaches hr
  all_goals exact atomicNode_asks fun _ _ => rfl

end Sys2Proof.Machine
end

section
/-! SUPPORT. O38: the pointer and queue instructions (R182, R275, R277, R278). -/

namespace Sys2Proof.Machine

/-- The state in which an ENQ's operands are consumed and its append is staged. -/
def Fire.enqueued (f : Fire) (s : State) : State :=
  ((((s.unwithhold f).consume f).countElem f).stageOperands f true).stageEffect f (.append f.qid (laneAddress f.tb) f.h s.cycle)

/-- What ENQ asks: its entry's bytes at the parts of the address. -/
def enqOf (f : Fire) (ps : Parts) : Plan :=
  { writes := storeEntries f f.ta.tnt ps (enqImage f), leaves := ps.map (fun p => (p.1, p.2.2, true)), tok := f.moved f.tb
    t3 := inT3 ps }

/-- ENQ stores its entry where its address is a granule's and is reached. -/
theorem enqFire_stores {f : Fire} {s : State} {ps : Parts} (h64 : laneAddress f.tb % 64 = 0)
    (hr : s.virtParts (sectorUnit f.h) (f.context s) (laneAddress f.tb) 64 true = .ok ps) :
    enqFire f s = ((f.enqueued s).fresh.2.issue f.g f.h f.k
      { requestOf f (enqOf f ps) false with id := (f.enqueued s).fresh.1, seq := 63, pred := 0, succ := 0 }, .done) := by
  simp only [enqFire, enqPlan, enqReach, h64, hr, ne_eq, not_true_eq_false, if_false]
  rfl

/-- Settles O38: WPTR and TAIL by their bodies alone, WPWAIT, SEQRD and SEQWAIT by the delay that their bodies draw, ENQ by
`enqFire_stores`. -/
theorem pointersAndQueuesAct : Obligations.PointersAndQueuesAct := by
  unfold Obligations.PointersAndQueuesAct
  intro q late two
  refine ⟨?wptr, ?wpwait, ?enq, ?tail, ?seqrd, ?seqwait⟩
  case wptr => exact gives_of (fun _ _ => rfl) fun _ _ _ => rfl
  case tail => exact givesFrom_of (fun _ _ => rfl) fun _ _ _ => rfl
  case wpwait | seqwait =>
    intro r s f e u hw
    exact fireNode_emit e rfl hw
  case seqrd =>
    intro r s f e u d v hw
    obtain ⟨-, rfl⟩ := fires_rec e
    have hv : v = seqValue (u.queue f.qid) (bits f.lit 10 9) := by
      show v = seqValue (u.queue f.qid) (bits f.nrec.lit32.toNat 10 9)
      simp only [v]
      rcases bits f.nrec.lit32.toNat 10 9 with _ | _ | n <;> rfl
    clear_value v
    subst hv
    exact fireNode_emit e rfl hw
  case enq =>
    intro r s f e u a ps h64 hr v bytes x
    show fireHeld 0x240 r enqSpec enqFire s = _
    rw [firesHeld_next enqFire e, enqFire_stores h64 hr]
    rfl

end Sys2Proof.Machine
end

section
/-! SUPPORT. O41: requests issue, reply, time out and report (R33, R168, R170, R171, R329, R361). -/

namespace Sys2Proof.Machine

/-! ### A reply and its receiver's check -/

/-- A reply's token as it arrives. -/
def State.replyCame (s : State) (q : Request) : Token := (s.replyToken q).disturbed q.noise

/-- The receiver finds the residue of the reply's payload (R33). -/
def State.replySound (s : State) (q : Request) : Bool :=
  (s.replyCame q).res == tokenResidue (s.replyCame q).fmt (s.replyCame q).lanes

/-- Entries of a compare-and-swap that take no effect. -/
def State.replyFailed (s : State) (q : Request) : List Nat :=
  if q.compare then failedLanes q.reads (s.replyToken q).lanes q.writes else []

/-- The ports are used, the critical reads are done, and the request has left the ordering buffer. -/
def State.replyHeard (s : State) (h k : Nat) (q : Request) : State :=
  (((s.usePort (readAddrs q.lanes)).critDone q.crit).dropRequest h k q.id).modSlot h k (fun x => { x with heardAt := some s.cycle })

/-- The messages of the endpoints that reply. -/
def State.replyMessages (s : State) (g h : Nat) (q : Request) : List MeshMessage :=
  s.replies q h (s.region g).ctx (!(s.replyFailed q).isEmpty) (s.replyToken q).res

/-- What a sound reply does: the failed entries leave the damper, and the token goes to the node's destinations. -/
def State.replyGiven (s : State) (g h k : Nat) (q : Request) : State :=
  let u := (s.replyHeard h k q).modHearth h (fun x => { x with damper := x.damper.filter (fun e => !(s.replyFailed q).contains e.id) })
  (u.modColour g q.col (fun c => c.inPipe u.cycle)).sendAll g h k q.node q.nrec false u.cycle (s.replyCame q)

theorem State.reply_sound {s : State} {g h k : Nat} {q : Request} (hs : s.replySound q = true) :
    s.reply g h k q = (s.replyGiven g h k q).sendMessages (s.replyMessages g h q) := by
  have hr : (s.replyCame q).res = tokenResidue (s.replyCame q).fmt (s.replyCame q).lanes := beq_iff_eq.mp hs
  exact congrArg (State.sendMessages · _) (if_neg (bne_iff_ne.not.mpr (not_not.mpr hr)))

theorem State.reply_unsound {s : State} {g h k : Nat} {q : Request} (hs : s.replySound q = false) :
    s.reply g h k q = ((s.replyHeard h k q).purgeCorrected g [q.col]).sendMessages (s.replyMessages g h q) := by
  have hr : (s.replyCame q).res ≠ tokenResidue (s.replyCame q).fmt (s.replyCame q).lanes := beq_eq_false_iff_ne.mp hs
  exact congrArg (State.sendMessages · _) (if_pos (bne_iff_ne.mpr hr))

/-- The step in which a reply that may be given is given. -/
theorem exec_loadReply {s : State} {h k id g : Nat} {q : Request} (hc : s.cur = .request h k id)
    (hg : (s.slot h k).region = some g) (hq : s.request h k id = some q) (hr : s.replyReady h k q = true) :
    exec .loadReply s = .next (s.reply g h k q) := by
  show execLoadReply s = _
  simp only [execLoadReply, hc, hg, hq, hr, if_true]

/-! ### A timeout and a message -/

/-- The limit has passed for a request of this event's kind. -/
theorem timeoutEvent_timesOut {t3 : Bool} {s : State} {h k id : Nat} {q : Request} (hc : s.cur = .request h k id)
    (hq : s.request h k id = some q) (h3 : q.t3 = t3) (ht : s.timedOut q = true) :
    timeoutEvent t3 s = .next (s.timeOut h k q) := by
  simp only [timeoutEvent, hc, hq, h3, ht, beq_self_eq_true, Bool.and_self, if_true]

/-- The step in which the message of a node's withheld access goes out. -/
theorem exec_faultMessageSend {s : State} {h k n g : Nat} {w : WithheldAccess} (hc : s.cur = .node h k n)
    (hg : (s.slot h k).region = some g) (hw : (s.node h k n).withheld = some w) (hd : w.due s.cycle = true) :
    exec .faultMessageSend s = .next (s.nodeMessage g h k n w) := by
  show execFaultMessageSend s = _
  simp only [execFaultMessageSend, hc, hg, hw, hd, if_true]

/-- Settles O41: each event takes the branch that its clause names; the token of a reply is that of `State.replyToken`. -/
theorem requestsGoOn : Obligations.RequestsGoOn := by
  unfold Obligations.RequestsGoOn
  intro held
  have hheld (h k : Nat) (q : Request) (s : State) : s.timeOut h k q = held h k q s := by
    unfold State.timeOut
    simp only [held]
    rcases q.reads with _ | ⟨_ | ⟨_ | ⟨_, _⟩⟩, _⟩ <;> rfl
  refine ⟨?issue, ?reply, ?timeout, ?linkTimeout, ?message⟩
  case issue =>
    rintro h k id g q s hc ⟨hg, hq, hi⟩
    exact exec_requestIssue hc hg hq hi
  case reply =>
    intro given heard answers sound
    have hgiven : given = fun q s => s.replyToken q := by
      funext q s
      cases ha : q.answer <;> cases hw : q.scw <;> simp only [given, State.replyToken, ha, hw]
    clear_value given
    subst hgiven
    constructor
    · rintro h k id g q s hc ⟨hg, hq, hr, hs⟩
      exact (exec_loadReply hc hg hq hr).trans (congrArg _ (State.reply_sound hs))
    · rintro h k id g q s hc ⟨hg, hq, hr, hs⟩
      exact (exec_loadReply hc hg hq hr).trans (congrArg _ (State.reply_unsound hs))
  case timeout | linkTimeout =>
    rintro h k id q s hc ⟨hq, h3, ht⟩
    exact (timeoutEvent_timesOut hc hq h3 ht).trans (congrArg _ (hheld h k q s))
  case message =>
    rintro h k n g w s hc ⟨hg, hw, hd⟩
    refine (exec_faultMessageSend hc hg hw hd).trans (congrArg _ ?_)
    cases hk : (s.region g).kernel <;> simp only [State.nodeMessage, hk]

end Sys2Proof.Machine
end

section
/-! SUPPORT. O44: the steps of an activation's commit, of a damper entry, and of a commit write that is refused or stays unanswered
(R177, R189, R190, R338, R340, R346). -/

namespace Sys2Proof.Machine

/-! ### The commit -/

/-- The step of an activation before its commit point. -/
theorem exec_activationCommit_before {s : State} {g c : Nat} (hc : s.cur = .colour g c) (hm : (s.colour g c).committed = false) :
    exec .activationCommit s = .next
      (if s.mayCommit g c then s.prepare g c else if (s.colour g c).preparing then s.retreat g c else s) := by
  show execActivationCommit s = _
  simp only [execActivationCommit, hc, hm, Bool.false_eq_true, if_false]

/-- A compare-and-swap that no longer finds its word aborts the activation (R177). -/
theorem State.prepare_of_acasFails {s : State} {g c : Nat} (hw : s.acasWaits g c = false)
    (hf : acasFails (entryGroups (s.entriesOf g c)) s = true) : s.prepare g c = s.purge g [c] true false := by
  simp only [State.prepare, hw, hf, Bool.false_eq_true, if_false, if_true]

/-- The prepare phase sends entries, and passes the commit point once all are sent (R190). -/
theorem State.prepare_of_holds {s : State} {g c : Nat} (hw : s.acasWaits g c = false)
    (hf : acasFails (entryGroups (s.entriesOf g c)) s = false) :
    s.prepare g c =
      let t := (s.modColour g c (fun y => { y with preparing := true })).sendEntries g c
      if t.allSent g c then (t.commitPoint g c).applyPhase g c else t := by
  simp only [State.prepare, hw, hf, Bool.false_eq_true, if_false]

/-! ### A damper entry -/

/-- The step of an entry that lies in its damper. -/
theorem exec_damperEntryEligible {s : State} {h id : Nat} {e : DamperEntry} (hc : s.cur = .entry h id)
    (he : s.damperEntry h id = some e) : exec .damperEntryEligible s = .next (s.advanceEntry h e) := by
  show execDamperEntryEligible s = _
  simp only [execDamperEntryEligible, hc, he]

/-- A Held entry whose age has come becomes Eligible (R338). -/
theorem State.advanceEntry_held {s : State} {h : Nat} {e : DamperEntry} (hs : e.st = .held) (ha : e.born + 128 ≤ s.cycle) :
    s.advanceEntry h e = s.modDamper e.id (fun x => { x with st := .eligible }) := by
  simp only [State.advanceEntry, hs]
  exact if_pos ha

/-- In oldest-only mode an Eligible entry is logged where the log has room (R340). -/
theorem State.advanceEntry_eligible {s : State} {h : Nat} {e : DamperEntry} (hs : e.st = .eligible)
    (ho : (s.colour e.region e.col).oldest.contains h = true) (hr : s.logRoom e.region = true) :
    s.advanceEntry h e = s.modDamper e.id (fun x => { x with st := .logged, inLog := true }) := by
  simp only [State.advanceEntry, hs, ho, hr, Bool.and_self, if_true]

/-! ### A commit write that is refused or stays unanswered -/

/-- The step of a refused write, once its commit point lies behind it. -/
theorem exec_commitWriteRefused {s : State} {h id : Nat} {e : DamperEntry} (hc : s.cur = .entry h id)
    (he : s.damperEntry h id = some e) (ho : e.order ≠ 0) : exec .commitWriteRefused s = .next (s.refuse h e) := by
  show execCommitWriteRefused s = _
  simp only [execCommitWriteRefused, hc, he, bne_iff_ne.mpr ho, if_true]

/-- The step of a write that has stayed unanswered too long: the first time it is sent again, then it is lost (R346). -/
theorem exec_commitWriteTimeout {s : State} {h id : Nat} {e : DamperEntry} (hc : s.cur = .entry h id)
    (he : s.damperEntry h id = some e) (ho : e.order ≠ 0) (ht : e.sentAt + Config.requestTimeout ≤ s.cycle) :
    exec .commitWriteTimeout s = .next (if e.resent / 4 = 0 then s.resend h e 4 else s.loseWrite h e) := by
  show execCommitWriteTimeout s = _
  simp only [execCommitWriteTimeout, hc, he, bne_iff_ne.mpr ho, ht, decide_true, Bool.and_self, if_true]

/-- A write goes out again where there is room for it in this cycle (R339). -/
theorem State.resend_of_room {s : State} {h : Nat} {e : DamperEntry} (hr : s.drainRoom h e = true) (n : Nat) :
    s.resend h e n = { ((s.drain h e).tellWrite h e).modDamper e.id (fun x =>
      { x with resent := x.resent + n, sentAt := s.cycle, again := 0 }) with unacked := dropOne e.id s.unacked } := by
  simp only [State.resend, hr, if_true]

/-- A write waits for the first cycle that has room for it. -/
theorem State.resend_of_full {s : State} {h : Nat} {e : DamperEntry} (hr : s.drainRoom h e = false) (n : Nat) :
    s.resend h e n = s.modDamper e.id (fun x => { x with again := n, sentAt := s.cycle }) := by
  simp only [State.resend, hr, Bool.false_eq_true, if_false]

/-- The first two refusals of a write send it again. -/
theorem State.refuse_early {s : State} {h : Nat} {e : DamperEntry} (hn : e.resent % 4 < 2) : s.refuse h e = s.resend h e 1 :=
  if_pos hn

/-- The third refusal of a write that stands behind an earlier one taints it. -/
theorem State.refuse_behind {s : State} {h : Nat} {e : DamperEntry} (hn : 2 ≤ e.resent % 4) (hb : s.standsBehind e = true) :
    s.refuse h e = (({ s with unacked := dropOne e.id s.unacked } : State).modDamper e.id (fun x => { x with tnt := true })).taintHolder
      e.region := by
  simp only [State.refuse, Nat.not_lt.mpr hn, hb, if_false, if_true]

/-- The third refusal of a write that stands first applies its group, poisons its granule and frees the group's entries. -/
theorem State.refuse_first {s : State} {h : Nat} {e : DamperEntry} (hn : 2 ≤ e.resent % 4) (hb : s.standsBehind e = false) :
    s.refuse h e =
      let g := ((entryGroups (s.entriesOf e.region e.col)).find? (fun g => g.any (fun y => y.id == e.id))).getD [e]
      let u := (s.applyGroup g).1.modHolder e.region (fun k => { k with flagsK := k.flagsK ||| (s.applyGroup g).2 })
      g.foldl (fun s y => s.settleT3 y) (((u.poisonGranule e).freeEntries (g.map (fun y => y.id))).taintHolder e.region) := by
  simp only [State.refuse, Nat.not_lt.mpr hn, hb, Bool.false_eq_true, if_false]

/-- The loss of a write is a fault of the kernel that holds its region (R347). -/
theorem State.loseWrite_of_kernel {s : State} {h : Nat} {e : DamperEntry} {k : Nat}
    (hk : (((((s.poisonGranule e).freeEntries [e.id]).taintHolder e.region).settleT3 e).region e.region).kernel = some k) :
    s.loseWrite h e =
      ((((s.poisonGranule e).freeEntries [e.id]).taintHolder e.region).settleT3 e).kernelFault k
        { cause := faultUncorr, die := dieOf h, x := colOf h, y := rowOf h, ctx := (s.region e.region).ctx, slot := e.slot
          col := e.col % 4096, detail := 4 + 2 ^ 64 * (forwardAddr s.forwards e.pa / 64 * 64), cycle := s.cycle } := by
  simp only [State.loseWrite, hk]

/-! ### O44 -/

/-- Settles O44: each step takes the branch that its clause names; what the branches of `State.prepare`, `State.advanceEntry`,
`State.resend`, `State.refuse` and `State.loseWrite` come to is said once above. -/
theorem commitsGoOn : Obligations.CommitsGoOn := by
  refine ⟨⟨?commits, ?sends, ?aborts, ?retreats, ?applies⟩, ?ages, ?logged, ?resent, ?delayed, ?tainted, ?written, ?tried, ?later,
    ?lost⟩
  case commits =>
    rintro g c s hc ⟨hm, hg, hw, hf, ha⟩
    rw [exec_activationCommit_before hc hm, if_pos hg, State.prepare_of_holds hw hf]
    exact congrArg _ (if_pos ha)
  case sends =>
    rintro g c s hc ⟨hm, hg, hw, hf, ha⟩
    rw [exec_activationCommit_before hc hm, if_pos hg, State.prepare_of_holds hw hf]
    exact congrArg _ (if_neg (Bool.eq_false_iff.mp ha))
  case aborts =>
    rintro g c s hc ⟨hm, hg, hw, hf⟩
    rw [exec_activationCommit_before hc hm, if_pos hg, State.prepare_of_acasFails hw hf]
  case retreats =>
    rintro g c s hc ⟨hm, hg, hp⟩
    rw [exec_activationCommit_before hc hm, if_neg (Bool.eq_false_iff.mp hg), if_pos hp]
  case applies => exact fun g c s hc hm => exec_activationCommit hc hm
  case ages =>
    rintro h id e s hc ⟨he, hs, ha⟩
    rw [exec_damperEntryEligible hc he, State.advanceEntry_held hs ha]
  case logged =>
    rintro h id e s hc ⟨he, hs, ho, hr⟩
    rw [exec_damperEntryEligible hc he, State.advanceEntry_eligible hs ho hr]
  case resent =>
    rintro h id e s hc ⟨he, ho, hn, hr⟩
    rw [exec_commitWriteRefused hc he ho, State.refuse_early hn, State.resend_of_room hr]
  case delayed =>
    rintro h id e s hc ⟨he, ho, hn, hr⟩
    rw [exec_commitWriteRefused hc he ho, State.refuse_early hn, State.resend_of_full hr]
  case tainted =>
    rintro h id e s hc ⟨he, ho, hn, hb⟩
    rw [exec_commitWriteRefused hc he ho, State.refuse_behind hn hb]
  case written =>
    rintro h id e s hc ⟨he, ho, hn, hb⟩
    rw [exec_commitWriteRefused hc he ho, State.refuse_first hn hb]
  case tried =>
    rintro h id e s hc ⟨⟨he, ho, ht⟩, hn, hr⟩
    rw [exec_commitWriteTimeout hc he ho ht, if_pos hn, State.resend_of_room hr]
  case later =>
    rintro h id e s hc ⟨⟨he, ho, ht⟩, hn, hr⟩
    rw [exec_commitWriteTimeout hc he ho ht, if_pos hn, State.resend_of_full hr]
  case lost =>
    rintro h id e k s hc ⟨⟨he, ho, ht⟩, hn, -, hk⟩
    rw [exec_commitWriteTimeout hc he ho ht, if_neg hn, State.loseWrite_of_kernel hk]

end Sys2Proof.Machine
end

section
/-! SUPPORT. O11: the steps of the module that leave memory and its poison marks as they were (R190, R194, R335). -/

namespace Sys2Proof.Machine

/-! ### Outcomes that leave the store as it was -/

/-- Where the outcome goes on, memory and its poison marks are those of `s`. -/
def LeavesStore (s : State) (o : Host.Outcome State Fault Refusal) : Prop := ∀ t, o = .next t → t.store = s.store

theorem LeavesStore.next {s t : State} (h : t.store = s.store) : LeavesStore s (.next t) := by rintro _ ⟨⟩; exact h

theorem LeavesStore.stay {s : State} : LeavesStore s (.next s) := .next rfl

theorem LeavesStore.fault {s : State} {e : Fault} : LeavesStore s (.fault e) := by
  intro t h
  cases h

/-- What is read at an address is read off the store. -/
theorem State.read_of_store {s t : State} (h : t.store = s.store) (a : Nat) : Memory.read t.mem a = Memory.read s.mem a :=
  congrArg (fun m => Memory.read m.1 a) h

/-- A move under a condition. -/
theorem State.store_when {c : Prop} [Decidable c] {s t : State} (h : t.store = s.store) : (if c then t else s).store = s.store := by
  rw [State.store_ite, h, ite_self]

/-- A move that a condition forestalls. -/
theorem State.store_unless {c : Prop} [Decidable c] {s t : State} (h : t.store = s.store) : (if c then s else t).store = s.store := by
  rw [State.store_ite, h, ite_self]

/-- A host write that waits until the module serves it leaves the store where the write itself does. -/
theorem State.whenServed_store {s : State} {f : State → State} (hf : ∀ s, (f s).store = s.store) :
    (s.whenServed f).store = s.store := State.store_when (hf s)

/-! ### Steps that several events share -/

theorem timeoutEvent_leavesStore (t3 : Bool) (s : State) : LeavesStore s (timeoutEvent t3 s) := by
  unfold timeoutEvent
  split
  · split
    · exact .next (State.store_when (State.timeOut_store ..))
    · exact .stay
  · exact .fault

theorem linkStep_leavesStore (a b : LinkState) (s : State) : LeavesStore s (linkStep a b s) := by
  unfold linkStep
  split
  · exact .next (State.store_when ((State.moveLink_store ..).trans (State.modLink_store ..)))
  · exact .fault

/-! ### Events that look for what they act on -/

theorem execReissue_leavesStore (s : State) : LeavesStore s (execReissue s) := by
  unfold execReissue
  split
  · refine .next ?_
    split
    next h =>
      obtain ⟨x, -, hx⟩ := List.exists_of_findSome?_eq_some h
      exact State.tryReissue_store hx
    next => rfl
  · exact .fault

theorem execContractionStep_leavesStore (s : State) : LeavesStore s (execContractionStep s) := by
  unfold execContractionStep
  split
  · split
    · split
      · exact .stay
      · split
        · exact .next ((State.nodeFault_store ..).trans (State.modSlot_store ..))
        · exact .next (State.trineStep_store ..)
    · exact .stay
  · exact .fault

theorem execContractionEnd_leavesStore (s : State) : LeavesStore s (execContractionEnd s) := by
  unfold execContractionEnd
  split
  · split
    · split
      · split
        · exact .next rfl
        · exact .stay
      · exact .stay
    · exact .stay
  · exact .fault

theorem execTxprOutput_leavesStore (s : State) : LeavesStore s (execTxprOutput s) := by
  unfold execTxprOutput
  split
  · split
    · exact .stay
    · split
      · split
        · exact .next ((State.sendAll_store ..).trans (State.modSlot_store ..))
        · exact .stay
      · exact .stay
  · exact .fault

theorem execLoadReply_leavesStore (s : State) : LeavesStore s (execLoadReply s) := by
  unfold execLoadReply
  split
  · split
    · exact .next (State.store_when (State.reply_store ..))
    · exact .stay
  · exact .fault

theorem execRecoveryRetrain_leavesStore (o : Option ConfigOffer) (s : State) : LeavesStore s (execRecoveryRetrain o s) := by
  unfold execRecoveryRetrain
  split
  · refine .next (State.store_unless ?_)
    split
    · exact ((State.modLink_store ..).trans (State.moveLink_store ..)).trans (State.setLink_store ..)
    · split <;> rfl
  · exact .fault

theorem execDrainComplete_leavesStore (s : State) : LeavesStore s (execDrainComplete s) := by
  unfold execDrainComplete
  split
  · refine .next ?_
    split
    · rfl
    · split
      · rfl
      · exact (State.holdStatus_store ..).trans (State.modRegion_store ..)
  · exact .fault

theorem execSnapshotAbandon_leavesStore (s : State) : LeavesStore s (execSnapshotAbandon s) := by
  unfold execSnapshotAbandon
  split
  · refine .next ?_
    split
    · rfl
    · refine State.store_unless ?_
      dsimp only
      split
      · rfl
      · exact State.holdStatus_store ..
  · exact .fault

theorem execGroupHandout_leavesStore (s : State) : LeavesStore s (execGroupHandout s) := by
  unfold execGroupHandout
  split
  · refine .next ?_
    split
    · rfl
    · refine State.store_when ?_
      split
      · exact State.handOut_store ..
      · rfl
  · exact .fault

theorem execTailgSwap_leavesStore (s : State) : LeavesStore s (execTailgSwap s) := by
  unfold execTailgSwap
  split
  · refine .next ?_
    split
    · exact State.store_when (((State.startEntry_store ..).trans (State.modRegion_store ..)).trans (State.installBlocks_store ..))
    · rfl
  · exact .fault

theorem execStrikeReport_leavesStore (s : State) : LeavesStore s (execStrikeReport s) := by
  unfold execStrikeReport
  split
  · refine .next ?_
    split
    · exact State.store_when (State.reportStrike_store ..)
    · exact State.store_when (State.reportStrike_store ..)
  · exact .fault

theorem execFaultMessageSend_leavesStore (s : State) : LeavesStore s (execFaultMessageSend s) := by
  unfold execFaultMessageSend
  split
  · refine .next ?_
    split
    · exact State.store_when rfl
    · rfl
  · exact .next (State.queueMessage_store ..)
  · exact .fault

theorem execElectionEnd_leavesStore (s : State) : LeavesStore s (execElectionEnd s) := by
  unfold execElectionEnd
  split
  · refine .next ?_
    split
    · exact State.store_when rfl
    · rfl
  · exact .fault

theorem execXlinvComplete_leavesStore (s : State) : LeavesStore s (execXlinvComplete s) := by
  unfold execXlinvComplete
  split
  · refine .next ?_
    split
    · exact State.store_when (State.invalidate_store ..)
    · rfl
  · exact .fault

/-! ### O11 -/

/-- The steps of `quietEvent` change the module around memory only: the groups differ in what stands before the change. -/
theorem quietEvent_leavesStore (i : Instr) (s : State) (h : quietEvent i = true) : LeavesStore s (exec i s) := by
  cases i <;> cases h <;> unfold exec
  case requestTimeout | linkFaultTimeout => exact timeoutEvent_leavesStore _ s
  case electricalIdleExit | laneLock => exact linkStep_leavesStore _ _ s
  case reissue => exact execReissue_leavesStore s
  case contractionStep => exact execContractionStep_leavesStore s
  case contractionEnd => exact execContractionEnd_leavesStore s
  case txprOutput => exact execTxprOutput_leavesStore s
  case loadReply => exact execLoadReply_leavesStore s
  case recoveryRetrain => exact execRecoveryRetrain_leavesStore _ s
  case drainComplete => exact execDrainComplete_leavesStore s
  case snapshotAbandon => exact execSnapshotAbandon_leavesStore s
  case groupHandout => exact execGroupHandout_leavesStore s
  case tailgSwap => exact execTailgSwap_leavesStore s
  case strikeReport => exact execStrikeReport_leavesStore s
  case faultMessageSend => exact execFaultMessageSend_leavesStore s
  case electionEnd => exact execElectionEnd_leavesStore s
  case xlinvComplete => exact execXlinvComplete_leavesStore s
  -- one shared operation
  case contextEvict | contextSwap | waveRetire | dieFence =>
    simp only [execContextEvict, execContextSwap, execWaveRetire, execDieFence]
    split
    · exact .next (by simp)
    · exact .fault
  -- some registers of the module, always
  case forwardRetire | cxlLinkLoss | thermalThrottle =>
    simp only [execForwardRetire, execCxlLinkLoss, execThermalThrottle]
    split
    · exact .next rfl
    · exact .fault
  -- some registers, a slot, a hearth, a link or a pair, under a condition
  case delayExpiry | yieldExpiry | reweight | starving | detectTimeout | equalisationConverge | launch | unknownCommand
      | attReport | bootReady | cxlLinkUp | purgeComplete | flueEnable | retryRequest | xlinv | heartbeat =>
    simp only [execDelayExpiry, execYieldExpiry, execReweight, execStarving, execDetectTimeout, execEqualisationConverge,
      execLaunch, execUnknownCommand, execAttReport, execBootReady, execCxlLinkUp, execPurgeComplete, execFlueEnable,
      execRetryRequest, execXlinv, execHeartbeat]
    split
    · exact .next (by split_ifs <;> rfl)
    · exact .fault
  -- shared operations under a condition
  case flueFence | configExchange | flitReceive | quiesce =>
    simp only [execFlueFence, execConfigExchange, execFlitReceive, execQuiesce]
    split
    · exact .next (by simp)
    · exact .fault
  case rekindle =>
    simp only [execRekindle]
    split
    · exact .next (State.store_when ((State.modRegion_store ..).trans (foldl_store _ (fun _ _ => State.modSlot_store ..) _ _)))
    · exact .fault
  -- shared operations, where what they act on is there
  case callerResume | collectiveMemberLost | frameSlotEntry | deferredTokenSend | damperEntryEligible | purgeNotice
      | barrierAlign =>
    simp only [execCallerResume, execCollectiveMemberLost, execFrameSlotEntry, execDeferredTokenSend,
      execDamperEntryEligible, execPurgeNotice, execBarrierAlign]
    split
    · refine .next ?_
      split <;> simp
    · exact .fault
  -- writes of the host
  case viroftPairEnable | attNonce | pwrLim | queueEnWrite =>
    simp only [execViroftPairEnable, execAttNonce, execPwrLim, execQueueEnWrite]
    split
    · exact .next (State.whenServed_store fun _ => rfl)
    · exact .fault
  case sqTailDoorbell | cqHeadDoorbell | snapTrig | jrnlBase | jrnlSize | counterClear =>
    simp only [execSqTailDoorbell, execCqHeadDoorbell, execSnapTrig, execJrnlBase, execJrnlSize, execCounterClear]
    split
    · exact .next (State.whenServed_store fun _ => by split_ifs <;> rfl)
    · exact .fault
  case registerWrite =>
    simp only [execRegisterWrite]
    split
    · exact .next (State.whenServed_store fun _ => State.store_unless (writeBytesAt_store ..))
    · exact .fault

/-- Settles O11: each of these steps leaves memory and its poison marks as they were (`quietEvent_leavesStore`). -/
theorem eventsKeepMemory : Obligations.EventsKeepMemory := by
  unfold Obligations.EventsKeepMemory
  intro i s t hi e
  exact State.read_of_store (quietEvent_leavesStore i s hi t e)

end Sys2Proof.Machine
end

section
/-! SUPPORT. O39: CFGLD, CALLG, RETG, TAILG, DRAIN, SNAP and WDOG (R222, R223, R228, R229, R308, R313, R316). -/

namespace Sys2Proof.Machine

/-- A firing whose body keeps its token: no effect remains to be carried out. -/
theorem fireNode_done {o : Nat} {r : Rec} {p : FireSpec} {body : Fire → State → State × Effect} {s t : State} {f : Fire}
    (e : s.fires p o r f = true) (hb : body f (s.taken f) = (t, .done)) : fireNode o r p body s = .next (t.rejoined f r) := by
  rw [fires_next body e, hb]
  rfl

/-! ### CFGLD (R222) -/

/-- The site that CFGLD's B names: column and row of its origin, with the bits that it has (log 15). -/
def Fire.loadSite (f : Fire) : Site :=
  { die := dieOf f.h, x := bits (f.tb.lanes.headD 0).toNat 13 7, y := bits (f.tb.lanes.headD 0).toNat 20 14, k := f.k, within := none
    own := some f.g, mine := [] }

/-- The load that CFGLD asks for, of an image with header `hd`. -/
def Fire.loadOf (f : Fire) (hd : Nat) : Load :=
  { h := f.h, k := f.k, n := f.n, nrec := f.nrec, tok := f.token 1 [0, 0] 0 0, va := laneAddress f.ta, head := hd
    origin := hearthAt f.loadSite.die f.loadSite.x f.loadSite.y, w := headW hd, height := headH hd, due := 0
    region := 0, prior := [], dropped := false }

/-- CFGLD has read the header of its image. -/
def Fire.headerRead (f : Fire) (s : State) : State := (s.pipe f 1).readUsed s.agent (f.context s) (laneAddress f.ta) 64

/-- A B whose reserved bits are zero and a header that passes start the load. -/
theorem cfgldFire_loads {f : Fire} {s : State} {hd : Nat} (hlow : bits (f.tb.lanes.headD 0).toNat 6 0 = 0)
    (hhigh : bits (f.tb.lanes.headD 0).toNat 31 21 = 0)
    (hhead : s.loadHead (f.context s) (laneAddress f.ta) f.loadSite = .ok hd) :
    cfgldFire f s = (({ f.headerRead s with loads := (f.headerRead s).loads ++ [f.loadOf hd] } : State).advanceLoad f.h f.k f.n,
      .done) := by
  unfold Fire.loadSite at hhead
  simp only [cfgldFire, hhead, hlow, hhigh, bne_self_eq_false, Bool.or_self, Bool.false_eq_true, if_false]
  rfl

/-! ### CALLG (R223) -/

/-- The directory entry that a firing names. -/
def Fire.cfgn (f : Fire) : Nat := bits f.lit 31 24

/-- The call that CALLG makes under the call colour `n`. -/
def Fire.callOf (f : Fire) (n va cfgid : Nat) : Call :=
  { h := f.h, n := f.n, nrec := f.nrec, operand := f.ta, col := n, cfgn := f.cfgn, va := va, cfgid := cfgid
    ex := bits f.lit 23 17, ey := bits f.lit 16 10, enode := bits f.lit 9 6, saved := {}
    result := none, done := false, dead := false, again := none }

/-- Below the depth limit, a directory entry and a granted call colour leave the region CallPending. -/
theorem callgFire_granted {f : Fire} {s : State} {n va cfgid : Nat} {g' : Region}
    (hdepth : (s.region f.g).depth < s.depthLimit f.g) (hdir : s.directory f.g f.cfgn = .ok (va, cfgid))
    (hgrant : (s.region f.g).allocate ((s.directoryRead f.g f.cfgn).ovsz f.g)
      (f.want (s.directoryRead f.g f.cfgn) f.ta.wid ((s.directoryRead f.g f.cfgn).colour f.g f.col).ts 0 0) false = .granted n g') :
    callgFire f s = ((((s.directoryRead f.g f.cfgn).setRegion f.g
      { g' with calls := f.callOf n va cfgid :: g'.calls, st := .callPending }).modColour f.g n
        (fun x => { x with copy := some { f.passed with col := n, wave := 0 } })).pipe f 1, .done) := by
  unfold Fire.cfgn at hdir hgrant
  simp only [callgFire, Nat.not_le.mpr hdepth, hdir, hgrant, if_false]
  rfl

/-! ### RETG (R228) and TAILG (R229) -/

/-- RETG under the call colour of its depth, of which nothing is left, ends the colour and keeps the result. -/
theorem retgFire_returns {f : Fire} {s : State} (hdepth : (s.region f.g).depth ≠ 0) (hbase : (s.region f.g).isBase f.col = true)
    (hleft : s.unfinished f.g f.col = none) (hsurplus : s.surplus f.g f.col = false) :
    retgFire f s = ((s.modColour f.g f.col (fun c => { c with st := .ended })).modRegion f.g (fun r =>
      { r with calls := r.calls.map (fun c => if c.col = f.col then { c with result := some f.passed } else c) }), .quiet) := by
  simp only [retgFire, hdepth, hbase, endColour_ends hleft hsurplus, Bool.not_true, Bool.or_false, decide_false, Bool.false_eq_true,
    if_false]

/-- TAILG has read its directory entry and its image. -/
def Fire.tailRead (f : Fire) (s : State) (va : Nat) : State :=
  (s.directoryRead f.g f.cfgn).loadRead (s.region f.g).ctx va ((s.region f.g).site f.g)

/-- The configuration that TAILG puts in place. -/
def Fire.swapOf (f : Fire) (i : Image) : TailSwap :=
  { image := i, ex := bits f.lit 23 17, ey := bits f.lit 16 10, enode := bits f.lit 9 6, tok := { f.passed with col := f.col, wave := 0 } }

/-- TAILG under the base colour of its depth, of which nothing is left, whose image passes and has the entry. -/
theorem tailgFire_loads {f : Fire} {s : State} {va cfgid : Nat} {i : Image} (hbase : (s.region f.g).isBase f.col = true)
    (hleft : s.unfinished f.g f.col = none) (hsurplus : s.surplus f.g f.col = false)
    (hdir : s.directory f.g f.cfgn = .ok (va, cfgid))
    (himage : s.loadImage (s.region f.g).ctx va ((s.region f.g).site f.g) = .ok i)
    (hentry : i.hasEntry (bits f.lit 23 17) (bits f.lit 16 10) (bits f.lit 9 6) = true) :
    tailgFire f s = (((f.tailRead s va).modRegion f.g (fun r =>
      { r with tailg := some (f.swapOf i), st := .loadingInPlace })).pipe f 1, .done) := by
  unfold Fire.cfgn at hdir
  simp only [tailgFire, hbase, hleft, hsurplus, hdir, himage, hentry, Bool.not_true, Bool.false_eq_true, if_false]
  rfl

/-! ### SNAP (R313) -/

/-- The operands of a SNAP are consumed, its firing is counted (log 19), and the registers are latched. -/
def Fire.snapLatched (f : Fire) (s : State) : State :=
  (((s.unwithhold f).consume f).modRegion f.g (fun r => { r with snapCount := r.snapCount + 1 })).latch

/-- In MODE 0 the status leaves at once. -/
theorem snapFire_registers {f : Fire} {s : State} (hmode : bit f.lit 0 = false) :
    snapFire f s = (f.snapLatched s, .emit 1 (f.token 1 [0] 0 0)) := by
  simp only [snapFire, hmode, Bool.not_false, if_true]
  rfl

/-- In MODE 1 a marker snapshot begins where its area may be written. -/
theorem snapFire_markers {f : Fire} {s : State} {ps : Parts} (hmode : bit f.lit 0 = true) (harea : snapReach f s = .ok ps) :
    snapFire f s = ((((f.snapLatched s).beginSnapshot f (((s.region f.g).snapCount + 1) % 65536)).endSnapshot f.g).pipe f 1, .done) := by
  simp only [snapFire, hmode, harea, Bool.not_true, Bool.false_eq_true, if_false]
  rfl

/-! ### O39 -/

/-- Settles O39: DRAIN and WDOG by their bodies alone, the others each by the branch of their effect that the clause's conditions
leave. -/
theorem regionAndMarkerNodesAct : Obligations.RegionAndMarkerNodesAct := by
  refine ⟨?cfgld, ?callg, ?retg, ?tailg, ?drain, ?snapRegisters, ?snapMarkers, ?wdog⟩
  case cfgld =>
    intro asked b site hd
    exact acts_of (fun _ _ => rfl) fun f s _ h => by
      obtain ⟨hlow, hhigh, hhead⟩ := h
      rw [cfgldFire_loads hlow hhigh hhead]
      rfl
  case callg =>
    intro r s f n va cfgid g' e u hdepth hdir v hgrant c
    exact fireNode_done e (callgFire_granted hdepth hdir hgrant)
  case retg =>
    exact acts_of (fun _ _ => rfl) fun f s _ h => by
      obtain ⟨hdepth, hbase, hleft, hsurplus⟩ := h
      rw [retgFire_returns hdepth hbase hleft hsurplus]
      rfl
  case tailg =>
    intro r s f va cfgid i e u ex ey en hbase hleft hsurplus hdir himage hentry
    exact fireNode_done e (tailgFire_loads hbase hleft hsurplus hdir himage hentry)
  case drain => exact acts_of (fun _ _ => rfl) fun _ _ _ _ => rfl
  case snapRegisters =>
    exact actsHeld_of (fun _ _ => rfl) fun f s _ h => by
      obtain ⟨hmode, hwidth⟩ := h
      rw [snapFire_registers hmode]
      exact conclude_emit hwidth
  case snapMarkers =>
    exact actsHeld_of (fun _ _ => rfl) fun f s _ h => by
      obtain ⟨hmode, ps, harea⟩ := h
      rw [snapFire_markers hmode harea]
      rfl
  case wdog => exact givesFrom_of (fun _ _ => rfl) fun _ _ _ => rfl

end Sys2Proof.Machine
end

section
/-! SUPPORT. O49: covers, calls, returns and swaps (R224, R227, R228, R229). -/

namespace Sys2Proof.Machine

/-! ### The cover (R224) -/

/-- Every hearth of a region has copied its slot into a new plane. -/
def State.coverSlots (s : State) (g : Nat) : State :=
  (s.region g).hearths.foldl (fun u h => u.coverSlot g h (s.region g).slot (s.region g).planeLim) s

/-- The configuration that a cover saves in its call. -/
def State.savedCall (s : State) (g : Nat) (c : Call) : Call := { c with saved := (s.region g).cfg }

/-- The step in which a region covers. -/
theorem exec_cover {s : State} {g : Nat} (hc : s.cur = .region g) (hr : s.coverReady g = true) :
    exec .cover s = .next (s.cover g) := by
  show execCover s = _
  simp only [execCover, hc, hr, if_true]

/-- A callee that the region holds is in place 8 cycles after the copy. -/
theorem State.cover_of_held {s : State} {g : Nat} {c : Call} {more : List Call} (hcalls : (s.region g).calls = c :: more)
    (hheld : (s.coverSlots g).heldCallee g (s.savedCall g c) = true) :
    s.cover g = (s.coverSlots g).modRegion g (fun r =>
      { r with st := .covering, calls := s.savedCall g c :: more, until_ := (s.coverSlots g).cycle + 24 + 8 }) := by
  unfold State.coverSlots State.savedCall at hheld
  simp only [State.cover, hcalls, hheld, if_true]
  rfl

/-- Any other callee is loaded, which takes a free number of cycles. -/
theorem State.cover_of_other {s : State} {g : Nat} {c : Call} {more : List Call} (hcalls : (s.region g).calls = c :: more)
    (hheld : (s.coverSlots g).heldCallee g (s.savedCall g c) = false) :
    s.cover g = (s.coverSlots g).freeDelay.2.modRegion g (fun r =>
      { r with st := .covering, calls := s.savedCall g c :: more
               until_ := (s.coverSlots g).freeDelay.2.cycle + 24 + (s.coverSlots g).freeDelay.1 }) := by
  unfold State.coverSlots State.savedCall at hheld
  simp only [State.cover, hcalls, hheld, Bool.false_eq_true, if_false]
  rfl

/-! ### The callee's start (R227) -/

/-- The step in which a covering region tries to start its callee. -/
theorem exec_calleeStart {s : State} {g : Nat} (hc : s.cur = .region g) (hd : s.regionDue g .covering = true) :
    exec .calleeStart s = .next (s.startCallee g) := by
  show execCalleeStart s = _
  simp only [execCalleeStart, hc, hd, if_true]

/-- A callee whose call colour is Live, which is placed and has its entry, starts one plane deeper. -/
theorem State.startCallee_starts {s t : State} {g : Nat} {c : Call} {more : List Call} {a : Token}
    (hcalls : (s.region g).calls = c :: more) (hdead : c.dead = false) (hagain : c.again = none) (hlive : (s.colour g c.col).st = .live)
    (hwait : s.imageWaits (s.region g).ctx c.va = false) (hplace : s.placeCallee g c = .ok t)
    (hentry : t.entryPresent g c.ex c.ey c.enode = true) (hcopy : (t.colour g c.col).copy = some a) :
    s.startCallee g =
      (t.modRegion g (fun r => { r with st := .running, depth := r.depth + 1 })).startEntry g c.ex c.ey c.enode a := by
  simp only [State.startCallee, hcalls, hdead, hagain, hlive, hwait, hplace, hentry, hcopy, Option.isSome_none, bne_self_eq_false,
    Bool.or_self, Bool.not_true, Bool.false_eq_true, if_false]

/-! ### The return (R228) -/

/-- The step in which a region begins to rekindle. -/
theorem exec_rekindle {s : State} {g : Nat} (hc : s.cur = .region g) (hr : s.rekindleReady g = true) :
    exec .rekindle s = .next (((s.region g).hearths.foldl (fun u h =>
      u.modSlot h (s.region g).slot (fun x => { x with cfg := {} })) s).modRegion g
        (fun r => { r with st := .rekindling, until_ := s.cycle + 23 })) := by
  show execRekindle s = _
  simp only [execRekindle, hc, hr, if_true]

/-- The step in which the caller's plane is restored whole. -/
theorem exec_callerResume_restores {s : State} {g : Nat} {c : Call} (hc : s.cur = .region g)
    (hcall : (s.region g).currentCall = some c) (hd : s.restoreDue g = true) :
    exec .callerResume s = .next (s.resumeCaller g c) := by
  show execCallerResume s = _
  simp only [execCallerResume, hc, hcall, hd, if_true]

/-- When a region's planes are restored whole. -/
theorem State.restoreDue_iff {s : State} {g : Nat} : s.restoreDue g = true ↔
    (s.region g).st = .rekindling ∧ (s.region g).residence = .resident ∧ (s.region g).until_ ≤ s.cycle := by
  simp only [State.restoreDue, Bool.and_eq_true, beq_iff_eq, decide_eq_true_eq, and_assoc]

/-- A region whose caller is to resume has no plane left to restore. -/
theorem State.restoreDue_of_resuming {s : State} {g : Nat} (hd : s.regionDue g .resuming = true) : s.restoreDue g = false := by
  simp only [State.regionDue, Bool.and_eq_true, beq_iff_eq] at hd
  obtain ⟨⟨⟨hst, -⟩, -⟩, -⟩ := hd
  simp only [State.restoreDue, hst]
  rfl

/-- The step in which the caller goes on. -/
theorem exec_callerResume_resumes {s : State} {g : Nat} (hc : s.cur = .region g) (hd : s.regionDue g .resuming = true) :
    exec .callerResume s = .next (s.modRegion g (fun r => { r with st := .running })) := by
  show execCallerResume s = _
  cases hcall : (s.region g).currentCall with
  | none => simp only [execCallerResume, hc, hcall, hd, if_true]
  | some c =>
    simp only [execCallerResume, hc, hcall, State.restoreDue_of_resuming hd, hd, Bool.false_eq_true, if_false, if_true]

/-- The caller's planes are restored and released, and it waits for the next frame boundary. -/
def State.callerBack (s : State) (g : Nat) (c : Call) : State :=
  (s.thaw g (nextBoundary s.cycle) c).modRegion g (fun r =>
    { r with st := .resuming, depth := r.depth - 1, calls := (s.region g).calls.tail, until_ := nextBoundary s.cycle })

/-- What follows a restore: planes that may move up, and planes with a record that no restore takes. -/
def State.restoreTurns (s : State) (g : Nat) : List Turn :=
  (s.region g).hearths.map (fun h => (.event .planeMoveUp (.slot h (s.region g).slot) : Turn)) ++
    ((s.region g).hearths.filter (fun h => s.restoreBad h (s.region g).slot 0 false)).map (fun h =>
      (.event (.uncorrectableError (.plane h (s.region g).slot)) .module : Turn))

/-- A call that was given up returns no token. -/
theorem State.resumeCaller_of_none {s : State} {g : Nat} {c : Call} (hr : c.returned = none) :
    s.resumeCaller g c = (s.callerBack g c).push (s.restoreTurns g) := by
  simp only [State.resumeCaller, hr]
  rfl

/-- The returned token waits at its CALLG. -/
theorem State.resumeCaller_of_some {s : State} {g : Nat} {c : Call} {t : Token} (hr : c.returned = some t) :
    s.resumeCaller g c =
      (((s.callerBack g c).modNode c.h (s.region g).slot c.n (fun x => { x with holds := x.holds ++
        [{ kind := .returned, tok := { t with ctx := (s.region g).slot }, nrec := c.nrec, due := nextBoundary s.cycle, ready := true
           col := t.col, pser := 0 }] })).modColour g t.col (fun x => x.inPipe (nextBoundary s.cycle))).push (s.restoreTurns g) := by
  simp only [State.resumeCaller, hr]
  rfl

/-! ### The swap (R229) -/

/-- The tokens on their way in a region are discarded. -/
def State.dropFlights (s : State) (g : Nat) : State := { s with flights := s.flights.filter (fun f => f.2.region != g) }

/-- The step in which TAILG's configuration takes the place of the running one; at depth 0 the region takes its name. -/
theorem exec_tailgSwap {s : State} {g : Nat} {w : TailSwap} (hc : s.cur = .region g) (hw : (s.region g).tailg = some w)
    (hd : s.regionDue g .loadingInPlace = true) :
    exec .tailgSwap s = .next ((((s.dropFlights g).installBlocks g w.image).modRegion g (fun r =>
      { r with st := .running, tailg := none
               cfgid := if (s.region g).depth = 0 then w.image.cfgid else (s.region g).cfgid })).startEntry g w.ex w.ey w.enode w.tok) := by
  show execTailgSwap s = _
  simp only [execTailgSwap, State.dropFlights, hc, hw, hd, if_true]
  rfl

/-! ### O49 -/

/-- Settles O49: each event takes the branch that its clause names; what covering, starting and resuming come to is said once
above. -/
theorem callsGoOn : Obligations.CallsGoOn := by
  refine ⟨⟨?held, ?other⟩, ?starts, ?rekindles, ⟨?silent, ?returns⟩, ?resumes, ?swaps⟩
  case held =>
    rintro g c more s hc ⟨⟨hr, hcalls⟩, hheld⟩
    exact (exec_cover hc hr).trans (congrArg _ (State.cover_of_held hcalls hheld))
  case other =>
    rintro g c more s hc ⟨⟨hr, hcalls⟩, hheld⟩
    exact (exec_cover hc hr).trans (congrArg _ (State.cover_of_other hcalls hheld))
  case starts =>
    rintro g c more t a s hc ⟨hd, hcalls, hdead, hagain, hlive, hwait, hplace, hentry, hcopy⟩
    exact (exec_calleeStart hc hd).trans
      (congrArg _ (State.startCallee_starts hcalls hdead hagain hlive hwait hplace hentry hcopy))
  case rekindles => exact fun g s hc hr => exec_rekindle hc hr
  case silent =>
    rintro g c s hc ⟨⟨hcall, hst, hres, hu⟩, hr⟩
    exact (exec_callerResume_restores hc hcall (State.restoreDue_iff.mpr ⟨hst, hres, hu⟩)).trans
      (congrArg _ (State.resumeCaller_of_none hr))
  case returns =>
    rintro g c t s hc ⟨⟨hcall, hst, hres, hu⟩, hr⟩
    exact (exec_callerResume_restores hc hcall (State.restoreDue_iff.mpr ⟨hst, hres, hu⟩)).trans
      (congrArg _ (State.resumeCaller_of_some hr))
  case resumes => exact fun g s hc hd => exec_callerResume_resumes hc hd
  case swaps =>
    rintro g w s hc ⟨hw, hd⟩
    exact exec_tailgSwap hc hw hd

end Sys2Proof.Machine
end

section
/-! SUPPORT. O50: plane moves, and the eviction and restore of a region (R226, R235 to R237, R409). -/

namespace Sys2Proof.Machine

/-! ### Planes move down (R226) -/

/-- Move-ups that a waiting cover abandons are abandoned, and moves that are due have ended (R409). -/
def State.movesSettled (s : State) (h k : Nat) : State := (s.abandonUps h k).finishMoves h k

/-- The oldest plane at rest on the die of a slot begins its 192 cycles to the state die. -/
def State.sendDown (s : State) (h k : Nat) : State :=
  s.modSlot h k (fun x =>
    { x with planes := changeLast (fun p => p.rests .onDie) (fun p => { p with moving := some (.stateDie, s.cycle + 192) }) x.planes })

/-- The step of a slot whose cover waits for a plane. -/
theorem exec_planeMoveDown_of_wants {s : State} {h k : Nat} (hc : s.cur = .slot h k)
    (hw : (s.movesSettled h k).wantsPlane h k = true) :
    exec .planeMoveDown s = .next ((s.movesSettled h k).moveDown h k) := by
  unfold State.movesSettled at hw
  show execPlaneMoveDown s = _
  simp only [execPlaneMoveDown, hc, hw, if_true]
  rfl

/-- The step of a slot that wants no plane only ends its moves. -/
theorem exec_planeMoveDown_of_content {s : State} {h k : Nat} (hc : s.cur = .slot h k)
    (hw : (s.movesSettled h k).wantsPlane h k = false) : exec .planeMoveDown s = .next (s.movesSettled h k) := by
  unfold State.movesSettled at hw
  show execPlaneMoveDown s = _
  simp only [execPlaneMoveDown, hc, hw, Bool.false_eq_true, if_false]
  rfl

/-- A plane of the slot itself goes where one rests on the die. -/
theorem State.moveDown_own {s : State} {h k : Nat} (hm : s.movingDown h .stateDie = false) (hroom : s.statePlanes h < 4)
    (hown : (s.slot h k).planes.any (fun p => p.rests .onDie) = true) : s.moveDown h k = s.sendDown h k := by
  simp only [State.moveDown, hm, Nat.not_le.mpr hroom, hown, Bool.false_eq_true, if_false, if_true]
  rfl

/-- Else the oldest of the hearth goes that is not the newest of its slot (log 33). -/
theorem State.moveDown_spare {s : State} {h k j : Nat} (hm : s.movingDown h .stateDie = false) (hroom : s.statePlanes h < 4)
    (hown : (s.slot h k).planes.any (fun p => p.rests .onDie) = false) (hj : s.oldestSpare h = some j) :
    s.moveDown h k = s.sendDown h j := by
  simp only [State.moveDown, hm, Nat.not_le.mpr hroom, hown, hj, Bool.false_eq_true, if_false]
  rfl

/-- A full state die first sends its oldest plane to T1. -/
theorem State.moveDown_full {s : State} {h k : Nat} (hm : s.movingDown h .stateDie = false) (hfull : 4 ≤ s.statePlanes h) :
    s.moveDown h k = s.moveToT1 h := by
  simp only [State.moveDown, hm, hfull, Bool.false_eq_true, if_false, if_true]

/-! ### Planes move up (R226) -/

/-- The newest plane at rest off the die begins a move up of `n` cycles. -/
def State.sendUp (s : State) (h k n : Nat) : State :=
  s.modSlot h k (fun x =>
    { x with lift := false
             planes := changeFirst (fun p => p.place != .onDie && p.moving.isNone)
               (fun p => { p with moving := some (.onDie, s.cycle + n) }) x.planes })

/-- The step of a slot with a plane on its way only ends what is due. -/
theorem exec_planeMoveUp_of_moving {s : State} {h k : Nat} (hc : s.cur = .slot h k)
    (hm : (s.slot h k).planes.any (fun p => p.moving.isSome) = true) : exec .planeMoveUp s = .next (s.movesSettled h k) := by
  show execPlaneMoveUp s = _
  cases hg : (((s.abandonUps h k).finishMoves h k).slot h k).region with
  | none =>
    simp only [execPlaneMoveUp, hc, hg]
    rfl
  | some g =>
    simp only [execPlaneMoveUp, hc, hm, hg, if_true]
    rfl

/-- The step of a region's slot none of whose planes is on its way. -/
theorem exec_planeMoveUp_of_still {s : State} {h k g : Nat} (hc : s.cur = .slot h k)
    (hm : (s.slot h k).planes.any (fun p => p.moving.isSome) = false) (hg : ((s.movesSettled h k).slot h k).region = some g) :
    exec .planeMoveUp s = .next ((s.movesSettled h k).moveUp h k ((s.movesSettled h k).region g).planeLim) := by
  unfold State.movesSettled at hg
  show execPlaneMoveUp s = _
  simp only [execPlaneMoveUp, hc, hm, hg, Bool.false_eq_true, if_false]
  rfl

/-- After a rekindle, once slot and die have room, the newest plane off the die moves up: from the state die in 192 cycles, from
T1 in a free number of them. -/
theorem State.moveUp_begins {s : State} {h k lim : Nat} {p : Plane} (hlift : (s.slot h k).lift = true)
    (hup : (s.slot h k).movingUp = 0) (hslot : (s.slot h k).onDie < lim) (hdie : s.diePlanes h + s.otherUps h k < 4)
    (hp : (s.slot h k).planes.find? (fun p => p.place != .onDie && p.moving.isNone) = some p) :
    s.moveUp h k lim = if p.place = .stateDie then s.sendUp h k 192 else s.freeDelay.2.sendUp h k s.freeDelay.1 := by
  have hstays : (!(s.slot h k).lift || decide (0 < (s.slot h k).movingUp) || decide (lim ≤ (s.slot h k).onDie) ||
      decide (4 ≤ s.diePlanes h + s.otherUps h k)) = false := by
    simp [hlift, hup, hslot, hdie]
  simp only [State.moveUp, hstays, hp, Bool.false_eq_true, if_false, beq_iff_eq]
  by_cases hplace : p.place = .stateDie
  · simp only [hplace, if_true]
    rfl
  · simp only [hplace, if_false]
    rfl

/-! ### Eviction, restore and swap (R235 to R237) -/

/-- A region that is being evicted and has no image yet freezes where it may and its hearths have room. -/
theorem State.advanceEvict_freezes {s : State} {g : Nat} (hres : (s.region g).residence = .evicting)
    (himage : (s.region g).image = []) (hfree : s.mayFreeze g = true) (hroom : s.imageRoom g g = true) :
    s.advanceEvict g = s.freezeRegion g := by
  simp only [State.advanceEvict, hres, himage, hfree, hroom, bne_self_eq_false, List.isEmpty_nil, Bool.and_self, Bool.false_eq_true,
    if_false, if_true]

/-- A region whose image has left is gone. -/
theorem State.advanceEvict_ends {s : State} {g : Nat} (hres : (s.region g).residence = .evicting)
    (himage : (s.region g).image ≠ []) (hu : (s.region g).until_ ≤ s.cycle) : s.advanceEvict g = s.finishEvict g := by
  simp only [State.advanceEvict, hres, List.isEmpty_eq_false_iff.mpr himage, hu, bne_self_eq_false, Bool.false_eq_true, if_false,
    if_true]

/-- The step of a region's eviction. -/
theorem exec_contextEvict {s : State} {g : Nat} (hc : s.cur = .region g) : exec .contextEvict s = .next (s.advanceEvict g) := by
  show execContextEvict s = _
  simp only [execContextEvict, hc]

/-- A region that is being restored is not evicted. -/
theorem State.wantsBack_of_restoring {s : State} {g : Nat} (hres : (s.region g).residence = .restoring) : s.wantsBack g = false := by
  simp only [State.wantsBack, hres]
  rfl

/-- The step in which a region whose image is in place comes back. -/
theorem exec_contextRestore_ends {s : State} {g : Nat} (hc : s.cur = .region g) (hres : (s.region g).residence = .restoring)
    (hb : s.cycle % 16 = 0) (hu : (s.region g).until_ ≤ s.cycle) : exec .contextRestore s = .next (s.finishRestore g) := by
  have hback : s.advanceRestore g = s.finishRestore g := by
    simp only [State.advanceRestore, State.boundary, hres, hb, hu, beq_self_eq_true, decide_true, Bool.and_self, if_true]
  show execContextRestore s = _
  simp only [execContextRestore, hc, State.wantsBack_of_restoring hres, hback, Bool.false_eq_true, if_false]

/-- The step in which two regions swap: one freezes and leaves its slot, and the other begins to come back into it. -/
theorem exec_contextSwap_swaps {s : State} {out g : Nat} (hc : s.cur = .swap out g)
    (hout : (s.region out).residence = .evicting) (himage : (s.region out).image = []) (hin : (s.region g).residence = .evicted)
    (hfree : s.mayFreeze out = true) (hroom : s.imageRoom out g = true)
    (hmay : ((s.freezeRegion out).finishEvict out).mayRestore g (s.region out).slot = true) :
    exec .contextSwap s = .next (((s.freezeRegion out).finishEvict out).startRestore g (s.region out).slot) := by
  show execContextSwap s = _
  simp only [execContextSwap, hc, State.advanceSwap, hout, himage, hin, hfree, hroom, hmay, List.isEmpty_nil, beq_self_eq_true,
    Bool.and_self, if_true]

/-! ### O50 -/

/-- Settles O50: each event takes the branch that its clause names; which plane moves, and whether a region freezes or is gone, is
said once above. -/
theorem planesAndImagesMove : Obligations.PlanesAndImagesMove := by
  refine ⟨⟨?own, ?spare, ?full, ?content, ?moving, ?near, ?far⟩, ?freezes, ?gone, ?restored, ?swaps⟩
  case own =>
    rintro h k s hc ⟨⟨hw, hm⟩, hroom, hown⟩
    exact (exec_planeMoveDown_of_wants hc hw).trans (congrArg _ (State.moveDown_own hm hroom hown))
  case spare =>
    rintro h k j s hc ⟨⟨hw, hm⟩, hroom, hown, hj⟩
    exact (exec_planeMoveDown_of_wants hc hw).trans (congrArg _ (State.moveDown_spare hm hroom hown hj))
  case full =>
    rintro h k s hc ⟨⟨hw, hm⟩, hfull⟩
    exact (exec_planeMoveDown_of_wants hc hw).trans (congrArg _ (State.moveDown_full hm hfull))
  case content => exact fun h k s hc hw => exec_planeMoveDown_of_content hc hw
  case moving => exact fun h k s hc hm => exec_planeMoveUp_of_moving hc hm
  case near =>
    rintro h k g p s hc ⟨⟨hm, hg, hlift, hup, hslot, hdie, hp⟩, hplace⟩
    exact (exec_planeMoveUp_of_still hc hm hg).trans
      (congrArg _ ((State.moveUp_begins hlift hup hslot hdie hp).trans (if_pos hplace)))
  case far =>
    rintro h k g p s hc ⟨⟨hm, hg, hlift, hup, hslot, hdie, hp⟩, hplace⟩
    have hfar : p.place ≠ .stateDie := by simp [hplace]
    exact (exec_planeMoveUp_of_still hc hm hg).trans
      (congrArg _ ((State.moveUp_begins hlift hup hslot hdie hp).trans (if_neg hfar)))
  case freezes =>
    rintro g s hc ⟨hres, himage, hfree, hroom⟩
    exact (exec_contextEvict hc).trans (congrArg _ (State.advanceEvict_freezes hres himage hfree hroom))
  case gone =>
    rintro g s hc ⟨hres, himage, hu⟩
    exact (exec_contextEvict hc).trans (congrArg _ (State.advanceEvict_ends hres himage hu))
  case restored =>
    rintro g s hc ⟨hres, hb, hu⟩
    exact exec_contextRestore_ends hc hres hb hu
  case swaps =>
    rintro out g s hc ⟨hout, himage, hin, hfree, hroom, hmay⟩
    exact exec_contextSwap_swaps hc hout himage hin hfree hroom hmay

end Sys2Proof.Machine
end

section
/-! SUPPORT. O40: RDSR, WRSR, PRIO, YIELD and HALT (R242 to R245). -/

namespace Sys2Proof.Machine

/-- Settles O40: RDSR emits what it reads after a wait that it draws first, WRSR, PRIO and YIELD pass their operand on beside their
change, and HALT emits nothing. -/
theorem contextNodesAct : Obligations.ContextNodesAct := by
  refine ⟨?rdsr, ?wrsr, ?prio, ?yield, ?halt⟩
  case rdsr =>
    intro r s f e u v d out hw
    obtain ⟨-, rfl⟩ := fires_rec e
    exact fireNode_emit e rfl hw
  case wrsr | prio | yield => exact givesFrom_of (fun _ _ => rfl) fun _ _ _ => rfl
  case halt => exact acts_of (fun _ _ => rfl) fun _ _ _ _ => rfl

end Sys2Proof.Machine
end

section
/-! SUPPORT. O47: the watchdog, markers, dies and halts (R307 to R311, R315, R266, R245). -/

namespace Sys2Proof.Machine

/-! ### QUIESCE (R315) -/

/-- A region starves when it runs, its count has come to a limit that is set, and it has not taken QUIESCE. -/
theorem Region.starved_iff {r : Region} :
    r.starved = true ↔ r.st = .running ∧ r.wdogLim ≠ 0 ∧ r.wdogLim ≤ r.wdogCnt ∧ r.wdogHit = false := by
  simp only [Region.starved, Bool.and_eq_true, beq_iff_eq, bne_iff_ne, decide_eq_true_eq, Bool.not_eq_true', and_assoc]

/-- The step of a starved region. -/
theorem exec_quiesce {s : State} {g : Nat} (hc : s.cur = .region g) (hs : (s.region g).starved = true) :
    exec .quiesce s = .next (s.quiesce g) := by
  show execQuiesce s = _
  simp only [execQuiesce, hc, hs, if_true]

/-- The region has taken QUIESCE. -/
def State.watchdogHit (s : State) (g : Nat) : State := s.modRegion g (fun r => { r with wdogHit := true })

/-- Detail of QUIESCE: the limit, the number of waiting tokens, and the region's place. -/
def State.quiesceDetail (s : State) (g : Nat) : Nat :=
  (s.region g).wdogLim + min (s.waiters g).length 0xFFFFFFFF * 2 ^ 32 + (s.region g).x * 2 ^ 64 + (s.region g).y * 2 ^ 72

/-- The fault names the token that has waited longest. -/
theorem State.quiesce_of_waiter {s : State} {g e a h n c w : Nat} (hk : (s.region g).kernel = some e)
    (hw : oldestWaiter (s.waiters g) = some (a, h, n, c, w)) :
    s.quiesce g = (s.watchdogHit g).kernelFault e (nodeRecord s g h (s.region g).slot n c w faultQuiesce (s.quiesceDetail g)) := by
  simp only [State.quiesce, hk, hw]
  rfl

/-- Where nothing waits, the fault names the region's origin. -/
theorem State.quiesce_of_noWaiter {s : State} {g e : Nat} (hk : (s.region g).kernel = some e)
    (hw : oldestWaiter (s.waiters g) = none) :
    s.quiesce g = (s.watchdogHit g).kernelFault e
      (nodeRecord s g (s.region g).origin (s.region g).slot 0 0 0 faultQuiesce (s.quiesceDetail g)) := by
  simp only [State.quiesce, hk, hw]
  rfl

/-- A region without a kernel only notes the hit. -/
theorem State.quiesce_of_noKernel {s : State} {g : Nat} (hk : (s.region g).kernel = none) : s.quiesce g = s.watchdogHit g := by
  simp only [State.quiesce, hk]
  rfl

/-! ### Barriers (R307) -/

/-- The step of a node whose barriers align or clash. -/
theorem exec_barrierAlign {s : State} {h k n g : Nat} (hc : s.cur = .node h k n) (hg : (s.slot h k).region = some g)
    (hd : s.barrierDue g h k n = true) : exec .barrierAlign s = .next (s.alignBarrier g h k n) := by
  show execBarrierAlign s = _
  simp only [execBarrierAlign, hc, hg, hd, if_true]

/-- Markers that disagree are a fault of the node. -/
theorem State.alignBarrier_clashes {s : State} {g h k n o : Nat} {r : Rec} {t : Token} (hr : s.record h k n = some (o, r))
    (hm : markerClash (s.node h k n) (s.connected g h n) = some t) :
    s.alignBarrier g h k n = s.nodeFault g h k n t.col t.wave faultJoinOrd 0 := by
  simp only [State.alignBarrier, hr, hm]

/-- The barriers at a node's connected ports are consumed. -/
def State.barriersEaten (s : State) (g h k n : Nat) : State :=
  (s.modNode h k n (fun x => (s.connected g h n).foldl (fun x p => x.pop p s.cycle) x)).modSlot h k
    (fun x => { x with firedAt := some s.cycle })

/-- Aligned barriers are consumed; a terminal counts for the drain, any other node sends one on. -/
theorem State.alignBarrier_aligned {s : State} {g h k n o : Nat} {r : Rec} {t : Token} (hr : s.record h k n = some (o, r))
    (hm : markerClash (s.node h k n) (s.connected g h n) = none)
    (ha : barrierAligned (s.node h k n) (s.connected g h n) = some t) :
    s.alignBarrier g h k n =
      if terminalNode o r then
        (s.barriersEaten g h k n).modRegion g (fun r => { r with drain := r.drain.map (fun d => d.absorb h n t.markerId) })
      else (s.barriersEaten g h k n).sendMarker g h k n r (markerToken k t.col t.wave t.markerId .barrier) := by
  simp only [State.alignBarrier, hr, hm, ha]
  rfl

/-! ### Drains (R308) -/

/-- A source sends the barrier that it owes. -/
theorem exec_drainSourceMarker_barrier {s : State} {h k n g o : Nat} {r : Rec} {t : Token} {more : List Token}
    (hc : s.cur = .node h k n) (hg : (s.slot h k).region = some g) (hr : s.record h k n = some (o, r))
    (ho : (s.node h k n).owed = t :: more) (hf : s.firing g = true) (hroom : s.markersFit g h k n r = true)
    (ht : t.mark = .barrier) :
    exec .drainSourceMarker s = .next ((s.modNode h k n (fun x => { x with owed := more })).sendMarker g h k n r t) := by
  have hkind : (t.mark == Mark.snapshot) = false := by rw [ht]; rfl
  show execDrainSourceMarker s = _
  simp only [execDrainSourceMarker, hc, hg, hr, ho, hf, hroom, hkind, Bool.and_self, Bool.false_and, Bool.false_eq_true, if_true,
    if_false]

/-- A drain that has ended hands its status to its DRAIN. -/
theorem exec_drainComplete {s : State} {g st : Nat} {d : Drain} (hc : s.cur = .region g) (hd : (s.region g).drain = some d)
    (hs : s.drainStatus g d = some st) :
    exec .drainComplete s = .next ((s.modRegion g (fun r => { r with drain := none })).holdStatus g d.h d.depth d.n d.nrec d.tok
      (st + 2 ^ 16 * d.id)) := by
  show execDrainComplete s = _
  simp only [execDrainComplete, hc, hd, hs]

/-! ### Snapshots (R309, R311) -/

/-- The step of a port at which a snapshot marker waits. -/
theorem exec_snapshotFirstMarker {s : State} {h k n p g : Nat} {t : Token} (hc : s.cur = .port h k n p)
    (hg : (s.slot h k).region = some g) (ht : t ∈ (s.node h k n).waiting p) (hm : t.mark = .snapshot) :
    exec .snapshotFirstMarker s = .next (s.takeSnapMarker g h k n p) := by
  have hwaits : ((s.node h k n).waiting p).any (fun t => t.mark == .snapshot) = true :=
    List.any_eq_true.mpr ⟨t, ht, beq_iff_eq.mpr hm⟩
  show execSnapshotFirstMarker s = _
  simp only [execSnapshotFirstMarker, hc, hg, hwaits, if_true]

/-- A connected port is marked. -/
theorem State.takeSnapMarker_connected {s : State} {g h k n p : Nat} (hp : (s.connected g h n).contains p = true) :
    s.takeSnapMarker g h k n p = s.modNode h k n (fun x =>
      { x with marked := insertRising x.marked p, stopped := !(insertRising x.marked p).isEmpty }) := by
  simp only [State.takeSnapMarker, hp, if_true]

/-- Any other port is not. -/
theorem State.takeSnapMarker_unconnected {s : State} {g h k n p : Nat} (hp : (s.connected g h n).contains p = false) :
    s.takeSnapMarker g h k n p = s.modNode h k n (fun x => { x with stopped := !x.marked.isEmpty }) := by
  simp only [State.takeSnapMarker, hp, Bool.false_eq_true, if_false]

/-- The step of a node whose snapshot markers align. -/
theorem exec_snapshotAlign {s : State} {h k n g : Nat} (hc : s.cur = .node h k n) (hg : (s.slot h k).region = some g)
    (hd : s.snapReady g h k n = true) : exec .snapshotAlign s = .next (s.alignSnapshot g h k n) := by
  show execSnapshotAlign s = _
  simp only [execSnapshotAlign, hc, hg, hd, if_true]

/-- The markers `t` at the ports `ps` of a node with this record are consumed, and one goes on unless the node is a terminal. -/
def State.snapMarkersMoved (s : State) (g h k n o : Nat) (r : Rec) (ps : List Nat) (t : Token) : State :=
  let u := (s.modNode h k n (fun x =>
    (ps.foldl (fun x p => (x.setQueue p (unmark (x.queue p))).refill p s.cycle Config.queueDepth) x).unrecord)).modSlot h k
      (fun x => { x with firedAt := some s.cycle })
  if terminalNode o r then u else u.sendMarker g h k n r (markerToken k t.col t.wave t.markerId .snapshot)

/-- Markers of no snapshot in progress only move. -/
theorem State.alignSnapshot_stale {s : State} {g h k n o : Nat} {r : Rec} {t : Token} (hr : s.record h k n = some (o, r))
    (ha : snapAgreed (s.node h k n) (s.connected g h n) = some t) (hs : s.snapping g t.markerId = false) :
    s.alignSnapshot g h k n = s.snapMarkersMoved g h k n o r (s.connected g h n) t := by
  simp only [State.alignSnapshot, hr, ha, hs, Bool.false_eq_true, if_false]
  rfl

/-- The records of the tokens that wait at a node, and its own, are written. -/
def State.nodeNoted (s : State) (g h k n : Nat) : State :=
  ((s.connected g h n).foldl (fun s p => s.snapPort g h k n p) s).nodeRecordOut g h n

/-- Markers of the snapshot in progress move once the node's records are written, and the node counts as aligned. -/
theorem State.alignSnapshot_live {s : State} {g h k n o : Nat} {r : Rec} {t : Token} (hr : s.record h k n = some (o, r))
    (ha : snapAgreed (s.node h k n) (s.connected g h n) = some t) (hs : s.snapping g t.markerId = true) :
    s.alignSnapshot g h k n =
      (((s.nodeNoted g h k n).snapMarkersMoved g h k n o r (s.connected g h n) t).snapAligned g h n).endSnapshot g := by
  simp only [State.alignSnapshot, hr, ha, hs, if_true]
  rfl

/-- A snapshot's markers leave the nodes of a slot. -/
def Snapshot.release (x : Snapshot) (now : Nat) (v : SlotState) : SlotState := v.mapNodes (fun n => n.release x.id now)

/-- A region without the snapshot that it gave up (R311). -/
def State.snapshotGone (s : State) (g : Nat) (x : Snapshot) : State :=
  ({ s with slots := s.slots.map (fun e => if e.2.region == some g then (e.1, x.release s.cycle e.2) else e)
            snapInc := true, snapOvf := !x.full.isEmpty, snapCnt := min 0xFFFF (s.snapCnt + 1) } : State).modRegion g (fun r =>
    { r with snapshot := none, abandoned := insertRising r.abandoned x.id
             image := r.image.map (fun e => (e.1, x.release s.cycle e.2)) })

/-- The step in which a snapshot past its limit is given up; one that is still waited for answers its SNAP. -/
theorem exec_snapshotAbandon {s : State} {g : Nat} {x : Snapshot} (hc : s.cur = .region g) (hx : (s.region g).snapshot = some x)
    (hl : x.started + Config.snapshotLimit ≤ s.cycle) :
    exec .snapshotAbandon s = .next (if x.dropped then s.snapshotGone g x
      else (s.snapshotGone g x).holdStatus g x.h x.depth x.n x.nrec x.tok 1) := by
  show execSnapshotAbandon s = _
  simp only [execSnapshotAbandon, State.snapshotGone, Snapshot.release, hc, hx, Nat.not_lt.mpr hl, if_false]

/-! ### Dies and the master (R266) -/

/-- A heartbeat that comes clears the count of its die. -/
theorem exec_heartbeat_of_heard {s : State} {d : Nat} (hc : s.cur = .die d) (ht : s.cycle % 1024 = 0)
    (hf : s.fencedDies.contains d = false) (hs : s.silent.contains d = false) :
    exec .heartbeat s = .next { s with missed := Tab.set s.missed d 0 } := by
  show execHeartbeat s = _
  simp only [execHeartbeat, hc, ht, hf, hs, ne_eq, not_true_eq_false, decide_false, Bool.or_self, Bool.not_false, Bool.false_eq_true,
    if_false, if_true]

/-- The fourth heartbeat in a row that does not come fences its die. -/
theorem exec_heartbeat_of_fourth {s : State} {d : Nat} (hc : s.cur = .die d) (ht : s.cycle % 1024 = 0)
    (hf : s.fencedDies.contains d = false) (hs : s.silent.contains d = true) (hm : 3 ≤ Tab.get 0 s.missed d) :
    exec .heartbeat s =
      .next (({ s with missed := Tab.set s.missed d (Tab.get 0 s.missed d + 1) } : State).push [.event .dieFence (.die d)]) := by
  have hfour : 4 ≤ Tab.get 0 s.missed d + 1 := Nat.succ_le_succ hm
  show execHeartbeat s = _
  simp only [execHeartbeat, hc, ht, hf, hs, hfour, ne_eq, not_true_eq_false, decide_false, Bool.or_self, Bool.not_true,
    Bool.false_eq_true, if_false, if_true]

/-- The step that fences a die. -/
theorem exec_dieFence {s : State} {d : Nat} (hc : s.cur = .die d) : exec .dieFence s = .next (s.fenceDie d) := by
  show execDieFence s = _
  simp only [execDieFence, hc]

/-- A die is marked as fenced, and the kernels that have started note which dies are left (R267). -/
def State.fenceNoted (s : State) (d : Nat) : State :=
  let v : State := { s with fencedDies := insertRising s.fencedDies d }
  { v with kernels := v.kernels.map (fun k =>
      if k.2.first then (k.1, { k.2 with fences := k.2.fences ++ [(d, v.liveDies)] }) else k) }

/-- A fenced die's regions are lost, its queues cut off, its engines idle, and its moves dropped. -/
def State.dieLost (s : State) (d : Nat) : State :=
  let u := (s.fenceNoted d).loseRegions ((s.fenceNoted d).regionsOn d) true
  { u with queues := u.queues.map (fun q => if q.1 / 128 = d then (q.1, q.2.cut) else q)
           engines := u.engines.map (fun e => if e.1 / 8 = d then (e.1, { e.2 with busy := false }) else e)
           moves := u.moves.filter (fun m => m.1 / 128 != d) }

/-- The fence of the master begins an election. -/
theorem State.fenceDie_fences {s : State} {d : Nat} (hf : s.fencedDies.contains d = false) :
    s.fenceDie d =
      if (s.dieLost d).master = d ∧ ((s.dieLost d).phase = 4 ∨ (s.dieLost d).phase = 5) then
        { (s.dieLost d).freeDelay.2 with
          election := some ((s.dieLost d).freeDelay.2.cycle + min (s.dieLost d).freeDelay.1 2048) }
      else s.dieLost d := by
  simp only [State.fenceDie, hf, Bool.and_eq_true, Bool.or_eq_true, decide_eq_true_eq, Bool.false_eq_true, if_false]
  rfl

/-- The step in which an election ends. -/
theorem exec_electionEnd {s : State} {t : Nat} (hc : s.cur = .module) (he : s.election = some t) (ht : t ≤ s.cycle) :
    exec .electionEnd s = .next { s with election := none, master := s.liveDies.headD s.master } := by
  show execElectionEnd s = _
  simp only [execElectionEnd, hc, he, ht, if_true]

/-! ### The halt of a context (R245) -/

/-- Every region of a context has stopped. -/
def State.allHalted (s : State) (m : Nat) : Bool := (s.regionsIn m).all (fun g => (s.region g).halted)

/-- The step of a context that halts, at a boundary. -/
theorem exec_contextHalt {s : State} {m : Nat} (hc : s.cur = .context m) (hh : (s.context m).halting = true)
    (hb : s.cycle % 16 = 0) :
    exec .contextHalt s =
      .next (if (s.stopRegions m).allHalted m then (s.stopRegions m).haltContext m else s.stopRegions m) := by
  show execContextHalt s = _
  simp only [execContextHalt, State.boundary, hc, hh, hb, beq_self_eq_true, Bool.and_self, if_true]
  rfl

/-! ### O47 -/

/-- Settles O47: each event takes the branch that its clause names; what a quiescence, an alignment and a fence come to is said
once above. -/
theorem markersAndHaltsGoOn : Obligations.MarkersAndHaltsGoOn := by
  refine ⟨⟨?waiter, ?noWaiter, ?noKernel⟩, ⟨?clash, ?absorbs, ?forwards⟩, ⟨?connected, ?unconnected⟩, ⟨?stale, ?live⟩,
    ⟨?dropped, ?answered⟩, ?source, ?drain, ?heard, ?fourth, ?fence, ?election, ⟨?stops, ?halts⟩⟩
  case waiter =>
    rintro g e a h n c w s hc ⟨hdue, hk, hw⟩
    exact (exec_quiesce hc (Region.starved_iff.mpr hdue)).trans (congrArg _ (State.quiesce_of_waiter hk hw))
  case noWaiter =>
    rintro g e s hc ⟨hdue, hk, hw⟩
    exact (exec_quiesce hc (Region.starved_iff.mpr hdue)).trans (congrArg _ (State.quiesce_of_noWaiter hk hw))
  case noKernel =>
    rintro g s hc ⟨hdue, hk⟩
    exact (exec_quiesce hc (Region.starved_iff.mpr hdue)).trans (congrArg _ (State.quiesce_of_noKernel hk))
  case clash =>
    rintro h k n g o r t s hc ⟨⟨hg, hd, hr⟩, hm⟩
    exact (exec_barrierAlign hc hg hd).trans (congrArg _ (State.alignBarrier_clashes hr hm))
  case absorbs =>
    rintro h k n g o r t s hc ⟨⟨hg, hd, hr⟩, hm, ha, ht⟩
    exact (exec_barrierAlign hc hg hd).trans (congrArg _ ((State.alignBarrier_aligned hr hm ha).trans (if_pos ht)))
  case forwards =>
    rintro h k n g o r t s hc ⟨⟨hg, hd, hr⟩, hm, ha, ht⟩
    exact (exec_barrierAlign hc hg hd).trans
      (congrArg _ ((State.alignBarrier_aligned hr hm ha).trans (if_neg (Bool.eq_false_iff.mp ht))))
  case connected =>
    rintro h k n p g t s hc ⟨⟨hg, ht, hm⟩, hp⟩
    exact (exec_snapshotFirstMarker hc hg ht hm).trans (congrArg _ (State.takeSnapMarker_connected hp))
  case unconnected =>
    rintro h k n p g t s hc ⟨⟨hg, ht, hm⟩, hp⟩
    exact (exec_snapshotFirstMarker hc hg ht hm).trans (congrArg _ (State.takeSnapMarker_unconnected hp))
  case stale =>
    rintro h k n g o r t s hc ⟨⟨hg, hd, hr, ha⟩, hs⟩
    exact (exec_snapshotAlign hc hg hd).trans (congrArg _ (State.alignSnapshot_stale hr ha hs))
  case live =>
    rintro h k n g o r t s hc ⟨⟨hg, hd, hr, ha⟩, hs⟩
    exact (exec_snapshotAlign hc hg hd).trans (congrArg _ (State.alignSnapshot_live hr ha hs))
  case dropped =>
    rintro g x s hc ⟨hx, hl, hd⟩
    exact (exec_snapshotAbandon hc hx hl).trans (congrArg _ (if_pos hd))
  case answered =>
    rintro g x s hc ⟨hx, hl, hd⟩
    exact (exec_snapshotAbandon hc hx hl).trans (congrArg _ (if_neg (Bool.eq_false_iff.mp hd)))
  case source =>
    rintro h k n g o r t more s hc ⟨hg, hr, ho, hf, hroom, ht⟩
    exact exec_drainSourceMarker_barrier hc hg hr ho hf hroom ht
  case drain =>
    rintro g d st s hc ⟨hd, hs⟩
    exact exec_drainComplete hc hd hs
  case heard =>
    rintro d s hc ⟨ht, hf, hs⟩
    exact exec_heartbeat_of_heard hc ht hf hs
  case fourth =>
    rintro d s hc ⟨ht, hf, hs, hm⟩
    exact exec_heartbeat_of_fourth hc ht hf hs hm
  case fence => exact fun d s hc hf => (exec_dieFence hc).trans (congrArg _ (State.fenceDie_fences hf))
  case election =>
    rintro t s hc ⟨he, ht⟩
    exact exec_electionEnd hc he ht
  case stops =>
    rintro m s hc ⟨⟨hh, hb⟩, ha⟩
    exact (exec_contextHalt hc hh hb).trans (congrArg _ (if_neg (Bool.eq_false_iff.mp ha)))
  case halts =>
    rintro m s hc ⟨⟨hh, hb⟩, ha⟩
    exact (exec_contextHalt hc hh hb).trans (congrArg _ (if_pos ha))

end Sys2Proof.Machine
end

section
/-! SUPPORT. O6: the invariant at reset (R345). -/

namespace Sys2Proof.Machine

/-- Settles O6: at reset memory lists no cell and no granule is poisoned. -/
theorem resetMeetsInvariant : Obligations.ResetMeetsInvariant := ⟨rfl, rfl⟩

end Sys2Proof.Machine
end

section
/-! SUPPORT. O48: kernels are accepted, bound, run, completed and shown (R219, R247 to R258, R264, R265). -/

namespace Sys2Proof.Machine

/-! ### Acceptance (R250) -/

/-- A submission is accepted where the journal has room, and waits where it has none. -/
theorem exec_kernelAccept {s : State} {a : Submission} (hc : s.cur = .module) :
    exec (.kernelAccept a) s = .next (if s.journalRoom then s.accept a else { s with waiting := s.waiting ++ [a] }) := by
  show execKernelAccept a s = _
  simp only [execKernelAccept, hc]

/-! ### Binding (R255, R256) -/

/-- The kernel that comes first in the order of R255 is given the region that matches it. -/
theorem State.tryKernel_matches {s : State} {e g : Nat} (hw : s.bindWaits (s.kernel e) (s.regionIndex e) = false)
    (hm : s.matchFor e = some g) : s.tryKernel e = some (s.bindMatch e g) := by
  simp only [State.tryKernel, hw, hm, Bool.false_eq_true, if_false]

/-- The step that binds a region: the first kernel of the order can be given one. -/
theorem exec_bindRegion_of_first {s t : State} {e : Nat} {rest : List Nat} (hc : s.cur = .module) (he : s.election = none)
    (ho : s.bindOrder = e :: rest) (ht : s.tryKernel e = some t) : exec .bindRegion s = .next t := by
  show execBindRegion s = _
  simp only [execBindRegion, hc, he, ho, List.findSome?_cons, ht, Option.isSome_none, Bool.false_eq_true, if_false]

/-- A kernel goes on once its region's colour table is cleared. -/
theorem State.withTable_cleared {s t : State} {e : Nat} {go : State → Nat → State}
    (h : s.clearTable (s.kernel e) (s.regionIndex e) = .ok t) : s.withTable e go = go t (s.regionIndex e) := by
  simp only [State.withTable, h]

/-- A fault in the translation of the colour-table area is the kernel's. -/
theorem State.withTable_denied {s : State} {e va : Nat} {f d : Nat} {go : State → Nat → State}
    (h : s.clearTable (s.kernel e) (s.regionIndex e) = .error ((f, d), va)) :
    s.withTable e go = s.kernelFault e { cause := faultAccess, die := s.master, x := 0xFF, y := 0xFF, ctx := (s.kernel e).ctx
                                         addr := va, detail := d, cycle := s.cycle } := by
  simp only [State.withTable, h]

/-! ### Groups (R264) -/

/-- The step that hands a group out, at a region that stands ready with a colour free. -/
theorem exec_groupHandout_of_pending {s : State} {g e p : Nat} (hc : s.cur = .region g) (hk : (s.region g).kernel = some e)
    (hst : (s.kernel e).st = .bound ∨ (s.kernel e).st = .running) (hr : s.takesGroups g = true)
    (hroom : lowestFree 0 (s.region g).cols < 4096) (hp : (s.kernel e).firstPending (s.mayRun e g) = some p) :
    exec .groupHandout s = .next (s.handOut e g p) := by
  have hrun : ((s.kernel e).st == .bound || (s.kernel e).st == .running || (s.kernel e).st == .draining) = true := by
    rcases hst with h | h <;> simp [h]
  show execGroupHandout s = _
  simp only [execGroupHandout, hc, hk, hrun, hr, hroom, hp, decide_true, Bool.and_self, if_true]

/-! ### Completion (R254, R258, R265) -/

/-- The step that a kernel's own state calls for; a kernel that is over leaves its regions. -/
theorem exec_kernelComplete {s : State} {e : Nat} (hc : s.cur = .kernel e) :
    exec .kernelComplete s = .next
      (if ((s.advanceKernel e).kernel e).released then (s.advanceKernel e).detachAll e else s.advanceKernel e) := by
  show execKernelComplete s = _
  simp only [execKernelComplete, hc]

/-- The state in which the groups of a kernel that have come to their end are Done, and their units released (R263, R265). -/
def State.settled (s : State) (e : Nat) : State :=
  ((s.settleGroups e).regionsOf e).foldl (fun u g => u.releaseUnit e g) (s.settleGroups e) |>.modKernel e Kernel.drained

/-- A Draining kernel completes once its groups are over and no activation is left. -/
theorem State.advanceKernel_drained {s : State} {e : Nat} (hst : (s.kernel e).st = .draining)
    (hd : ((s.settled e).kernel e).st = .draining) (ho : ((s.settled e).kernel e).groupsOver = true)
    (ha : (s.settled e).allApplied e = true) : s.advanceKernel e = ((s.settled e).complete e 0).writeRecord e := by
  have hover : (((s.settled e).kernel e).st == .draining && ((s.settled e).kernel e).groupsOver && (s.settled e).allApplied e) = true := by
    simp [hd, ho, ha]
  simp only [State.advanceKernel, hst]
  exact if_pos hover

/-- A Faulting kernel abandons its pending groups, and completes once no activation is left. -/
theorem State.advanceKernel_faulted {s : State} {e : Nat} (hst : (s.kernel e).st = .faulting)
    (ha : ((s.settleGroups e).modKernel e Kernel.abandonPending).allApplied e = true) :
    s.advanceKernel e = ((((s.settleGroups e).modKernel e Kernel.abandonPending).complete e 1).writeRecord e) := by
  simp only [State.advanceKernel, hst]
  exact if_pos ha

/-- A Complete kernel whose record is written has no move left. -/
theorem State.advanceKernel_recorded {s : State} {e : Nat} (hst : (s.kernel e).st = .complete) (hw : (s.kernel e).recordWritten = true) :
    s.advanceKernel e = s := by
  simp only [State.advanceKernel, hst, hw, if_true]

/-- A Complete kernel whose T3 writes are acknowledged needs its regions no longer. -/
theorem Kernel.released_of_complete {k : Kernel} (hst : k.st = .complete) (ht : k.t3Pending = 0) : k.released = true := by
  simp [Kernel.released, Kernel.ended, hst, ht]

/-- The step by which a kernel becomes Visible. -/
theorem exec_kernelVisible {s : State} {e : Nat} (hc : s.cur = .kernel e) (hs : (s.kernel e).showable = true) :
    exec .kernelVisible s = .next
      (((s.setKernel e { s.kernel e with st := .visible }).journalState (s.kernel e).seq 1).kernelMessage (s.kernel e) 0) := by
  show execKernelVisible s = _
  simp only [execKernelVisible, hc, hs, if_true]

/-! ### Loads (R219, R222) -/

/-- The step that ends the load of a bound region. -/
theorem exec_configLoad_region {s : State} {g : Nat} (hc : s.cur = .region g) (hst : (s.region g).st = .loading)
    (hk : (s.region g).kernel.isSome = true) (hu : (s.region g).until_ ≤ s.cycle) :
    exec .configLoad s = .next (s.modRegion g (fun r => { r with st := .resident })) := by
  show execConfigLoad s = _
  simp only [execConfigLoad, hc, State.endBinding, hst, hk, hu, beq_self_eq_true, decide_true, Bool.and_self, if_true]

/-- The step that ends a node's load when it is due and its image can be read. -/
theorem exec_configLoad_node {s : State} {h k n : Nat} {l : Load} (hc : s.cur = .node h k n)
    (hl : s.loads.find? (fun x => x.h == h && x.k == k && x.n == n) = some l) (h0 : l.due ≠ 0) (hd : l.due ≤ s.cycle)
    (hw : s.imageWaits (s.region l.region).ctx l.va = false) : exec .configLoad s = .next (s.finishLoad l) := by
  show execConfigLoad s = _
  simp only [execConfigLoad, hc, State.advanceLoad, hl, h0, hd, hw, if_false, decide_true, Bool.not_false, Bool.and_self, if_true]

/-- The state in which a load is no longer listed. -/
def State.unlisted (s : State) (l : Load) : State := { s with loads := dropLoad s.loads l.h l.k l.n }

/-- What a load that is due reads of its image. -/
def State.loadOutcome (s : State) (l : Load) : Except LoadFail Image :=
  (s.unlisted l).loadFrom ((s.unlisted l).region l.region).ctx l.va l.head (l.site ((s.unlisted l).slot l.h l.k).region)

/-- The image has passed its checks: what lay in the rectangle goes, and the configuration becomes resident. -/
def State.imageResident (s : State) (l : Load) (i : Image) : State :=
  (l.prior.foldl (fun s p => s.unbind p) ((s.unlisted l).imageRead ((s.unlisted l).region l.region).ctx l.va)).becomeResident l.region i

/-- The image has failed a check: what lay in the rectangle is Resident again, and the region of the load is gone. -/
def State.imageRefused (s : State) (l : Load) : State :=
  let u := l.prior.foldl (fun s p => s.modRegion p (fun r => if r.st == .loading then { r with st := .resident } else r))
    ((s.unlisted l).imageRead ((s.unlisted l).region l.region).ctx l.va)
  { u with regions := Tab.drop u.regions l.region }

theorem State.finishLoad_of_ok {s : State} {l : Load} {i : Image} (h : s.loadOutcome l = .ok i) :
    s.finishLoad l = (s.imageResident l i).endLoad l { status := 0, hearth := some 0 } := by
  simp only [State.loadOutcome, State.unlisted] at h
  simp only [State.finishLoad, h]
  rfl

theorem State.finishLoad_of_error {s : State} {l : Load} {f : LoadFail} (h : s.loadOutcome l = .error f) :
    s.finishLoad l = (s.imageRefused l).endLoad l f := by
  simp only [State.loadOutcome, State.unlisted] at h
  simp only [State.finishLoad, h]
  rfl

/-- A load whose node has lost its activation ends without a token. -/
theorem State.endLoad_of_dropped {s : State} {l : Load} {f : LoadFail} {d : Nat} (hf : f.hearth = some d) (hd : l.dropped = true) :
    s.endLoad l f = s := by
  simp only [State.endLoad, hf, hd, if_true]

/-- The status token of a load waits at its node. -/
theorem State.endLoad_of_kept {s : State} {l : Load} {f : LoadFail} {d : Nat} (hf : f.hearth = some d) (hd : l.dropped = false) :
    s.endLoad l f = (s.modNode l.h l.k l.n (fun x => { x with holds := x.holds ++
      [{ kind := .status, tok := statusToken l.tok l.k f d, nrec := l.nrec, due := s.cycle, ready := true, col := l.tok.col, pser := 0 }]
        })).push [.event .deferredTokenSend (.node l.h l.k l.n)] := by
  simp only [State.endLoad, hf, hd, Bool.false_eq_true, if_false]

/-! ### O48 -/

/-- Settles O48: every clause is the step of its event, followed by what that step does in the clause's case. -/
theorem kernelsGoOn : Obligations.KernelsGoOn := by
  unfold Obligations.KernelsGoOn
  refine ⟨?accepted, ?waits, ⟨?bound, ?denied⟩, ?handedOut, ?drained, ?faulted, ?complete, ?visible, ?boundRegion, ?loaded, ?loadedDropped,
    ?failed, ?failedDropped⟩
  case accepted => exact fun a s hc hj => (exec_kernelAccept hc).trans (congrArg _ (if_pos hj))
  case waits => exact fun a s hc hj => (exec_kernelAccept hc).trans (congrArg _ (if_neg (Bool.eq_false_iff.mp hj)))
  case bound =>
    rintro e rest g t s hc ⟨⟨he, ho, hw, hm⟩, ht⟩
    exact (exec_bindRegion_of_first hc he ho (State.tryKernel_matches hw hm)).trans (congrArg _ (State.withTable_cleared ht))
  case denied =>
    rintro e rest g f d va s hc ⟨⟨he, ho, hw, hm⟩, ht⟩
    exact (exec_bindRegion_of_first hc he ho (State.tryKernel_matches hw hm)).trans (congrArg _ (State.withTable_denied ht))
  case handedOut =>
    rintro g e p s hc ⟨hk, hst, hr, hroom, hp⟩
    exact exec_groupHandout_of_pending hc hk hst hr hroom hp
  case drained =>
    rintro e s hc ⟨hst, hd, ho, ha⟩
    rw [exec_kernelComplete hc, State.advanceKernel_drained hst hd ho ha]
    rfl
  case faulted =>
    rintro e s hc ⟨hst, ha⟩
    rw [exec_kernelComplete hc, State.advanceKernel_faulted hst ha]
  case complete =>
    rintro e s hc ⟨hst, hw, ht⟩
    rw [exec_kernelComplete hc, State.advanceKernel_recorded hst hw, if_pos (Kernel.released_of_complete hst ht)]
  case visible =>
    rintro e s hc ⟨hst, hw, ht⟩
    exact exec_kernelVisible hc (by simp [Kernel.showable, hst, hw, ht])
  case boundRegion =>
    rintro g s hc ⟨hst, hk, hu⟩
    exact exec_configLoad_region hc hst hk hu
  case loaded =>
    rintro h k n l i s hc ⟨⟨hl, h0, hd, hw⟩, hi, hk⟩
    exact (exec_configLoad_node hc hl h0 hd hw).trans
      (congrArg _ ((State.finishLoad_of_ok hi).trans (State.endLoad_of_kept rfl hk)))
  case loadedDropped =>
    rintro h k n l i s hc ⟨⟨hl, h0, hd, hw⟩, hi, hk⟩
    exact (exec_configLoad_node hc hl h0 hd hw).trans
      (congrArg _ ((State.finishLoad_of_ok hi).trans (State.endLoad_of_dropped rfl hk)))
  case failed =>
    rintro h k n l f d s hc ⟨⟨hl, h0, hd, hw⟩, hi, hf, hk⟩
    exact (exec_configLoad_node hc hl h0 hd hw).trans
      (congrArg _ ((State.finishLoad_of_error hi).trans (State.endLoad_of_kept hf hk)))
  case failedDropped =>
    rintro h k n l f d s hc ⟨⟨hl, h0, hd, hw⟩, hi, hf, hk⟩
    exact (exec_configLoad_node hc hl h0 hd hw).trans
      (congrArg _ ((State.finishLoad_of_error hi).trans (State.endLoad_of_dropped hf hk)))

end Sys2Proof.Machine
end

section
/-! SUPPORT. What an engine's turn comes to where its access is made (R279). -/

namespace Sys2Proof.Machine

/-- An access that was made lets its entry go on. -/
@[simp] theorem State.meet_ok {α : Type} (s : State) (q : Nat) (y : α) (k : α → State) : s.meet q (.ok y) k = k y := rfl

/-- The status of an entry that has moved all its data, as the claims state it. -/
theorem doneStatus_eq_moved (c : CurrentEntry) : doneStatus c = c.moved := rfl

/-- One granule written, as the claims state it. -/
theorem State.wroteGranule_eq_movedOn (s : State) (q n : Nat) (p : Bool) : s.wroteGranule q n p = s.movedOn q n p := rfl

end Sys2Proof.Machine
end

section
/-! SUPPORT. O52: COPY, FILL, GATH, SCAT, COPYT and PERM (R281 to R286). -/

namespace Sys2Proof.Machine

/-! ### COPY and FILL (R281) -/

section
variable {b : XferBody} {s t u : State} {q : Nat} {c : CurrentEntry} {bs : List (Byte × Bool)}

theorem copyGo_over (h : b.len.toNat ≤ c.progress) : copyGo b s q c = s.finishEntry q c.moved := by
  simp only [copyGo, h, if_true, doneStatus_eq_moved]

/-- A COPY whose writes would reach its source takes the whole source first. -/
theorem copyGo_takesSource (hlt : c.progress < b.len.toNat) (ha : copyAhead b = true) (hb : c.buffer = [])
    (hr : s.atLength (fun v => v.readRange (s.queue q).ctx b.src.toNat b.len.toNat) = .ok (t, bs)) :
    copyGo b s q c = t.modEntry q (fun x => { x with buffer := bs }) := by
  simp only [copyGo, Nat.not_le.mpr hlt, ha, hb, hr, List.isEmpty_nil, Bool.and_self, if_true, if_false, State.meet_ok]

/-- Any other turn of a COPY writes one granule of the destination. -/
theorem copyGo_granule (hlt : c.progress < b.len.toNat) (ha : (copyAhead b && c.buffer.isEmpty) = false)
    (hr : s.copyBytes (s.queue q).ctx c b.src.toNat c.progress (chunkAt b.dst.toNat c.progress b.len.toNat) = .ok (t, bs))
    (hw : t.writeTagged (s.queue q).ctx (b.dst.toNat + c.progress) bs = .ok u) :
    copyGo b s q c = (u.movedOn q (chunkAt b.dst.toNat c.progress b.len.toNat) (bs.any (fun y => y.2))).risePointer q b.wpc
      (chunkAt b.dst.toNat c.progress b.len.toNat) := by
  simp only [copyGo, Nat.not_le.mpr hlt, ha, hr, hw, Bool.false_eq_true, if_false, State.meet_ok, State.wroteGranule_eq_movedOn]

theorem State.copyBytes_unbuffered {m src i n : Nat} (hb : c.buffer = []) : s.copyBytes m c src i n = s.readRange m (src + i) n := by
  simp only [State.copyBytes, hb, List.isEmpty_nil, if_true]

theorem State.copyBytes_buffered {m src i n : Nat} (hb : c.buffer ≠ []) :
    s.copyBytes m c src i n = .ok (s, (c.buffer.drop i).take n) := by
  simp only [State.copyBytes, List.isEmpty_iff, hb, if_false]

theorem fillGo_over (h : b.len.toNat ≤ c.progress) : fillGo b s q c = s.finishEntry q c.moved := by
  simp only [fillGo, h, if_true, doneStatus_eq_moved]

theorem fillGo_granule (hlt : c.progress < b.len.toNat)
    (hw : s.engineWrite (s.queue q).ctx (b.dst.toNat + c.progress)
      (List.replicate (chunkAt b.dst.toNat c.progress b.len.toNat / 4) (leBytes 4 b.pat.toNat)).flatten false = .ok u) :
    fillGo b s q c = (u.movedOn q (chunkAt b.dst.toNat c.progress b.len.toNat) false).risePointer q b.wpc
      (chunkAt b.dst.toNat c.progress b.len.toNat) := by
  simp only [fillGo, Nat.not_le.mpr hlt, hw, if_false, State.meet_ok, State.wroteGranule_eq_movedOn]

end

/-! ### GATH and SCAT (R286) -/

section
variable {gather : Bool} {b : RowsBody} {s t u : State} {q : Nat} {c : CurrentEntry} {bs : List (Byte × Bool)}

theorem rowsGo_over (h : b.nidx.toNat * b.rsz.toNat ≤ c.progress) : rowsGo gather b s q c = s.finishEntry q c.moved := by
  simp only [rowsGo, h, if_true, doneStatus_eq_moved]

/-- Where the row that an entry has come to begins, on the side that the list names. -/
def rowListed (b : RowsBody) (c : CurrentEntry) : Nat := c.latch.getD (c.progress / b.rsz.toNat) 0 * b.rstr.toNat

/-- Where it begins on the dense side. -/
def rowPacked (b : RowsBody) (c : CurrentEntry) : Nat := c.progress / b.rsz.toNat * b.rsz.toNat

/-- One granule of a row, between the two addresses of the byte that the entry has come to. -/
theorem rowsGo_granule {src dst : Nat} (hlt : c.progress < b.nidx.toNat * b.rsz.toNat)
    (hsrc : src = b.src.toNat + ((if gather then rowListed b c else rowPacked b c) + c.progress % b.rsz.toNat))
    (hdst : dst = b.dst.toNat + ((if gather then rowPacked b c else rowListed b c) + c.progress % b.rsz.toNat))
    (hr : s.readRange (s.queue q).ctx src (chunkAt (dst - c.progress % b.rsz.toNat) (c.progress % b.rsz.toNat) b.rsz.toNat) = .ok (t, bs))
    (hw : t.writeTagged (s.queue q).ctx dst bs = .ok u) :
    rowsGo gather b s q c =
      u.movedOn q (chunkAt (dst - c.progress % b.rsz.toNat) (c.progress % b.rsz.toNat) b.rsz.toNat) (bs.any (fun y => y.2)) := by
  subst hsrc hdst
  rw [← Nat.add_assoc, ← Nat.add_assoc, Nat.add_sub_cancel] at hr
  rw [← Nat.add_assoc] at hw
  rw [← Nat.add_assoc, Nat.add_sub_cancel]
  simp only [rowListed, rowPacked] at hr hw ⊢
  simp only [rowsGo, Nat.not_le.mpr hlt, hr, hw, if_false, State.meet_ok, State.wroteGranule_eq_movedOn]

end

/-! ### COPYT and PERM (R282 to R285) -/

/-- The elements that one access of the destination `y` takes from the source, in the destination's order. -/
def accessSources (pcode unit y progress : Nat) : List (Option (Nat × Nat × Nat)) :=
  let lo := progress % runAccesses y unit * (8 * unit)
  (List.range (min (8 * unit) ((writeRuns y).2 - lo) / elemWidth (tdFmt y))).map (fun i =>
    (runElem y (progress / runAccesses y unit) (lo + i * elemWidth (tdFmt y))).map (fun p => permSource pcode p.1 p.2.1 p.2.2))

/-- Where that access begins. -/
def accessAddr (unit y progress : Nat) : Nat :=
  tdBase y + runStart y (progress / runAccesses y unit) / 8 + progress % runAccesses y unit * (8 * unit) / 8

/-- The block of the destination `y` whose scale word is number `i`, in the source. -/
def scaleSource (pcode y i : Nat) : Nat × Nat × Nat :=
  permSource pcode (i / cdiv (tdExt0 y) 32 / cdiv (tdExt1 y) 32) (32 * (i / cdiv (tdExt0 y) 32 % cdiv (tdExt1 y) 32))
    (32 * (i % cdiv (tdExt0 y) 32))

/-- Scale words that a copy writes into a tensor. -/
def scaleWords (y : Nat) : Nat := if hasScale y = true then scaleBytes y / 2 else 0

/-- A scale word is copied only into a tensor that has a scale plane. -/
theorem scaleDue_iff {n k y : Nat} (hge : n ≤ k) :
    (hasScale y && decide (k < n + scaleBytes y / 2)) = true ↔ k < n + scaleWords y := by
  unfold scaleWords
  cases hasScale y
  · simp [hge]
  · simp

section
variable {pcode unit x y : Nat} {s t u : State} {q : Nat} {c : CurrentEntry} (hx : c.latch.getD 0 0 = x) (hy : c.latch.getD 1 0 = y)

include hx hy in
/-- One access of the destination's elements. -/
theorem tensorGo_elements {xs : List (Nat × Bool)} (hlt : c.progress < elementAccesses y unit)
    (hr : s.atLength (readElems (s.queue q).ctx x (accessSources pcode unit y c.progress)) = .ok (t, xs))
    (hw : t.writeElements (s.queue q).ctx (accessAddr unit y c.progress) (elemWidth (tdFmt y)) xs = .ok u) :
    tensorGo pcode unit s q c = u.movedOn q 1 (xs.any (fun z => z.2)) := by
  simp only [accessSources] at hr
  simp only [accessAddr] at hw
  simp only [tensorGo, hx, hy, elementsGo, hlt, hr, hw, if_true, State.meet_ok, State.wroteGranule_eq_movedOn]

include hx hy in
/-- One scale word, of number `i`. -/
theorem tensorGo_scale {i : Nat} {bs : List Byte} {p : Bool} (hi : c.progress - elementAccesses y unit = i)
    (hge : elementAccesses y unit ≤ c.progress) (hlt : c.progress < elementAccesses y unit + scaleWords y)
    (hr : s.engineRead (s.queue q).ctx
      (scaleAddr x (scaleSource pcode y i).1 (scaleSource pcode y i).2.1 (scaleSource pcode y i).2.2) 2 = .ok (t, bs, p))
    (hw : t.engineWrite (s.queue q).ctx (tdScb y + 2 * i) bs p = .ok u) : tensorGo pcode unit s q c = u.movedOn q 1 p := by
  simp only [scaleSource] at hr
  simp only [tensorGo, hx, hy, Nat.not_lt.mpr hge, (scaleDue_iff hge).mpr hlt, hi, scaleGo, hr, hw, if_true, if_false, State.meet_ok,
    State.wroteGranule_eq_movedOn]

include hy in
theorem tensorGo_over (hge : elementAccesses y unit + scaleWords y ≤ c.progress) :
    tensorGo pcode unit s q c = s.finishEntry q c.moved := by
  have hn : elementAccesses y unit ≤ c.progress := by omega
  have hs : (hasScale y && decide (c.progress < elementAccesses y unit + scaleBytes y / 2)) = false :=
    Bool.eq_false_iff.mpr (mt (scaleDue_iff hn).mp (Nat.not_lt.mpr hge))
  simp only [tensorGo, hy, Nat.not_lt.mpr hn, hs, Bool.false_eq_true, if_false, doneStatus_eq_moved]

include hx hy in
theorem copytGo_apart (h : inPlace x y = false) : copytGo s q c = tensorGo 0 64 s q c := by
  simp only [copytGo, hx, hy, h, Bool.false_eq_true, if_false]

include hx hy in
theorem copytGo_inPlace (h : inPlace x y = true) : copytGo s q c = exchangeGo (rowReading x y) s q c := by
  simp only [copytGo, hx, hy, h, if_true]

/-- A block and its mirror block are exchanged: 4w granules, and 2w cycles. -/
theorem exchangeGo_pair {e i j : Nat} {p : Bool} (hp : (mirrorPairs (tdExt0 e / 32))[c.progress]? = some (i, j))
    (he : s.atLength (fun v => v.exchangeBlocks (s.queue q).ctx e i j) = .ok (u, p)) :
    exchangeGo e s q c = ((u.movedOn q 1 p).countGranules q (4 * elemWidth (tdFmt e) - 1)).modEntry q
      (fun x => { x with busyUntil := s.cycle + 2 * elemWidth (tdFmt e) }) := by
  simp only [exchangeGo, hp, he, State.meet_ok, State.wroteGranule_eq_movedOn]

theorem exchangeGo_over {e : Nat} (hp : (mirrorPairs (tdExt0 e / 32))[c.progress]? = none) :
    exchangeGo e s q c = s.finishEntry q c.moved := by
  simp only [exchangeGo, hp, doneStatus_eq_moved]

end

/-! ### O52 -/

/-- Settles O52: every command runs as its engine's turn (`runs_of`), and each clause is one case of its access. -/
theorem copiesMoveData : Obligations.CopiesMoveData := by
  unfold Obligations.CopiesMoveData
  refine ⟨?copy, ?copyAhead, ?copyBuffered, ?copyEnds, ?fill, ?fillEnds, ?gath, ?scat, ?gathEnds, ?scatEnds,
    ⟨?copytElements, ?copytScale, ?copytEnds⟩, ⟨?permElements, ?permScale, ?permEnds⟩, ?exchange, ?exchangeEnds⟩
  case copy =>
    exact fun b t u bs => runs_of (fun _ _ => rfl) fun s q c _ ⟨hlt, ha, hb, hr, hw⟩ =>
      copyGo_granule hlt (by rw [ha, Bool.false_and]) ((State.copyBytes_unbuffered hb).trans hr) hw
  case copyAhead =>
    exact fun b t bs => runs_of (fun _ _ => rfl) fun s q c _ ⟨hlt, ha, hb, hr⟩ => copyGo_takesSource hlt ha hb hr
  case copyBuffered =>
    exact fun b u => runs_of (fun _ _ => rfl) fun s q c _ ⟨hlt, hb, hw⟩ =>
      copyGo_granule hlt (by rw [List.isEmpty_eq_false_iff.mpr hb, Bool.and_false]) (State.copyBytes_buffered hb) hw
  case copyEnds => exact fun b => runs_of (fun _ _ => rfl) fun s q c _ h => copyGo_over h
  case fill => exact fun b u => runs_of (fun _ _ => rfl) fun s q c _ ⟨hlt, hw⟩ => fillGo_granule hlt hw
  case fillEnds => exact fun b => runs_of (fun _ _ => rfl) fun s q c _ h => fillGo_over h
  case gath | scat =>
    exact fun b t u bs => runs_of (fun _ _ => rfl) fun s q c _ ⟨hlt, hr, hw⟩ => rowsGo_granule hlt rfl rfl hr hw
  case gathEnds | scatEnds => exact fun b => runs_of (fun _ _ => rfl) fun s q c _ h => rowsGo_over h
  case copytElements =>
    exact fun b t u xs => runs_of (fun _ _ => rfl) fun s q c _ ⟨hp, hlt, hr, hw⟩ =>
      (copytGo_apart rfl rfl hp).trans (tensorGo_elements rfl rfl hlt hr hw)
  case copytScale =>
    exact fun b t u bs p => runs_of (fun _ _ => rfl) fun s q c _ ⟨hp, hge, hlt, hr, hw⟩ =>
      (copytGo_apart rfl rfl hp).trans (tensorGo_scale rfl rfl rfl hge hlt hr hw)
  case copytEnds =>
    exact fun b => runs_of (fun _ _ => rfl) fun s q c _ ⟨hp, hge⟩ => (copytGo_apart rfl rfl hp).trans (tensorGo_over rfl hge)
  case permElements =>
    exact fun b t u xs => runs_of (fun _ _ => rfl) fun s q c _ ⟨_, hlt, hr, hw⟩ => tensorGo_elements rfl rfl hlt hr hw
  case permScale =>
    exact fun b t u bs p => runs_of (fun _ _ => rfl) fun s q c _ ⟨_, hge, hlt, hr, hw⟩ => tensorGo_scale rfl rfl rfl hge hlt hr hw
  case permEnds => exact fun b => runs_of (fun _ _ => rfl) fun s q c _ ⟨_, hge⟩ => tensorGo_over rfl hge
  case exchange =>
    exact fun b i j u p => runs_of (fun _ _ => rfl) fun s q c _ ⟨hp, hij, hx⟩ => (copytGo_inPlace rfl rfl hp).trans (exchangeGo_pair hij hx)
  case exchangeEnds =>
    exact fun b => runs_of (fun _ _ => rfl) fun s q c _ ⟨hp, hij⟩ => (copytGo_inPlace rfl rfl hp).trans (exchangeGo_over hij)

end Sys2Proof.Machine
end

section
/-! SUPPORT. O56: QFENCE, WDRAW, SIGNAL and WAITV (R287 to R292). -/

namespace Sys2Proof.Machine

/-! ### QFENCE (R287) -/

theorem State.namesDone_iff {s : State} {names : List (Nat × Nat)} : s.namesDone names = true ↔ ∀ x ∈ names, x.2 < (s.queue x.1).done := by
  simp only [State.namesDone, List.all_eq_true, decide_eq_true_eq]

theorem qfenceGo_done {s : State} {q : Nat} {c : CurrentEntry} (h : ∀ x ∈ c.names, x.2 < (s.queue x.1).done) :
    qfenceGo s q c = (s.workEntry q).finishEntry q 0x00 := if_pos (State.namesDone_iff.mpr h)

/-! ### SIGNAL (R290) -/

section
variable {b : SignalBody} {s t u : State} {q : Nat} {c : CurrentEntry}

theorem signalGo_over (h : c.progress ≠ 0) : signalGo b s q c = s.finishEntry q c.moved := if_pos h

/-- SIGNAL with OP 0 writes its word. -/
theorem signalGo_writes (h : c.progress = 0) (ho : b.op = 0)
    (hw : s.engineWrite (s.queue q).ctx b.va.toNat (leBytes 8 b.val.toNat) false = .ok u) : signalGo b s q c = u.movedOn q 1 false := by
  simp only [signalGo, h, ho, hw, ne_eq, not_true_eq_false, if_false, if_true, State.meet_ok, State.wroteGranule_eq_movedOn]

/-- SIGNAL with OP 1 adds to its word. -/
theorem signalGo_adds {bs : List Byte} {p : Bool} (h : c.progress = 0) (ho : b.op ≠ 0)
    (hr : s.engineRead (s.queue q).ctx b.va.toNat 8 = .ok (t, bs, p))
    (hw : t.engineWrite (s.queue q).ctx b.va.toNat (leBytes 8 ((leNat bs + b.val.toNat) % 2 ^ 64)) p = .ok u) :
    signalGo b s q c = u.movedOn q 1 p := by
  simp only [signalGo, h, ho, hr, hw, ne_eq, not_true_eq_false, if_false, State.meet_ok, State.wroteGranule_eq_movedOn]

end

/-! ### WAITV (R291, R292) -/

section
variable {b : WaitBody} {s t : State} {q : Nat} {c : CurrentEntry} {bs : List Byte} {p : Bool}

/-- The cycles that a WAITV may take are not over: it has no limit, or stands within it. -/
theorem waitvOver_eq_false_iff {now : Nat} : waitvOver b c now = false ↔ b.tmo.toNat = 0 ∨ now ≤ c.started + b.tmo.toNat := by
  simp only [waitvOver, Bool.and_eq_false_iff, bne_eq_false_iff_eq, decide_eq_false_iff_not, Nat.not_lt]

theorem waitvMet_iff {w : Nat} : waitvMet b w = true ↔
    match b.cmp.toNat with
    | 0 => b.val.toNat ≤ w
    | 1 => w = b.val.toNat
    | _ => w ≠ b.val.toNat := by
  unfold waitvMet
  generalize b.cmp.toNat = k
  rcases k with _ | _ | k <;> simp

/-- A WAITV that is late ends with TIMEOUT. -/
theorem State.waitvRead_late (h : ¬ (b.tmo.toNat = 0 ∨ s.cycle ≤ c.started + b.tmo.toNat)) :
    s.waitvRead q b c = (s.workEntry q).finishEntry q 0x0A :=
  if_pos ((Bool.not_eq_false _).mp (mt waitvOver_eq_false_iff.mp h))

/-- What a WAITV that has read its word comes to. -/
theorem State.waitvRead_read (h : b.tmo.toNat = 0 ∨ s.cycle ≤ c.started + b.tmo.toNat)
    (hr : s.engineRead (s.queue q).ctx b.va.toNat 8 = .ok (t, bs, p)) :
    s.waitvRead q b c =
      if c.poison then (t.workEntry q).finishEntry q 0x09
      else if waitvMet b (leNat bs) then (t.workEntry q).finishEntry q 0x00
      else (t.modEntry q (fun c => { c with lastRead := s.cycle })).waitEntry q := by
  simp only [State.waitvRead, waitvOver_eq_false_iff.mpr h, hr, Bool.false_eq_true, if_false, State.meet_ok]
  rfl

theorem State.waitvRead_poisoned (h : b.tmo.toNat = 0 ∨ s.cycle ≤ c.started + b.tmo.toNat)
    (hr : s.engineRead (s.queue q).ctx b.va.toNat 8 = .ok (t, bs, p)) (hp : c.poison = true) :
    s.waitvRead q b c = (t.workEntry q).finishEntry q 0x09 := (State.waitvRead_read h hr).trans (if_pos hp)

theorem State.waitvRead_met (h : b.tmo.toNat = 0 ∨ s.cycle ≤ c.started + b.tmo.toNat)
    (hr : s.engineRead (s.queue q).ctx b.va.toNat 8 = .ok (t, bs, p)) (hp : c.poison = false) (hm : waitvMet b (leNat bs) = true) :
    s.waitvRead q b c = (t.workEntry q).finishEntry q 0x00 :=
  (State.waitvRead_read h hr).trans ((if_neg (Bool.eq_false_iff.mp hp)).trans (if_pos hm))

theorem State.waitvRead_unmet (h : b.tmo.toNat = 0 ∨ s.cycle ≤ c.started + b.tmo.toNat)
    (hr : s.engineRead (s.queue q).ctx b.va.toNat 8 = .ok (t, bs, p)) (hp : c.poison = false) (hm : ¬ waitvMet b (leNat bs) = true) :
    s.waitvRead q b c = (t.modEntry q (fun c => { c with lastRead := s.cycle })).waitEntry q :=
  (State.waitvRead_read h hr).trans ((if_neg (Bool.eq_false_iff.mp hp)).trans (if_neg hm))

theorem waitvGo_running (h : (s.queue q).st = .running) : waitvGo b s q c = s.waitvRead q b c := if_pos (beq_iff_eq.mpr h)

theorem exec_waitvRecheck (hc : s.cur = .queue q) (h : (s.queue q).waitv = some (c, b) ∧ (s.queue q).st = .waiting ∧
    (s.queue q).withheld = none ∧ c.lastRead < s.cycle ∧ c.busyUntil ≤ s.cycle) : exec .waitvRecheck s = .next (s.waitvRead q b c) := by
  obtain ⟨hw, hdue⟩ := h
  show execWaitvRecheck s = _
  simp only [execWaitvRecheck, hc, hw]
  exact congrArg _ (if_pos hdue)

theorem exec_waitvTimeout (hc : s.cur = .queue q) (hw : (s.queue q).waitv = some (c, b))
    (hdue : b.tmo.toNat ≠ 0 ∧ c.started + b.tmo.toNat ≤ s.cycle) :
    exec .waitvTimeout s = .next (((s.modQueue q (fun u => { u with withheld := none })).workEntry q).finishEntry q 0x0A) := by
  show execWaitvTimeout s = _
  simp only [execWaitvTimeout, hc, hw]
  exact congrArg _ (if_pos hdue)

end

/-! ### O56 -/

/-- Settles O56: the commands run as their engine's turn, and both the turn of a WAITV and its recheck come to `State.waitvRead`. -/
theorem generalCommandsAct : Obligations.GeneralCommandsAct := by
  unfold Obligations.GeneralCommandsAct
  refine ⟨?fence, ?withdraw, ?signalWrites, ?signalAdds, ?signalEnds, ?wait, ?waitLate, ?recheck, ?recheckLate, ?timeout⟩
  case fence => exact fun b => runs_of (fun _ _ => rfl) fun s q c _ h => qfenceGo_done h
  case withdraw => exact fun b => runs_of (fun _ _ => rfl) fun s q c _ _ => rfl
  case signalWrites => exact fun b u => runs_of (fun _ _ => rfl) fun s q c _ ⟨h, ho, hw⟩ => signalGo_writes h ho hw
  case signalAdds => exact fun b t u bs p => runs_of (fun _ _ => rfl) fun s q c _ ⟨h, ho, hr, hw⟩ => signalGo_adds h ho hr hw
  case signalEnds => exact fun b => runs_of (fun _ _ => rfl) fun s q c _ h => signalGo_over h
  case wait =>
    refine fun b t bs p => ⟨?met, ?unmet, ?poisoned⟩
    case met =>
      exact runs_of (fun _ _ => rfl) fun s q c _ ⟨hst, ⟨hin, hr⟩, hp, hm⟩ =>
        (waitvGo_running hst).trans (State.waitvRead_met hin hr hp (waitvMet_iff.mpr hm))
    case unmet =>
      exact runs_of (fun _ _ => rfl) fun s q c _ ⟨hst, ⟨hin, hr⟩, hp, hm⟩ =>
        (waitvGo_running hst).trans (State.waitvRead_unmet hin hr hp (mt waitvMet_iff.mp hm))
    case poisoned =>
      exact runs_of (fun _ _ => rfl) fun s q c _ ⟨hst, ⟨hin, hr⟩, hp⟩ => (waitvGo_running hst).trans (State.waitvRead_poisoned hin hr hp)
  case waitLate =>
    exact fun b => runs_of (fun _ _ => rfl) fun s q c _ ⟨hst, hlate⟩ => (waitvGo_running hst).trans (State.waitvRead_late hlate)
  case recheck =>
    refine fun q c b t bs p => ⟨?met, ?unmet, ?poisoned⟩
    case met =>
      exact fun s hc ⟨hre, ⟨hin, hr⟩, hp, hm⟩ =>
        (exec_waitvRecheck hc hre).trans (congrArg _ (State.waitvRead_met hin hr hp (waitvMet_iff.mpr hm)))
    case unmet =>
      exact fun s hc ⟨hre, ⟨hin, hr⟩, hp, hm⟩ =>
        (exec_waitvRecheck hc hre).trans (congrArg _ (State.waitvRead_unmet hin hr hp (mt waitvMet_iff.mp hm)))
    case poisoned =>
      exact fun s hc ⟨hre, ⟨hin, hr⟩, hp⟩ => (exec_waitvRecheck hc hre).trans (congrArg _ (State.waitvRead_poisoned hin hr hp))
  case recheckLate =>
    exact fun q c b s hc ⟨hre, hlate⟩ => (exec_waitvRecheck hc hre).trans (congrArg _ (State.waitvRead_late hlate))
  case timeout => exact fun q c b s hc ⟨hw, hdue⟩ => exec_waitvTimeout hc hw hdue

end Sys2Proof.Machine
end

section
/-! SUPPORT. O53: COPYR, KVPATCH and COMPACT (R297 to R302). -/

namespace Sys2Proof.Machine

/-! ### The rewrite of a slot (R297) -/

section
variable {s t u : State} {q : Nat} {c : CurrentEntry} {sd p cost : Nat} {hasVal : Bool} {done : State → State}

/-- The bytes of a row's next granule, in the buffer. -/
def CurrentEntry.rowPart (c : CurrentEntry) (va n skip : Nat) : List (Byte × Bool) :=
  (c.buffer.drop (skip + c.off)).take (chunkAt va c.off n)

/-- A granule of a row has been written: at the row's end the entry goes on to `next`. -/
def State.rowWritten (u : State) (q : Nat) (c : CurrentEntry) (va n skip cost next : Nat) : State :=
  let v := (u.countGranules q 1).modEntry q (fun x =>
    { x with busyUntil := (u.countGranules q 1).cycle + cost, poison := x.poison || (c.rowPart va n skip).any (fun y => y.2) })
  if c.off + chunkAt va c.off n = n then v.stepEntry q next 0 else v.stepEntry q c.progress (c.off + chunkAt va c.off n)

theorem State.rowGranule_written {va n skip next : Nat}
    (hw : s.writeTagged (s.queue q).ctx (va + c.off) (c.rowPart va n skip) = .ok u) :
    s.rowGranule q c va n skip cost next = u.rowWritten q c va n skip cost next := by
  simp only [CurrentEntry.rowPart] at hw
  simp only [State.rowGranule, hw, State.meet_ok]
  rfl

/-- The second write of a rewrite, of the key row. -/
theorem State.rewriteGo_key (h : c.progress % 5 = 1)
    (hw : s.writeTagged (s.queue q).ctx (sdKb sd + sdSlot sd p * sdRsz sd + c.off)
      (c.rowPart (sdKb sd + sdSlot sd p * sdRsz sd) (sdRsz sd) 0) = .ok u) :
    s.rewriteGo q c sd p hasVal cost done =
      u.rowWritten q c (sdKb sd + sdSlot sd p * sdRsz sd) (sdRsz sd) 0 cost (c.progress / 5 * 5 + (if hasVal then 2 else 3)) := by
  simp only [State.rewriteGo, h]
  exact State.rowGranule_written hw

/-- The third, of the value row. -/
theorem State.rewriteGo_value (h : c.progress % 5 = 2)
    (hw : s.writeTagged (s.queue q).ctx (sdVb sd + sdSlot sd p * sdRsz sd + c.off)
      (c.rowPart (sdVb sd + sdSlot sd p * sdRsz sd) (sdRsz sd) (sdRsz sd)) = .ok u) :
    s.rewriteGo q c sd p hasVal cost done =
      u.rowWritten q c (sdVb sd + sdSlot sd p * sdRsz sd) (sdRsz sd) (sdRsz sd) 0 (c.progress / 5 * 5 + 3) := by
  simp only [State.rewriteGo, h]
  exact State.rowGranule_written hw

/-- The fourth, of the retention byte. -/
theorem State.rewriteGo_retention (h : c.progress % 5 = 3)
    (hw : s.writeTagged (s.queue q).ctx (sdRta sd + sdSlot sd p) (c.buffer.drop (c.buffer.length - 1)) = .ok u) :
    s.rewriteGo q c sd p hasVal cost done =
      (u.modEntry q (fun x => { x with poison := x.poison || (c.buffer.drop (c.buffer.length - 1)).any (fun y => y.2) })).stepEntry q
        (c.progress / 5 * 5 + 4) 0 := by
  simp only [State.rewriteGo, h, hw, State.meet_ok]

/-- The last, of the tag with V = 1. -/
theorem State.rewriteGo_closes (h : c.progress % 5 = 4)
    (hw : s.closeSlot (s.queue q).ctx sd (sdSlot sd p) (sdGen sd p) = .ok u) :
    s.rewriteGo q c sd p hasVal cost done = done ((u.modEntry q (fun x => { x with slot := none })).stepEntry q (c.progress / 5 * 5 + 5) 0) := by
  simp only [State.rewriteGo, h, hw, State.meet_ok]

/-- The first write of a rewrite, of the tag with V = 0. -/
theorem State.beginRewrite_opened {buf : List (Byte × Bool)} (hw : t.openSlot (t.queue q).ctx sd (sdSlot sd p) = .ok u) :
    t.beginRewrite q c sd p buf =
      (u.modEntry q (fun x => { x with buffer := buf, slot := some (sdTagAddr sd (sdSlot sd p)) })).stepEntry q (c.progress + 1) 0 := by
  simp only [State.beginRewrite, hw, State.meet_ok]

end

/-! ### COPYR (R300) -/

section
variable {b : CopyrBody} {s t : State} {q sd : Nat} {c : CurrentEntry} (hsd : c.latch.getD 0 0 = sd)

theorem copyrGo_over (h : b.nrow.toNat ≤ c.progress / 5) : copyrGo b s q c = s.finishEntry q c.moved := if_pos h

include hsd in
/-- A position begins with what is read for its slot. -/
theorem copyrGo_begins {buf : List (Byte × Bool)} (h0 : c.progress % 5 = 0) (hlt : c.progress / 5 < b.nrow.toNat)
    (hf : s.slotTaken q (sdTagAddr sd (sdSlot sd (b.dpos.toNat + c.progress / 5))) = false)
    (hr : s.atLength (fun v => v.copyrRows (v.queue q).ctx sd b (c.progress / 5)) = .ok (t, buf)) :
    copyrGo b s q c = t.beginRewrite q c sd (b.dpos.toNat + c.progress / 5) buf := by
  subst hsd
  simp only [copyrGo, Nat.not_le.mpr hlt, h0, hf, hr, Bool.false_eq_true, if_false, if_true, State.meet_ok]

include hsd in
theorem copyrGo_rewrites {k : Nat} (h : c.progress % 5 = k) (hk : k ≠ 0) (hlt : c.progress / 5 < b.nrow.toNat) :
    copyrGo b s q c = s.rewriteGo q c sd (b.dpos.toNat + c.progress / 5) (b.srcv != 0) 1 (fun s => s) := by
  subst hsd
  simp only [copyrGo, Nat.not_le.mpr hlt, h, hk, if_false]

end

/-! ### KVPATCH (R301) -/

section
variable {b : PatchBody} {s t u : State} {q sd : Nat} {c : CurrentEntry} (hsd : c.latch.getD 0 0 = sd)

/-- The position that a KVPATCH has come to, and where it moves it. -/
def patchFrom (b : PatchBody) (c : CurrentEntry) : Nat := patchOrder b (c.progress / 5)
def patchTo (b : PatchBody) (c : CurrentEntry) : Nat := (patchFrom b c + patchShift b : Int).toNat

include hsd in
/-- Neither slot of a move is taken by another queue's rewrite. -/
theorem patchGo_begins (h0 : c.progress % 5 = 0) (hlt : c.progress / 5 < patchCount b)
    (hf : s.slotTaken q (sdTagAddr sd (sdSlot sd (patchFrom b c))) = false)
    (hg : s.slotTaken q (sdTagAddr sd (sdSlot sd (patchTo b c))) = false) :
    patchGo b s q c = patchSource b s q c sd (patchFrom b c) := by
  subst hsd
  simp only [patchFrom] at hf
  simp only [patchTo, patchFrom] at hg
  simp only [patchGo, hlt, h0, hf, hg, Bool.or_self, Bool.false_eq_true, if_false, if_true]
  rfl

/-- A stale slot is counted and passed. -/
theorem patchSource_stale {sd p : Nat} {bs : List Byte} {z : Bool}
    (hr : s.engineRead (s.queue q).ctx (sdTagAddr sd (sdSlot sd p)) 4 = .ok (t, bs, z)) (hh : tagHolds sd p (leNat bs) = false) :
    patchSource b s q c sd p = (t.modEntry q (fun x => { x with r1 := x.r1 + 1 })).stepEntry q (c.progress + 5) 0 := by
  simp only [patchSource, hr, hh, Bool.not_false, if_true, State.meet_ok]

/-- A slot that holds its position is read, and its rewrite begins. -/
theorem patchSource_holds {sd p : Nat} {bs : List Byte} {z : Bool} {buf : List (Byte × Bool)}
    (hr : s.engineRead (s.queue q).ctx (sdTagAddr sd (sdSlot sd p)) 4 = .ok (t, bs, z)) (hh : tagHolds sd p (leNat bs) = true)
    (hrows : t.atLength (fun w => w.slotRows (s.queue q).ctx sd (sdSlot sd p) (if b.rot = 1 then some (patchShift b) else none)) =
      .ok (u, buf)) :
    patchSource b s q c sd p = u.beginRewrite q c sd (p + patchShift b : Int).toNat buf := by
  simp only [patchSource, hr, hh, hrows, Bool.not_true, Bool.false_eq_true, if_false, State.meet_ok]

include hsd in
theorem patchGo_rewrites {k : Nat} (h : c.progress % 5 = k) (hk : k ≠ 0) (hlt : c.progress / 5 < patchCount b) :
    patchGo b s q c = s.rewriteGo q c sd (patchTo b c) true b.rot.toNat
      (fun s => s.modEntry q (fun x => { x with r0 := x.r0 + 1 })) := by
  subst hsd
  simp only [patchGo, hlt, h, hk, if_true, if_false]
  rfl

include hsd in
/-- After the positions, the tags of the vacated slots are cleared. -/
theorem patchGo_vacates (hge : patchCount b ≤ c.progress / 5) (hlt : c.progress - 5 * patchCount b < (patchShift b).natAbs)
    (hf : s.slotTaken q (sdTagAddr sd (sdSlot sd (patchVacated b (c.progress - 5 * patchCount b)))) = false)
    (hw : s.retag (s.queue q).ctx (sdTagAddr sd (sdSlot sd (patchVacated b (c.progress - 5 * patchCount b))))
      (fun w => tagWord false (bits w 30 16 + 1) 0) = .ok u) : patchGo b s q c = u.stepEntry q (c.progress + 1) 0 := by
  subst hsd
  simp only [patchGo, Nat.not_lt.mpr hge, hlt, hf, hw, Bool.false_eq_true, if_false, if_true, State.meet_ok]

/-- KVSTALE stands before POISON. -/
theorem patchGo_over (hge : patchCount b ≤ c.progress / 5) (hv : (patchShift b).natAbs ≤ c.progress - 5 * patchCount b) :
    patchGo b s q c = s.finishEntry q (if c.r1 = 0 then c.moved else 0x11) := by
  simp only [patchGo, Nat.not_lt.mpr hge, Nat.not_lt.mpr hv, if_false]
  rfl

end

/-! ### COMPACT (R302) -/

section
variable {b : CompactBody} {s t u : State} {q sd : Nat} {c : CurrentEntry} (hsd : c.latch.getD 0 0 = sd)

include hsd in
theorem compactGo_over (h : compactWalked b sd ≤ c.progress / 5) : compactGo b s q c = s.finishEntry q c.moved := by
  subst hsd
  exact if_pos h

/-- A slot that holds its position is read at once. -/
theorem compactScan_holds {sd thr fuel i : Nat} {bs : List Byte} {z : Bool} {buf : List (Byte × Bool)} (hlt : i < compactWalked b sd)
    (hr : (s.stepEntry q (5 * i) 0).engineRead (s.queue q).ctx (sdTagAddr sd (sdSlot sd (compactPosition b sd i))) 4 = .ok (t, bs, z))
    (hh : tagHolds sd (compactPosition b sd i) (leNat bs) = true)
    (hrows : t.atLength (fun w => w.slotRows (s.queue q).ctx sd (sdSlot sd (compactPosition b sd i)) none) = .ok (u, buf)) :
    compactScan b sd thr q (fuel + 1) s i =
      (u.modEntry q (fun x => { x with buffer := buf, lastRead := leNat bs })).stepEntry q (5 * i + 1) 0 := by
  rw [compactScan]
  simp only [Nat.not_le.mpr hlt, hr, hh, hrows, Bool.not_true, Bool.false_eq_true, if_false, State.meet_ok]

/-- What the second read of a tag comes to. -/
theorem compactAgain_read {sd thr p i : Nat} {bs : List Byte} {z : Bool}
    (hr : s.engineRead (s.queue q).ctx (sdTagAddr sd (sdSlot sd p)) 4 = .ok (t, bs, z)) :
    compactAgain s q c sd thr p i =
      if leNat bs ≠ c.lastRead then t.stepEntry q (5 * i) 0
      else if keeps sd thr p c.buffer then t.stepEntry q (5 * i + 2) 0
      else t.stepEntry q (5 * (i + 1)) 0 := by
  simp only [compactAgain, hr, State.meet_ok]

theorem keeps_iff {sd thr p : Nat} {buf : List (Byte × Bool)} :
    keeps sd thr p buf = true ↔ p < sdSink sd ∨ thr ≤ leNat ((buf.drop (buf.length - 1)).map (fun x => x.1)) := by
  simp only [keeps, Bool.or_eq_true, decide_eq_true_eq]

include hsd in
/-- The access that a position has come to. -/
theorem compactGo_scans (h : c.progress % 5 = 0) (hlt : c.progress / 5 < compactWalked b sd) :
    compactGo b s q c = compactScan b sd (c.latch.getD 1 0) q 16 s (c.progress / 5) := by
  subst hsd
  simp only [compactGo, Nat.not_le.mpr hlt, h, if_false]

include hsd in
theorem compactGo_again (h : c.progress % 5 = 1) (hlt : c.progress / 5 < compactWalked b sd) :
    compactGo b s q c = compactAgain s q c sd (c.latch.getD 1 0) (compactPosition b sd (c.progress / 5)) (c.progress / 5) := by
  subst hsd
  simp only [compactGo, Nat.not_le.mpr hlt, h, if_false]

/-- Where the kept row of a COMPACT goes in an output. -/
def CurrentEntry.keptAt (c : CurrentEntry) (base : BitVec 64) : Nat := base.toNat + c.r0 * sdRsz (c.latch.getD 0 0)

include hsd in
theorem compactGo_key (h : c.progress % 5 = 2) (hlt : c.progress / 5 < compactWalked b sd)
    (hw : s.writeTagged (s.queue q).ctx (c.keptAt b.outk + c.off) (c.rowPart (c.keptAt b.outk) (sdRsz sd) 0) = .ok u) :
    compactGo b s q c = u.rowWritten q c (c.keptAt b.outk) (sdRsz sd) 0 0 (5 * (c.progress / 5) + (if b.outv = 0 then 4 else 3)) := by
  subst hsd
  simp only [compactGo, Nat.not_le.mpr hlt, h, if_false]
  exact State.rowGranule_written hw

include hsd in
theorem compactGo_value (h : c.progress % 5 = 3) (hlt : c.progress / 5 < compactWalked b sd)
    (hw : s.writeTagged (s.queue q).ctx (c.keptAt b.outv + c.off) (c.rowPart (c.keptAt b.outv) (sdRsz sd) (sdRsz sd)) = .ok u) :
    compactGo b s q c = u.rowWritten q c (c.keptAt b.outv) (sdRsz sd) (sdRsz sd) 0 (5 * (c.progress / 5) + 4) := by
  subst hsd
  simp only [compactGo, Nat.not_le.mpr hlt, h, if_false]
  exact State.rowGranule_written hw

include hsd in
/-- The position of a kept row is written where the entry asks for it, and the row is counted. -/
theorem compactGo_position (h : c.progress % 5 = 4) (hlt : c.progress / 5 < compactWalked b sd)
    (hw : (if b.outp = 0 then Met.ok s else s.engineWrite (s.queue q).ctx (b.outp.toNat + 4 * c.r0)
      (leBytes 4 (compactPosition b sd (c.progress / 5))) false) = .ok u) :
    compactGo b s q c = (u.modEntry q (fun x => { x with r0 := x.r0 + 1 })).stepEntry q (5 * (c.progress / 5 + 1)) 0 := by
  subst hsd
  simp only [compactGo, Nat.not_le.mpr hlt, h, hw, if_false, State.meet_ok]

end

/-! ### O53 -/

/-- Settles O53: COPYR and KVPATCH share the writes of a rewrite (`State.rewriteGo_key` and those after it), and COMPACT's accesses are
its own. -/
theorem sequencesAreRewritten : Obligations.SequencesAreRewritten := by
  unfold Obligations.SequencesAreRewritten
  refine ⟨?copyr, ⟨?copyrKey, ?copyrValue, ?copyrRetention, ?copyrCloses⟩, ?copyrEnds, ⟨?patchStale, ?patchBegins⟩,
    ⟨?patchKey, ?patchValue, ?patchRetention, ?patchCloses⟩, ?patchVacates, ?patchEnds,
    ?compactReads, ?compactChanged, ?compactKeeps, ?compactPasses, ?compactKey, ?compactValue, ?compactPosition, ?compactNoPosition,
    ?compactEnds⟩
  case copyr =>
    exact fun b t u buf => runs_of (fun _ _ => rfl) fun s q c _ ⟨h0, hlt, hf, hr, ho⟩ =>
      (copyrGo_begins rfl h0 hlt hf hr).trans (State.beginRewrite_opened ho)
  case copyrKey =>
    exact fun b u => runs_of (fun _ _ => rfl) fun s q c _ ⟨⟨h, hlt⟩, hw⟩ =>
      (copyrGo_rewrites rfl h (by decide) hlt).trans (State.rewriteGo_key h hw)
  case copyrValue =>
    exact fun b u => runs_of (fun _ _ => rfl) fun s q c _ ⟨⟨h, hlt⟩, hw⟩ =>
      (copyrGo_rewrites rfl h (by decide) hlt).trans (State.rewriteGo_value h hw)
  case copyrRetention =>
    exact fun b u => runs_of (fun _ _ => rfl) fun s q c _ ⟨⟨h, hlt⟩, hw⟩ =>
      (copyrGo_rewrites rfl h (by decide) hlt).trans (State.rewriteGo_retention h hw)
  case copyrCloses =>
    exact fun b u => runs_of (fun _ _ => rfl) fun s q c _ ⟨⟨h, hlt⟩, hw⟩ =>
      (copyrGo_rewrites rfl h (by decide) hlt).trans (State.rewriteGo_closes h hw)
  case copyrEnds => exact fun b => runs_of (fun _ _ => rfl) fun s q c _ h => copyrGo_over h
  case patchStale =>
    exact fun b t bs p => runs_of (fun _ _ => rfl) fun s q c _ ⟨⟨h0, hlt, hf, hg⟩, hr, hh⟩ =>
      (patchGo_begins rfl h0 hlt hf hg).trans (patchSource_stale hr hh)
  case patchBegins =>
    exact fun b t u v bs p buf => runs_of (fun _ _ => rfl) fun s q c _ ⟨⟨h0, hlt, hf, hg⟩, hr, hh, hrows, ho⟩ =>
      (patchGo_begins rfl h0 hlt hf hg).trans ((patchSource_holds hr hh hrows).trans (State.beginRewrite_opened ho))
  case patchKey =>
    exact fun b u => runs_of (fun _ _ => rfl) fun s q c _ ⟨⟨h, hlt⟩, hw⟩ =>
      (patchGo_rewrites rfl h (by decide) hlt).trans (State.rewriteGo_key h hw)
  case patchValue =>
    exact fun b u => runs_of (fun _ _ => rfl) fun s q c _ ⟨⟨h, hlt⟩, hw⟩ =>
      (patchGo_rewrites rfl h (by decide) hlt).trans (State.rewriteGo_value h hw)
  case patchRetention =>
    exact fun b u => runs_of (fun _ _ => rfl) fun s q c _ ⟨⟨h, hlt⟩, hw⟩ =>
      (patchGo_rewrites rfl h (by decide) hlt).trans (State.rewriteGo_retention h hw)
  case patchCloses =>
    exact fun b u => runs_of (fun _ _ => rfl) fun s q c _ ⟨⟨h, hlt⟩, hw⟩ =>
      (patchGo_rewrites rfl h (by decide) hlt).trans (State.rewriteGo_closes h hw)
  case patchVacates =>
    exact fun b u => runs_of (fun _ _ => rfl) fun s q c _ ⟨hge, hlt, hf, hw⟩ => patchGo_vacates rfl hge hlt hf hw
  case patchEnds => exact fun b => runs_of (fun _ _ => rfl) fun s q c _ ⟨hge, hv⟩ => patchGo_over hge hv
  case compactReads =>
    refine fun b t u bs z buf => runs_of (fun _ _ => rfl) fun s q c _ ⟨⟨h, hlt⟩, hr, hm, hh, hrows⟩ => ?_
    rw [hm] at hr
    exact (compactGo_scans rfl h hlt).trans (compactScan_holds hlt hr hh hrows)
  case compactChanged =>
    exact fun b t bs z => runs_of (fun _ _ => rfl) fun s q c _ ⟨⟨h, hlt⟩, hr, hne⟩ =>
      (compactGo_again rfl h hlt).trans ((compactAgain_read hr).trans (if_pos hne))
  case compactKeeps =>
    exact fun b t bs z => runs_of (fun _ _ => rfl) fun s q c _ ⟨⟨h, hlt⟩, hr, heq, hk⟩ =>
      (compactGo_again rfl h hlt).trans ((compactAgain_read hr).trans ((if_neg (not_not_intro heq)).trans (if_pos (keeps_iff.mpr hk))))
  case compactPasses =>
    exact fun b t bs z => runs_of (fun _ _ => rfl) fun s q c _ ⟨⟨h, hlt⟩, hr, heq, hs, hb⟩ =>
      (compactGo_again rfl h hlt).trans ((compactAgain_read hr).trans ((if_neg (not_not_intro heq)).trans
        (if_neg (mt keeps_iff.mp (not_or.mpr ⟨Nat.not_lt.mpr hs, Nat.not_le.mpr hb⟩)))))
  case compactKey => exact fun b u => runs_of (fun _ _ => rfl) fun s q c _ ⟨⟨h, hlt⟩, hw⟩ => compactGo_key rfl h hlt hw
  case compactValue => exact fun b u => runs_of (fun _ _ => rfl) fun s q c _ ⟨⟨h, hlt⟩, hw⟩ => compactGo_value rfl h hlt hw
  case compactPosition =>
    exact fun b u => runs_of (fun _ _ => rfl) fun s q c _ ⟨⟨h, hlt⟩, hp, hw⟩ => compactGo_position rfl h hlt ((if_neg hp).trans hw)
  case compactNoPosition =>
    exact fun b => runs_of (fun _ _ => rfl) fun s q c _ ⟨⟨h, hlt⟩, hp⟩ => compactGo_position rfl h hlt (if_pos hp)
  case compactEnds => exact fun b => runs_of (fun _ _ => rfl) fun s q c _ h => compactGo_over rfl h

end Sys2Proof.Machine
end

section
/-! SUPPORT. O54: PROMO, DEMO, forwards and XLINV (R325, R330 to R332). -/

namespace Sys2Proof.Machine

/-! ### The copy of one granule (R331) -/

/-- A range is poisoned where one of its bytes is. -/
theorem any_anyPoison_bytes (p : List Nat) (a n : Nat) : (List.range n).any (fun i => anyPoison p (a + i) 1) = anyPoison p a n := by
  rw [Bool.eq_iff_iff]
  simp only [anyPoison, List.any_eq_true, List.mem_range, Bool.and_eq_true, decide_eq_true_eq, bne_iff_ne]
  constructor
  · rintro ⟨i, hi, g, hg, hlo, -, hhi⟩
    exact ⟨g, hg, by omega, by omega, by omega⟩
  · rintro ⟨g, hg, hlo, hn, hhi⟩
    exact ⟨64 * g - a, by omega, g, hg, by omega, by omega, by omega⟩

theorem readBytes_eq_map (m : List Host.Cell) (a n : Nat) : readBytes m a n = (List.range n).map (fun i => Memory.read m (a + i)) := by
  induction n generalizing a with
  | zero => rfl
  | succ n ih =>
    rw [readBytes, ih, List.range_succ_eq_map, List.map_cons, List.map_map]
    congr 1
    refine List.map_congr_left fun i _ => ?_
    simp only [Function.comp_apply, Nat.succ_eq_add_one, Nat.add_assoc, Nat.add_comm 1 i]

section
variable {s : State} {la a : Nat}

/-- A leaf with K = 0 has its granules read once. -/
theorem State.moveCrit_of_plain (hk : bit (s.fetchLe la 8) 2 = false) : s.moveCrit la a = [] := by
  simp only [State.moveCrit, hk, Bool.false_eq_true, if_false]

theorem State.critByte_nil : s.critByte [] a = (s.fetch a 1).headD 0 := rfl

theorem State.critTaint_nil : s.critTaint [] a = s.tainted a 1 := by simp [State.critTaint, State.isCrit]

/-- Where no forward stands, the bytes of a granule that is read once are those of memory. -/
theorem State.granuleBytes_of_plain (hf : s.forwards = []) (n : Nat) : (List.range n).map (fun i => s.critByte [] (a + i)) = s.fetch a n := by
  simp only [State.critByte_nil, State.fetch, hf, forwardAddr, readBytes_eq_map, List.range_one, List.map_cons, List.headD_cons, Nat.add_zero]

/-- Its poison is theirs. -/
theorem State.moveTaint_of_plain (hf : s.forwards = []) (hk : bit (s.fetchLe la 8) 2 = false) : s.moveTaint la a = s.tainted a 64 := by
  simp only [State.moveTaint, State.moveCrit_of_plain hk, State.critTaint_nil, State.tainted, hf, forwardAddr, any_anyPoison_bytes]

/-- Reads that no granule needs twice leave the state as it was. -/
theorem State.critDone_nil : s.critDone [] = s := by
  unfold State.critDone
  split <;> rfl

/-- A granule is copied with its poison. -/
theorem State.copyGranule_of_plain (hf : s.forwards = []) (hk : bit (s.fetchLe la 8) 2 = false) (b : Nat) :
    s.copyGranule la a b = s.put b (s.fetch a 64) (s.tainted a 64) := by
  simp only [State.copyGranule, State.moveTaint_of_plain hf hk, State.moveCrit_of_plain hk, State.granuleBytes_of_plain hf,
    State.critDone_nil]

end

/-! ### A page move's turns (R331) -/

section
variable {b : PageBody} {s : State} {q : Nat} {c : CurrentEntry}

/-- The next granule of the page is copied. -/
theorem pageGo_granule (hs : c.switched = none) (hlt : c.progress < c.latch.getD 2 0)
    (hp : s.preparedRange (c.latch.getD 1 0 + c.progress) 64 = false)
    (hr : s.portRoom (moveBytes (c.latch.getD 1 0 + c.progress) (b.dpa.toNat + c.progress)) = true) :
    pageGo b s q c = ((s.copyGranule (c.latch.getD 0 0) (c.latch.getD 1 0 + c.progress) (b.dpa.toNat + c.progress)).usePort
      (moveBytes (c.latch.getD 1 0 + c.progress) (b.dpa.toNat + c.progress))).movedOn q 64
      (s.moveTaint (c.latch.getD 0 0) (c.latch.getD 1 0 + c.progress)) := by
  simp only [pageGo, hs, Nat.not_le.mpr hlt, hp, hr, Bool.not_true, Bool.or_self, Bool.false_eq_true, if_false,
    State.wroteGranule_eq_movedOn]

/-- A move that has switched ends once its forward is gone. -/
theorem pageGo_over {st : Nat} (hs : c.switched = some st) (hf : ∀ f ∈ s.forwards, f.queue ≠ q) : pageGo b s q c = s.finishEntry q st := by
  have hnone : s.forwards.any (fun f => f.queue == q) = false := by
    rw [List.any_eq_false]
    exact fun f hm => mt beq_iff_eq.mp (hf f hm)
  simp only [pageGo, hs, hnone, Bool.false_eq_true, if_false]

theorem pageGo_full (hs : c.switched = none) (hfull : c.latch.getD 2 0 ≤ c.progress) : pageGo b s q c = pageSwitch b s q c := by
  simp only [pageGo, hs, hfull, if_true]

/-- The state in which the marked granules are copied again and the move marks none any more. -/
def State.recopied (s : State) (b : PageBody) (q : Nat) (c : CurrentEntry) : State :=
  let u := s.recopy q (c.latch.getD 0 0) (c.latch.getD 1 0) b.dpa.toNat
  { u with moves := u.moves.filter (fun x => x.1 != q) }

/-- The leaf switched, its translations dropped, and the forward set up. -/
def State.switched (s : State) (b : PageBody) (q : Nat) (c : CurrentEntry) : State :=
  let u := ((s.recopied b q c).putLeaf (c.latch.getD 0 0) (fun e => switchedLeaf e b.dpa.toNat (c.latch.getD 3 0))).dropPage
    (s.queue q).ctx b.va.toNat
  { u with forwards := u.forwards ++ [{ old := c.latch.getD 1 0, new := b.dpa.toNat, size := c.latch.getD 2 0, waits := u.alive, queue := q }] }

/-- The switch in time. -/
theorem pageSwitch_inTime (hl : (s.recopied b q c).tooLate (s.queue q).ctx b.krtag.toNat = false) :
    pageSwitch b s q c = (s.switched b q c).modEntry q (fun x => { x with switched := some x.moved }) := by
  simp only [State.recopied] at hl
  simp only [pageSwitch, hl, Bool.false_and, Bool.false_eq_true, if_false]
  rfl

/-- The switch that comes too late takes LATE (Table 18-4). -/
theorem pageSwitch_late (hl : (s.recopied b q c).tooLate (s.queue q).ctx b.krtag.toNat = true) (hb : b.flags.getLsbD 0 = false) :
    pageSwitch b s q c = ({ s.switched b q c with promoLate := min 0xFFFFFFFF ((s.switched b q c).promoLate + 1) } : State).modEntry q
      (fun x => { x with switched := some 0x19 }) := by
  simp only [State.recopied] at hl
  simp only [pageSwitch, hl, hb, Bool.and_false, Bool.false_eq_true, if_false, if_true]
  rfl

/-- A promotion whose entry says so is discarded where it comes too late. -/
theorem pageSwitch_discarded (hl : (s.recopied b q c).tooLate (s.queue q).ctx b.krtag.toNat = true) (hb : b.flags.getLsbD 0 = true) :
    pageSwitch b s q c = ((s.recopied b q c).putLeaf (c.latch.getD 0 0) (fun e => withMig e 0)).finishEntry q 0x1A := by
  simp only [State.recopied] at hl
  simp only [pageSwitch, hl, hb, Bool.and_self, if_true]
  rfl

end

/-! ### Forwards and invalidations (R325, R332) -/

theorem exec_forwardRetire {s : State} {q : Nat} (hc : s.cur = .queue q) :
    exec .forwardRetire s = .next { s with forwards := s.forwards.filter (fun f => !(f.queue == q && f.waits.all s.hasLeft)) } := by
  show execForwardRetire s = _
  simp only [execForwardRetire, hc]

theorem exec_xlinv {s : State} {v : BitVec 64} (hc : s.cur = .module) (hb : s.xlinvBusy = none) (hv : xlinvBad v.toNat = false) :
    exec (.xlinv v) s = .next { s.freeDelay.2 with xlinv := v.toNat % 2 ^ 63, xlinvBusy := some (s.cycle + s.freeDelay.1) } := by
  show execXlinv v s = _
  simp only [execXlinv, hc, hb, hv, Option.isSome_none, Bool.or_self, Bool.false_eq_true, if_false]
  rfl

theorem exec_xlinvComplete {s : State} {t : Nat} (hc : s.cur = .module) (hb : s.xlinvBusy = some t) (ht : t ≤ s.cycle) :
    exec .xlinvComplete s = .next { s.invalidate s.xlinv with xlinvBusy := none } := by
  show execXlinvComplete s = _
  simp only [execXlinvComplete, hc, hb, ht, if_true]

/-! ### O54 -/

/-- Settles O54: PROMO and DEMO take the same turns (`pageGo`), and the clauses of a granule's copy come from `State.copyGranule_of_plain`. -/
theorem pagesMove : Obligations.PagesMove := by
  unfold Obligations.PagesMove
  refine ⟨⟨?promoInTime, ?promoLate, ?promoDiscarded⟩, ⟨?demoInTime, ?demoLate, ?demoDiscarded⟩, ?promoGranule, ?demoGranule,
    ?promoEnds, ?demoEnds, ?copied, ?retired, ?xlinv, ?invalidated⟩
  case promoInTime | demoInTime =>
    exact fun b => runs_of (fun _ _ => rfl) fun s q c _ ⟨⟨hs, hfull⟩, hl⟩ => (pageGo_full hs hfull).trans (pageSwitch_inTime hl)
  case promoLate | demoLate =>
    exact fun b => runs_of (fun _ _ => rfl) fun s q c _ ⟨⟨hs, hfull⟩, hl, hb⟩ => (pageGo_full hs hfull).trans (pageSwitch_late hl hb)
  case promoDiscarded | demoDiscarded =>
    exact fun b => runs_of (fun _ _ => rfl) fun s q c _ ⟨⟨hs, hfull⟩, hl, hb⟩ =>
      (pageGo_full hs hfull).trans (pageSwitch_discarded hl hb)
  case promoGranule | demoGranule =>
    exact fun b => runs_of (fun _ _ => rfl) fun s q c _ ⟨hs, hlt, hp, hr⟩ => pageGo_granule hs hlt hp hr
  case promoEnds | demoEnds => exact fun b st => runs_of (fun _ _ => rfl) fun s q c _ ⟨hs, hf⟩ => pageGo_over hs hf
  case copied => exact fun s la a b hf hk => ⟨congrArg State.mem (State.copyGranule_of_plain hf hk b),
    congrArg State.poison (State.copyGranule_of_plain hf hk b)⟩
  case retired => exact fun q s hc _ => exec_forwardRetire hc
  case xlinv => exact fun v s hc ⟨hb, hv⟩ => exec_xlinv hc hb hv
  case invalidated => exact fun t s hc ⟨hb, ht⟩ => exec_xlinvComplete hc hb ht

end Sys2Proof.Machine
end

section
/-! SUPPORT. O58: doorbells and commands (R254, R363, R364, R371). -/

namespace Sys2Proof.Machine

/-! ### Host writes that reach their register (R366) -/

theorem State.whenServed_of_served {s : State} (h : s.served = true) (f : State → State) : s.whenServed f = f s := if_pos h

/-! ### Queue pairs (R363) -/

/-- A doorbell within the submission ring of an enabled pair moves its tail. -/
theorem exec_sqTailDoorbell {s : State} {p v : Nat} (hc : s.cur = .pair p) (hs : s.served = true) (he : (s.pair p).en = true)
    (hv : v < (s.pair p).sqSize) : exec (.sqTailDoorbell v) s = .next (s.setPair p { s.pair p with sqTail := v }) := by
  show execSqTailDoorbell v s = _
  simp only [execSqTailDoorbell, hc, State.whenServed_of_served hs, he, hv, decide_true, Bool.and_self, if_true]

/-- A doorbell within the completion ring of an enabled pair moves its head. -/
theorem exec_cqHeadDoorbell {s : State} {p v : Nat} (hc : s.cur = .pair p) (hs : s.served = true) (he : (s.pair p).en = true)
    (hv : v < (s.pair p).cqSize) : exec (.cqHeadDoorbell v) s = .next (s.setPair p { s.pair p with cqHead := v }) := by
  show execCqHeadDoorbell v s = _
  simp only [execCqHeadDoorbell, hc, State.whenServed_of_served hs, he, hv, decide_true, Bool.and_self, if_true]

/-- A write of PCTL with EN = 1 over valid fields enables the pair with its context, and every index is 0. -/
theorem Pair.control_enables {x : Pair} {v : Nat} (he : x.en = false) (hv : v < 256) (hr : bits v 6 3 = 0) (hb : bit v 7 = true)
    (hx : Pair.valid { x with ctx := bits v 2 0 } = true) :
    x.control v = { x with ctx := bits v 2 0, en := true, sqTail := 0, sqHead := 0, cqHead := 0, cqTail := 0, blocked := false } := by
  have hform : ¬ (v / 256 ≠ 0 ∨ bits v 6 3 ≠ 0) := by
    rw [Nat.div_eq_of_lt hv, hr]
    simp
  have hgo : (bit v 7 && Pair.valid { x with ctx := bits v 2 0 }) = true := by rw [hb, hx, Bool.and_self]
  exact (if_neg hform).trans ((if_neg (Bool.eq_false_iff.mp he)).trans (if_pos hgo))

theorem exec_viroftPairEnable {s : State} {p v : Nat} (hc : s.cur = .pair p) (hs : s.served = true) :
    exec (.viroftPairEnable v) s = .next (s.setPair p ((s.pair p).control v)) := by
  show execViroftPairEnable v s = _
  simp only [execViroftPairEnable, hc, State.whenServed_of_served hs]

/-! ### Commands (R364) -/

theorem Pair.submitted_iff {x : Pair} : x.submitted = true ↔ x.en = true ∧ x.sqHead ≠ x.sqTail := by
  simp only [Pair.submitted, Bool.and_eq_true, bne_iff_ne]

/-- A command other than LAUNCH finds its journal entry: it is journaled, answered and carried out. -/
theorem does_of_accepted {i : Instr} {opc : Nat} {cid : BitVec 32} {go : State → State} (h : ∀ s, exec i s = accepted opc cid go s)
    (p : Nat) :
    Does i (.pair p) (fun s => ((s.pair p).en = true ∧ (s.pair p).sqHead ≠ (s.pair p).sqTail) ∧ s.journalRoom = true) (fun s =>
      go ((s.journal opc p (s.pair p).ctx 2 cid.toNat (s.fetchLe ((s.pair p).headAddr + 8) 8)).consumeCommand p cid 0)) := by
  rintro s hc ⟨hw, hj⟩
  rw [h]
  simp only [accepted, hc, Pair.submitted_iff.mpr hw, hj, Bool.not_true, Bool.false_eq_true, if_false]

/-- LAUNCH is answered, and its submission goes to the Stoker. -/
theorem exec_launch {s : State} {p : Nat} {cid : BitVec 32} {lra : BitVec 64} (hc : s.cur = .pair p)
    (hw : (s.pair p).en = true ∧ (s.pair p).sqHead ≠ (s.pair p).sqTail) (hj : s.journalRoom = true) :
    exec (.launch cid lra) s = .next ((s.consumeCommand p cid 0).push [.event (.kernelAccept
      { lra := lra.toNat, ctx := (s.pair p).ctx, cid := cid.toNat, pair := some p, parent := none, after := false, at' := false
        recompute := none }) .module]) := by
  show execLaunch cid lra s = _
  simp only [execLaunch, hc, Pair.submitted_iff.mpr hw, hj, Bool.not_true, Bool.false_eq_true, if_false, if_true]

/-- A command of unknown OPC is answered with STATUS 1. -/
theorem exec_unknownCommand {s : State} {p : Nat} {cid : BitVec 32} {opc : BitVec 8} (hc : s.cur = .pair p)
    (hw : (s.pair p).en = true ∧ (s.pair p).sqHead ≠ (s.pair p).sqTail) :
    exec (.unknownCommand cid opc) s = .next (s.consumeCommand p cid 1) := by
  show execUnknownCommand cid opc s = _
  simp only [execUnknownCommand, hc, Pair.submitted_iff.mpr hw, if_true]

theorem exec_resume (cid : BitVec 32) (w : Withheld) (s : State) : exec (.resume cid w) s =
    accepted 0x02 cid (fun s => s.withNamed w State.resumeNode (fun s q => (s.resumeLink q).resumeEntry q)) s := rfl

theorem exec_abort (cid : BitVec 32) (w : Withheld) (s : State) : exec (.abort cid w) s =
    accepted 0x03 cid (fun s => s.withNamed w State.abortNode State.abortEntry) s := rfl

theorem exec_withdraw (cid tag : BitVec 32) (m : BitVec 8) (s : State) : exec (.withdraw cid tag m) s =
    accepted 0x05 cid (fun s => s.withKernel m tag (fun s e => s.withdrawKernel e)) s := rfl

theorem exec_retire (cid tag : BitVec 32) (m : BitVec 8) (s : State) : exec (.retire cid tag m) s =
    accepted 0x06 cid (fun s => s.withKernel m tag State.retireKernel) s := rfl

/-- RELEASE makes a Held kernel Ready (R253). -/
theorem exec_release (cid tag : BitVec 32) (m : BitVec 8) (s : State) :
    exec (.release cid tag m) s = accepted 0x04 cid (fun s => s.withKernel m tag (fun s e =>
      s.modKernel e (fun k => if k.st = .held then { k with st := .ready } else k))) s := by
  show execRelease cid tag m s = _
  simp only [execRelease, beq_iff_eq]

/-- CTXRES makes a Halted context Idle (R234). -/
theorem exec_ctxres (cid : BitVec 32) (m : BitVec 8) (s : State) :
    exec (.ctxres cid m) s = accepted 0x07 cid (fun s =>
      if m.toNat < 8 ∧ (s.context m.toNat).st = .halted then
        (s.modContext m.toNat (fun c => { c with st := .idle, halting := false })).releaseEvicted m.toNat
      else s) s := by
  show execCtxres cid m s = _
  simp only [execCtxres, Bool.and_eq_true, decide_eq_true_eq, beq_iff_eq]

/-! ### O58 -/

/-- Settles O58: every command but LAUNCH is one `accepted` command, and the others are read off their steps. -/
theorem commandsAreAnswered : Obligations.CommandsAreAnswered := by
  unfold Obligations.CommandsAreAnswered
  refine ⟨?tail, ?head, ?enable, ?launch, ?resume, ?abort, ?release, ?withdraw, ?retire, ?ctxres, ?unknown⟩
  case tail =>
    rintro p v s hc ⟨hs, he, hv⟩
    exact exec_sqTailDoorbell hc hs he hv
  case head =>
    rintro p v s hc ⟨hs, he, hv⟩
    exact exec_cqHeadDoorbell hc hs he hv
  case enable =>
    rintro p v s hc ⟨hs, he, hv, hr, hb, hx⟩
    exact (exec_viroftPairEnable hc hs).trans (congrArg (fun x => Host.Outcome.next (s.setPair p x)) (Pair.control_enables he hv hr hb hx))
  case launch =>
    rintro p cid lra a s hc ⟨hw, hj⟩
    exact exec_launch hc hw hj
  case resume => exact fun cid w p => does_of_accepted (exec_resume cid w) p
  case abort => exact fun cid w p => does_of_accepted (exec_abort cid w) p
  case release => exact fun cid tag m p => does_of_accepted (exec_release cid tag m) p
  case withdraw => exact fun cid tag m p => does_of_accepted (exec_withdraw cid tag m) p
  case retire => exact fun cid tag m p => does_of_accepted (exec_retire cid tag m) p
  case ctxres => exact fun cid m p => does_of_accepted (exec_ctxres cid m) p
  case unknown =>
    intro p cid opc s hc hw
    exact exec_unknownCommand hc hw

end Sys2Proof.Machine
end

section
/-! SUPPORT. O59: host writes and reads of registers (R270, R311, R312, R341, R363, R366, R368, R371, R373). -/

namespace Sys2Proof.Machine

/-! ### Writes of module registers (R366) -/

/-- A host write that runs a step of its own: the step while the module is served. -/
theorem does_of_served {i : Instr} {l : Locus} {f : State → State} {ok : State → Prop} {act : State → State}
    (hi : ∀ s, s.cur = l → exec i s = .next (s.whenServed f)) (ha : ∀ s, ok s → s.served = true ∧ f s = act s) : Does i l ok act := by
  intro s hc hok
  obtain ⟨hs, hf⟩ := ha s hok
  rw [hi s hc, State.whenServed_of_served hs, hf]

theorem exec_snapTrig {s : State} {v : BitVec 32} (hc : s.cur = .module) :
    exec (.snapTrig v) s = .next (s.whenServed (fun s => if v = 1 then s.latch else s)) := by
  show execSnapTrig v s = _
  simp only [execSnapTrig, hc]

theorem exec_attNonce {s : State} {n : BitVec 256} (hc : s.cur = .module) :
    exec (.attNonce n) s = .next (s.whenServed (fun s => { s with attNonce := n, attDone := false, attCount := s.attCount + 1 })) := by
  show execAttNonce n s = _
  simp only [execAttNonce, hc]

theorem exec_jrnlBase {s : State} {v : BitVec 64} (hc : s.cur = .module) :
    exec (.jrnlBase v) s = .next (s.whenServed (fun s =>
      if s.phase = 4 ∧ v.toNat % 65536 = 0 then { s with jrnlBase := v.toNat } else s)) := by
  show execJrnlBase v s = _
  simp only [execJrnlBase, hc]

theorem exec_jrnlSize {s : State} {v : BitVec 32} (hc : s.cur = .module) :
    exec (.jrnlSize v) s = .next (s.whenServed (fun s =>
      if s.phase = 4 ∧ 10 ≤ v.toNat ∧ v.toNat ≤ 20 then { s with jrnlSize := v.toNat } else s)) := by
  show execJrnlSize v s = _
  simp only [execJrnlSize, hc]

/-- PWR_LIM keeps what is written between 600 and 2,400 (R374). -/
theorem exec_pwrLim {s : State} {v : BitVec 32} (hc : s.cur = .module) :
    exec (.pwrLim v) s = .next (s.whenServed (fun s =>
      { s with pwrLim := if v.toNat < 600 then 600 else if 2400 < v.toNat then 2400 else v.toNat })) := by
  have hlim : max 600 (min 2400 v.toNat) = if v.toNat < 600 then 600 else if 2400 < v.toNat then 2400 else v.toNat := by
    split_ifs <;> omega
  show execPwrLim v s = _
  simp only [execPwrLim, hc, hlim]

theorem exec_queueEnWrite {s : State} {q : Nat} {on : Bool} (hc : s.cur = .queue q) :
    exec (.queueEnWrite on) s = .next (s.whenServed (fun s =>
      s.modQueue q (fun u => u.enable on (s.fencedDies.contains (q / 128))))) := by
  show execQueueEnWrite on s = _
  simp only [execQueueEnWrite, hc]

/-- EN = 1 at a queue with nothing at hand and work waiting: it runs (R271). -/
theorem Queue.enable_runs {u : Queue} (he : u.en = false) (hw : u.withheld = none) (hc : u.cur = none) (hn : u.done < u.tailn) :
    u.enable true false = { u with en := true, st := .running } := by
  simp [Queue.enable, Queue.rest, he, hw, hc, hn]

/-- EN = 0 at a queue that does not run: it is Disabled (R271). -/
theorem Queue.enable_off {u : Queue} (hs : u.st ≠ .running) (fenced : Bool) :
    u.enable false fenced = { u with en := false, st := .disabled } := by
  simp [Queue.enable, hs]

theorem exec_counterClear {s : State} {a : Nat} (hc : s.cur = .module) :
    exec (.counterClear a) s = .next (s.whenServed (fun s =>
      if a = regBase + 0x300 then { s with strikeStrk := 0, strikeRoll := 0 }
      else if a = regBase + 0x304 then { s with snapInc := false, snapOvf := false, snapCnt := 0 }
      else if a = regBase + 0x308 then { s with promoLate := 0 }
      else if regBase ≤ a ∧ counterAt (a - regBase) then
        s.modContext ((a - regBase - 0x1000) / 64) (fun c => { c with accSpill := 0 })
      else s)) := by
  show execCounterClear a s = _
  simp only [execCounterClear, hc]

/-- The spill counter of a context is one that a write clears. -/
theorem counterAt_accSpill {m : Nat} (hm : m < 8) : counterAt (0x1018 + 0x40 * m) = true := by
  have hlow : 0x1018 + 0x40 * m < 0x1200 := by omega
  have hmod : (0x1018 + 0x40 * m) % 64 = 0x18 := by omega
  have hlo : 0x1000 ≤ 0x1018 + 0x40 * m := by omega
  simp [counterAt, hlow, hmod, hlo]

/-- A write of a context's spill counter clears it. -/
theorem exec_counterClear_accSpill {s : State} {m : Nat} (hc : s.cur = .module) (hs : s.served = true) (hm : m < 8) :
    exec (.counterClear (0x100001018 + 0x40 * m)) s = .next (s.modContext m (fun c => { c with accSpill := 0 })) := by
  have hoff : 0x100001018 + 0x40 * m - regBase = 0x1018 + 0x40 * m := by simp only [regBase]; omega
  have hat : regBase ≤ 0x100001018 + 0x40 * m ∧ counterAt (0x100001018 + 0x40 * m - regBase) = true :=
    ⟨by simp only [regBase]; omega, hoff ▸ counterAt_accSpill hm⟩
  have hidx : (0x100001018 + 0x40 * m - regBase - 0x1000) / 64 = m := by simp only [regBase]; omega
  rw [exec_counterClear hc, State.whenServed_of_served hs, if_neg (by simp only [regBase]; omega), if_neg (by simp only [regBase]; omega),
    if_neg (by simp only [regBase]; omega), if_pos hat, hidx]

/-! ### Writes of bytes (R373) -/

theorem exec_registerWrite {s : State} {a : Nat} {bs : List Byte} (hc : s.cur = .module) :
    exec (.registerWrite a bs) s = .next (s.whenServed (fun s =>
      if a < regBase then s else writeBytesAt bs.length (a - regBase) bs s)) := by
  show execRegisterWrite a bs s = _
  simp only [execRegisterWrite, hc]

/-- A write from the start of the register space on, at an offset. -/
theorem exec_registerWrite_at {s : State} {o : Nat} {bs : List Byte} (hc : s.cur = .module) (hs : s.served = true) :
    exec (.registerWrite (0x100000000 + o) bs) s = .next (writeBytesAt bs.length o bs s) := by
  have hoff : 0x100000000 + o - regBase = o := Nat.add_sub_cancel_left ..
  rw [exec_registerWrite hc, State.whenServed_of_served hs, if_neg (by simp only [regBase]; omega), hoff]

theorem writeBytesAt_nil (n o : Nat) (s : State) : writeBytesAt n o [] s = s := by cases n <;> rfl

/-- Bytes of no register are passed one by one. -/
theorem writeBytesAt_unmapped {o : Nat} (h : registerAt o = none) (n : Nat) (x : Byte) (bs : List Byte) (s : State) :
    writeBytesAt (n + 1) o (x :: bs) s = writeBytesAt n (o + 1) bs s := by
  simp only [writeBytesAt, h, List.isEmpty_cons, Bool.false_eq_true, if_false, List.tail_cons]

/-- What a write of some bytes at `o` makes of the register of `n` bytes at `a`. -/
def State.mergedValue (s : State) (o a n : Nat) (bs : List Byte) : Nat :=
  leNat (overwrite (leBytes n (s.heldIn a n)) (o - a) (bs.take (a + n - o)))

/-- A register takes its bytes, and the rest goes on behind it. -/
theorem writeBytesAt_mapped {o a n : Nat} {bs : List Byte} (h : registerAt o = some (a, n)) (hb : bs ≠ []) (fuel : Nat) (s : State) :
    writeBytesAt (fuel + 1) o bs s =
      writeBytesAt fuel (o + min bs.length (a + n - o)) (bs.drop (a + n - o)) (s.writeRegister a (s.mergedValue o a n bs)) := by
  have htake : bs.take (min bs.length (a + n - o)) = bs.take (a + n - o) := by rw [Nat.min_comm, ← List.take_eq_take_min]
  have hdrop : bs.drop (min bs.length (a + n - o)) = bs.drop (a + n - o) := by
    rcases Nat.le_total bs.length (a + n - o) with hle | hle
    · rw [Nat.min_eq_left hle, List.drop_length, List.drop_eq_nil_of_le hle]
    · rw [Nat.min_eq_right hle]
  simp only [writeBytesAt, h, List.isEmpty_iff, hb, if_false, htake, hdrop]
  rfl

/-- A write that ends in its register. -/
theorem writeBytesAt_within {o a n : Nat} {bs : List Byte} (h : registerAt o = some (a, n)) (hb : bs ≠ []) (hl : bs.length ≤ a + n - o)
    (s : State) : writeBytesAt bs.length o bs s = s.writeRegister a (s.mergedValue o a n bs) := by
  obtain ⟨k, hk⟩ := Nat.exists_eq_succ_of_ne_zero (mt List.length_eq_zero_iff.mp hb)
  rw [hk, writeBytesAt_mapped h hb, List.drop_eq_nil_of_le hl, writeBytesAt_nil]

/-- A write that goes beyond its register. -/
theorem writeBytesAt_beyond {o a n : Nat} {bs : List Byte} (h : registerAt o = some (a, n)) (ho : o < a + n) (hl : a + n - o < bs.length)
    (s : State) : writeBytesAt bs.length o bs s =
      writeBytesAt (bs.length - 1) (a + n) (bs.drop (a + n - o)) (s.writeRegister a (s.mergedValue o a n bs)) := by
  obtain ⟨k, hk⟩ : ∃ k, bs.length = k + 1 := ⟨bs.length - 1, by omega⟩
  have hb : bs ≠ [] := List.ne_nil_of_length_eq_add_one hk
  have hnext : o + min bs.length (a + n - o) = a + n := by omega
  conv_lhs => rw [hk]
  rw [writeBytesAt_mapped h hb, hnext, hk, Nat.add_sub_cancel]

/-! ### Writes of one register (R270, R373) -/

/-- A register with a step of its own: the step comes next. -/
theorem State.writeRegister_step {s : State} {o v : Nat} {i : Instr} {l : Locus} (h : registerStep o v = some (i, l))
    (hl : o < 0x3000 ∨ 0x3060 ≤ o) : s.writeRegister o v = s.push [.event i l] := by
  have hno : ¬ (0x3000 ≤ o ∧ o < 0x3060) := by omega
  simp only [State.writeRegister, h, if_neg hno]

/-- PTROOT and the queue blocks have no step of their own. -/
theorem registerStep_of_plain {o : Nat} (h : 0x2000 ≤ o ∧ o < 0x2040 ∨ 0x400000 ≤ o ∧ o < 0x408000) (v : Nat) : registerStep o v = none := by
  have hcounter : counterAt o = false := by
    simp only [counterAt, Bool.or_eq_false_iff, beq_eq_false_iff_ne, Bool.and_eq_false_iff, decide_eq_false_iff_not]
    omega
  rw [registerStep, hcounter, if_neg Bool.false_ne_true, if_neg (by omega), if_neg (by omega), if_neg (by omega), if_neg (by omega),
    if_neg (by omega), if_neg (by omega), if_neg (by omega), if_neg (by omega), if_neg (by omega)]

/-- PTROOT is written while its context is idle. -/
theorem State.writeRegister_ptroot {s : State} {m v : Nat} (hm : m < 8) :
    s.writeRegister (0x2000 + 8 * m) v =
      if s.idle m then s.modContext m (fun c => { c with ptroot := BitVec.ofNat 64 v &&& 0x000FFFFFFFFF0001 }) else s := by
  have hidx : (0x2000 + 8 * m - 0x2000) / 8 = m := by omega
  simp only [State.writeRegister, registerStep_of_plain (o := 0x2000 + 8 * m) (by omega)]
  rw [if_neg (by omega), if_pos (by omega), hidx]

/-- A word of a queue block other than the one that holds EN. -/
theorem State.writeRegister_queue {s : State} {q i v : Nat} (hq : q < 512) (hi : i < 4) :
    s.writeRegister (0x400000 + 64 * q + 8 * i) v = s.modQueue q (fun u => u.write i v) := by
  have hidx : (0x400000 + 64 * q + 8 * i - 0x400000) / 64 = q := by omega
  have hword : (0x400000 + 64 * q + 8 * i) % 64 / 8 = i := by omega
  simp only [State.writeRegister, registerStep_of_plain (o := 0x400000 + 64 * q + 8 * i) (by omega)]
  rw [if_neg (by omega), if_neg (by omega), if_neg (by omega), if_pos (by omega), hidx, hword]
  exact if_neg fun h => absurd h.1 (by omega)

/-! ### Reads (R366, R373) -/

/-- What a register or a latched copy with the value `r.2` at `r.1` adds to the byte at an address. -/
def byteFrom (a : Nat) (r : Nat × Nat) : Nat := if r.1 ≤ a then r.2 / 256 ^ (a - r.1) % 256 else 0

theorem byteFrom_eq_shift (a x : Nat) (r : Nat × Nat) :
    (if r.1 ≤ a then x ||| (r.2 >>> (8 * (a - r.1)) % 256) else x) = x ||| byteFrom a r := by
  rw [byteFrom, Nat.shiftRight_eq_div_pow, Nat.pow_mul]
  split <;> simp

/-- Registers and latched copies as they stand in memory space. -/
def State.readable (s : State) : List (Nat × Nat) := s.registers.map (fun r => (r.1, r.2.2)) ++ s.snapCopies

theorem State.registerByte_eq (s : State) (a : Nat) :
    s.registerByte a = BitVec.ofNat 8 (s.readable.foldl (fun x r => x ||| byteFrom a r) 0) := by
  simp only [State.registerByte, byteFrom_eq_shift]
  rfl

/-- An OR that has come to `v` stays there where every further part is 0 or `v`. -/
theorem foldl_or_of_start {α : Type} {f : α → Nat} {v : Nat} {l : List α} (h : ∀ r ∈ l, f r = 0 ∨ f r = v) :
    l.foldl (fun x r => x ||| f r) v = v := by
  induction l with
  | nil => rfl
  | cons r l ih =>
    have hr : v ||| f r = v := by rcases h r List.mem_cons_self with h0 | h0 <;> simp [h0]
    rw [List.foldl_cons, hr]
    exact ih fun x hx => h x (List.mem_cons_of_mem _ hx)

/-- Where one part is `v` and every other is 0 or `v`, the OR of the parts is `v`. -/
theorem foldl_or_of_mem {α : Type} {f : α → Nat} {v : Nat} {l : List α} (h : ∀ r ∈ l, f r = 0 ∨ f r = v) (hm : ∃ r ∈ l, f r = v) :
    l.foldl (fun x r => x ||| f r) 0 = v := by
  induction l with
  | nil => simp at hm
  | cons r l ih =>
    have hl : ∀ x ∈ l, f x = 0 ∨ f x = v := fun x hx => h x (List.mem_cons_of_mem _ hx)
    rw [List.foldl_cons, Nat.zero_or]
    by_cases hr : f r = v
    · rw [hr]
      exact foldl_or_of_start hl
    · obtain ⟨x, hx, hxv⟩ := hm
      have hxl : x ∈ l := (List.mem_cons.mp hx).resolve_left fun e => hr (e ▸ hxv)
      rw [(h r List.mem_cons_self).resolve_right hr]
      exact ih hl ⟨x, hxl, hxv⟩

/-- A register's value fits its bytes. -/
theorem State.registers_fit {s : State} {r : Nat × Nat × Nat} (h : r ∈ s.registers) : r.2.2 < 256 ^ r.2.1 := by
  obtain ⟨x, -, rfl⟩ := List.mem_map.mp (List.mem_of_mem_filter h)
  show x.2.2 % 2 ^ (8 * x.2.1) < 256 ^ x.2.1
  rw [Nat.pow_mul]
  exact Nat.mod_lt _ (by positivity)

/-- A register adds nothing to a byte that it does not cover. -/
theorem byteFrom_of_uncovered {s : State} {r : Nat × Nat × Nat} {a : Nat} (hr : r ∈ s.registers) (h : ¬ (r.1 ≤ a ∧ a < r.1 + r.2.1)) :
    byteFrom a (r.1, r.2.2) = 0 := by
  rw [byteFrom]
  split
  · have hle : 256 ^ r.2.1 ≤ 256 ^ (a - r.1) := Nat.pow_le_pow_right (by decide) (by omega)
    rw [Nat.div_eq_of_lt (lt_of_lt_of_le (State.registers_fit hr) hle)]
  · rfl

/-- Some latched copy adds to the byte at an address. -/
def State.latchedAt (s : State) (a : Nat) : Prop := ∃ c ∈ s.snapCopies, c.1 ≤ a ∧ c.2 / 256 ^ (a - c.1) % 256 ≠ 0

theorem byteFrom_of_unlatched {s : State} {a : Nat} (h : ¬ s.latchedAt a) {c : Nat × Nat} (hc : c ∈ s.snapCopies) : byteFrom a c = 0 := by
  by_contra hne
  rw [byteFrom] at hne
  split at hne
  · exact h ⟨c, hc, ‹_›, hne⟩
  · exact hne rfl

/-- What covers a byte decides it: every readable part adds 0 or `v` where the registers do and nothing is latched there. -/
theorem State.readable_byteFrom {s : State} {a v : Nat} (hr : ∀ r ∈ s.registers, byteFrom a (r.1, r.2.2) = 0 ∨ byteFrom a (r.1, r.2.2) = v)
    (hl : ¬ s.latchedAt a) : ∀ c ∈ s.readable, byteFrom a c = 0 ∨ byteFrom a c = v := by
  intro c hc
  rcases List.mem_append.mp hc with hc | hc
  · obtain ⟨r, hrm, rfl⟩ := List.mem_map.mp hc
    exact hr r hrm
  · exact .inl (byteFrom_of_unlatched hl hc)

theorem State.registerByte_uncovered {s : State} {a : Nat} (hr : ∀ r ∈ s.registers, ¬ (r.1 ≤ a ∧ a < r.1 + r.2.1)) (hl : ¬ s.latchedAt a) :
    s.registerByte a = 0 := by
  rw [State.registerByte_eq, foldl_or_of_start (v := 0)
    (State.readable_byteFrom (fun r hrm => .inl (byteFrom_of_uncovered hrm (hr r hrm))) hl)]
  rfl

/-- A byte that one register alone covers is that register's. -/
theorem State.registerByte_covered {s : State} {r : Nat × Nat × Nat} {i : Nat} (hr : r ∈ s.registers)
    (hu : ∀ q ∈ s.registers, q.1 ≤ r.1 + i ∧ r.1 + i < q.1 + q.2.1 → q = r) (hl : ¬ s.latchedAt (r.1 + i)) :
    s.registerByte (r.1 + i) = BitVec.ofNat 8 (r.2.2 / 256 ^ i) := by
  have hown : byteFrom (r.1 + i) (r.1, r.2.2) = r.2.2 / 256 ^ i % 256 := by
    rw [byteFrom, if_pos (Nat.le_add_right _ _), Nat.add_sub_cancel_left]
  have hall : ∀ q ∈ s.registers, byteFrom (r.1 + i) (q.1, q.2.2) = 0 ∨ byteFrom (r.1 + i) (q.1, q.2.2) = r.2.2 / 256 ^ i % 256 := by
    intro q hq
    by_cases hcov : q.1 ≤ r.1 + i ∧ r.1 + i < q.1 + q.2.1
    · exact .inr (hu q hq hcov ▸ hown)
    · exact .inl (byteFrom_of_uncovered hq hcov)
  have hmem : (r.1, r.2.2) ∈ s.readable := List.mem_append_left _ (List.mem_map_of_mem hr)
  rw [State.registerByte_eq, foldl_or_of_mem (State.readable_byteFrom hall hl) ⟨_, hmem, hown⟩]
  exact BitVec.eq_of_toNat_eq (by simp)

/-- The host's read answers from phase 4 on and in the failed state, and nothing before (R366). -/
theorem State.mmioRead_answers {s : State} {a n : Nat} (hu : s.cxlUp = true) (hp : s.phase = 4 ∨ s.phase = 5 ∨ s.phase = 15) :
    s.mmioRead a n = some ((List.range n).map (fun i => s.registerByte (a + i))) := by
  refine if_pos ?_
  rcases hp with hp | hp | hp <;> simp [hu, hp]

theorem State.mmioRead_silent {s : State} {a n : Nat} (h : s.cxlUp = false ∨ s.phase < 4) : s.mmioRead a n = none := by
  refine if_neg ?_
  rcases h with h | h
  · simp [h]
  · have h4 : s.phase ≠ 4 := by omega
    have h5 : s.phase ≠ 5 := by omega
    have h15 : s.phase ≠ 15 := by omega
    simp [h4, h5, h15]

/-- The registers of Table 21-4 that hold a number: offset, bytes, value. -/
def State.moduleRegisters (s : State) : List (Nat × Nat × Nat) :=
  [(0x0000, 4, s.bootSt), (0x0108, 8, s.snapCyc), (0x0200, 8, if s.xlinvBusy.isSome then 2 ^ 63 else 0),
    (0x0300, 4, s.strikeStrk + 2 ^ 16 * s.strikeRoll), (0x0304, 4, s.snapTmo), (0x0308, 4, s.promoLate), (0x030C, 4, Config.tstrike),
    (0x8000, 8, s.jrnlBase), (0x8008, 4, s.jrnlSize), (0x8010, 8, s.jrnlNext), (0x9000, 4, s.pwrLim), (0xA0F0, 4, b2n s.attDone)]

/-- Every such register that does not read zero is listed. -/
theorem State.mem_registers_of_module {s : State} {a w v : Nat} (ha : regBase ≤ a) (h : (a - regBase, w, v) ∈ s.moduleRegisters)
    (hv : v % 256 ^ w ≠ 0) : (a, w, v % 256 ^ w) ∈ s.registers := by
  obtain ⟨o, rfl⟩ := Nat.exists_eq_add_of_le ha
  rw [Nat.add_sub_cancel_left] at h
  have hpow : 256 ^ w = 2 ^ (8 * w) := by rw [Nat.pow_mul]
  rw [hpow] at hv ⊢
  refine List.mem_filter.mpr ⟨List.mem_map.mpr ⟨(regBase + o, w, v), List.mem_map.mpr ⟨(o, w, v), ?_, rfl⟩, rfl⟩, bne_iff_ne.mpr hv⟩
  simp only [List.append_assoc]
  exact List.mem_append_left _ h

/-! ### O59 -/

/-- Settles O59: the writes by the step of their register, and the reads by what covers a byte (`State.registerByte_covered`,
`State.registerByte_uncovered`). -/
theorem hostWritesAct : Obligations.HostWritesAct := by
  unfold Obligations.HostWritesAct
  refine ⟨⟨?trigger, ?noTrigger, ?nonce, ?base, ?size, ?power, ?enable, ?disable, ?strikes, ?snaps, ?late, ?spills,
    ⟨?within, ?beyond, ?unmappedLast, ?unmapped, ?below, ?stepped, ?ptroot, ?ptrootBusy, ?queueWord⟩, ?throttle⟩,
    ?silent, ?answers, ⟨?uncovered, ?covered⟩, ?listed⟩
  case trigger => exact does_of_served (fun _ => exec_snapTrig) fun s hs => ⟨hs, rfl⟩
  case noTrigger => exact fun v hv => does_of_served (fun _ => exec_snapTrig) fun s hs => ⟨hs, if_neg hv⟩
  case nonce => exact fun n => does_of_served (fun _ => exec_attNonce) fun s hs => ⟨hs, rfl⟩
  case base => exact fun v hv => does_of_served (fun _ => exec_jrnlBase) fun s ⟨hs, hp⟩ => ⟨hs, if_pos ⟨hp, hv⟩⟩
  case size => exact fun v hlo hhi => does_of_served (fun _ => exec_jrnlSize) fun s ⟨hs, hp⟩ => ⟨hs, if_pos ⟨hp, hlo, hhi⟩⟩
  case power => exact fun v => does_of_served (fun _ => exec_pwrLim) fun s hs => ⟨hs, rfl⟩
  case enable =>
    refine fun q => does_of_served (fun _ => exec_queueEnWrite) fun s ⟨hs, he, hf, hw, hc, hn⟩ => ⟨hs, ?_⟩
    rw [hf]
    exact congrArg (s.setQueue q) (Queue.enable_runs he hw hc hn)
  case disable =>
    exact fun q => does_of_served (fun _ => exec_queueEnWrite) fun s ⟨hs, hst⟩ => ⟨hs, congrArg (s.setQueue q) (Queue.enable_off hst _)⟩
  case strikes | snaps | late => exact does_of_served (fun _ => exec_counterClear) fun s hs => ⟨hs, rfl⟩
  case spills => exact fun m hm s hc hs => exec_counterClear_accSpill hc hs hm
  case within =>
    exact fun o bs a n hb ha hl s hc ⟨hs, _⟩ => (exec_registerWrite_at hc hs).trans (congrArg _ (writeBytesAt_within ha hb hl s))
  case beyond =>
    exact fun o bs a n ha ho hl s hc ⟨hs, _⟩ => (exec_registerWrite_at hc hs).trans (congrArg _ (writeBytesAt_beyond ha ho hl s))
  case unmappedLast =>
    exact fun o x ha s hc ⟨hs, _⟩ =>
      (exec_registerWrite_at hc hs).trans (congrArg _ ((writeBytesAt_unmapped ha _ x [] s).trans (writeBytesAt_nil _ _ s)))
  case unmapped =>
    exact fun o x bs ha s hc ⟨hs, _⟩ => (exec_registerWrite_at hc hs).trans (congrArg _ (writeBytesAt_unmapped ha _ x bs s))
  case below => exact fun a bs ha => does_of_served (fun _ => exec_registerWrite) fun s hs => ⟨hs, if_pos ha⟩
  case stepped => exact fun s o v i l h hl => State.writeRegister_step h hl
  case ptroot => exact fun s m v hm hi => (State.writeRegister_ptroot hm).trans (if_pos hi)
  case ptrootBusy => exact fun s m v hm hi => (State.writeRegister_ptroot hm).trans (if_neg (Bool.eq_false_iff.mp hi))
  case queueWord => exact fun s q i v hq hi => State.writeRegister_queue hq hi
  case throttle =>
    intro on s hc _
    show execThermalThrottle on s = _
    simp only [execThermalThrottle, hc]
  case silent => exact fun s a n h => State.mmioRead_silent h
  case answers =>
    refine fun s a n i hu hp hi => ⟨_, State.mmioRead_answers hu hp, by simp, ?_⟩
    rw [List.getD_eq_getElem _ _ (by simpa using hi)]
    simp
  case uncovered => exact fun s a hr hl => State.registerByte_uncovered hr hl
  case covered => exact fun s r i hr _ hu hl => State.registerByte_covered hr hu hl
  case listed =>
    intro s a w v h hv
    have hlisted : regBase ≤ a ∧ (a - regBase, w, v) ∈ s.moduleRegisters := by
      rcases h with h | h | h | h | h | h | h | h <;> cases h <;> simp [State.moduleRegisters, regBase, Config.tstrike]
    exact State.mem_registers_of_module hlisted.1 hlisted.2 hv

end Sys2Proof.Machine
end

section
/-! SUPPORT. O60: power, boot, the host link and what goes out over it (R362, R365 to R368, R372, R374). -/

namespace Sys2Proof.Machine

/-! ### Host memory requests (R362) -/

theorem exec_cxlWrite {s : State} {a : Nat} {bs : List Byte} (hc : s.cur = .module) (hs : s.served = true)
    (hd : deviceMemory a bs.length = true) : exec (.cxlMemRequest a (some bs) bs.length) s = .next (s.put a bs false) := by
  show execCxlMemRequest a (some bs) bs.length s = _
  simp only [execCxlMemRequest, hc, hs, hd, Bool.not_true, Bool.false_eq_true, if_false, if_true]

/-- A read is answered where none of its granules is prepared. -/
theorem exec_cxlRead {s : State} {a n : Nat} (hc : s.cur = .module) (hs : s.served = true) (hd : deviceMemory a n = true)
    (hp : s.preparedRange a n = false) :
    exec (.cxlMemRequest a none n) s = .next { s with cxlReplies := s.cxlReplies ++ [(a, s.fetch a n, s.tainted a n)] } := by
  show execCxlMemRequest a none n s = _
  simp only [execCxlMemRequest, hc, hs, hd, hp, Bool.not_true, Bool.false_eq_true, if_false]

/-! ### The host link (R372) -/

theorem exec_cxlLinkUp {s : State} (hc : s.cur = .module) :
    exec .cxlLinkUp s = .next (if s.phase = 0 then s else { s with cxlUp := true, phase := if s.bootErr = 0 then s.phase else 15 }) := by
  show execCxlLinkUp s = _
  simp only [execCxlLinkUp, hc]

theorem exec_cxlLinkLoss {s : State} (hc : s.cur = .module) : exec .cxlLinkLoss s = .next { s with cxlUp := false } := by
  show execCxlLinkLoss s = _
  simp only [execCxlLinkLoss, hc]

/-- The first message that finds room leaves into its pair's completion ring (R365). -/
theorem exec_completionEntry {s : State} {msg : HostMessage} {p : Nat} {rest : List HostMessage} (hc : s.cur = .module)
    (hu : s.cxlUp = true) (hn : nextMessage s [] [] s.outgoing = some (msg, p, rest)) :
    exec .completionEntry s = .next (
      ({ s.putPhys ((s.pair p).cqbase + 64 * (s.pair p).cqTail) (leBytes 64 msg.body) with outgoing := rest } : State).setPair p
        { s.pair p with cqTail := ((s.pair p).cqTail + 1) % (s.pair p).cqSize }) := by
  show execCompletionEntry s = _
  simp only [execCompletionEntry, hc, hu, hn, Bool.not_true, Bool.false_eq_true, if_false]

/-! ### Power and boot (R366, R368, R374) -/

theorem exec_attReport {s : State} (hc : s.cur = .module) (hd : s.attDone = false) (hn : s.attCount ≠ 0) :
    let byte := Config.reportByte s.boot.firmware.bodyDigest s.bootSt s.topology s.attNonce s.deviceKey
    exec .attReport s = .next { s with attDone := true, attReport := (List.range reportSize).map byte } := by
  show execAttReport s = _
  simp only [execAttReport, hc, hd, hn, decide_false, Bool.or_self, Bool.false_eq_true, if_false]

theorem exec_bootReady {s : State} (hc : s.cur = .module) (hp : s.phase = 4) (hu : s.cxlUp = true) (hj : s.journalValid = true) :
    exec .bootReady s = .next { s with phase := 5 } := by
  show execBootReady s = _
  simp only [execBootReady, hc, hp, hu, hj, and_self, if_true]

/-- The state in which every die is fenced. -/
def State.allFenced (s : State) : State := (List.range 4).foldl (fun u d => u.fenceDie d) s

theorem exec_thermalShutdown {s : State} (hc : s.cur = .module) :
    exec .thermalShutdown s = .next { s.allFenced with mem := s.allFenced.mem.filter (fun c => !inT1 c.1)
                                                       poison := s.allFenced.poison.filter (fun g => !inT1 (64 * g)) } := by
  show execThermalShutdown s = _
  simp only [execThermalShutdown, hc]
  rfl

/-- What power-up leaves: the outcome of the boot over a module at reset, and of memory only what is not the module's. -/
theorem exec_powerOnReset {s : State} (hc : s.cur = .module) :
    ∃ t, exec .powerOnReset s = .next t ∧
      (t.phase = (s.boot.result s.romDigest s.minVersion).1 ∧ t.bootErr = (s.boot.result s.romDigest s.minVersion).2 ∧
        t.boot = s.boot ∧ t.romDigest = s.romDigest ∧ t.minVersion = s.minVersion ∧ t.identity = s.identity) ∧
      (t.attDone = false ∧ t.jrnlNext = 0 ∧ t.cxlUp = false ∧ t.regions = [] ∧ t.slots = [] ∧ t.kernels = [] ∧ t.cycle = 0) ∧
      t.mem = s.mem.filter (fun c => tierOf c.1 == some .t3) := by
  show ∃ t, execPowerOnReset s = _ ∧ _
  simp only [execPowerOnReset, hc]
  exact ⟨_, rfl, ⟨rfl, rfl, rfl, rfl, rfl, rfl⟩, ⟨rfl, rfl, rfl, rfl, rfl, rfl, rfl⟩, rfl⟩

/-! ### O60 -/

/-- Settles O60: each clause is the step of its event; after power-up the memory that is left passes the test for T3. -/
theorem hostLinkAndPowerAct : Obligations.HostLinkAndPowerAct := by
  unfold Obligations.HostLinkAndPowerAct
  refine ⟨?write, ?read, ?up, ?upFailed, ?upDead, ?loss, ?entry, ?report, ?power, ?ready, ?shutdown⟩
  case write => exact fun a bs s hc ⟨hs, hd⟩ => exec_cxlWrite hc hs hd
  case read => exact fun a n s hc ⟨hs, hd, hp⟩ => exec_cxlRead hc hs hd hp
  case up =>
    rintro s hc ⟨hp, he⟩
    rw [exec_cxlLinkUp hc, if_neg hp, if_pos he]
  case upFailed =>
    rintro s hc ⟨hp, he⟩
    rw [exec_cxlLinkUp hc, if_neg hp, if_neg he]
  case upDead => exact fun s hc hp => (exec_cxlLinkUp hc).trans (congrArg _ (if_pos hp))
  case loss => exact fun s hc _ => exec_cxlLinkLoss hc
  case entry => exact fun msg p rest s hc ⟨hu, hn⟩ => exec_completionEntry hc hu hn
  case report => exact fun s hc ⟨hd, hn⟩ => exec_attReport hc hd hn
  case power =>
    intro s hc
    obtain ⟨t, ht, ⟨hphase, herr, hboot, hrom, hver, hid⟩, ⟨hatt, hjrnl, hcxl, hregions, hslots, hkernels, hcycle⟩, hmem⟩ :=
      exec_powerOnReset hc
    refine ⟨t, ht, hphase, herr, hboot, hrom, hver, hid, hatt, hjrnl, hcxl, hregions, hslots, hkernels, hcycle, fun c hcm => ?_⟩
    rw [hmem, List.mem_filter, beq_iff_eq] at hcm
    exact hcm
  case ready => exact fun s hc ⟨hp, hu, hj⟩ => exec_bootReady hc hp hu hj
  case shutdown => exact fun s hc => ⟨_, exec_thermalShutdown hc, rfl, rfl⟩

end Sys2Proof.Machine
end

section
/-! SUPPORT. O46: reissues, purges, strikes, notices and uncorrectable errors (R77, R341 to R348, R350). -/

namespace Sys2Proof.Machine

/-! ### Reissues and purges (R76, R77) -/

/-- The first reissue in the list whose turn has come is made. -/
theorem exec_reissue {s t : State} {g : Nat} {x : Reissue} {rest : List Reissue} (hc : s.cur = .region g)
    (hr : (s.region g).reissues = x :: rest) (ht : s.tryReissue g x = some t) : exec .reissue s = .next t := by
  show execReissue s = _
  simp only [execReissue, hc, hr, List.findSome?_cons, ht]

theorem exec_purgeComplete {s : State} {g c : Nat} (hc : s.cur = .colour g c) (hst : (s.colour g c).st = .purging)
    (hs : s.sentBefore g (s.colour g c).purgedAt = false) : exec .purgeComplete s = .next (s.freeColour g c) := by
  show execPurgeComplete s = _
  simp only [execPurgeComplete, hc, hst, hs, beq_self_eq_true, Bool.not_false, Bool.and_self, if_true]

/-! ### Strikes and notices (R341 to R344) -/

/-- A strike that no list foretells is reported within the window. -/
theorem exec_strikeReport {s : State} {h t : Nat} (hc : s.cur = .strike h t)
    (hf : s.strikes.find? (fun x => x.h == h && x.s == t) = none) (hw : t ≤ s.cycle ∧ s.cycle ≤ t + Config.tstrike) :
    exec .strikeReport s = .next (s.reportStrike h t) := by
  show execStrikeReport s = _
  simp only [execStrikeReport, hc, hf]
  exact congrArg _ (if_pos hw)

/-- A region takes the one notice that has come to it. -/
theorem exec_purgeNotice {s : State} {g src c : Nat} {n : PurgeNotice} (hc : s.cur = .notice g src c)
    (hn : (s.region g).notices = [n]) (hsrc : n.source = src) (hcol : n.col = c) (hd : n.arrive ≤ s.cycle) :
    exec .purgeNotice s = .next ((s.modRegion g (fun r => { r with notices := [] })).takeNotice g n) := by
  have hfind : (s.region g).notices.find? (fun n => n.source == src && n.col == c && decide (n.arrive ≤ s.cycle)) = some n := by
    simp [hn, hsrc, hcol, hd]
  have hdrop : dropNotice src c s.cycle (s.region g).notices = [] := by simp [hn, dropNotice, hsrc, hcol, hd]
  show execPurgeNotice s = _
  simp only [execPurgeNotice, hc, hfind, State.modRegion_eq, hdrop]

/-! ### Uncorrectable errors (R346, R347) -/

theorem exec_uncorrectableError {s : State} {w : ErrorSite} (hc : s.cur = .module) :
    exec (.uncorrectableError w) s = .next (s.handleError w) := by
  show execUncorrectableError w s = _
  simp only [execUncorrectableError, hc]

/-- An error found at the module is handled as `handleError` says. -/
theorem does_of_handleError {w : ErrorSite} {ok : State → Prop} {act : State → State} (h : ∀ s, ok s → s.handleError w = act s) :
    Does (.uncorrectableError w) .module ok act :=
  fun s hc hok => (exec_uncorrectableError hc).trans (congrArg _ (h s hok))

section
variable {s : State}

theorem State.handleError_token {h k c g : Nat} (hg : (s.slot h k).region = some g) :
    s.handleError (.token h k c) = s.purgeCorrected g [c] := by
  simp only [State.handleError, hg]

theorem State.handleError_damper {h id : Nat} {e : DamperEntry} (he : s.damperEntry h id = some e) :
    s.handleError (.damper h id) = if e.order = 0 then s.purgeCorrected e.region [e.col] else s := by
  simp only [State.handleError, he, bne_iff_ne, ne_eq, ite_not]

theorem State.handleError_accumulator {h i g c : Nat} (ho : s.accOwner h = some (g, c)) :
    s.handleError (.accumulator h i) = s.purgeCorrected g [c] := by
  simp only [State.handleError, ho]

theorem State.handleError_accumulator_free {h i : Nat} (ho : s.accOwner h = none) : s.handleError (.accumulator h i) = s := by
  simp only [State.handleError, ho]

/-- A structure of a hearth is lost: its kernel faults and the region becomes Unbound. -/
theorem State.loseStructure_held {h k n code g e : Nat} (hg : (s.slot h k).region = some g) (he : (s.region g).kernel = some e) :
    s.loseStructure h k n code = (s.kernelFault e (nodeRecord s g h k n 0 0 faultUncorr code)).loseRegions [g] false := by
  simp only [State.loseStructure, hg, he]

theorem State.handleError_slots {a g c : Nat} (hs : s.slotsAt (a / 64) = some (g, c)) :
    s.handleError (.granule a) = s.purgeCorrected g [c] := by
  simp only [State.handleError, hs]

theorem State.handleError_table {a g : Nat} (hs : s.slotsAt (a / 64) = none) (ht : s.tableAt (a / 64) = some g) :
    s.handleError (.granule a) = s.rollback g := by
  simp only [State.handleError, hs, ht]

theorem State.handleError_data {a : Nat} (hs : s.slotsAt (a / 64) = none) (ht : s.tableAt (a / 64) = none) :
    s.handleError (.granule a) = s.poisonAt (a / 64) := by
  simp only [State.handleError, hs, ht]

theorem State.handleError_reply {h k id noise : Nat} {q : Request} (hq : s.request h k id = some q) :
    s.handleError (.reply h k id noise) = s.setRequest h k { q with noise := noise } := by
  simp only [State.handleError, hq]

end

/-- How often the access that an entry has come to has met an error, with this one. -/
def CurrentEntry.tries (c : CurrentEntry) : Nat := if c.retried.1 = (c.progress, c.off) then c.retried.2 + 1 else 1

/-- The entry with this error noted. -/
def CurrentEntry.noted (c : CurrentEntry) : CurrentEntry := { c with retried := ((c.progress, c.off), c.tries) }

/-- At most three errors: the access is retried in the next cycle. -/
theorem CurrentEntry.disturbed_retries {c : CurrentEntry} {now : Nat} (h : c.tries ≤ 3) :
    c.disturbed now = { c.noted with busyUntil := max c.busyUntil (now + 1) } := if_pos h

/-- More: the entry ends with POISON. -/
theorem CurrentEntry.disturbed_poisons {c : CurrentEntry} {now : Nat} (h : 3 < c.tries) :
    c.disturbed now = { c.noted with poison := true } := if_neg (Nat.not_le.mpr h)

theorem State.handleError_entry {s : State} {q : Nat} {c : CurrentEntry} (hq : (s.queue q).cur = some c) :
    s.handleError (.engine q) = s.modQueue q (fun u => { u with cur := some (c.disturbed s.cycle) }) := by
  simp only [State.handleError, State.modQueue_eq, Queue.disturbed, hq]

/-- An error between two entries delays the read of the next (log 127). -/
theorem State.handleError_noEntry {s : State} {q : Nat} (hq : (s.queue q).cur = none) :
    s.handleError (.engine q) = s.modQueue q (fun u => { u with errors := u.errors + 1, again := max u.again (s.cycle + 1) }) := by
  simp only [State.handleError, State.modQueue_eq, Queue.disturbed, hq]

/-! ### O46 -/

/-- Settles O46: the steps of the recovery, and `State.handleError` at each place of an error. -/
theorem recoveryGoesOn : Obligations.RecoveryGoesOn := by
  unfold Obligations.RecoveryGoesOn
  refine ⟨?reissue, ?purged, ?strike, ?notice, ?token, ?damper, ?ordered, ?accumulator, ?noOwner, ?plane, ?colour,
    ⟨?nodeStore, ?switchTable, ?bindings⟩, ?slots, ?table, ?data, ?reply, ?distributor, ?retries, ?poisons, ?noEntry⟩
  case reissue => exact fun g x rest t s hc ⟨hr, ht⟩ => exec_reissue hc hr ht
  case purged => exact fun g c s hc ⟨hst, hs⟩ => exec_purgeComplete hc hst hs
  case strike => exact fun h t s hc ⟨hf, hw⟩ => exec_strikeReport hc hf hw
  case notice =>
    rintro g _ _ n s hc ⟨hn, rfl, rfl, hd⟩
    exact exec_purgeNotice hc hn rfl rfl hd
  case token => exact fun h k c g => does_of_handleError fun s hg => State.handleError_token hg
  case damper => exact fun h id e => does_of_handleError fun s ⟨he, ho⟩ => (State.handleError_damper he).trans (if_pos ho)
  case ordered => exact fun h id e => does_of_handleError fun s ⟨he, ho⟩ => (State.handleError_damper he).trans (if_neg ho)
  case accumulator => exact fun h i g c => does_of_handleError fun s ho => State.handleError_accumulator ho
  case noOwner => exact fun h i => does_of_handleError fun s ho => State.handleError_accumulator_free ho
  case plane => exact fun h k => does_of_handleError fun s _ => rfl
  case colour => exact fun g c => does_of_handleError fun s _ => rfl
  case nodeStore => exact fun h k n g e => does_of_handleError fun s ⟨hg, he⟩ => State.loseStructure_held hg he
  case switchTable | bindings => exact fun h k g e => does_of_handleError fun s ⟨hg, he⟩ => State.loseStructure_held hg he
  case slots => exact fun a g c => does_of_handleError fun s hs => State.handleError_slots hs
  case table => exact fun a g => does_of_handleError fun s ⟨hs, ht⟩ => State.handleError_table hs ht
  case data => exact fun a => does_of_handleError fun s ⟨hs, ht⟩ => State.handleError_data hs ht
  case reply => exact fun h k id noise q => does_of_handleError fun s hq => State.handleError_reply hq
  case distributor => exact fun d => does_of_handleError fun s _ => rfl
  case retries =>
    exact fun q c => does_of_handleError fun s ⟨hq, hn⟩ => (State.handleError_entry hq).trans
      (congrArg (fun x => s.modQueue q (fun u => { u with cur := some x })) (CurrentEntry.disturbed_retries hn))
  case poisons =>
    exact fun q c => does_of_handleError fun s ⟨hq, hn⟩ => (State.handleError_entry hq).trans
      (congrArg (fun x => s.modQueue q (fun u => { u with cur := some x })) (CurrentEntry.disturbed_poisons hn))
  case noEntry => exact fun q => does_of_handleError fun s hq => State.handleError_noEntry hq

end Sys2Proof.Machine
end

section
/-! SUPPORT. O55: collectives, SEND and RECV (R357 to R360). -/

namespace Sys2Proof.Machine

/-! ### A turn of a collective (R357 to R359) -/

/-- The state after a member has taken an item of each neighbour. -/
def State.heardFrom (s : State) (q : Nat) (c : CurrentEntry) : State := c.neighbours.foldl (fun u r => u.takeFrom q r) s

/-- Every collective takes the turns of `collGo`. -/
theorem runs_of_collGo {ok : State → Nat → CurrentEntry → Prop} {act : State → Nat → CurrentEntry → State}
    (h : ∀ s q c, ok s q c → collGo s q c = act s q c) (b : CollBody) :
    Runs (fun e => .redsc e b) ok act ∧ Runs (fun e => .allga e b) ok act ∧ Runs (fun e => .allrd e b) ok act :=
  ⟨runs_of (fun _ _ => rfl) fun s q c _ => h s q c, runs_of (fun _ _ => rfl) fun s q c _ => h s q c,
    runs_of (fun _ _ => rfl) fun s q c _ => h s q c⟩

/-- Once its neighbours have started and agree, a member's turn is its work. -/
theorem collGo_works {s : State} {q : Nat} {c c' : CurrentEntry} (h : ((s.heardFrom q c).queue q).cur = some c' ∧
    c'.coll.mismatch = false ∧ c'.ready = true ∧ c'.coll.began = true) :
    collGo s q c = ((s.heardFrom q c).workEntry q).collWork q c' := by
  obtain ⟨hcur, hm, hr, hb⟩ := h
  simp only [State.heardFrom] at hcur
  simp only [collGo, hcur, hm, hr, hb, Bool.not_true, Bool.false_eq_true, if_false]
  rfl

section
variable {s v : State} {q i : Nat} {c : CurrentEntry} {got : List Part} {xs : List Nat} {p : Bool}

/-- A final chunk that the member holds is written first. -/
theorem State.collWork_writes {rest : List (Nat × List Nat × Bool)} (hres : c.coll.results = (i, xs, p) :: rest)
    (hw : s.putElems (s.queue q).ctx c.piece (c.chunk i).1 xs p = .ok v) :
    s.collWork q c = ((v.modColl q (fun y => { y with results := y.results.tail, complete := addOnce y.complete i })).modEntry q
      (fun x => { x with poison := x.poison || p })).countGranules q (cdiv (xs.length * elemWidth (tdFmt c.piece)) 512) := by
  simp only [State.collWork, hres, State.writeChunk, hw, State.meet_ok]

/-- ALLGA's member sends its own chunk on. -/
theorem State.collWork_gathers (hres : c.coll.results = []) (hg : c.gathering = .allGather)
    (hp : c.coll.passed.contains c.rank = false) (hr : s.ownChunk (s.queue q).ctx c c.rank = .ok (v, xs, p)) :
    s.collWork q c =
      let w := (v.contribute q c.rank (2 ^ c.rank)).modColl q (fun y =>
        { y with passed := addOnce y.passed c.rank, complete := addOnce y.complete c.rank })
      let item : FlueItem := .piece c.collBody.ctag c.rank c.rank true xs p (2 ^ c.rank)
      if c.ring then w.sendTo c ((c.rank + 1) % c.nm) item else w.sendAround c none item := by
  simp only [State.collWork, hres, hg, hp, decide_true, Bool.not_false, Bool.and_self, if_true, State.gatherOwn, hr, State.meet_ok]

/-- A member of the others passes on the next chunk whose turn has come. -/
theorem State.collWork_passes (hres : c.coll.results = []) (hg : c.gathering ≠ .allGather) (hn : c.nextChunk = some (i, got)) :
    s.collWork q c = s.passChunk q c i got := by
  simp only [State.collWork, hres, hg, hn, decide_false, Bool.false_and, Bool.false_eq_true, if_false]

/-- Partials of the own chunk with what has come folded in: in a ring the partial that came is first, in a tree the own. -/
def CurrentEntry.folded (c : CurrentEntry) (got : List Part) (xs : List Nat) : List Nat :=
  match c.ring, got with
  | true, g :: _ => List.zipWith (foldElem c.collBody.op.toNat (tdFmt c.piece)) g.elems (xs.map (asPartial (tdFmt c.piece)))
  | _, _ => got.foldl (fun p g => List.zipWith (foldElem c.collBody.op.toNat (tdFmt c.piece)) p g.elems) (xs.map (asPartial (tdFmt c.piece)))

theorem CurrentEntry.folded_eq (c : CurrentEntry) (got : List Part) (xs : List Nat) :
    c.folded got xs = match c.ring, got with
      | true, g :: _ => List.zipWith (foldElem c.collBody.op.toNat (tdFmt c.piece)) g.elems (xs.map (asPartial (tdFmt c.piece)))
      | _, _ => reduceWith c.collBody.op.toNat (tdFmt c.piece) xs (got.map (fun g => g.elems)) := by
  unfold CurrentEntry.folded reduceWith
  rw [List.foldl_map]

/-- The contributions of a chunk are noted, and that this member has passed it. -/
def State.passedOn (v : State) (q i : Nat) (c : CurrentEntry) (got : List Part) : State :=
  (v.contribute q i (c.entered got)).modColl q (fun y => { y with passed := addOnce y.passed i })

/-- What becomes of a chunk once the own one is folded in. -/
theorem State.passChunk_read (hr : s.ownChunk (s.queue q).ctx c i = .ok (v, xs, p)) :
    s.passChunk q c i got =
      if (if c.ring then c.rank = i else c.rank = 0) then
        (v.passedOn q i c got).finishChunk q c i (c.folded got xs) (p || got.any (fun g => g.tnt))
      else (v.passedOn q i c got).sendTo c (if c.ring then (c.rank + 1) % c.nm else (c.rank - 1) / 2)
        (.piece c.collBody.ctag c.rank i false (c.folded got xs) (p || got.any (fun g => g.tnt)) (c.entered got)) := by
  rw [State.passChunk, hr, CurrentEntry.folded_eq]
  rfl

theorem State.passChunk_partial (hr : s.ownChunk (s.queue q).ctx c i = .ok (v, xs, p))
    (hno : if c.ring then c.rank ≠ i else c.rank ≠ 0) :
    s.passChunk q c i got = (v.passedOn q i c got).sendTo c (if c.ring then (c.rank + 1) % c.nm else (c.rank - 1) / 2)
      (.piece c.collBody.ctag c.rank i false (c.folded got xs) (p || got.any (fun g => g.tnt)) (c.entered got)) := by
  have hlast : ¬ (if c.ring then c.rank = i else c.rank = 0) := by
    split
    · rwa [if_pos ‹_›] at hno
    · rwa [if_neg ‹_›] at hno
  exact (State.passChunk_read hr).trans (if_neg hlast)

/-- Every rank's contribution is in a complete chunk of a reduction. -/
theorem CurrentEntry.fullMap_of_reduces (hg : c.gathering ≠ .allGather) : c.fullMap i = 2 ^ c.nm - 1 := if_neg hg

/-- A ring's reduction ends at the chunk's own rank, and in ALLRD the final value goes round. -/
theorem State.passChunk_ring (hr : s.ownChunk (s.queue q).ctx c i = .ok (v, xs, p)) (hg : c.gathering ≠ .allGather)
    (hring : c.ring = true) (hi : c.rank = i) :
    s.passChunk q c i got =
      let out := (c.folded got xs).map (asFinal (tdFmt c.piece))
      let w := (v.passedOn q i c got).modColl q (fun x => { x with results := x.results ++ [(i, out, p || got.any (fun g => g.tnt))] })
      if c.gathering = .allReduce then
        w.sendTo c ((c.rank + 1) % c.nm) (.piece c.collBody.ctag c.rank i true out (p || got.any (fun g => g.tnt)) (2 ^ c.nm - 1))
      else w := by
  rw [State.passChunk_read hr, if_pos (by rwa [if_pos hring])]
  simp only [State.finishChunk, hring, if_true, CurrentEntry.fullMap_of_reduces hg]

/-- A tree's reduction ends at its root, which takes the final value as one that has come. -/
theorem State.passChunk_tree (hr : s.ownChunk (s.queue q).ctx c i = .ok (v, xs, p)) (hg : c.gathering ≠ .allGather)
    (hring : c.ring = false) (hi : c.rank = 0) :
    s.passChunk q c i got = (v.passedOn q i c got).takeFinal q c 0 i ((c.folded got xs).map (asFinal (tdFmt c.piece)))
      (p || got.any (fun g => g.tnt)) (2 ^ c.nm - 1) := by
  rw [State.passChunk_read hr, if_pos (by rwa [hring, if_neg Bool.false_ne_true])]
  simp only [State.finishChunk, hring, Bool.false_eq_true, if_false, CurrentEntry.fullMap_of_reduces hg, hi]

/-- Nothing is left for a member to write or to pass on. -/
def CurrentEntry.quiet (c : CurrentEntry) : Prop := c.coll.results = [] ∧
  ((c.gathering = .allGather ∧ c.coll.passed.contains c.rank = true) ∨ (c.gathering ≠ .allGather ∧ c.nextChunk = none))

/-- Then its turn is about the end of the collective (R359). -/
theorem State.collWork_quiet (h : c.quiet) :
    s.collWork q c =
      if c.coll.isOver = false then (if c.exhausted then s.announceEnd q c else s.waitEntry q)
      else if c.allEnded then
        (((s.leaveColl c).workEntry q).modEntry q (fun x => { x with r0 := c.finalMap })).finishEntry q
          (if c.finalMap = 0 then c.moved else 0x0B)
      else s.waitEntry q := by
  obtain ⟨hres, ⟨hg, hp⟩ | ⟨hg, hn⟩⟩ := h
  · simp only [State.collWork, hres, hg, hp, decide_true, Bool.not_true, Bool.and_false, Bool.false_eq_true, if_false, if_true,
      Bool.not_eq_true', doneStatus_eq_moved]
    rfl
  · simp only [State.collWork, hres, hg, hn, decide_false, Bool.false_and, Bool.false_eq_true, if_false, Bool.not_eq_true',
      doneStatus_eq_moved]
    rfl

end

/-! ### SEND and RECV (R360) -/

section
variable {b : PeerBody} {s t u : State} {q : Nat} {c : CurrentEntry}

/-- A SEND takes the oldest RECV that matches. -/
theorem sendGo_matches {x : Posted} {rest : List Posted} (hid : c.coll.id = none) (hm : s.matchPosted q c = some (x, rest)) :
    sendGo b s q c =
      if x.len ≠ b.len.toNat then
        ((({ s with posted := rest } : State).workEntry q).flueSend b.link.toNat [.sent x.id b.len.toNat [] false]).finishEntry q 0x03
      else (({ s with posted := rest } : State).workEntry q).modColl q (fun y => { y with id := some x.id }) := by
  simp only [sendGo, hid, hm]
  rfl

/-- A matched SEND gives its next bytes to the link. -/
theorem sendGo_granule {n : Nat} {bs : List Byte} {p : Bool} (hid : c.coll.id = some n) (hlt : c.progress < b.len.toNat)
    (hl : c.coll.lost.contains 0 = false)
    (hr : s.engineRead (s.queue q).ctx (b.buf.toNat + c.progress) (chunkAt b.buf.toNat c.progress b.len.toNat) = .ok (t, bs, p)) :
    sendGo b s q c = (t.flueSend b.link.toNat [.sent n b.len.toNat bs p]).movedOn q (chunkAt b.buf.toNat c.progress b.len.toNat) p := by
  simp only [sendGo, hid, hl, Bool.false_and, Bool.false_eq_true, if_false, State.sendMatched, hlt, if_true, hr, State.meet_ok,
    State.wroteGranule_eq_movedOn]

/-- It ends when its bytes have performed. -/
theorem sendGo_performed {n k l : Nat} {rest : List FlueItem} (hid : c.coll.id = some n) (hge : b.len.toNat ≤ c.progress)
    (hi : s.nextItem c = some (l, .performed k, rest)) :
    sendGo b s q c = ((s.leaveItems l rest).workEntry q).finishEntry q c.moved := by
  simp only [sendGo, hid, Nat.not_lt.mpr hge, decide_false, Bool.and_false, Bool.false_eq_true, if_false, State.sendMatched, hi,
    doneStatus_eq_moved]

/-- A RECV keeps what has come until it is written. -/
theorem recvGo_takes {k n l : Nat} {bs : List Byte} {p : Bool} {rest : List FlueItem} (hb : c.buffer = []) (hlt : c.progress < b.len.toNat)
    (hi : s.nextItem c = some (l, .sent k n bs p, rest)) (hn : n = b.len.toNat) :
    recvGo b s q c = ((s.leaveItems l rest).workEntry q).modEntry q (fun x =>
      { x with buffer := (bs.take (n - x.progress)).map (fun y => (y, p)) }) := by
  simp only [recvGo, hb, List.isEmpty_nil, Bool.not_true, Bool.false_eq_true, if_false, Nat.not_le.mpr hlt, hi, hn, ne_eq,
    not_true_eq_false]

theorem recvGo_writes (hb : c.buffer ≠ [])
    (hw : s.writeTagged (s.queue q).ctx (b.buf.toNat + c.progress)
      (c.buffer.take (min (64 - (b.buf.toNat + c.progress) % 64) c.buffer.length)) = .ok u) :
    recvGo b s q c =
      let k := min (64 - (b.buf.toNat + c.progress) % 64) c.buffer.length
      ((u.modEntry q (fun c => { c with buffer := c.buffer.drop k })).movedOn q k ((c.buffer.take k).any (fun x => x.2))).risePointer q
        b.wpc k := by
  simp only [recvGo, List.isEmpty_eq_false_iff.mpr hb, Bool.not_false, if_true, State.recvWrite, hw, State.meet_ok,
    State.wroteGranule_eq_movedOn]

theorem recvGo_over {n : Nat} (hb : c.buffer = []) (hge : b.len.toNat ≤ c.progress) (hid : c.coll.id = some n) :
    recvGo b s q c = (s.flueSend b.link.toNat [.performed n]).finishEntry q c.moved := by
  simp only [recvGo, hb, List.isEmpty_nil, Bool.not_true, Bool.false_eq_true, if_false, hge, if_true, hid, doneStatus_eq_moved]

end

/-! ### A member is lost (R359) -/

theorem exec_collectiveMemberLost {s : State} {q r : Nat} {c : CurrentEntry} (hc : s.cur = .member q r) (hq : (s.queue q).cur = some c)
    (hb : c.begun = true) (hl : c.coll.lost.contains r = false) (hg : s.memberGone c r = true) :
    exec .collectiveMemberLost s = .next (
      let u := s.modColl q (fun x => { x with lost := addOnce x.lost r })
      if isCollective c then u.sendAround c (some r) (.lost c.collBody.ctag r) else u) := by
  show execCollectiveMemberLost s = _
  simp only [execCollectiveMemberLost, hc, hq, hb, hl, hg, Bool.not_true, Bool.or_self, Bool.false_eq_true, if_false]

/-! ### O55 -/

/-- Settles O55: the collectives share their turns (`collGo_works`), and each clause is one case of a member's work. -/
theorem collectivesGoOn : Obligations.CollectivesGoOn := by
  unfold Obligations.CollectivesGoOn
  refine ⟨?writes, ?gathers, ?passes, ?ring, ?tree, ?announces, ?waits, ?ends, ⟨?send, ?sendBad⟩, ?sendGranule, ?sendEnds, ?recvTakes,
    ?recvWrites, ?recvEnds, ?lost⟩
  case writes =>
    exact fun c' i xs p rest v => runs_of_collGo fun s q c ⟨hworks, hres, hw⟩ =>
      (collGo_works hworks).trans (State.collWork_writes hres hw)
  case gathers =>
    exact fun c' v xs p => runs_of_collGo fun s q c ⟨hworks, hres, hg, hp, hr⟩ =>
      (collGo_works hworks).trans (State.collWork_gathers hres hg hp hr)
  case passes =>
    exact fun c' i got v xs p => runs_of_collGo fun s q c ⟨hworks, ⟨hres, hg, hn⟩, hr, hno⟩ =>
      (collGo_works hworks).trans ((State.collWork_passes hres hg hn).trans (State.passChunk_partial hr hno))
  case ring =>
    exact fun c' i got v xs p => runs_of_collGo fun s q c ⟨hworks, ⟨hres, hg, hn⟩, hr, hring, hi⟩ =>
      (collGo_works hworks).trans ((State.collWork_passes hres hg hn).trans (State.passChunk_ring hr hg hring hi))
  case tree =>
    exact fun c' i got v xs p => runs_of_collGo fun s q c ⟨hworks, ⟨hres, hg, hn⟩, hr, hring, hi⟩ =>
      (collGo_works hworks).trans ((State.collWork_passes hres hg hn).trans (State.passChunk_tree hr hg hring hi))
  case announces =>
    exact fun c' => runs_of_collGo fun s q c ⟨⟨hworks, hquiet⟩, ho, he⟩ =>
      (collGo_works hworks).trans ((State.collWork_quiet hquiet).trans ((if_pos ho).trans (if_pos he)))
  case waits =>
    refine fun c' => runs_of_collGo fun s q c ⟨⟨hworks, hquiet⟩, hwait⟩ =>
      (collGo_works hworks).trans ((State.collWork_quiet hquiet).trans ?_)
    rcases hwait with ⟨ho, he⟩ | ⟨ho, he⟩
    · exact (if_pos ho).trans (if_neg (Bool.eq_false_iff.mp he))
    · exact (if_neg (by rw [ho]; decide)).trans (if_neg (Bool.eq_false_iff.mp he))
  case ends =>
    exact fun c' => runs_of_collGo fun s q c ⟨⟨hworks, hquiet⟩, ho, he⟩ =>
      (collGo_works hworks).trans ((State.collWork_quiet hquiet).trans ((if_neg (by rw [ho]; decide)).trans (if_pos he)))
  case send =>
    exact fun b p rest => runs_of (fun _ _ => rfl) fun s q c _ ⟨hid, hm, hlen⟩ =>
      (sendGo_matches hid hm).trans (if_neg (not_not_intro hlen))
  case sendBad =>
    exact fun b p rest => runs_of (fun _ _ => rfl) fun s q c _ ⟨hid, hm, hlen⟩ => (sendGo_matches hid hm).trans (if_pos hlen)
  case sendGranule =>
    exact fun b n t bs p => runs_of (fun _ _ => rfl) fun s q c _ ⟨hid, hlt, hl, hr⟩ => sendGo_granule hid hlt hl hr
  case sendEnds =>
    exact fun b n k l rest => runs_of (fun _ _ => rfl) fun s q c _ ⟨hid, hge, hi⟩ => sendGo_performed hid hge hi
  case recvTakes =>
    exact fun b k n l bs p rest => runs_of (fun _ _ => rfl) fun s q c _ ⟨hb, hlt, hi, hn⟩ => recvGo_takes hb hlt hi hn
  case recvWrites => exact fun b u => runs_of (fun _ _ => rfl) fun s q c _ ⟨hb, hw⟩ => recvGo_writes hb hw
  case recvEnds => exact fun b n => runs_of (fun _ _ => rfl) fun s q c _ ⟨hb, hge, hid⟩ => recvGo_over hb hge hid
  case lost => exact fun q r c s hc ⟨hq, hb, hl, hg⟩ => exec_collectiveMemberLost hc hq hb hl hg

end Sys2Proof.Machine
end

section
/-! SUPPORT. O57: flue links (R352 to R355, Table 20-1). -/

namespace Sys2Proof.Machine

/-! ### Host writes of FLUE_CTL (R352) -/

theorem exec_flueEnable {s : State} {l : Nat} {on : Bool} (hc : s.cur = .link l) :
    exec (.flueEnable on) s = .next (
      let u := s.setLink l { s.link l with enable := on, fence := false }
      if on = true ∧ (s.link l).st = .disabled then u.moveLink l .down
      else if on = false ∧ (s.link l).st = .fenced then u.moveLink l .disabled
      else u) := by
  show execFlueEnable on s = _
  simp only [execFlueEnable, hc, Bool.and_eq_true, Bool.not_eq_true', beq_iff_eq]

theorem exec_flueFence {s : State} {l : Nat} (hc : s.cur = .link l) :
    exec .flueFence s = .next (
      let u := s.setLink l { s.link l with fence := true }
      if (s.link l).st = .disabled then (if (s.link l).enable = true then u.moveLink l .down else u)
      else if (s.link l).st = .fenced then u
      else u.fenceLink l) := by
  show execFlueFence s = _
  simp only [execFlueFence, hc, beq_iff_eq]

/-! ### Training (Table 20-1) -/

/-- A link goes on to the next state of its training, and the time of the step is noted. -/
theorem linkStep_from {s : State} {l : Nat} {a b : LinkState} (hc : s.cur = .link l) (hst : (s.link l).st = a) :
    linkStep a b s = .next ((s.modLink l (fun x => { x with since := s.cycle })).moveLink l b) := by
  simp only [linkStep, hc, hst, beq_self_eq_true, if_true]

theorem exec_equalisationConverge {s : State} {l : Nat} (hc : s.cur = .link l) (hst : (s.link l).st = .train) :
    exec .equalisationConverge s =
      .next (((s.modLink l (fun x => { x with since := s.cycle })).chooseNonce l).moveLink l .config) := by
  show execEqualisationConverge s = _
  simp only [execEqualisationConverge, hc, hst, beq_self_eq_true, if_true]

theorem exec_detectTimeout {s : State} {l : Nat} (hc : s.cur = .link l) (hst : (s.link l).st = .detect)
    (ht : (s.link l).since + Config.lockLimit ≤ s.cycle) : exec .detectTimeout s = .next (s.moveLink l .down) := by
  show execDetectTimeout s = _
  simp only [execDetectTimeout, hc, hst, ht, beq_self_eq_true, decide_true, Bool.and_self, if_true]

/-- What makes a partner's offer trusted (R355). -/
theorem State.trusts_iff {s : State} {l : Nat} {o : ConfigOffer} : s.trusts l o = true ↔
    (∃ k, o.key = some k ∧ s.boot.firmware.moduleKeys.contains k = true) ∧
      o.side.nonce = (s.link l).nonce ∧ o.side.format = s.identity.format := by
  simp only [State.trusts, Bool.and_eq_true, Option.any_eq_true, beq_iff_eq, and_assoc]

/-- A trusted partner: the link is Active, and begins its numbers and its queues anew (R353). -/
theorem exec_configExchange_trusted {s : State} {l : Nat} {o : ConfigOffer} (hc : s.cur = .link l) (hst : (s.link l).st = .config)
    (ht : s.trusts l o = true) :
    exec (.configExchange o.side o.key o.asks) s = .next ((s.setLink l
      { s.link l with peer := o.side.moduleId.toNat, offered := some (s.signs o), seqOut := 0, seqIn := 4095, replay := [], retries := []
                      attempts := 0, asked := [], pending := [], inbox := [], skips := [], outbox := [] }).moveLink l .active) := by
  show execConfigExchange o.side o.key o.asks s = _
  simp only [execConfigExchange, hc, hst, ht, bne_self_eq_false, Bool.false_eq_true, if_false, if_true]

/-- Any other partner: the link is fenced. -/
theorem exec_configExchange_untrusted {s : State} {l : Nat} {o : ConfigOffer} (hc : s.cur = .link l) (hst : (s.link l).st = .config)
    (ht : ¬ s.trusts l o = true) :
    exec (.configExchange o.side o.key o.asks) s = .next ((s.setLink l { s.link l with offered := some (s.signs o) }).fenceLink l) := by
  show execConfigExchange o.side o.key o.asks s = _
  simp only [execConfigExchange, hc, hst, ht, bne_self_eq_false, Bool.false_eq_true, if_false]

/-! ### Flits (R353, R354) -/

section
variable {s : State} {l : Nat} {f : Flit}

/-- A flit that fails its check is asked for again. -/
theorem exec_flitReceive_bad (hc : s.cur = .link l) (hst : (s.link l).st = .active) (hg : flitGood f = false) :
    exec (.flitReceive f) s = .next (s.setLink l { s.link l with asked := (s.link l).asked ++ [f.seq.toNat]
                                                                 outbox := (s.link l).outbox ++ [(s.link l).retryFlit f.seq.toNat] }) := by
  show execFlitReceive f s = _
  simp only [execFlitReceive, hc, hst, hg, bne_self_eq_false, Bool.not_false, Bool.false_eq_true, if_false, if_true]

/-- A good flit acknowledges what its ACK names, and its TYPE and SEQ say what comes of it. -/
theorem exec_flitReceive_good (hc : s.cur = .link l) (hst : (s.link l).st = .active) (hg : flitGood f = true) :
    exec (.flitReceive f) s = .next (
      let x := (s.link l).acked f.ack.toNat
      if f.typ = 0 ∧ f.seq.toNat = (x.seqIn + 1) % 4096 then
        f.payload.foldl (fun s i => s.receiveItem l i) (s.setLink l { x with seqIn := f.seq.toNat })
      else if f.typ = 2 then (s.setLink l x).push [.event (.retryRequest f.seq.toNat) (.link l)]
      else s.setLink l x) := by
  show execFlitReceive f s = _
  simp only [execFlitReceive, hc, hst, hg, bne_self_eq_false, Bool.not_true, Bool.false_eq_true, if_false, Bool.and_eq_true,
    decide_eq_true_eq, beq_iff_eq]

/-- The next data flit in the order of SEQ is delivered. -/
theorem exec_flitReceive_ahead (hc : s.cur = .link l) (hst : (s.link l).st = .active) (hg : flitGood f = true) (ht : f.typ = 0)
    (hs : f.seq.toNat = (((s.link l).acked f.ack.toNat).seqIn + 1) % 4096) :
    exec (.flitReceive f) s = .next (f.payload.foldl (fun s i => s.receiveItem l i)
      (s.setLink l { (s.link l).acked f.ack.toNat with seqIn := f.seq.toNat })) :=
  (exec_flitReceive_good hc hst hg).trans (congrArg _ (if_pos ⟨ht, hs⟩))

/-- An item that opens no collective and is not the post of a RECV is kept where an entry takes it. -/
theorem State.receiveItem_wanted {i : FlueItem} (hp : ∀ t n id, i ≠ .posted t n id) (ho : itemOpening i = none) (hw : s.wanted l i = true) :
    s.receiveItem l i = s.setLink l { s.link l with inbox := (s.link l).inbox ++ [i] } := by
  cases i
  case posted t n id => exact absurd rfl (hp t n id)
  all_goals simp only [State.receiveItem, ho, hw, if_true]

/-- The link with one more request for a SEQ. -/
theorem exec_retryRequest {n : Nat} (hc : s.cur = .link l) (hst : (s.link l).st = .active) :
    exec (.retryRequest n) s = .next (
      let x := (s.link l).request n
      if 8 ≤ Tab.get 0 x.retries n then ((s.setLink l { x with attempts := 0 }).chooseNonce l).moveLink l .recovery
      else s.setLink l { x with outbox := x.outbox ++ x.from n }) := by
  show execRetryRequest n s = _
  simp only [execRetryRequest, hc, hst, bne_self_eq_false, Bool.false_eq_true, if_false]

/-- Retraining with a trusted partner brings the link back with a replay. -/
theorem exec_recoveryRetrain_trusted {o : ConfigOffer} (hc : s.cur = .link l) (hst : (s.link l).st = .recovery)
    (ht : s.trusts l o = true) :
    exec (.recoveryRetrain (some o)) s = .next (((s.setLink l { (s.link l).recovered with offered := some (s.signs o) }).moveLink l
      .active).modLink l Link.flush) := by
  show execRecoveryRetrain (some o) s = _
  simp only [execRecoveryRetrain, hc, hst, Option.filter_some, ht, bne_self_eq_false, Bool.false_eq_true, if_false, if_true]

/-- Retraining that fails is tried again, and fences the link the third time. -/
theorem exec_recoveryRetrain_failed {o : Option ConfigOffer} (hc : s.cur = .link l) (hst : (s.link l).st = .recovery)
    (ht : ∀ x, o = some x → ¬ s.trusts l x = true) :
    exec (.recoveryRetrain o) s = .next (
      if 2 ≤ (s.link l).attempts then s.fenceLink l
      else (s.setLink l { s.link l with attempts := (s.link l).attempts + 1 }).chooseNonce l) := by
  have hnone : o.filter (s.trusts l) = none := Option.filter_eq_none_iff.mpr ht
  show execRecoveryRetrain o s = _
  simp only [execRecoveryRetrain, hc, hst, hnone, bne_self_eq_false, Bool.false_eq_true, if_false]

end

/-! ### O57 -/

/-- Settles O57: each clause is one case of its event's step. -/
theorem linksGoOn : Obligations.LinksGoOn := by
  unfold Obligations.LinksGoOn
  refine ⟨?enable, ?enableLate, ?disable, ?disableLate, ?fence, ?fenceDown, ?fenceKept, ?idleExit, ?lock, ?converge, ?timeout,
    ?trusted, ?untrusted, ?bad, ⟨?empty, ?posted, ?item⟩, ?retry, ?outOfOrder, ?again, ?eighth, ?recovered, ?retried, ?failed⟩
  case enable =>
    exact fun l s hc hst => (exec_flueEnable hc).trans (congrArg _ (if_pos ⟨rfl, hst⟩))
  case enableLate =>
    exact fun l s hc hst => (exec_flueEnable hc).trans (congrArg _ ((if_neg fun h => hst h.2).trans (if_neg fun h => nomatch h.1)))
  case disable =>
    exact fun l s hc hst => (exec_flueEnable hc).trans (congrArg _ ((if_neg fun h => nomatch h.1).trans (if_pos ⟨rfl, hst⟩)))
  case disableLate =>
    exact fun l s hc hst => (exec_flueEnable hc).trans (congrArg _ ((if_neg fun h => nomatch h.1).trans (if_neg fun h => hst h.2)))
  case fence => exact fun l s hc ⟨hd, hf⟩ => (exec_flueFence hc).trans (congrArg _ ((if_neg hd).trans (if_neg hf)))
  case fenceDown =>
    rintro l s hc ⟨hd, he⟩
    refine (exec_flueFence hc).trans (congrArg _ ((if_pos hd).trans ((if_pos he).trans ?_)))
    exact congrArg (fun b => (s.setLink l { s.link l with enable := b, fence := true }).moveLink l .down) he
  case fenceKept =>
    rintro l s hc (⟨hd, he⟩ | hf)
    · exact (exec_flueFence hc).trans (congrArg _ ((if_pos hd).trans (if_neg (Bool.eq_false_iff.mp he))))
    · have hd : (s.link l).st ≠ .disabled := by rw [hf]; decide
      exact (exec_flueFence hc).trans (congrArg _ ((if_neg hd).trans (if_pos hf)))
  case idleExit | lock => exact fun l s hc hst => linkStep_from hc hst
  case converge => exact fun l s hc hst => exec_equalisationConverge hc hst
  case timeout => exact fun l s hc ⟨hst, ht⟩ => exec_detectTimeout hc hst ht
  case trusted => exact fun l o s hc ⟨hst, ht⟩ => exec_configExchange_trusted hc hst (State.trusts_iff.mpr ht)
  case untrusted => exact fun l o s hc ⟨hst, ht⟩ => exec_configExchange_untrusted hc hst (mt State.trusts_iff.mp ht)
  case bad => exact fun l f s hc ⟨hst, hg⟩ => exec_flitReceive_bad hc hst hg
  case empty =>
    rintro l f s hc ⟨⟨hst, hg, ht, hs⟩, hp⟩
    rw [exec_flitReceive_ahead hc hst hg ht hs, hp]
    rfl
  case posted =>
    rintro l f t n id s hc ⟨⟨hst, hg, ht, hs⟩, hp⟩
    rw [exec_flitReceive_ahead hc hst hg ht hs, hp]
    rfl
  case item =>
    rintro l f i hno hopen s hc ⟨⟨hst, hg, ht, hs⟩, hp, hx, hw⟩
    rw [exec_flitReceive_ahead hc hst hg ht hs, hp]
    refine congrArg _ ((State.receiveItem_wanted hno hopen hw).trans ?_)
    rw [hx]
  case retry =>
    rintro l f s hc ⟨hst, hg, ht⟩
    have hdata : f.typ ≠ 0 := by rw [ht]; decide
    exact (exec_flitReceive_good hc hst hg).trans (congrArg _ ((if_neg fun h => hdata h.1).trans (if_pos ht)))
  case outOfOrder =>
    rintro l f s hc ⟨hst, hg, ht, hs⟩
    have hretry : f.typ ≠ 2 := by rw [ht]; decide
    exact (exec_flitReceive_good hc hst hg).trans (congrArg _ ((if_neg fun h => hs h.2).trans (if_neg hretry)))
  case again =>
    exact fun l n s hc ⟨hst, hn⟩ => (exec_retryRequest hc hst).trans (congrArg _ (if_neg (Nat.not_le.mpr hn)))
  case eighth => exact fun l n s hc ⟨hst, hn⟩ => (exec_retryRequest hc hst).trans (congrArg _ (if_pos hn))
  case recovered => exact fun l o s hc ⟨hst, ht⟩ => exec_recoveryRetrain_trusted hc hst (State.trusts_iff.mpr ht)
  case retried =>
    exact fun l o s hc ⟨hst, ht, hn⟩ => (exec_recoveryRetrain_failed hc hst fun x hx => mt State.trusts_iff.mp (ht x hx)).trans
      (congrArg _ (if_neg (Nat.not_le.mpr hn)))
  case failed =>
    exact fun l o s hc ⟨hst, ht, hn⟩ => (exec_recoveryRetrain_failed hc hst fun x hx => mt State.trusts_iff.mp (ht x hx)).trans
      (congrArg _ (if_pos hn))

end Sys2Proof.Machine
end
